-- ==== Sys2Proof/Word.lean ====
section
/-!
DEFINITION. The words of the device and the plain records its commands carry as operands.
Everything the spec treats as bits is a BitVec; counts, indices and times are Nat; what is signed is Int.
-/

namespace Sys2Proof

/-- One byte. -/
abbrev Byte := BitVec 8

/-- A sparse table by key: strictly rising keys, no entry equal to the table's default (Machine/Tab.lean). -/
abbrev Tab (α : Type) := List (Nat × α)

/-- What the error-correcting code finds in a word or block that is read (R18, R20). -/
inductive Ecc where
  | clean
  | corrected
  | uncorrectable
deriving DecidableEq, Repr

/-- What the code finds during an event: device addresses, each with what is found in its unit. An address not listed reads
clean, or poisoned where its unit is known to be (R27). -/
abbrev Found := List (Nat × Ecc)

/-- The endpoint a request comes from (R259, R282). -/
inductive Via where
  | supervisor
  | pcie (port func : Nat)
  | can (port node : Nat)
  | eth (port : Nat) (ip : BitVec 32) (udp : BitVec 16)
  | burin (part : Nat)
deriving DecidableEq, Repr

/-- The IEEE 802.1Q tag of a frame: VID in [11:0], PCP in [14:12] (Table 11-6); none for an untagged frame (R268). -/
abbrev VlanTag := Option (BitVec 15)

/-- A gPTP message as the MAC stamps it, times in ns (R269): a Sync whose precise origin came with it or with its Follow_Up,
and whether the port's clock holds to it; a Pdelay_Req of a peer; a Pdelay_Resp with its Follow_Up, which bring the two times
of the peer between those of the request and of the response. -/
inductive GptpMsg where
  | sync (origin : Int) (followUp : Option Int) (arrival : Int) (synced : Bool)
  | pdelayReq (source : BitVec 80) (seq : BitVec 16) (arrival : Int)
  | pdelayResp (seq : BitVec 16) (t1 t2 t3 t4 : Int)
deriving DecidableEq, Repr

/-- One flit as it arrives: header (Table 1-3), payload, trailer (Table 1-4). -/
structure Flit where
  header : BitVec 64
  payload : List Byte
  trailer : BitVec 64
deriving DecidableEq, Repr

/-- How a frame comes in: its Ethernet port and its VLAN tag (R268). -/
structure EthIn where
  port : Nat
  tag : VlanTag
deriving DecidableEq, Repr

/-- What an Announce message names: its gPTP domain and the grandmaster's priority vector (R269). -/
structure Announce where
  domain : Nat
  grandmaster : BitVec 128
deriving DecidableEq, Repr

/-- A flit put on a link, and what arrives in its place where the lanes did not carry it unharmed (R10). -/
structure Crossing where
  sent : Flit
  damaged : Option Flit
deriving DecidableEq, Repr

/-- A place in a context's list, and which of that operation's fetches is meant (R164). -/
structure FetchOf where
  idx : Nat
  item : Nat
deriving DecidableEq, Repr

/-- What an extension port returns with ABORT_ACK: its number and the result beats it wrote before (R129). -/
structure AbortAck where
  port : Nat
  beats : List Byte
deriving DecidableEq, Repr

/-- A commit: its signature, and where the supply fails in it, whether the marker had moved (R284, R285). -/
structure CommitOf where
  sig : BitVec 768
  cut : Option Bool
deriving DecidableEq, Repr

/-- What the converters of one Gauge die deliver at a tick: the sixteen decimator outputs before the 24-bit
clamp (R290) and the four resolver positions (R292). A channel not listed delivers 0. -/
structure GaugeIn where
  sd : Tab Int
  resolver : Tab Nat
deriving DecidableEq, Repr

/-- The flits or requests that wait at the start of one arbitration window (R230): plant I/O, management, and
impression and margin class per master (masters 0-7 tenants, 8 supervisor). -/
structure Demand where
  plant : Nat
  mgmt : Nat
  imp : Tab Nat
  mar : Tab Nat
  scrub : Nat := 0
deriving DecidableEq, Repr

/-- A configuration write of a PCIe function's host: the mask of an entry of its MSI-X table, MSI-X Enable and Function Mask,
Enable Relaxed Ordering (R227, R250). -/
inductive CfgWrite where
  | entry (e : Nat) (masked : Bool)
  | control (enable mask : Bool)
  | relaxed (on : Bool)
deriving DecidableEq, Repr

/-- One entry of an image's tested-with list (R184): image code and version (or level for code 4). -/
structure Tested where
  code : Nat
  version : BitVec 32
deriving DecidableEq, Repr

/-- What G0 finds in one bank of the boot flash: the signed manifest and the verdict on its signature (R184,
R360, R377). The byte layout of an image is not in the spec, so the bank arrives as these named parts. -/
structure Image where
  version : BitVec 32
  sigOk : Bool
  steppings : List Nat
  list : List Tested
deriving DecidableEq, Repr

/-- The source that a routing input's multiplexer names (R311): a level, the output of a cell's look-up table, memory or carry
stage (the second: of its other table, or the carry), one of its two flip-flops, a pad, a device signal (Table 13-4, numbered
from FAB_TICK up). -/
inductive Wire where
  | low
  | high
  | out (cell : Nat) (second : Bool)
  | ff (cell : Nat) (second : Bool)
  | pad (n : Nat)
  | signal (n : Nat)
deriving DecidableEq, Repr

/-- What clocks a flip-flop or a memory: a spine, or any routed wire (R318, R320). -/
inductive ClockFrom where
  | spine (k : Nat)
  | wire (w : Wire)
deriving DecidableEq, Repr

/-- A flip-flop of a cell (R309). -/
structure FlipFlop where
  d : Wire := .low
  clock : ClockFrom := .spine 0
  enable : Wire := .high
  reset : Wire := .low
  async : Bool := false
  init : Bool := false
deriving DecidableEq, Repr

/-- What a cell's configuration selects (R309). -/
inductive CellKind where
  | lut6 (t : BitVec 64)
  | lut5 (a b : BitVec 32)
  | carry
  | ram (init : BitVec 64)
  | shift (init : BitVec 32)
deriving DecidableEq, Repr

/-- One cell: its kind, the sources of its inputs, the data and the write enable of its memory and what clocks that, its
flip-flops. -/
structure Cell where
  kind : CellKind := .lut6 0
  ins : List Wire := []
  data : Wire := .low
  write : Wire := .low
  clock : ClockFrom := .spine 0
  ff0 : FlipFlop := {}
  ff1 : FlipFlop := {}
deriving DecidableEq, Repr

/-- What drives a spine (R318). -/
inductive SpineSource where
  | vclk
  | sysref
  | generator (g o : Nat)
  | pad (p : Nat)
  | wire (w : Wire)
deriving DecidableEq, Repr

/-- A spine with its enable (R318). -/
structure Spine where
  source : SpineSource
  enable : Wire := .high
deriving DecidableEq, Repr

/-- A fabric clock generator (R318): the spine or clock pad it multiplies, and its outputs in kHz. -/
structure ClockGen where
  fromPad : Bool
  src : Nat
  outs : List Nat
deriving DecidableEq, Repr

/-- A bitstream slot as read from flash (ch. 13, Configuration): the named parts of its header, the identifier
and time limit of each extension port, what its stripes configure (the well settings, the cells by column and height, the
spines, the clock generators, the pad banks in serial mode), the wells' initial bytes, and the digest and signature of its
bytes. The byte layout of a stripe is not in the spec. -/
structure Bitstream where
  keySlot : Nat
  stripes : Nat
  length : Nat
  desc : BitVec 64
  ports : List (BitVec 64)
  bus : List Nat
  parity : List Nat
  fifo : List Nat
  aspectA : Tab Nat
  aspectB : Tab Nat
  almostFull : Tab Nat
  almostEmpty : Tab Nat
  credit : Tab Nat
  wells : Tab Byte
  digest : BitVec 384
  sig : BitVec 768
  cells : Tab Cell := []
  spines : Tab (Option Spine) := []
  gens : Tab (Option ClockGen) := []
  serial : BitVec 4 := 0
deriving DecidableEq, Repr

/-- What the converters deliver over the passes of a burnish (R84): per line the sum of its codes over 32 passes with every
DAC at code 0, and over 32 with only the calibration DAC at code 255 what its codes sum to beyond 506 each. Lines 1024 and
1025 are the proof lines. -/
structure BurnishSums where
  zero : Tab Int := []
  cal : Tab Int := []
deriving DecidableEq, Repr

/-- What a fault leaves in the array when a tile drains, or in the lanes when a Stipple operation ends: the values that
accumulators hold in place of their sums (keyed row-major), that lines of the checksum column t, of the checksum row v and
the corner z hold in place of theirs (R106; for Stipple t is the checksum lane of each vector, R123), and whether an operand
read from a well failed its parity (R119). Patterns of the accumulator's width; FP32 patterns for a floating type. -/
structure TileCheck where
  acc : Tab (Option Nat) := []
  t : Tab (Option Nat) := []
  v : Tab (Option Nat) := []
  z : Option Nat := none
  parity : Bool := false
deriving DecidableEq, Repr

/-- No fault. -/
def TileCheck.ok : TileCheck := {}

/-- A classical or FD frame seen by the ember domain on CAN FD port 0, at its arbitration rate in kbit/s (R374). -/
structure CanFrame where
  ident : BitVec 32
  data : BitVec 64
  fd : Bool
  crcOk : Bool
  rate : Nat := 500
deriving DecidableEq, Repr

/-- The recovery command header of Table 16-7. -/
abbrev RecoveryHeader := BitVec 128

end Sys2Proof
end

