-- ==== Sys2Proof/Syntax.lean ====
section
/-!
DEFINITION. The commands of the block, one constructor per row of spec/opcode_table.json, in the table's order.
`c` is a context number, `q` a queue (0-3 impression, 4-7 margin), `idx` the index of a macro-instruction in its
program, `d` a Gauge die, `m` a Field die, `g` a plate, `l` a link.
-/

namespace Sys2Proof

/-- The commands. A macro-instruction row names the queue that issues it: its fields stand in the program. -/
inductive Instr where
  -- 02 the frame
  | tick (x0 x1 : GaugeIn)
  | openingComb
  | combTooth
  | impressStart
  | reservationEnd (t : Nat)
  | marginStart
  | marginComb
  | guardStart (temps : Tab Int) (energy : Nat) (b0Temp : Int)
  | outputPreparation
  | slotOperation
  | frequencySwitch (ready : Bool)
  | outputSeal
  | referenceEvent (time : Nat) (noSync : Bool)
  | missingEvent
  | holdoverExpiry
  | resumeFromFallback (via : Via) (v : Nat)
  | holdTickRestart (x0 x1 : GaugeIn)
  -- 01, 10 links and memory
  | flitReceive (l dir : Nat) (f : Crossing) (time : Nat)
  | retrainComplete (l : Nat) (fail0 fail1 : Nat) (ok : Bool) (time : Nat)
  | arbitrationWindow (d : Nat) (w : Demand)
  | stockScrub (k off : Nat) (e : Ecc) (recovers : Bool)
  | lpddr5xPatrol (a : Nat) (e : Ecc)
  | postedWriteComplete (i : Nat) (e : Ecc)
  -- 03, 04 plates
  | bankScrub (g bank row : Nat) (mismatch : Bool)
  | passComplete (c q idx p : Nat) (codes : Tab Int) (cP1 cP2 : Int)
  | rebiteComplete (m : Nat) (bad : Bool) (ecc : Found)
  | etchWriteOut (c q idx : Nat)
  | loadComplete (c q idx : Nat) (ecc : Found)
  | swapTakeEffect (c q idx : Nat)
  | burnishDue (g : Nat) (timed : Bool)
  | burnishStep (g : Nat) (passes : List (Tab Int))
  | plateOverdue (g : Nat)
  -- 05, 06, 07 macro-instructions
  | hatch (c q : Nat) (ecc : Found)
  | operandFetchComplete (c q : Nat) (x : FetchOf) (ecc : Found)
  | claimGranted (c q idx : Nat)
  | tileDrain (c q idx : Nat) (chk : TileCheck)
  | stipple (c q : Nat) (ecc : Found)
  | stippleComplete (c q idx : Nat) (chk : TileCheck) (ecc : Found)
  | etch (c q : Nat) (ecc : Found)
  | load (c q : Nat) (ecc : Found)
  | swap (c q : Nat)
  | moveInk (c q : Nat) (ecc : Found)
  | moveDataMover (c q : Nat) (ecc : Found)
  | toneDrain (c q : Nat) (ecc : Found) (residue : Nat)
  | toneScale (c q : Nat) (ecc : Found) (residue : Nat)
  | toneAdd (c q : Nat) (ecc : Found) (residue : Nat)
  | toneSub (c q : Nat) (ecc : Found) (residue : Nat)
  | toneClamp (c q : Nat) (ecc : Found) (residue : Nat)
  | toneCmp (c q : Nat) (ecc : Found) (residue : Nat)
  | toneTable (c q : Nat) (ecc : Found) (residue : Nat)
  | toneConvert (c q : Nat) (ecc : Found) (residue : Nat)
  | reduceColumnSum (c q : Nat) (ecc : Found) (residue : Nat)
  | reduceRowSum (c q : Nat) (ecc : Found) (residue : Nat)
  | reduceColumnMax (c q : Nat) (ecc : Found) (residue : Nat)
  | reduceRowMax (c q : Nat) (ecc : Found) (residue : Nat)
  | reduceSumlist (c q : Nat) (ecc : Found) (residue : Nat)
  | sample (c q : Nat) (ecc : Found)
  | actuate (c q : Nat) (time : Nat) (ecc : Found)
  | waitCount (c q : Nat)
  | waitDrain (c q : Nat)
  | waitBoth (c q : Nat)
  | waitSatisfied (c q : Nat)
  | signalCounter (c q : Nat)
  | signalEvent (c q : Nat)
  | signalFence (c q : Nat)
  | signalFlush (c q : Nat)
  | patchSet (c q : Nat)
  | patchAdd (c q : Nat)
  | patchCopy (c q : Nat)
  | patchAddreg (c q : Nat)
  | patchLoad (c q : Nat) (ecc : Found)
  | patchStore (c q : Nat)
  | endEntry (c q : Nat)
  | ext (c q : Nat) (ecc : Found)
  | extDone (m p : Nat) (status : BitVec 8) (beats : List Byte)
  | extTimeout (m p : Nat)
  | extAbortAck (m : Nat) (ack : AbortAck)
  | extHung (m p : Nat)
  | macroComplete (c q idx : Nat)
  -- 09 queues, records, fences, the keep table
  | doorbellQueue (via : Via) (w : BitVec 64)
  | doorbellConsumer (via : Via) (w : BitVec 64)
  | entryStart (c q : Nat)
  | marginEntryStart (c q : Nat)
  | heldRecordWrite (c : Nat)
  | fenceComplete (c q : Nat)
  | flushReadCompletion (c q : Nat) (ok : Bool)
  | keepCas (via : Via) (c : Nat) (cmp new : BitVec 64)
  | keepUpdate (via : Via) (v : BitVec 192)
  | create (via : Via) (hdr : BitVec 128) (record : BitVec 1024)
  | admitCtx (via : Via) (hdr : BitVec 128)
  | invalidate (via : Via) (hdr : BitVec 128) (body : BitVec 96)
  | releasePlate (via : Via) (hdr : BitVec 128) (g : BitVec 8)
  | teardown (via : Via) (hdr : BitVec 128)
  | contextReset (via : Via) (hdr : BitVec 128)
  | ackLate (via : Via) (hdr : BitVec 128)
  | bundleSubmit (via : Via) (bytes : List Byte)
  -- 10 resets and notifications
  | tenantResetRequest (via : Via) (t v : Nat)
  | warmResetRequest (cause : Nat)
  | coldResetRequest
  | functionLevelReset (port func : Nat) (vfEnableCleared : Bool)
  | partitionRestart (part : Nat)
  | msixUnmask (port func : Nat) (w : CfgWrite)
  | burinPendingClear (part : Nat)
  | notificationClear (via : Via) (t : Nat) (bits : BitVec 64)
  | overrunLatchClear (via : Via) (t v : Nat)
  -- 11 the dictionary and its transports
  | objectWrite (via : Via) (port idx sub len v outstanding : Nat)
  | pranilRead (on : EthIn) (ip : BitVec 32) (udp : BitVec 16) (hdr : BitVec 256) (payload : List Byte) (outstanding : Nat)
  | pranilWrite (on : EthIn) (ip : BitVec 32) (udp : BitVec 16) (hdr : BitVec 256) (payload : List Byte) (outstanding : Nat)
  | describe (on : EthIn) (ip : BitVec 32) (udp : BitVec 16) (hdr : BitVec 256) (payload : List Byte) (outstanding : Nat)
  | controlStart (on : EthIn) (ip : BitVec 32) (udp : BitVec 16) (hdr : BitVec 256) (payload : List Byte) (outstanding : Nat)
  | controlStop (on : EthIn) (ip : BitVec 32) (udp : BitVec 16) (hdr : BitVec 256) (payload : List Byte) (outstanding : Nat)
  | discover (on : EthIn) (ip : BitVec 32) (udp : BitVec 16) (hdr : BitVec 256) (payload : List Byte)
  | rxCyclicReceive (on : EthIn) (ip : BitVec 32) (udp : BitVec 16) (hdr : BitVec 256) (payload : List Byte)
  | cyclicSend (n : Nat)
  | icmpEcho (on : EthIn) (ip : BitVec 32) (payload : List Byte)
  | gptpSync (port domain : Nat) (msg : GptpMsg)
  | mailboxGo (port func : Nat) (vec : BitVec 9) (hdr : BitVec 256) (payload : List Byte) (outstanding : Nat)
  | mailboxStatusClear (port func : Nat) (v : BitVec 32)
  | supervisorCall (via : Via) (hdr : BitVec 256) (payload : List Byte) (outstanding : Nat)
  | usdoTransfer (port node : Nat) (write : Bool) (idx sub : Nat) (payload : List Byte) (outstanding : Nat)
  | nmtStart (port node : Nat)
  | nmtStop (port node : Nat)
  | nmtEnterPreoperational (port node : Nat)
  | nmtResetCommunication (port node : Nat)
  | nmtResetNode (port node : Nat)
  | rpdoReceive (port n : Nat) (payload : List Byte)
  | syncReceive (port : Nat)
  | tpdoTransmit (port n : Nat)
  | heartbeatProduce (port : Nat)
  | heartbeatLoss (port n : Nat)
  | sessionOpen (via : Via) (slot : Nat) (nonce : BitVec 384)
  | sessionStage (via : Via) (port idx sub len v : Nat)
  | sessionCommit (via : Via) (x : CommitOf)
  | sessionClose (via : Via) (v : Nat)
  | sessionTimeout
  | waiverInstall (via : Via) (slot : Nat) (w : BitVec 1024)
  -- 12 the Gauge dies
  | encoderEdge (d i : Nat) (up : Bool)
  | encoderIndex (d i : Nat)
  | positionError (d i : Nat)
  | positionRearm (via : Via) (d i v : Nat) (cleared : Bool)
  | carrierPeriodStart (d c : Nat)
  | loadPeriodStart (d k : Nat)
  | loadTurnOff (d k : Nat)
  | overcurrentDetect (d k mv : Nat)
  | onStateDiagnosis (d k mv : Nat)
  | probeDiagnosis (d k mv : Nat)
  | faultClear (via : Via) (d k v : Nat)
  -- 13 the fabric
  | configurationLoadComplete (m : Nat) (stripesOk : Bool)
  | releaseStage1 (m : Nat)
  | releaseStage2 (m : Nat)
  | releaseStage3 (m : Nat)
  | configurationScrub (m : Nat) (e : Ecc)
  | wellBusAccess (m w a : Nat) (write : Bool) (v : Byte) (portA : Option (Nat × BitVec 72)) (parityErr : Bool)
  | fifoWrite (m w : Nat) (v : BitVec 72) (lag : Nat)
  | fifoRead (m w lag : Nat)
  | collarClear (m w : Nat)
  | tapLoad (m pad : Nat) (input : Bool) (taps : BitVec 7)
  -- 14 power
  | railMeasurementUpdate (r figure : Nat) (lost : Bool)
  | droopDetect (die : Nat)
  | droopRecover (die : Nat)
  | averagingWindowBoundary
  | overTemperature (die : Nat)
  -- 15 lifecycle, debug, power states
  | ownerKeyWrite (via : Via) (key : BitVec 776)
  | lifecycleErasureComplete
  | debugRequest (via : Via) (v : BitVec 8) (challenge : BitVec 384)
  | debugResponse (via : Via) (sig : BitVec 768) (key : BitVec 776)
  | challengeExpiry (via : Via)
  | lockoutExpiry
  | relock (via : Via) (v : Nat)
  | halt (via : Via) (v : BitVec 32)
  | resume (via : Via) (v : BitVec 16)
  | windowAddress (via : Via) (v : BitVec 64)
  | windowDataRead (via : Via)
  | windowDataWrite (via : Via) (v : BitVec 64)
  | powerDownComplete
  | wakeBall (level : Bool)
  | canWakeFrame (f : CanFrame)
  | rtcAlarm
  | rtcWrite (via : Via) (v : BitVec 64)
  | emberSupplyLoss
  -- 16, 17 start-up and recovery
  | powerGood
  | resetNAssert
  | supplyBrownout (supply : Nat)
  | gImageVerify (a b : Option Image)
  | lpddr5xTrainingComplete (trained : BitVec 16) (capacity : Tab Nat) (rate : Nat)
  | imageCheck (bA bB nA nB : Option Image) (storeLost : Bool)
  | startUpBurnishComplete (res : Tab BurnishSums) (temps : Tab Int)
  | dictionaryReady
  | firstTick (x0 x1 : GaugeIn)
  | warmStart
  | recoveryKeyWrite (via : Via) (slot : Nat) (key : BitVec 776)
  | recoveryErase (hdr : RecoveryHeader) (busy : Bool)
  | recoveryWrite (hdr : RecoveryHeader) (payload : List Byte) (busy : Bool)
  | recoveryCommit (hdr : RecoveryHeader) (img : Option Image) (busy : Bool)
  | recoveryStatus (hdr : RecoveryHeader) (busy : Bool)
  | recoveryRestart (hdr : RecoveryHeader) (busy : Bool)
  | pcieConfigurationRequest (port func : Nat)
  | completionTimeout (c q : Nat)
  | usdoProtocolTimeout (port node : Nat)
  | busOffRecovered (port : Nat)
  | endpointLinkLoss (via : Via)
  | phyLinkUp (via : Via) (speed : Nat)
  | arpRequest (on : EthIn) (ip target : BitVec 32)
  | dhcpv4Reply (port : Nat) (ip mask gateway : BitVec 32) (ack : Bool)
  | gptpAnnounce (port : Nat) (msg : Announce)
  | heartbeatConsume (port n : Nat) (state : Nat)
  | pwmPulseEdge (d c : Nat)
  | serialLaneLocked (m l rate : Nat)
  | serialLaneUnlocked (m l : Nat)
  | bitstreamCopyComplete (m slot : Nat) (b : Bitstream)
  | gaugeDiesWritten
  | pcieConfigurationReady
  | overTemperatureClear
  | suppliesWithinLimits
  | emberSupplyRestore
  | sysclkStart
deriving DecidableEq, Repr

end Sys2Proof
end

