-- ==== Sys2Proof/Decode.lean ====
section
/-!
DEFINITION. No row of the opcode table gives a bit (every `fields` is empty): a command of this block is an event, not
a word.
-/

namespace Sys2Proof

/-- The command a word spells by the table's bits: none. -/
def decodeTableWord (_nbits _w : Nat) : Option Instr := none

end Sys2Proof
end

