-- ==== Sys2Proof/Machine/Bits.lean ====
section
/-!
DEFINITION. Fields, bytes, saturating counts and check codes. Every multi-byte field is little-endian (R5).
-/

namespace Sys2Proof.Machine

/-- Field [hi:lo] of a word as a number. -/
def fld {n : Nat} (w : BitVec n) (hi lo : Nat) : Nat := (w.toNat >>> lo) % 2 ^ (hi - lo + 1)

/-- Bit i of a word. -/
def bit {n : Nat} (w : BitVec n) (i : Nat) : Bool := w.getLsbD i

/-- Field [hi:lo] of a number. -/
def nfld (w hi lo : Nat) : Nat := (w >>> lo) % 2 ^ (hi - lo + 1)

/-- A two's complement number of `b` bits from a field. -/
def signed (b w : Nat) : Int := if w % 2 ^ b < 2 ^ (b - 1) then (w % 2 ^ b : Nat) else ((w % 2 ^ b : Nat) : Int) - 2 ^ b

/-- The `b` low bits of an integer, as a two's complement field. -/
def unsigned (b : Nat) (v : Int) : Nat := (v % 2 ^ b).toNat

/-- Clamp to the range of a signed `b`-bit number. -/
def clampS (b : Nat) (v : Int) : Int := max (-(2 ^ (b - 1))) (min (2 ^ (b - 1) - 1) v)

/-- Clamp to the range of an unsigned `b`-bit number. -/
def clampU (b : Nat) (v : Int) : Int := max 0 (min (2 ^ b - 1) v)

/-- A counter of `b` bits that saturates (R32, R60). -/
def satInc (b n : Nat) : Nat := min (n + 1) (2 ^ b - 1)
def satAdd (b n k : Nat) : Nat := min (n + k) (2 ^ b - 1)

/-- Round a quotient up; 0 for a zero divisor. -/
def ceilDiv (a b : Nat) : Nat := (a + b - 1) / b

/-- The `n` bytes of a number, least significant first. -/
def leBytes : Nat → Nat → List Byte
  | 0, _ => []
  | n + 1, v => BitVec.ofNat 8 v :: leBytes n (v / 256)

/-- The number that bytes spell, least significant first. -/
def leNat : List Byte → Nat
  | [] => 0
  | b :: bs => b.toNat + 256 * leNat bs

/-- The number that bytes spell, most significant first. -/
def beNat (bs : List Byte) : Nat := leNat bs.reverse

/-- The `n` bytes of a number, most significant first. -/
def beBytes (n v : Nat) : List Byte := (leBytes n v).reverse

/-- `n` bytes from offset `o`; bytes past the end read zero. -/
def slice (bs : List Byte) (o n : Nat) : List Byte :=
  let l := (bs.drop o).take n
  l ++ List.replicate (n - l.length) 0

/-- Cut a list into pieces of `n`; `fuel` bounds the count. -/
def chunks {α : Type} (n : Nat) : Nat → List α → List (List α)
  | 0, _ => []
  | _ + 1, [] => []
  | fuel + 1, l => l.take n :: chunks n fuel (l.drop n)

/-- Go on with a number once it is worked out: the kernel evaluates a long run of numbers only so. -/
def force {α : Type} (n : Nat) (f : Nat → α) : α :=
  match n with
  | 0 => f 0
  | k + 1 => f (k + 1)

/-- Bit steps of CRC-32C, reflected (polynomial 0x1EDC_6F41, Table 1-4). -/
def crcBits : Nat → Nat → Nat
  | 0, c => c
  | k + 1, c => force (if c % 2 = 1 then Nat.xor (c / 2) 0x82F63B78 else c / 2) (crcBits k)

/-- The register after these bytes. -/
def crcFrom : Nat → List Byte → Nat
  | c, [] => c
  | c, b :: bs => force (crcBits 8 (Nat.xor c b.toNat)) fun d => crcFrom d bs

/-- CRC-32C of bytes (R10, R391): the usual form, reflected, started and ended with all ones (log 6). -/
def crc32c (bs : List Byte) : BitVec 32 := ~~~ BitVec.ofNat 32 (crcFrom 0xFFFFFFFF bs)

/-- Every element satisfies a test, and its position too. -/
def allIdx {α : Type} (p : Nat → α → Bool) (l : List α) : Bool := (l.zipIdx).all (fun e => p e.2 e.1)

/-- The indices of a list that satisfy a test. -/
def findIdxs {α : Type} (p : α → Bool) (l : List α) : List Nat :=
  (l.zipIdx).filterMap (fun e => if p e.1 then some e.2 else none)

/-- Replace the element at an index. -/
def setAt {α : Type} (l : List α) (i : Nat) (v : α) : List α := l.set i v

/-- Integer division that rounds half to even. -/
def divRne (a : Int) (b : Nat) : Int :=
  let q := a / (b : Int)
  let r := a % (b : Int)
  if 2 * r < b then q else if 2 * r > b then q + 1 else if q % 2 = 0 then q else q + 1

/-- Shift right by `s`, rounding half to even. -/
def shrRne (a : Int) (s : Nat) : Int := divRne a (2 ^ s)

end Sys2Proof.Machine
end

