-- ==== Sys2Proof/Machine/Crypto.lean ====
section
/-!
DEFINITION. SHA-384 (FIPS 180-4) and the ECDSA check over P-384 (R177, R189, R284, R367): the published standards the
spec names. Numbers are Nat, so that the check runs in the kernel.
-/

namespace Sys2Proof.Machine

/-! ### SHA-384 -/

def m64 : Nat := 2 ^ 64

/-- A 64-bit word written twice, so that every rotation of it is a shift of this one number. -/
def twice (x : Nat) : Nat := x * (m64 + 1)

/-- The exclusive or of the right rotations of a word by the amounts listed. -/
def rots (x : Nat) (by' : List Nat) : Nat := (by'.map (twice x >>> ·)).foldr Nat.xor 0 % m64

/-- The four Σ and σ of the standard, told apart by their rotations; σ adds a plain shift. -/
def sumA (x : Nat) : Nat := rots x [28, 34, 39]
def sumE (x : Nat) : Nat := rots x [14, 18, 41]
def mixOld (x : Nat) : Nat := Nat.xor (rots x [1, 8]) (x >>> 7)
def mixNew (x : Nat) : Nat := Nat.xor (rots x [19, 61]) (x >>> 6)

/-- Each bit of `p`, when set, picks that of `q`, else that of `r`. -/
def choose (p q r : Nat) : Nat := Nat.xor r (Nat.land p (Nat.xor q r))

/-- Each bit is the one that two of the three hold. -/
def majority (p q r : Nat) : Nat := Nat.lor (Nat.land p q) (Nat.land r (Nat.lor p q))

/-- The `n` 64-bit words of a number, the most significant first. -/
def words64 (n x : Nat) : List Nat := (List.range n).map fun i => (x >>> (64 * (n - 1 - i))) % m64

/-- The round constants of FIPS 180-4, 4.2.3, eight to a number. -/
def shaKs : List Nat :=
  [0x428a2f98d728ae227137449123ef65cdb5c0fbcfec4d3b2fe9b5dba58189dbbc3956c25bf348b53859f111f1b605d019923f82a4af194f9bab1c5ed5da6d8118,
   0xd807aa98a303024212835b0145706fbe243185be4ee4b28c550c7dc3d5ffb4e272be5d74f27b896f80deb1fe3b1696b19bdc06a725c71235c19bf174cf692694,
   0xe49b69c19ef14ad2efbe4786384f25e30fc19dc68b8cd5b5240ca1cc77ac9c652de92c6f592b02754a7484aa6ea6e4835cb0a9dcbd41fbd476f988da831153b5,
   0x983e5152ee66dfaba831c66d2db43210b00327c898fb213fbf597fc7beef0ee4c6e00bf33da88fc2d5a79147930aa72506ca6351e003826f142929670a0e6e70,
   0x27b70a8546d22ffc2e1b21385c26c9264d2c6dfc5ac42aed53380d139d95b3df650a73548baf63de766a0abb3c77b2a881c2c92e47edaee692722c851482353b] ++
  [0xa2bfe8a14cf10364a81a664bbc423001c24b8b70d0f89791c76c51a30654be30d192e819d6ef5218d69906245565a910f40e35855771202a106aa07032bbd1b8,
   0x19a4c116b8d2d0c81e376c085141ab532748774cdf8eeb9934b0bcb5e19b48a8391c0cb3c5c95a634ed8aa4ae3418acb5b9cca4f7763e373682e6ff3d6b2b8a3,
   0x748f82ee5defb2fc78a5636f43172f6084c87814a1f0ab728cc702081a6439ec90befffa23631e28a4506cebde82bde9bef9a3f7b2c67915c67178f2e372532b,
   0xca273eceea26619cd186b8c721c0c207eada7dd6cde0eb1ef57d4f7fee6ed17806f067aa72176fba0a637dc5a2c898a6113f9804bef90dae1b710b35131c471b,
   0x28db77f523047d8432caab7b40c724933c9ebe0a15c9bebc431d67c49c100d4c4cc5d4becb3e42b6597f299cfc657e2a5fcb6fab3ad6faec6c44198c4a475817]

def shaK : List Nat := shaKs.flatMap (words64 8)

/-- The initial hash value of SHA-384 (FIPS 180-4, 5.3.4), H0 first. -/
def shaInit : Nat :=
  0xcbbb9d5dc1059ed8629a292a367cd5079159015a3070dd17152fecd8f70e593967332667ffc00b318eb44a8768581511db0c2e0d64f98fa747b5481dbefa4fa4

/-- The message schedule: `w` holds the words so far, newest first. -/
def shaSchedule : Nat → List Nat → List Nat
  | 0, w => w
  | n + 1, w =>
    force ((mixNew (w.getD 1 0) + w.getD 6 0 + mixOld (w.getD 14 0) + w.getD 15 0) % m64) fun x =>
      shaSchedule n (x :: w)

/-- One round on the working variables, listed from a to h. -/
def shaRound (k w : Nat) : List Nat → List Nat
  | [a, b, c, d, e, f, g, h] =>
    force ((h + sumE e + choose e f g + k + w) % m64) fun t1 =>
      force ((t1 + sumA a + majority a b c) % m64) fun top =>
        force ((d + t1) % m64) fun mid => [top, a, b, c, mid, e, f, g]
  | v => v

/-- The rounds over constants and schedule words. -/
def shaRounds : List Nat → List Nat → List Nat → List Nat
  | k :: ks, w :: ws, v => shaRounds ks ws (shaRound k w v)
  | _, _, v => v

/-- The word-wise sum of two lists. -/
def addWords : List Nat → List Nat → List Nat
  | x :: xs, y :: ys => force ((x + y) % m64) fun z => z :: addWords xs ys
  | _, _ => []

/-- One block: sixteen words. -/
def shaBlock (h : List Nat) (w : List Nat) : List Nat :=
  addWords h (shaRounds shaK (shaSchedule 64 w.reverse).reverse h)

/-- A number from bytes, most significant first, in one pass. -/
def beNum (bs : List Byte) : Nat := bs.foldl (fun n b => n * 256 + b.toNat) 0

/-- The padded message as 128-byte blocks. -/
def shaPad (bs : List Byte) : List (List Byte) :=
  let z := (128 - (bs.length + 17) % 128) % 128
  let p := bs ++ [0x80#8] ++ List.replicate z 0#8 ++ beBytes 16 (8 * bs.length)
  chunks 128 (p.length / 128 + 1) p

/-- SHA-384 as a number, its first byte most significant: the first six words of the last hash value. -/
def sha384 (bs : List Byte) : Nat :=
  let h := (shaPad bs).foldl (fun h b => shaBlock h ((chunks 8 17 b).map beNum)) (words64 8 shaInit)
  (h.take 6).foldl (fun n x => n * m64 + x) 0

/-! ### P-384 -/

def pPrime : Nat := 2 ^ 384 - 2 ^ 128 - 2 ^ 96 + 2 ^ 32 - 1
def pOrder : Nat := 0xffffffffffffffffffffffffffffffffffffffffffffffffc7634d81f4372ddf581a0db248b0a77aecec196accc52973
def pB : Nat := 0xb3312fa7e23ee7e4988e056be3f82d19181d9c6efe8141120314088f5013875ac656398d8a2ed19d2a85c8edd3ec2aef
def pGx : Nat := 0xaa87ca22be8b05378eb1c71ef320ad746e1d3b628ba79b9859f741e082542a385502f25dbf55296c3a545e3872760ab7
def pGy : Nat := 0x3617de4a96262c6f5d9e98bf9292dc29f8f41dbd289a147ce9da3113b5f0b8c00a60b1ce1d7e819d7a431d7c90ea0e5f

/-- A point in Jacobian coordinates; z = 0 is the point at infinity. -/
structure Jac where
  x : Nat
  y : Nat
  z : Nat
deriving DecidableEq, Repr

def subP (a b : Nat) : Nat := (a + (pPrime - b % pPrime)) % pPrime

/-- Point doubling (a = -3). -/
def Jac.dbl {α : Type} (q : Jac) (f : Jac → α) : α :=
  force (q.z * q.z % pPrime) fun dl => force (q.y * q.y % pPrime) fun ga => force (q.x * ga % pPrime) fun be =>
    force (3 * subP q.x dl * (q.x + dl) % pPrime) fun al => force (subP (al * al) (8 * be)) fun x3 =>
      force (2 * q.y * q.z % pPrime) fun z3 => force (subP (al * subP (4 * be) x3) (8 * ga * ga)) fun y3 => f ⟨x3, y3, z3⟩

/-- Point addition. -/
def Jac.add {α : Type} (p q : Jac) (f : Jac → α) : α :=
  if p.z = 0 then f q else if q.z = 0 then f p else
  force (p.z * p.z % pPrime) fun z1 => force (q.z * q.z % pPrime) fun z2 => force (p.x * z2 % pPrime) fun u1 =>
    force (q.x * z1 % pPrime) fun u2 => force (p.y * (q.z * z2 % pPrime) % pPrime) fun s1 =>
      force (q.y * (p.z * z1 % pPrime) % pPrime) fun s2 =>
        if u1 = u2 then (if s1 = s2 then p.dbl f else f ⟨1, 1, 0⟩) else
        force (subP u2 u1) fun h => force (subP s2 s1) fun r => force (h * h % pPrime) fun hh =>
          force (h * hh % pPrime) fun hhh => force (u1 * hh % pPrime) fun v =>
            force (subP (r * r) (hhh + 2 * v)) fun x3 => force (subP (r * subP v x3) (s1 * hhh)) fun y3 =>
              force (p.z * q.z % pPrime * h % pPrime) fun z3 => f ⟨x3, y3, z3⟩

/-- u1 G + u2 Q, bit by bit from bit n - 1; `gq` is G + Q. -/
def jacMul (g q gq : Jac) (u1 u2 : Nat) : Nat → Jac → Jac
  | 0, acc => acc
  | n + 1, acc =>
    acc.dbl fun acc =>
      let b1 := u1.testBit n
      let b2 := u2.testBit n
      if b1 then (if b2 then acc.add gq fun a => jacMul g q gq u1 u2 n a else acc.add g fun a => jacMul g q gq u1 u2 n a)
      else (if b2 then acc.add q fun a => jacMul g q gq u1 u2 n a else jacMul g q gq u1 u2 n acc)

/-- b ^ e mod m, from the top bit of e. -/
def powMod (m b e : Nat) : Nat → Nat → Nat
  | 0, acc => acc
  | n + 1, acc => force (if e.testBit n then acc * acc % m * b % m else acc * acc % m) fun a => powMod m b e n a

/-- The inverse modulo a prime of 384 bits. -/
def invMod (m a : Nat) : Nat := powMod m (a % m) (m - 2) 384 1

/-- Is (x, y) a point of the curve? -/
def onCurve (x y : Nat) : Bool :=
  decide (x < pPrime) && decide (y < pPrime) && decide (y * y % pPrime = (x * x * x + (pPrime - 3) * x + pB) % pPrime)

/-- ECDSA verification of (r, s) over the digest z under the key (x, y). -/
def ecdsaVerify (x y z r s : Nat) : Bool :=
  if !(onCurve x y && decide (0 < r) && decide (r < pOrder) && decide (0 < s) && decide (s < pOrder)) then false else
  force (invMod pOrder s) fun w => force (z % pOrder * w % pOrder) fun u1 => force (r * w % pOrder) fun u2 =>
    let g : Jac := ⟨pGx, pGy, 1⟩
    let q : Jac := ⟨x, y, 1⟩
    g.add q fun gq =>
      let p := jacMul g q gq u1 u2 384 ⟨1, 1, 0⟩
      if p.z = 0 then false else
      force (invMod pPrime p.z) fun zi => decide (p.x * (zi * zi % pPrime) % pPrime % pOrder = r)

/-- A 97-byte uncompressed public key: 04, X, Y, its first byte in bits [7:0] of the value (SEC 1). -/
def keyX (k : BitVec 776) : Nat := beNum (slice (leBytes 97 k.toNat) 1 48)
def keyY (k : BitVec 776) : Nat := beNum (slice (leBytes 97 k.toNat) 49 48)
def keyForm (k : BitVec 776) : Bool := decide (fld k 7 0 = 4)

/-- Is the value a well-formed key: the form byte and a point of the curve? -/
def keyOk (k : BitVec 776) : Bool := keyForm k && onCurve (keyX k) (keyY k)

/-- Does a 96-byte signature, r then s, verify over bytes? -/
def sigVerify (k : BitVec 776) (msg : List Byte) (sig : BitVec 768) : Bool :=
  let b := leBytes 96 sig.toNat
  keyForm k && ecdsaVerify (keyX k) (keyY k) (sha384 msg) (beNum (slice b 0 48)) (beNum (slice b 48 48))

/-- The digest of bytes as the value of an OCTET_STRING(48): its first byte in bits [7:0]. -/
def digestVal (msg : List Byte) : BitVec 384 := BitVec.ofNat 384 (leNat (beBytes 48 (sha384 msg)))

end Sys2Proof.Machine
end

