-- ==== Sys2Proof/Machine/Float.lean ====
section
/-!
DEFINITION. FP32 and BF16 on bit patterns (R117, R124): subnormal operands and results become zero of the same sign,
every NaN result is 0x7FC0_0000. A finite number is sign, mantissa and exponent of two; sums and products are exact
before one rounding.
-/

namespace Sys2Proof.Machine

/-- A number as R117 reads it. -/
inductive Fp where
  | nan
  | inf (neg : Bool)
  | zero (neg : Bool)
  | fin (neg : Bool) (m : Nat) (e : Int)
deriving DecidableEq, Repr

/-- The number of an FP32 pattern. -/
def fpOf (w : Nat) : Fp :=
  let neg := decide (w / 2 ^ 31 % 2 = 1)
  let e : Nat := w / 2 ^ 23 % 256
  let m : Nat := w % 2 ^ 23
  if e = 0 then .zero neg else if e = 255 then (if m = 0 then .inf neg else .nan)
  else .fin neg (m + 2 ^ 23) ((e : Int) - 150)

/-- The number of a BF16 pattern: the high half of an FP32 pattern. -/
def fpOfBf (w : Nat) : Fp := fpOf (w % 2 ^ 16 * 2 ^ 16)

/-- Round a mantissa to `bits` bits: ties to even, or away from zero. Answers the mantissa and the bits dropped. -/
def roundMant (away : Bool) (bits m : Nat) : Nat × Nat :=
  let n := Nat.log2 m + 1
  if n ≤ bits then (m, 0) else
  let s := n - bits
  let q := m >>> s
  let r := m % 2 ^ s
  let up := if 2 * r > 2 ^ s then true else if 2 * r < 2 ^ s then false else away || decide (q % 2 = 1)
  (if up then q + 1 else q, s)

/-- The pattern of a number rounded to `bits` bits of mantissa, in an FP32 word. -/
def packFp (away : Bool) (bits : Nat) : Fp → Nat
  | .nan => 0x7FC00000
  | .inf neg => (if neg then 2 ^ 31 else 0) + 255 * 2 ^ 23
  | .zero neg => if neg then 2 ^ 31 else 0
  | .fin neg m e =>
    let sg := if neg then 2 ^ 31 else 0
    if m = 0 then sg else
    let (q, s) := roundMant away bits m
    let l := Nat.log2 q
    let e2 : Int := e + (s : Int) + (l : Int)
    if e2 > 127 then sg + 255 * 2 ^ 23
    else if e2 < -126 then sg
    else
      let frac := if l ≤ 23 then q * 2 ^ (23 - l) else q >>> (l - 23)
      sg + (e2 + 127).toNat * 2 ^ 23 + frac % 2 ^ 23

/-- FP32 pattern, rounded. -/
def toF32 (away : Bool) (x : Fp) : Nat := packFp away 24 x
/-- BF16 pattern, rounded. -/
def toBf16 (away : Bool) (x : Fp) : Nat := packFp away 8 x / 2 ^ 16

/-- Exact product. -/
def fpMul : Fp → Fp → Fp
  | .nan, _ => .nan
  | _, .nan => .nan
  | .inf _, .zero _ => .nan
  | .zero _, .inf _ => .nan
  | .inf a, .inf b => .inf (a != b)
  | .inf a, .fin b _ _ => .inf (a != b)
  | .fin a _ _, .inf b => .inf (a != b)
  | .zero a, .zero b => .zero (a != b)
  | .zero a, .fin b _ _ => .zero (a != b)
  | .fin a _ _, .zero b => .zero (a != b)
  | .fin a m e, .fin b n f => .fin (a != b) (m * n) (e + f)

/-- A signed integer times a power of two. -/
def fpOfInt (v : Int) (e : Int) : Fp := if v = 0 then .zero false else .fin (decide (v < 0)) v.natAbs e

/-- Exact sum. Opposite numbers give +0. -/
def fpAdd : Fp → Fp → Fp
  | .nan, _ => .nan
  | _, .nan => .nan
  | .inf a, .inf b => if a = b then .inf a else .nan
  | .inf a, _ => .inf a
  | _, .inf b => .inf b
  | .zero a, .zero b => .zero (a && b)
  | .zero _, y => y
  | x, .zero _ => x
  | .fin a m e, .fin b n f =>
    let k := min e f
    let x : Int := (m : Int) * 2 ^ (e - k).toNat * (if a then -1 else 1)
    let y : Int := (n : Int) * 2 ^ (f - k).toNat * (if b then -1 else 1)
    fpOfInt (x + y) k

def fpNeg : Fp → Fp
  | .nan => .nan
  | .inf a => .inf (!a)
  | .zero a => .zero (!a)
  | .fin a m e => .fin (!a) m e

/-- x > y; false where either is NaN. -/
def fpGt (x y : Fp) : Bool :=
  match x, y with
  | .nan, _ => false
  | _, .nan => false
  | _, _ => match fpAdd x (fpNeg y) with
    | .fin neg _ _ => !neg
    | .inf neg => !neg
    | _ => false

/-- Rounded to an integer, ties away from zero; nothing for NaN and infinity. -/
def fpToInt : Fp → Option Int
  | .nan => none
  | .inf _ => none
  | .zero _ => some 0
  | .fin neg m e =>
    let a : Nat := if e ≥ 0 then m * 2 ^ e.toNat else (2 * m + 2 ^ (-e).toNat) / 2 ^ ((-e).toNat + 1)
    some (if neg then -(a : Int) else a)

/-- One multiply-accumulate of R117: the product rounded to FP32 (exact for BF16), the sum rounded to FP32. -/
def fpMac (acc a b : Nat) : Nat :=
  toF32 false (fpAdd (fpOf acc) (fpOf (toF32 false (fpMul (fpOf a) (fpOf b)))))

end Sys2Proof.Machine
end

