-- ==== Sys2Proof/Config.lean ====
section
/-!
DEFINITION. What the spec leaves open: free values with no body, and the constants of the part that the spec states.
A free value is applied to the counter `freeCtr` of the state, which the command advances (log 4).
-/

namespace Sys2Proof.Config

/-- A free 64-bit value: what a register block of a die reads as (R366 names the access, no rule its content). -/
opaque freeWord : Nat → BitVec 64

/-- A free element: a Tone or drain result for which the spec states no value (log 4). -/
opaque freeElem : Nat → Int

/-- What the spec leaves open of user logic: the level of a wire on a combinational loop (R311), and of a pad, which the board
drives (log 100). -/
opaque loopLevel : Wire → Bool
opaque padLevel : Nat → Nat → Bool

/-- The CRC-16 of a bank's row and its two sums (R64, R91): the spec names no polynomial (log 89). -/
opaque rowCrc : List Int → BitVec 16

/-- Fresh nonces and challenges that the device draws for a request on a transport (R282, R367), and the vendor debug
public key whose hash the OTP holds (R358). -/
opaque freeNonce : Nat → BitVec 384
opaque vendorDebugKey : BitVec 776

/-- Fused at test per part (Tables 14-1, 14-4): a rail's reserved current and absolute limit as the spec bounds them,
in 0.01 A, by rail sub-index; a die's voltage table by die code. -/
opaque partReserved : Nat → Nat
opaque partAbsolute : Nat → Nat
opaque voltageTable : Nat → BitVec 64

/-- Table 14-1: bounds of the fused figures. -/
def reservedMost (r : Nat) : Nat :=
  if r ≤ 8 then 900 else if r ≤ 12 then 3000 else if r ≤ 14 then 2400 else if r = 15 then 1600 else 0
def absoluteLeast (r : Nat) : Nat :=
  if r ≤ 8 then 1400 else if r ≤ 12 then 4500 else if r ≤ 14 then 3600 else if r = 15 then 3000
  else if r = 16 then 800 else if r = 17 then 400 else 300
def fusedReserved (r : Nat) : Nat := min (partReserved r) (reservedMost r)
def fusedAbsolute (r : Nat) : Nat := max (partAbsolute r) (absoluteLeast r)

/-- The part number, the stepping and the CANopen identity (Table 9-11, Table 11-5, Table 11-6). -/
def partNumber : Nat := 0x0C20
def stepping : Nat := 0xC2
def vendorId : Nat := 0x0E51

/-- The Vyton interface level this manual fixes (R131). -/
def level : Nat := 2

/-- The ring reserve for records that are not droppable (R213), the hold (R213), the fences a context may have
pending (R215). -/
def ringReserve : Nat := 16
def holdDepth : Nat := 64
def fenceLimit : Nat := 64

/-- Hardware slots: 0-3 supervisor, 4-47 tenants (ch. 09). -/
def slotCount : Nat := 48
def supervisorSlots : Nat := 4

/-- Spare lanes of each direction of a link (ch. 01). -/
def spareLanes : Nat := 4

/-- Transfers a transport may have outstanding (R258). -/
def transferLimit : Nat := 4

/-- Grants that may exist in the device (R368) and failed responses that lock out debug (R369). -/
def grantLimit : Nat := 8
def failLimit : Nat := 8

end Sys2Proof.Config
end

