-- ==== Sys2Proof/Machine/State.lean ====
section
/-!
DEFINITION. The state of the block as plain data, and the state right after reset. Every table (`Tab`) reads its
default where it lists nothing, so the empty table is the reset value of everything it holds.
-/

namespace Sys2Proof.Machine

/-- Tick states, Table 2-3. -/
inductive TickState where
  | stopped | acquiring | locked | slewing | holdover | fallbackFree | fallbackSafe | fallbackHold
deriving DecidableEq, Repr

/-- Phases of a frame, Table 0-3. -/
inductive Phase where
  | sample | comb | impress | margin | guardPhase
deriving DecidableEq, Repr

/-- Fallback modes, Table 2-2. -/
inductive Fallback where
  | free | safe | hold
deriving DecidableEq, Repr

/-- Which comb is in progress (R47). -/
inductive CombKind where
  | none | opening | closing | marginComb | quiescing
deriving DecidableEq, Repr

/-- How a frame ends: at its tick the next one begins, a reset or an erasure begins, or the tick stops (R239, R364, R372). -/
inductive FrameEnd where
  | runs | reset | erase | hold | doze | ember
deriving DecidableEq, Repr

/-- The tick generator and the frame (ch. 02). Times in 10 ns steps unless named. `agree`: phase errors in ns of the latest
events that agree with each other. `holdUsed`: frames of this holdover, `holdTotal`: all of them (0x3001:04). `rate`: what
a frame of the last locked rate departs from P. `refPhase`: ticks since the last one with a reference event. `resumeNow`:
an accepted resume acts at this tick. `level`: by die code, the engine groups at operating level, a bit each. -/
structure Frame where
  tickState : TickState := .stopped
  lock : TickState := .acquiring
  ticking : Bool := false
  counter : BitVec 64 := 0
  phase : Phase := .sample
  elapsed : Nat := 0
  len : Nat := 5000
  now : Nat := 0
  slew : Int := 0
  badRun : Nat := 0
  agree : List Int := []
  lastErr : Int := 0
  holdUsed : Nat := 0
  holdTotal : Nat := 0
  rate : Int := 0
  refPhase : Nat := 0
  badEvents : Nat := 0
  losses : Nat := 0
  lossDue : Bool := false
  returnDue : Bool := false
  fallbackDue : Bool := false
  resumeNow : Bool := false
  resumeHold : Bool := false
  tooth : Nat := 0
  comb : CombKind := .none
  level : Tab (BitVec 16) := []
  slot : Nat := 0
  slotOpen : Bool := false
  resEnded : BitVec 8 := 0
  late : BitVec 8 := 0
  ending : FrameEnd := .runs
  prepared : Bool := false
  freqDone : Bool := false
  isSealed : Bool := false
  slotOps : Nat := 0
  resetCtxs : List Nat := []
  resetTenants : List Nat := []
  allSafe : Bool := false
  ctxReset : Bool := false
deriving DecidableEq, Repr

/-- The state a tenant has of its own (R56, R58, R60, R228, R231, R252). -/
structure Tenant where
  overruns : Nat := 0
  lateFinishes : Nat := 0
  consec : Nat := 0
  latch : Bool := false
  overran : Bool := false
  resetsTaken : Nat := 0
  lateFails : Nat := 0
  ignored : Nat := 0
  dropped : Nat := 0
  lastRejection : BitVec 64 := 0
  resetReq : Bool := false
  floorsHeld : Bool := false
  started : Bool := false
  startUdp : BitVec 16 := 0
  notify : BitVec 64 := 0
  notifySent : Bool := false
  notifyDue : Bool := false
deriving DecidableEq, Repr

/-- Link states, 0x7010. -/
inductive LinkState where
  | up | spared | retraining | down
deriving DecidableEq, Repr

/-- One direction of a link (R10, R11). At its receiver: the SEQ expected next, a NAK that is to go with the next outgoing
flit, the flits accepted. At its sender: the SEQ of the next new flit, the replay buffer (flits not acknowledged, oldest
first, each with how often it was replayed), how many of its newest flits still have to be sent again, the flits that wait
to cross, the last ACK. -/
structure Dir where
  expSeq : BitVec 15 := 0
  nak : Bool := false
  accepted : List Flit := []
  nextSeq : BitVec 15 := 0
  buffer : List (Flit × Nat) := []
  toReplay : Nat := 0
  waiting : List Flit := []
  acked : BitVec 15 := 0
  replayTimes : List Nat := []
  sparesUsed : Nat := 0
deriving DecidableEq, Repr

/-- One link (R8 to R13, R32). -/
structure Link where
  state : LinkState := .up
  replays : Nat := 0
  retrains : Nat := 0
  retrainTimes : List Nat := []
  d0 : Dir := {}
  d1 : Dir := {}
  downDue : Bool := false
deriving DecidableEq, Repr

/-- One arbiter: a link direction or an LPDDR5X port (R230 to R232). -/
structure Arb where
  deficitImp : Tab Nat := []
  deficitMar : Tab Nat := []
  nextImp : Nat := 0
  nextMar : Nat := 0
  plant : Nat := 0
  mgmt : Nat := 0
  floor : Tab Nat := []
  imp : Tab Nat := []
  mar : Tab Nat := []
  scrub : Nat := 0
  idle : Nat := 0
deriving DecidableEq, Repr

/-- Where a translated access lands (R202): a device address, or a host page behind a PCIe function. -/
inductive Target where
  | dev (a : Nat)
  | hostPage (port func a : Nat)
deriving DecidableEq, Repr

/-- A posted write in flight (R22, R245). `way`: the links it crosses (R246). `gone`: its context was reset since; a later failure only counts (R242). `relaxed`: it
carries Relaxed Ordering (R250). -/
structure Posted where
  c : Nat
  q : Nat
  epoch : BitVec 16
  caddr : Nat
  target : Target
  bytes : List Byte
  way : List Nat := []
  gone : Option Nat := none
  relaxed : Bool := false
deriving DecidableEq, Repr

/-- Bank states, Table 3-2. -/
inductive BankState where
  | empty | loading | shadow | active | activeUpset
deriving DecidableEq, Repr

/-- A resolved matrix (R141 to R144, R171): the resolved base, one base per list entry, the padded shape, the element type
code. -/
structure Mat where
  space : Nat := 0
  base : Nat := 0
  bases : List Nat := [0]
  isList : Bool := false
  rows : Nat := 1
  cols : Nat := 1
  stride : Nat := 0
  ty : Nat := 1
  bucket : Nat := 8
deriving DecidableEq, Repr

/-- One weight bank of a plate (R62, R64, R91): the weights at key 1024 i + j, and what LOAD computes from them; `crc` has a
check word per row. `lost`: its die's link went down, which keeps only what the rebites need (R31). -/
structure Bank where
  state : BankState := .empty
  k : Nat := 0
  n : Nat := 0
  w : Tab Int := []
  colSum : Tab Int := []
  rowR : Tab Int := []
  rowH : Tab Int := []
  p : Tab Int := []
  h : Tab Int := []
  crc : List (BitVec 16) := []
  src : Mat := {}
  mirror : Option Mat := none
  lost : Bool := false
deriving DecidableEq, Repr

/-- Plate states, 0x4401. -/
inductive PlateState where
  | inService | overdue | linkDown | failed
deriving DecidableEq, Repr

/-- The burr ledger, Table 4-5, with the residual history behind DRIFT (R109, R110). -/
structure Ledger where
  proven : Nat := 0
  failed : Nat := 0
  rebitten : Nat := 0
  refused : Nat := 0
  flagged : Nat := 0
  maxBurr : Nat := 0
  lastBurr : Nat := 0
  maxFrame : Nat := 0
  nColumn : Nat := 0
  nRow : Nat := 0
  nUnclass : Nat := 0
  nClip : Nat := 0
  nUpset : Nat := 0
  nOut : Nat := 0
  failFrame : Nat := 0
  failLine : Nat := 0
  located : Bool := false
  failPlate : Nat := 0
  failCtx : Nat := 0
  failClass : Nat := 0
  failD : Int := 0
  failBurr : Nat := 0
  history : List Int := []
  driftAlarm : Bool := false
  changed : Bool := false
deriving DecidableEq, Repr

/-- The trims of every line, and the residual offset of each in 1/16 LSB after trimming (R84, R94). -/
structure Trims where
  off : Tab Int := []
  gain : Tab Int := []
  resid : Tab Int := []
deriving DecidableEq, Repr

/-- A pass of an ETCH: its plate, its round, the high byte of its input or not. -/
abbrev Pass := Nat × Nat × Bool

/-- A failed pass that waits for its rebite (R99 to R105): its exact sums, its codes, whether its plate was out of service,
and whether the bank's own sums were lost. -/
structure FailedPass where
  g : Nat
  round : Nat
  hi : Bool
  e1 : Int
  e2 : Int
  codes : Tab Int
  out : Bool
  lost : Bool
deriving DecidableEq, Repr

/-- A rebite queued on a Field die (R100). -/
structure Rebite where
  c : Nat
  q : Nat
  idx : Nat
  g : Nat
  round : Nat
  hi : Bool
  reserved : Bool
deriving DecidableEq, Repr

/-- Status codes, Table 7-8. -/
inductive Status where
  | success | bucketNone | shapeMismatch | stockShare | wellShare | etchShare | plistIndex | misaligned | noRoute
  | mirrorPlace | buildMismatch | unmapped | poison | linkDown | plateNotOwned | bankBusy | bankEmpty | burrFault
  | hatchCheck | channelNotOwned | actuateMargin | extAbsent | extTimeout | extHung | extFail (code : Nat)
  | overrun | reset | lateWrite
deriving DecidableEq, Repr

/-- One item of a HATCH walk (R163): a staged sheet, a fetched panel or slice (row, column and reduction ranges,
start and count), or a hatch tile. -/
inductive WalkKind where
  | sheet | panel | slice | tile
deriving DecidableEq, Repr

structure WalkItem where
  kind : WalkKind
  entry : Nat
  r0 : Nat
  rn : Nat
  c0 : Nat
  cn : Nat
  k0 : Nat
  kn : Nat
deriving DecidableEq, Repr

/-- Operands latched by a fetch (R164): row-major element values of the A part and of the B part. -/
structure FetchBuf where
  item : Nat
  a : List Int
  b : List Int
deriving DecidableEq, Repr

/-- A HATCH on the Crosshatch array: its walk, the tile that runs, what is fetched, its claims in wells of the staging part
and in pages of the sheet share of each stock, and which of them it still waits for (R175). -/
structure HatchRun where
  walk : List WalkItem
  ch : Nat := 16
  tileAt : Nat := 0
  bufs : List FetchBuf := []
  rerun : Bool := false
  sats : Nat := 0
  reruns : Nat := 0
  claim : Nat := 0
  waiting : Bool := false
  pages : Nat × Nat := (0, 0)
  sheetWait : Bool := false
deriving DecidableEq, Repr

/-- A STIPPLE, or a HATCH routed to Stipple (R120): operations of at most 64 rows, in ascending order. -/
structure StipRun where
  opAt : Nat := 0
  ops : Nat := 1
  rerun : Bool := false
  sats : Nat := 0
  reruns : Nat := 0
  claim : Nat := 0
  waiting : Bool := false
  fetched : Bool := false
  bufX : List Int := []
deriving DecidableEq, Repr

/-- An ETCH (R76 to R81, R149): the accumulator groups (register j of round r at key 1024 r + j), the pass slot in
progress and the contributions it has gathered, the failed passes, the passes to run again after a GUARD (R105), and the
input latches: the DAC codes of the pass each plate runs and of the one after it (R72). -/
structure EtchRun where
  pdie : Nat
  plates : List Nat
  s : Nat
  u : Nat
  cin : Bool
  wide : Bool
  signed : Bool
  ks : List Nat
  n : Nat
  rounds : Nat
  round : Nat := 0
  hi : Bool := false
  acc : Tab Int := []
  loaded : Bool := false
  arrived : List Nat := []
  lo : Tab Int := []
  fails : List FailedPass := []
  slotsDone : Bool := false
  clip : Nat := 0
  sat : Nat := 0
  overdue : Bool := false
  upset : Bool := false
  maxBurr : Nat := 0
  failed : Nat := 0
  rebitten : Nat := 0
  flagPlates : List Nat := []
  located : Bool := false
  saved : Bool := false
  redo : List Pass := []
  latch : List (Pass × List Nat) := []
deriving DecidableEq, Repr

/-- A LOAD or a SWAP in progress. -/
structure LoadRun where
  g : Nat
  toB : Bool
  k : Nat
  n : Nat
deriving DecidableEq, Repr

/-- What an outstanding macro-instruction is doing. -/
inductive Prog where
  | simple
  | hatch (h : HatchRun)
  | stip (h : StipRun)
  | etch (h : EtchRun)
  | load (h : LoadRun)
  | swap (plates : List Nat)
  | ext (m p : Nat)
deriving DecidableEq, Repr

/-- An outstanding macro-instruction (R139): its queue and index, its word, its resolved descriptors (R143), the writes it
has made so far, which stand when it does not fault (R140), and, once its unit has finished, its status and status word
(R147). -/
structure Op where
  c : Nat
  q : Nat
  idx : Nat
  word : BitVec 256
  reserved : Bool
  da : Mat := {}
  db : Mat := {}
  dd : Mat := {}
  prog : Prog := .simple
  fin : Option Status := none
  sword : BitVec 64 := 0
  detail : BitVec 64 := 0
  suspended : Bool := false
  unit : Nat := 0xFF
  held : List Posted := []
deriving DecidableEq, Repr

/-- A pass in flight where its ETCH stopped, overran or was reset: it is still proven and counted, its codes are discarded
(R83, R240). -/
structure Flight where
  op : Op
  bank : Bank
  cls : Nat
deriving DecidableEq, Repr

/-- One plate (R61 to R91). `offTrim`, `gainTrim`: the trims in effect; `offsets`: the residual offsets; `measured`: the
sums of the burnish in progress; `lastTrim`: temperature and trims of the last burnish; `slope`: the last two burnishes
1 °C or more apart; `history`: the latest burnish at each temperature, newest first (R85). `due`: a burnish is due, by time
(`dueTimed`) or temperature (`dueTemp`), `frames` after the latter (R86, R87). -/
structure Plate where
  state : PlateState := .inService
  overdueToo : Bool := false
  bankA : Bank := {}
  bankB : Bank := {}
  owner : Option Nat := none
  temp : Int := 0
  lastTemp : Int := 0
  lastAt : Nat := 0
  worstOff : Nat := 0
  worstGain : Nat := 0
  burnishes : Nat := 0
  overdues : Nat := 0
  upsets : Nat := 0
  offTrim : Tab Int := []
  gainTrim : Tab Int := []
  offsets : Tab Int := []
  measured : BurnishSums := {}
  pendingTrim : Option Trims := none
  lastTrim : Option (Int × Trims) := none
  slope : Option ((Int × Trims) × (Int × Trims)) := none
  history : List (Int × Trims) := []
  dueTimed : Bool := false
  dueTemp : Bool := false
  steps : Nat := 0
  stepped : Bool := false
  frames : Nat := 0
  failDue : Bool := false
  ledger : Ledger := {}
  flight : Option Flight := none
deriving DecidableEq, Repr

/-- An event record before it is written (Table 9-8); LOST is set when it is written. `waiver`: the device runs WAIVED, which
stays until its next reset (R191, R192). -/
structure Rec where
  kind : Nat
  status : Nat := 0
  c : Nat := 0
  q : Nat := 15
  gen : BitVec 16 := 0
  cookie : BitVec 64 := 0
  frame : BitVec 32 := 0
  phase : Nat := 0
  die : Nat := 0x1F
  index : Nat := 0
  detail : BitVec 64 := 0
  waiver : Bool := false
deriving DecidableEq, Repr

/-- A running queue entry (R206, R210). -/
structure Run where
  prog : Nat
  replay : Bool
  notify : Bool
  result : Nat
  cookie : BitVec 64
  pc : Nat := 0
  lastDone : Nat := 0
  waiting : Bool := false
  fault : Option Status := none
  faultIdx : Nat := 0
  faultDetail : BitVec 64 := 0
  suspended : Bool := false
deriving DecidableEq, Repr

/-- One queue of a context (ch. 09): free-running head and tail, the parameter registers (R145), the fence
sequence (R245), a debug halt (R370), the address of a late failure that no fence covers yet (R247), what the head entry
last ran as once it has `started` (mode, cookie, result area, last index that completed), the last host-page write and the
PCIe functions that carried host-page writes (R250). -/
structure Queue where
  head : BitVec 16 := 0
  tail : BitVec 16 := 0
  halted : Bool := false
  eligible : Bool := false
  headDone : Bool := false
  headEnded : Bool := false
  headRan : Bool := false
  run : Option Run := none
  prm : Tab (BitVec 64) := []
  seq : BitVec 13 := 0
  haltAt : Option Nat := none
  haltBy : Option Via := none
  lateAt : Option Nat := none
  started : Bool := false
  mode : Bool := false
  cookie : BitVec 64 := 0
  result : Nat := 0
  lastIdx : Nat := 0
  lastHost : Option (Nat × BitVec 16) := none
  hostFuncs : List (Nat × Nat) := []
deriving DecidableEq, Repr

/-- A pending fence (R215, R156): the epoch it closes, the counter update it performs, whether it flushes, and the functions
whose zero-length read has still to complete (R250). -/
structure Fence where
  q : Nat
  seq : BitVec 13
  ctr : Nat
  set : Bool
  value : BitVec 32
  event : Bool
  flush : Bool
  cookie : BitVec 64
  idx : Nat
  reads : List (Nat × Nat) := []
  late : Option Nat := none
  host : Option (Nat × BitVec 16) := none
deriving DecidableEq, Repr

/-- The late-fault record, Table 10-7. -/
structure Late where
  valid : Bool := false
  more : Bool := false
  cause : Nat := 0
  q : Nat := 0
  epoch : BitVec 16 := 0
  caddr : Nat := 0
  daddr : Nat := 0
  frame : BitVec 32 := 0
  count : Nat := 0
  reported : Bool := false
deriving DecidableEq, Repr

/-- Context states, Table 9-3. -/
inductive CtxState where
  | free | created | admitted | orphaned | ending
deriving DecidableEq, Repr

/-- Reset scopes, Table 10-3. -/
inductive Scope where
  | context | function | tenant | warm | cold
deriving DecidableEq, Repr

/-- One context (ch. 09, 10). -/
structure Ctx where
  state : CtxState := .free
  gen : BitVec 16 := 0
  tenant : Nat := 0
  count : BitVec 32 := 0
  devref : Bool := false
  dying : Bool := false
  record : BitVec 1024 := 0
  copy : Nat := 0
  via : Via := .supervisor
  slot : Option Nat := none
  lastRun : Nat := 0
  admitDue : Bool := false
  invalidates : List (Nat × Nat) := []
  plateReleases : List Nat := []
  teardownDue : Bool := false
  deviceOwns : Bool := false
  resetDue : Bool := false
  scope : Option Scope := none
  evicted : Bool := false
  ackDue : Bool := false
  ringWritten : Nat := 0
  ringRead : Nat := 0
  hold : List Rec := []
  lost : Bool := false
  counters : Tab (BitVec 32) := []
  queues : Tab Queue := []
  fences : List Fence := []
  late : Late := {}
  poisoned : Bool := false
  ledger : Ledger := {}
  impAllow : Nat := 0
  marAllow : Nat := 0
  refused : Nat := 0
  tlb : Tab (Option (BitVec 64)) := []
  granted : Bool := false
  etchBase : Tab Nat := []
  wellBase : Tab Nat := []
  toNotify : List Nat := []
deriving DecidableEq, Repr

/-- A program of a verified bundle (Tables 8-2, 8-3). -/
structure Program where
  macros : List (BitVec 256) := []
  descs : List (BitVec 256) := []
  plans : List (BitVec 256) := []
  buckets : List (BitVec 64) := []
deriving DecidableEq, Repr

/-- A bundle as parsed from its bytes; a verified copy is one that passed stages 1 to 4 (R177, R178). -/
structure Bundle where
  tenant : Nat := 0
  header : BitVec 512 := 0
  progs : Tab Program := []
  build : List (BitVec 256) := []
  res : BitVec 512 := 0
  digests : List (BitVec 512) := []
  units : List (BitVec 64) := []
  offs : List Nat := []
deriving DecidableEq, Repr

/-- The selectors and the created context of one view (R260). -/
structure ViewSel where
  ctxSel : Nat := 0
  ledgerSel : Nat := 0
  queueSel : Nat := 0
  created : BitVec 32 := 0
deriving DecidableEq, Repr

/-- An accepted rwt write that waits for its tick (R256): `ticks` more ticks. -/
structure Rwt where
  key : Nat
  v : Nat
  ticks : Nat
deriving DecidableEq, Repr

/-- A provisioning session (R282, R283). `staged` is oldest first. -/
structure Session where
  endpoint : Via
  slot : Nat
  nonce : BitVec 384
  digest : BitVec 384
  staged : List (Nat × Nat) := []
deriving DecidableEq, Repr

/-- NMT states of a CAN FD port. -/
inductive Nmt where
  | off | preOperational | operational | stopped
deriving DecidableEq, Repr

/-- One CAN FD port (R262 to R267). `sentAt`: by TPDO, 1 more than the time it was last sent, 0 for never. -/
structure CanPort where
  nmt : Nmt := .off
  errReg : BitVec 8 := 0
  latched : Option Nmt := none
  syncCount : Tab Nat := []
  captured : Tab (List Byte) := []
  beats : Tab Nat := []
  busOff : Bool := false
  rxCount : Nat := 0
  sentAt : Tab Nat := []
deriving DecidableEq, Repr

/-- A kept Pranil answer (R271). -/
structure Answer where
  ip : BitVec 32
  udp : BitVec 16
  req : BitVec 256
  hdr : BitVec 256
  payload : List Byte
deriving DecidableEq, Repr

/-- One Ethernet port (R268, R269). `pdelaySeq`: the Pdelay_Req last sent; `pathDelay` in ns. -/
structure EthPort where
  speed : Nat := 0
  synced : Bool := false
  offset : Int := 0
  dhcp : BitVec 32 := 0
  dhcpMask : BitVec 32 := 0
  dhcpGateway : BitVec 32 := 0
  grandmaster : Option (BitVec 128) := none
  pdelaySeq : BitVec 16 := 0
  pathDelay : Int := 0
  answers : List Answer := []
  latched : List (Nat × Bool × BitVec 16) := []
deriving DecidableEq, Repr

/-- A cyclic map's own state (R273, R275). -/
structure CycMap where
  captured : Option (List Byte) := none
  sendDue : Bool := false
  sent : Nat := 0
  accepted : Nat := 0
  missed : Nat := 0
  arrived : Bool := false
deriving DecidableEq, Repr

/-- Mailbox status, Table 11-11. -/
inductive Mbx where
  | idle | busy | done | aborted
deriving DecidableEq, Repr

/-- One PCIe function (R227, R239, R277, R384). -/
structure Func where
  mbx : Mbx := .idle
  vec : BitVec 16 := 0
  req : BitVec 256 := 0
  reqData : List Byte := []
  rspHdr : BitVec 256 := 0
  rspData : List Byte := []
  msixEnable : Bool := false
  msixMask : Bool := false
  unmasked : Tab Bool := []
  pendingBits : Tab Bool := []
  blocked : Bool := false
  resetReq : Bool := false
  relaxedOrdering : Bool := false
deriving DecidableEq, Repr

/-- One PCIe port. -/
structure PciePort where
  linkUp : Bool := false
  answering : Bool := false
deriving DecidableEq, Repr

/-- Machine checks of a Burin core (R28, R251). -/
inductive MachineCheck where
  | none | precise | imprecise
deriving DecidableEq, Repr

/-- One Burin partition (R229), with the machine check last taken in it (R28, R251). -/
structure Part where
  pendingWord : BitVec 64 := 0
  irq : Bool := false
  mcheck : MachineCheck := .none
deriving DecidableEq, Repr

/-- Everything outside a frame's plant path that talks: ports, functions, maps, the session, the views. -/
structure Net where
  can : Tab CanPort := []
  eth : Tab EthPort := []
  maps : Tab CycMap := []
  func : Tab Func := []
  pcie : Tab PciePort := []
  parts : Tab Part := []
  views : Tab ViewSel := []
  session : Option Session := none
  lastCommit : BitVec 32 := 0
  failObj : BitVec 32 := 0
  xferAccepted : Nat := 0
  xferRefused : Nat := 0
  aborts : Nat := 0
deriving DecidableEq, Repr

/-- One sigma-delta channel (R290). -/
structure SdCh where
  latched : Int := -2147483648
  valid : Bool := false
  overrange : Bool := false
  overranges : Nat := 0
  bits : Nat := 0
  ratio : Nat := 0
deriving DecidableEq, Repr

/-- One position interface (R291 to R293). -/
structure PosIf where
  count : BitVec 31 := 0
  latched : Int := -2147483648
  indexPos : Int := 0
  index : Bool := false
  error : Bool := false
  rearm : Bool := false
  cleared : Bool := false
deriving DecidableEq, Repr

/-- One plant output (R55, R295): pending and active values with their SAFE marks. -/
structure Output where
  pend : Int := 0
  pendSafe : Bool := true
  act : Int := 0
  actSafe : Bool := true
deriving DecidableEq, Repr

/-- One PWM channel's carrier (R296 to R298): carrier periods started in this frame, the on-time applied, whether the
high side and the low side are on, and the edges to come (offset in 100 ps, high side, low side). -/
structure Pwm where
  carrier : Nat := 0
  onTime : Nat := 0
  on : Bool := false
  lowOn : Bool := false
  plan : List (Nat × Bool × Bool) := []
deriving DecidableEq, Repr

/-- Diagnosis results, Table 12-4. -/
inductive Diag where
  | notDiagnosed | goodOn | goodOff | open | overcurrent | switchFault
deriving DecidableEq, Repr

/-- One load-control channel (R299 to R304). `onTime` and `start` in 10 ns. -/
structure LoadCh where
  running : Bool := false
  start : Nat := 0
  onTime : Nat := 0
  on : Bool := false
  stretched : Bool := false
  probing : Bool := false
  result : Diag := .notDiagnosed
  windowDone : Bool := false
  reported : Bool := false
  last : Diag := .notDiagnosed
  period : Diag := .notDiagnosed
  starved : Bool := false
  latched : Bool := false
  age : Nat := 0
  starveCount : Nat := 0
  stretchCount : Nat := 0
  senseAvg : Nat := 0
  oldResult : Option Diag := none
deriving DecidableEq, Repr

/-- One Gauge die. Outputs 0-11 are PWM, 12-19 load-control (Table 12-1). -/
structure Gauge where
  written : Bool := false
  hiZ : Bool := true
  unreadable : Nat := 0
  sd : Tab SdCh := []
  pos : Tab PosIf := []
  outs : Tab Output := []
  pwm : Tab Pwm := []
  load : Tab LoadCh := []
deriving DecidableEq, Repr

/-- Die states of a Field die, 0x6001+m:03. -/
inductive DieState where
  | unconfigured | configuring | held | releasing | running
deriving DecidableEq, Repr

/-- One collar in FIFO mode (R315, R316): the words, oldest first, the word last read, the flags as of the last access
of their side, and the reads since CREDIT_RETURN. -/
structure Collar where
  words : List (BitVec 72) := []
  lastWord : BitVec 72 := 0
  full : Bool := false
  empty : Bool := true
  almostFull : Bool := false
  almostEmpty : Bool := true
  overflow : Bool := false
  underflow : Bool := false
  returned : Nat := 0
deriving DecidableEq, Repr

/-- A command on an extension port (R127 to R129). -/
structure ExtPort where
  cmd : Option (Nat × Nat × Nat) := none
  aborting : Bool := false
  timedOut : Bool := false
  job : Option Op := none
deriving DecidableEq, Repr

/-- One serial lane (R324). -/
structure Lane where
  state : Nat := 0
  rate : Nat := 0
  prbs : Nat := 0
deriving DecidableEq, Repr

/-- One Field die: configuration, instance, fabric (ch. 05, 13). `copy` is the supervisor's copy of the bitstream it runs
or loads, `newCopy` that of a slot a reconfiguration asks for; `wellPar` lists the bytes of its wells whose ninth bit is
1 against PARITY 0, or against even parity (R313). `ffs`: the two flip-flops of cell n at 2 n and 2 n + 1; `cellMem`: the
dynamic cells; `spineOn`: the spine enables that act; `clockWas`: routed clocks at the last edge (Machine/Cells.lean). -/
structure Fab where
  die : DieState := .unconfigured
  result : Nat := 0
  rel : Nat := 0
  releaseDue : Bool := false
  copy : Option Bitstream := none
  newCopy : Option Bitstream := none
  copySlot : Nat := 0xFF
  desc : BitVec 64 := 0
  ports : Tab (BitVec 64) := []
  bs : Option Bitstream := none
  disabled : BitVec 8 := 0
  mismX : Nat := 0
  mismS : Nat := 0
  corrected : Nat := 0
  rewritten : Nat := 0
  lastScrub : BitVec 32 := 0
  stripe : Nat := 0
  resumeStripe : Nat := 0
  demanded : Bool := false
  restartDue : Bool := false
  restarting : Bool := false
  restartGo : Bool := false
  reconfig : Option Nat := none
  ext : Tab ExtPort := []
  wellPar : Tab Bool := []
  collars : Tab Collar := []
  tapIn : Tab (BitVec 7) := []
  tapOut : Tab (BitVec 7) := []
  ffs : Tab Bool := []
  cellMem : Tab (BitVec 64) := []
  spineOn : Tab Bool := []
  clockWas : Tab Bool := []
  lanes : Tab Lane := []
  trst : BitVec 8 := 0
  fabTick : Bool := false
  resetsOn : Bool := true
  enables : Bool := false
  padsOn : Bool := false
deriving DecidableEq, Repr

/-- One rail (R340, R341). -/
structure Rail where
  figure : Nat := 0
  held : Bool := false
  overOnce : Bool := false
deriving DecidableEq, Repr

/-- A planned B0 frequency change (R348). -/
inductive Plan where
  | none | raise | lower
deriving DecidableEq, Repr

/-- The Volt die (ch. 14): `plan` is the B0 change due at this GUARD's switch, `planned` the one for the next GUARD;
`posNext` the ladder position from the next tick; `warmDue` a warm reset due at the next tick (R341, R355). -/
structure Power where
  rails : Tab Rail := []
  stretched : Tab Bool := []
  step : Nat := 4
  railStep : Nat := 4
  plan : Plan := .none
  planned : Plan := .none
  droopInGuard : Bool := false
  cancels : Nat := 0
  raisingStopped : Bool := false
  position : Nat := 0
  posNext : Nat := 0
  outside : Bool := false
  warmDue : Option Nat := none
deriving DecidableEq, Repr

/-- Lifecycle states, Table 15-2. -/
inductive Life where
  | blank | provisioned | fielded | recalled | scrapped
deriving DecidableEq, Repr

/-- An owner key slot's state bits (R361). -/
inductive KeyState where
  | empty | active | revoked
deriving DecidableEq, Repr

/-- An owner key slot of the OTP: the SHA-384 of the key and the state bits. -/
structure KeySlot where
  hash : BitVec 384 := 0
  state : KeyState := .empty
deriving DecidableEq, Repr

/-- The OTP fields that software can observe or a command can fuse (Table 15-1). The device secret is never
readable and no rule computes a visible value from it, so it is no field. -/
structure Otp where
  uid : BitVec 128 := 0
  vendorDebug : BitVec 384 := 0
  slots : Tab KeySlot := []
  minG : Nat := 0
  minB : Nat := 0
  minN : Nat := 0
  life : Life := .blank
  target : Option Life := none
  epoch : Nat := 0
deriving DecidableEq, Repr

/-- Debug levels, Table 15-5. -/
inductive Level where
  | sealedLevel | tenant | owner | vendor
deriving DecidableEq, Repr

/-- A debug challenge (R367). -/
structure Challenge where
  endpoint : Via
  value : BitVec 384
  level : Level
  tenant : Nat
  slot : Nat
deriving DecidableEq, Repr

/-- A debug grant (R368). -/
structure Grant where
  endpoint : Via
  level : Level
  tenant : Nat
  slot : Nat
deriving DecidableEq, Repr

/-- Power states, Table 15-6. -/
inductive PowerState where
  | run | hold | doze | ember | off
deriving DecidableEq, Repr

/-- Lifecycle, keys, debug, power states, the ember domain (ch. 15). `badKeys`: slots whose key failed its check at this
boot (R361). `rtc` is the clock at time `rtcAt` of the frame's `now`. -/
structure Sec where
  otp : Otp := {}
  keys : Tab (BitVec 776) := []
  badKeys : List Nat := []
  lifeReq : Option Life := none
  erasing : Bool := false
  grants : List Grant := []
  challenges : List Challenge := []
  fails : Nat := 0
  lockout : Bool := false
  window : List (Via × BitVec 64) := []
  power : PowerState := .run
  powerReq : Option PowerState := none
  entering : Option PowerState := none
  wakeWaiting : Option Nat := none
  waking : Bool := false
  wakeCause : Nat := 0
  rtc : BitVec 64 := 0
  rtcSet : Bool := false
  rtcAt : Nat := 0
  emberSupply : Bool := true
  boots : Nat := 0
  wakes : Nat := 0
  waiverBoots : Tab Nat := []
deriving DecidableEq, Repr

/-- Device states, Table 11-10. -/
inductive DevState where
  | starting | ready | limp | waived | recovery
deriving DecidableEq, Repr

/-- Ground recovery kinds, Table 16-6. -/
inductive Recovery where
  | none | rom | image
deriving DecidableEq, Repr

/-- The provisioning store (R285): two copies, and the commit marker, which names copy B as the current one. `torn`: power
was lost while the other copy was being written. -/
structure Store where
  copyA : Tab Nat := []
  copyB : Tab Nat := []
  marked : Bool := false
  torn : Bool := false
deriving DecidableEq, Repr

/-- Start-up and reset causes (ch. 08, 16, 17). `unusedBank` by image code holds what recovery has written, over an erased
bank (0xFF); `touched` by 2 × image code + bank marks a bank erased or written since its last good COMMIT. -/
structure Boot where
  dev : DevState := .starting
  started : Bool := false
  warm : Bool := false
  resetLow : Bool := true
  suppliesGood : Bool := true
  sysclk : Bool := true
  cause : Nat := 0
  recovery : Recovery := .none
  gDone : Bool := false
  gaugeDone : Bool := false
  memDone : Bool := false
  imagesDone : Bool := false
  burnishDone : Bool := false
  ticked : Bool := false
  gImg : Option Image := none
  bImg : Option Image := none
  nImg : Option Image := none
  gBank : Nat := 0
  bBank : Nat := 0
  nBank : Nat := 0
  compat : Nat := 0
  failPair : BitVec 16 := 0
  failA : BitVec 32 := 0
  failB : BitVec 32 := 0
  untested : Nat := 0
  heldHot : Bool := false
  store : Store := {}
  storeLost : Bool := false
  storeFresh : Bool := false
  recoveryKey : Option Nat := none
  pwrEn : Bool := false
  warmReq : Option Nat := none
  coldReq : Bool := false
  warmDue : Bool := false
  unusedBank : Tab (Tab Byte) := []
  touched : Tab Bool := []
  recStatus : Nat := 0
  recResult : Nat := 0
deriving DecidableEq, Repr

/-- What the device has sent out, newest last (log 5). -/
inductive OutMsg where
  | datagram (port : Nat) (tag : VlanTag) (ip : BitVec 32) (udp src : BitVec 16) (hdr : BitVec 256) (payload : List Byte)
  | reply (via : Via) (abort : Nat) (len v : Nat)
  | callReply (via : Via) (hdr : BitVec 256) (payload : List Byte)
  | bootUp (port : Nat)
  | emcy (port code : Nat) (reg : BitVec 8) (frame : BitVec 32)
  | heartbeat (port state : Nat)
  | tpdo (port n : Nat) (payload : List Byte)
  | msix (port func entry : Nat)
  | burinIrq (part : Nat)
  | superEvent (r : Rec)
  | fabricUpset (m : Nat)
  | machineCheck (k : Nat)
  | partCheck (part : Nat) (kind : MachineCheck)
  | console (cause : Nat)
  | milestone (line : Nat)
  | config (port func : Nat) (answered : Bool)
  | icmpReply (port : Nat) (tag : VlanTag) (ip : BitVec 32) (payload : List Byte)
  | arpReply (port : Nat) (tag : VlanTag) (ip : BitVec 32)
  | pdelayReq (port : Nat) (seq : BitVec 16)
  | pdelayResp (port : Nat) (source : BitVec 80) (seq : BitVec 16) (arrival : Int)
  | bundle (via : Via) (rejection : BitVec 64)
  | recovery (result : Nat)
  | creditReturn (m w : Nat)
  | wellBus (m w a : Nat) (unmapped poison : Bool) (v : Byte)
  | extCommand (m p c tenant : Nat) (word : BitVec 256) (stream : List Byte)
deriving DecidableEq, Repr

/-- Link and memory error counters (Table 1-11). -/
structure MemStat where
  lpCorr : Nat := 0
  lpUncorr : Nat := 0
  stCorr : Nat := 0
  stUncorr : Nat := 0
  lastBad : Nat := 0
  trained : BitVec 16 := 0x0FFF
  capacity : Nat := 4
  rate : Nat := 6400
deriving DecidableEq, Repr

/-- Who can stop a step with a fault. The block has no machine fault of its own: every refusal of the spec is a
value in State, so no meaning answers with this constructor; it is safe. -/
inductive Fault where
  /-- Raised by nobody (see INVENTORY.md, Faults). Safe. -/
  | none
deriving DecidableEq, Repr

/-- Why a step answers no next state. -/
inductive Refusal where
  /-- An arm of exec that has no meaning yet. Safe. -/
  | notModelled (mnemonic : String)
  /-- A debug write (WINDOW_DATA_WRITE) to a register block of a die: R366 gives the access and no rule says what
  the block's registers do. Safe. -/
  | registerBlock
deriving DecidableEq, Repr

/-- The whole machine. -/
structure State where
  frame : Frame := {}
  tenants : Tab Tenant := []
  links : Tab Link := []
  arb : Tab Arb := []
  mem : Tab Byte := []
  host : Tab Byte := []
  poison : List Nat := []
  memStat : MemStat := {}
  posted : List Posted := []
  plates : Tab Plate := []
  rebites : Tab (List Rebite) := []
  fabs : Tab Fab := []
  ops : List Op := []
  unitHeld : Tab Nat := []
  ctxs : Tab Ctx := []
  slotOpsTotal : Nat := 0
  restores : List (Bool × Nat) := []
  bundles : List Bundle := []
  obj : Tab Nat := []
  eff : Tab Nat := []
  effT : Tab Nat := []
  rwt : List Rwt := []
  net : Net := {}
  gauges : Tab Gauge := []
  power : Power := {}
  sec : Sec := {}
  boot : Boot := {}
  out : List OutMsg := []
  freeCtr : Nat := 0
  pending : List Instr := []
deriving DecidableEq, Repr

/-- The machine held in cold reset, before POWER_GOOD (R378): every table empty, so every register at its default
(Tables of ch. 01 to 15), the tick STOPPED (Table 2-3), every Gauge pin high impedance (R305), BLANK (0x2200:01). -/
def State.reset : State := {}

end Sys2Proof.Machine
end

