-- ==== Sys2Proof/Machine/Tab.lean ====
section
/-!
DEFINITION. Sparse tables in one canonical form: strictly rising keys, no entry equal to the default. Every
collection of State is such a table, so equal contents are equal data.
-/

namespace Sys2Proof.Machine

/-- The value at a key; the default where nothing is listed. -/
def tget {α : Type} (d : α) : Tab α → Nat → α
  | [], _ => d
  | (j, v) :: t, k => if k = j then v else tget d t k

/-- Take a key out. -/
def tdel {α : Type} (t : Tab α) (k : Nat) : Tab α := t.filter (fun e => decide (e.1 ≠ k))

/-- Put an entry in its place. -/
def tins {α : Type} : Tab α → Nat → α → Tab α
  | [], k, v => [(k, v)]
  | (j, w) :: t, k, v => if k < j then (k, v) :: (j, w) :: t else (j, w) :: tins t k v

/-- Write one key. Writing the default removes the entry. -/
def tset {α : Type} [DecidableEq α] (d : α) (t : Tab α) (k : Nat) (v : α) : Tab α :=
  if v = d then tdel t k else tins (tdel t k) k v

/-- Change one key by a function of its value. -/
def tmod {α : Type} [DecidableEq α] (d : α) (t : Tab α) (k : Nat) (f : α → α) : Tab α :=
  tset d t k (f (tget d t k))

/-- Every listed key rises. -/
def tsorted {α : Type} : Tab α → Bool
  | [] => true
  | [_] => true
  | (j, _) :: (k, v) :: t => decide (j < k) && tsorted ((k, v) :: t)

/-- The canonical form. -/
def twf {α : Type} [DecidableEq α] (d : α) (t : Tab α) : Bool :=
  tsorted t && t.all (fun e => decide (e.2 ≠ d))

/-- The listed keys. -/
def tkeys {α : Type} (t : Tab α) : List Nat := t.map (·.1)

/-- Change every listed value. -/
def tmap {α : Type} [DecidableEq α] (d : α) (f : Nat → α → α) : Tab α → Tab α
  | [] => []
  | (k, v) :: t => tset d (tmap d f t) k (f k v)

/-- Write consecutive keys from `k`. -/
def tsetRun {α : Type} [DecidableEq α] (d : α) (t : Tab α) (k : Nat) : List α → Tab α
  | [] => t
  | v :: vs => tsetRun d (tset d t k v) (k + 1) vs

/-- Read `n` consecutive keys from `k`. -/
def tgetRun {α : Type} (d : α) (t : Tab α) (k n : Nat) : List α :=
  (List.range n).map (fun i => tget d t (k + i))

/-- A table from a dense list. -/
def tofList {α : Type} [DecidableEq α] (d : α) (vs : List α) : Tab α := tsetRun d [] 0 vs

end Sys2Proof.Machine
end

