-- ==== Sys2Proof/Machine/Objects.lean ====
section
/-!
DEFINITION. The object map (R253, R254, R261): which objects exist, their type, size, access, default and range, and
the three moments at which a provisioned value counts: in force, latched at the last reset, latched at the last tick.
-/

namespace Sys2Proof.Machine

/-- Access codes, Table 11-2. -/
inductive Acc where
  | ro | rw | wo | const | rwp | rwt
deriving DecidableEq, Repr

/-- The DESCRIBE value of an access code, Table 11-2. -/
def Acc.code : Acc → Nat
  | .ro => 0 | .rw => 1 | .wo => 2 | .const => 3 | .rwp => 4 | .rwt => 5

/-- One row of the object tables: indices `i` to `i + n - 1`, sub-indices `s0` to `s1`, type code (Table 11-1), size
in bytes, access, default, range. -/
structure ObjRow where
  i : Nat
  n : Nat
  s0 : Nat
  s1 : Nat
  ty : Nat
  size : Nat
  acc : Acc
  dflt : Nat
  lo : Int
  hi : Int
deriving DecidableEq, Repr

/-- Rows of the unsigned types over their whole range. -/
def u8 (i n s0 s1 : Nat) (a : Acc) (d : Nat) (lo : Int := 0) (hi : Int := 0xFF) : ObjRow :=
  ⟨i, n, s0, s1, 5, 1, a, d, lo, hi⟩
def u16 (i n s0 s1 : Nat) (a : Acc) (d : Nat) (lo : Int := 0) (hi : Int := 0xFFFF) : ObjRow :=
  ⟨i, n, s0, s1, 6, 2, a, d, lo, hi⟩
def u32 (i n s0 s1 : Nat) (a : Acc) (d : Nat) (lo : Int := 0) (hi : Int := 0xFFFFFFFF) : ObjRow :=
  ⟨i, n, s0, s1, 7, 4, a, d, lo, hi⟩
def u64 (i n s0 s1 : Nat) (a : Acc) (d : Nat) : ObjRow := ⟨i, n, s0, s1, 0x1B, 8, a, d, 0, 2 ^ 64 - 1⟩
def i16 (i n s0 s1 : Nat) (a : Acc) : ObjRow := ⟨i, n, s0, s1, 3, 2, a, 0, -(2 ^ 15), 2 ^ 15 - 1⟩
def i32 (i n s0 s1 : Nat) (a : Acc) : ObjRow := ⟨i, n, s0, s1, 4, 4, a, 0, -(2 ^ 31), 2 ^ 31 - 1⟩
def oct (i n s0 s1 : Nat) (a : Acc) (size : Nat) : ObjRow := ⟨i, n, s0, s1, 0x0A, size, a, 0, 0, 2 ^ (8 * size) - 1⟩
def vis (i n s0 s1 : Nat) (a : Acc) (size d : Nat) : ObjRow := ⟨i, n, s0, s1, 9, size, a, d, 0, 2 ^ (8 * size) - 1⟩

/-- Table 11-5, one copy per CAN FD port. The types and meanings of sub-indices 01 to 06 of a PDO's communication
object are those of CiA 1301 (PRESUMED, log 7); bit 31 of a COB-ID marks it disabled. -/
def rowsCan : List ObjRow :=
  [u32 0x1000 1 0 0 .const 0, u8 0x1001 1 0 0 .ro 0, u32 0x1005 1 0 0 .rwp 0x80,
   vis 0x1008 1 0 0 .const 8 0x3032484C43, vis 0x100A 1 0 0 .ro 16 0, u32 0x1014 1 0 0 .rwp 0,
   u32 0x1016 1 1 8 .rwp 0, u16 0x1017 1 0 0 .rwp 100, u32 0x1018 1 1 4 .const 0]
  ++ [u32 0x1400 16 1 1 .rwp 0x80000000, u8 0x1400 16 2 2 .rwp 255, u16 0x1400 16 3 3 .rwp 0,
   u8 0x1400 16 4 4 .rwp 0, u16 0x1400 16 5 5 .rwp 0, u8 0x1400 16 6 6 .rwp 0, u8 0x1400 16 7 7 .rwp 0xFF,
   u32 0x1600 16 1 0x40 .rwp 0,
   u32 0x1800 16 1 1 .rwp 0x80000000, u8 0x1800 16 2 2 .rwp 255, u16 0x1800 16 3 3 .rwp 0,
   u8 0x1800 16 4 4 .rwp 0, u16 0x1800 16 5 5 .rwp 0, u8 0x1800 16 6 6 .rwp 0, u8 0x1800 16 7 7 .rwp 0xFF,
   u32 0x1A00 16 1 0x40 .rwp 0]

/-- Table 11-6. -/
def rowsNet : List ObjRow :=
  [u32 0x1E00 1 1 6 .rwp 0, u16 0x1E00 1 7 7 .rwp 23140 1024 65535, u16 0x1E01 1 1 2 .ro 0, u8 0x1E02 1 1 2 .ro 0,
   i32 0x1E02 1 3 4 .ro, u8 0x1E10 1 1 4 .rwp 0 0 127, u16 0x1E11 1 1 4 .rwp 500, u16 0x1E12 1 1 4 .rwp 2000,
   u8 0x1E13 1 1 4 .rwp 0 0 1]
  ++ [u8 0x1E20 32 1 1 .rwp 0 0 1, u8 0x1E20 32 2 2 .rwp 0 0 1, u32 0x1E20 32 3 3 .rwp 0,
   u16 0x1E20 32 4 4 .rwp 23140, u8 0x1E20 32 5 5 .rwp 1, u32 0x1E20 32 6 6 .rwp 0, u16 0x1E20 32 7 7 .rwp 0,
   u8 0x1E20 32 8 8 .rwp 0xFF, u8 0x1E20 32 9 9 .rwp 0 0 64, u32 0x1E20 32 0x0A 0x0A .ro 0,
   u32 0x1E30 16 0x0B 0x0B .ro 0, u32 0x1E20 32 0x10 0x4F .rwp 0]
  ++ [u32 0x1E40 1 1 3 .ro 0, u8 0x1E41 1 1 1 .wo 0 0 2, oct 0x1E41 1 2 3 .ro 48, oct 0x1E41 1 4 4 .wo 96,
   u8 0x1E41 1 5 5 .wo 0, u8 0x1E41 1 6 6 .ro 0, u32 0x1E41 1 7 8 .ro 0,
   u16 0x2000 1 1 1 .const 0x0C20, u8 0x2000 1 2 2 .const 0xC2, oct 0x2000 1 3 3 .const 16, u8 0x2000 1 4 4 .ro 0]

/-- Tables 9-11, 8-9 and ch. 15. -/
def rowsId : List ObjRow :=
  [u64 0x2010 1 1 64 .const 0, u32 0x2100 1 1 3 .ro 0, u8 0x2101 1 1 4 .ro 0, u8 0x2102 1 1 1 .ro 0,
   u16 0x2102 1 2 2 .ro 0, u32 0x2102 1 3 4 .ro 0, u8 0x2102 1 5 5 .ro 0, oct 0x2103 1 1 4 .rwp 128,
   u8 0x2103 1 5 8 .ro 0, u64 0x2108 1 1 8 .ro 0]
  ++ [u8 0x2200 1 1 1 .ro 0, u8 0x2200 1 2 2 .rwp 0xFF, u8 0x2200 1 3 3 .rwp 0 0 1, oct 0x2210 1 1 3 .rwp 97,
   u8 0x2210 1 4 6 .ro 0, u8 0x2210 1 7 7 .rwp 0xFF, u8 0x2211 1 1 3 .rwp 0, oct 0x2220 1 1 8 .rwp 97,
   oct 0x2230 1 1 1 .ro 48, u8 0x2230 1 2 2 .wo 0, oct 0x2230 1 3 3 .wo 96, u8 0x2230 1 4 4 .ro 0,
   u8 0x2230 1 5 5 .wo 0, u8 0x2230 1 6 6 .ro 0]
  ++ [u8 0x2240 1 1 1 .ro 0, u8 0x2240 1 2 2 .rwp 0xFF, u8 0x2240 1 3 3 .rwp 1, u8 0x2240 1 4 4 .ro 0,
   u8 0x2240 1 5 5 .rwp 0 0 1, u32 0x2240 1 6 7 .rwp 0, u64 0x2240 1 8 0x0A .rwp 0, u64 0x2241 1 1 1 .rw 0,
   u8 0x2241 1 2 2 .ro 0, u32 0x2242 1 1 2 .ro 0]

/-- Tables 2-7, 9-12 and 10-8. -/
def rowsFrame : List ObjRow :=
  [u32 0x3000 1 1 1 .rwp 5000 1000 100000, u8 0x3000 1 2 2 .rwp 0 0 4, u8 0x3000 1 3 3 .rwp 1 1 255,
   u32 0x3000 1 4 4 .rwp 0 0 99999, u16 0x3000 1 5 5 .rwp 20 2 500, u16 0x3000 1 6 6 .rwp 1 1 100,
   u32 0x3000 1 7 7 .rwp 2000 0 1000000, u8 0x3000 1 8 8 .rwp 1 0 2, u32 0x3000 1 9 9 .rwp 2500 1 99718,
   u16 0x3000 1 0x0A 0x0A .rwp 200 150 2000]
  ++ [u8 0x3001 1 1 1 .ro 0, u64 0x3001 1 2 2 .ro 0, i32 0x3001 1 3 3 .ro, u32 0x3001 1 4 5 .ro 0,
   u16 0x3001 1 6 6 .ro 0, u8 0x3001 1 7 7 .ro 1, u8 0x3002 1 0 0 .rwt 0 1 1, u32 0x3100 1 1 8 .rwp 0 0 99718,
   u8 0x3101 1 1 8 .rwp 0, u32 0x3102 1 1 8 .ro 0, u32 0x3103 1 1 8 .ro 0, u8 0x3104 1 1 8 .rwt 0]
  ++ [u8 0x3400 1 1 1 .ro 0, u32 0x3400 1 2 2 .ro 0, u16 0x3401 1 0 0 .rw 0 0 4095, u32 0x3402 1 1 8 .ro 0,
   u32 0x3403 1 1 8 .ro 0, u32 0x3404 1 1 8 .ro 0, oct 0x3410 1 1 1 .wo 144, u32 0x3410 1 2 2 .ro 0,
   u64 0x3411 1 0 0 .wo 0, oct 0x3412 1 0 0 .wo 24, u64 0x3413 1 0 0 .ro 0]
  ++ [u64 0x3500 1 1 8 .rwp 0, u8 0x3501 1 1 8 .wo 0 1 1, u8 0x3502 1 0 0 .rwp 0 0 2, u32 0x3503 1 1 8 .ro 0,
   u32 0x3504 1 1 8 .ro 0, u32 0x3505 1 1 8 .rwp 0, u8 0x3510 9 1 0x18 .rwp 0 0 58, u8 0x3510 9 0x19 0x1A .rwp 0 0 60,
   u8 0x3510 8 0x1B 0x1B .rwp 1 1 255, u8 0x3518 1 0x1B 0x1B .rwp 8 1 255, u32 0x3520 8 1 0x19 .rwp 0,
   oct 0x3540 1 0 0 .ro 32, u64 0x3550 1 1 8 .rw 0]

/-- Tables 14-4, 3-7, 4-4 and 5-8. -/
def rowsPlate : List ObjRow :=
  [u16 0x4000 1 1 1 .rwp 95 40 125, u16 0x4000 1 2 2 .rwp 2000 1000 10000, u8 0x4000 1 3 3 .rwp 0 0 1,
   u8 0x4000 1 4 4 .rwp 6 4 6, u16 0x4001 1 1 15 .rwp 0, u16 0x4002 1 1 19 .const 0, u16 0x4003 1 1 19 .const 0,
   oct 0x4004 1 1 20 .const 8]
  ++ [u8 0x4400 1 0 0 .const 32, u8 0x4401 1 1 32 .ro 0, u8 0x4402 1 1 32 .ro 0, u16 0x4403 1 1 32 .ro 0xFFFF,
   i16 0x4405 1 1 32 .ro, i16 0x4406 1 1 32 .ro, u32 0x4407 1 1 32 .ro 0, u16 0x4408 1 1 32 .ro 0,
   u16 0x4409 1 1 32 .ro 0, u32 0x440A 1 1 32 .ro 0, u32 0x440B 1 1 32 .ro 0, u32 0x440C 1 1 32 .ro 0,
   u16 0x4410 1 1 1 .rwp 2000 100 2000, u16 0x4410 1 2 2 .rwp 40 10 40]
  ++ [u16 0x4500 16 1 1 .rwp 64, u16 0x4500 16 2 2 .rwp 96 0 4096, u16 0x4500 16 3 3 .rwp 20 0 100,
   u32 0x4500 16 4 4 .rwp 0 0 99718, u32 0x4500 16 5 5 .rwp 0 0 100000, u8 0x4500 16 6 6 .rwp 1 0 1,
   u8 0x4500 16 7 7 .rwp 0, u16 0x4500 16 8 8 .rwp 320 1 0xFFFF, u16 0x4520 1 1 1 .rwp 320 1 0xFFFF,
   oct 0x4600 32 1 1 .ro 64, u16 0x4640 1 1 1 .rw 0 0 4095, oct 0x4640 1 2 2 .ro 64]
  ++ [u8 0x4800 1 0 0 .const 4, u64 0x4801 4 1 1 .ro 0, u8 0x4801 4 2 3 .ro 0, u32 0x4801 4 4 5 .ro 0,
   u8 0x4801 4 6 6 .ro 0, u16 0x4801 4 0x10 0x17 .ro 0, u32 0x4801 4 0x18 0x1F .ro 0]

/-- Table 12-5 for one Gauge die, base `b`. -/
def rowsGauge (b : Nat) : List ObjRow :=
  [u32 b 1 1 1 .ro 0, u8 (b + 0x10) 16 1 1 .rwp 0 0 1, u16 (b + 0x10) 16 2 2 .rwp 100 100 4000, u8 (b + 0x10) 16 3 3 .rwp 0xFF,
   u8 (b + 0x10) 16 4 4 .ro 0, u32 (b + 0x10) 16 5 5 .ro 0,
   u8 (b + 0x30) 4 1 1 .rwp 0 0 2, u8 (b + 0x30) 4 2 2 .rwp 0xFF, u8 (b + 0x30) 4 3 3 .rwp 4,
   u16 (b + 0x30) 4 4 4 .rwp 10000 5000 20000, u16 (b + 0x30) 4 5 5 .rwp 1000 500 4000, u8 (b + 0x30) 4 6 6 .ro 0,
   u8 (b + 0x30) 4 7 7 .rwt 0, i32 (b + 0x30) 4 8 8 .ro]
  ++ [u8 (b + 0x40) 12 1 1 .rwp 0xFF, u8 (b + 0x40) 12 2 2 .rwp 1 1 64, u8 (b + 0x40) 12 3 3 .rwp 1 0 1,
   u8 (b + 0x40) 12 4 4 .rwp 0 0 1, u8 (b + 0x40) 12 5 5 .rwp 0 0 1, u16 (b + 0x40) 12 6 6 .rwp 0 0 10000,
   u16 (b + 0x40) 12 7 7 .rwp 0 0 10000, i32 (b + 0x40) 12 8 8 .rwp, u8 (b + 0x40) 12 9 9 .rwp 1 0 1,
   i32 (b + 0x40) 12 0x0A 0x0A .ro]
  ++ [u8 (b + 0x60) 8 1 1 .rwp 0xFF, u16 (b + 0x60) 8 2 2 .rwp 1 1 4096, i32 (b + 0x60) 8 3 3 .rwp,
   u8 (b + 0x60) 8 4 4 .rwp 1 0 1, u8 (b + 0x60) 8 5 5 .rwp 0 0 2, u16 (b + 0x60) 8 6 6 .rwp 100 1 65535,
   u16 (b + 0x60) 8 7 7 .rwp 1000 1 65535, u16 (b + 0x60) 8 8 8 .rwp 50 0 3000, u16 (b + 0x60) 8 9 9 .rwp 2000 0 3000,
   u16 (b + 0x60) 8 0x0A 0x0A .rwp 2800 0 3000, u8 (b + 0x60) 8 0x0B 0x0B .rwp 1 0 1,
   u16 (b + 0x60) 8 0x0C 0x0C .rwp 1000 0 3000, u32 (b + 0x60) 8 0x0D 0x0D .ro 0, u16 (b + 0x60) 8 0x0E 0x0E .ro 0,
   u8 (b + 0x60) 8 0x0F 0x0F .rwt 0, i32 (b + 0x60) 8 0x10 0x10 .ro]

/-- Table 13 of the fabric (R337), Table 15 of debug (R376) and Table 1-11. -/
def rowsFabric : List ObjRow :=
  [u8 0x6000 1 0 0 .const 4, u8 0x6001 4 1 2 .rwp 0xFF, u8 0x6001 4 3 3 .ro 0, u16 0x6001 4 4 5 .rwp 100 1 65535,
   u8 0x6001 4 6 6 .rwp 0 0 1, u32 0x6001 4 7 9 .ro 0, u8 0x6001 4 0x0A 0x0A .ro 0, u8 0x6080 4 1 0x80 .rwp 0xFF,
   u8 0x6100 64 1 1 .ro 0, u16 0x6100 64 2 2 .ro 0, u32 0x6100 64 3 3 .ro 0]
  ++ [u64 0x7001 1 1 1 .wo 0, u64 0x7001 1 2 2 .rw 0, u32 0x7002 1 1 1 .wo 0, u16 0x7002 1 2 2 .wo 0,
   u8 0x7002 1 3 3 .rw 0 0 7, u64 0x7003 1 1 0x40 .ro 0, u32 0x7004 1 1 0x10 .ro 0,
   u8 0x7010 1 0 0 .const 24, u8 0x7010 1 1 0x18 .ro 0, u32 0x7011 1 1 0x18 .ro 0, u16 0x7012 1 1 0x18 .ro 0,
   u32 0x7013 1 1 4 .ro 0, u64 0x7013 1 5 5 .ro 0, u16 0x7014 1 1 1 .ro 0x0FFF, u8 0x7014 1 2 2 .ro 0,
   u16 0x7014 1 3 3 .ro 0]

/-- The rows that can hold an index (R261). -/
def rowsAt (i : Nat) : List ObjRow :=
  if i < 0x1E00 then rowsCan else if i < 0x2010 then rowsNet else if i < 0x3000 then rowsId
  else if i < 0x4000 then rowsFrame else if i < 0x5000 then rowsPlate
  else if i < 0x5800 then rowsGauge 0x5000 else if i < 0x6000 then rowsGauge 0x5800 else rowsFabric

/-- The index blocks of Table 11-4. What Table 15-9 does not list of the debug and diagnostics block does not exist (R376). -/
def inBlock (i : Nat) : Bool :=
  decide (0x1000 ≤ i ∧ i ≤ 0x1A0F) || decide (0x1E00 ≤ i ∧ i ≤ 0x1E41) || decide (i = 0x2000 ∨ i = 0x2010) ||
    decide (0x2100 ≤ i ∧ i ≤ 0x2103) || decide (i = 0x2108) || decide (0x2200 ≤ i ∧ i ≤ 0x22FF) ||
    decide (0x3000 ≤ i ∧ i ≤ 0x3002) || decide (0x3100 ≤ i ∧ i ≤ 0x3104) || decide (0x3400 ≤ i ∧ i ≤ 0x3413) ||
    decide (0x3500 ≤ i ∧ i ≤ 0x3550) || decide (0x4000 ≤ i ∧ i ≤ 0x40FF) || decide (0x4400 ≤ i ∧ i ≤ 0x4410) ||
    decide (0x4500 ≤ i ∧ i ≤ 0x4640) || decide (0x4800 ≤ i ∧ i ≤ 0x4804) || decide (0x5000 ≤ i ∧ i ≤ 0x5FFF) ||
    decide (0x6000 ≤ i ∧ i ≤ 0x61FF) || decide (0x7010 ≤ i ∧ i ≤ 0x7014)

/-- The row of an object. -/
def objRow (i sub : Nat) : Option ObjRow :=
  (rowsAt i).find? (fun r => decide (r.i ≤ i ∧ i < r.i + r.n ∧ r.s0 ≤ sub ∧ sub ≤ r.s1))

/-- The rows of an index. -/
def indexRows (i : Nat) : List ObjRow := (rowsAt i).filter (fun r => decide (r.i ≤ i ∧ i < r.i + r.n))

/-- The highest sub-index of an index (R253). -/
def highSub (i : Nat) : Nat := (indexRows i).foldl (fun m r => max m r.s1) 0

/-- An object as a read or DESCRIBE finds it: sub-index 0 of a record or array is the highest sub-index (R253).
0x7010:00 is the number of links, as its own row says. -/
def objInfo (i sub : Nat) : Option ObjRow :=
  match objRow i sub with
  | some r => some r
  | none => if sub = 0 ∧ indexRows i ≠ [] then some (u8 i 1 0 0 .const (highSub i)) else none

/-- Ranges that are no interval: divisors, rates, tenants, slots, lifecycle targets (Tables 11-6, 12-5, 13, 15). -/
def objSet (i sub v : Nat) : Bool :=
  let tenantOr (b : Bool) := b || decide (v ≤ 7) || decide (v = 0xFF)
  if (0x1400 ≤ i ∧ i < 0x1410 ∨ 0x1800 ≤ i ∧ i < 0x1810) ∧ sub = 7 then tenantOr false
  else if 0x1800 ≤ i ∧ i < 0x1810 ∧ sub = 2 then
    decide (1 ≤ v ∧ v ≤ 240) || decide (v = 254) || decide (v = 255)
  else if i = 0x1E11 ∧ sub ≠ 0 then decide (v ∈ [125, 250, 500, 1000])
  else if i = 0x1E12 ∧ sub ≠ 0 then decide (v ∈ [1000, 2000, 4000, 5000, 8000])
  else if 0x1E20 ≤ i ∧ i < 0x1E40 ∧ sub = 5 then decide (v ∈ [1, 2, 4, 8, 16])
  else if 0x1E20 ≤ i ∧ i < 0x1E40 ∧ sub = 8 then tenantOr false
  else if i = 0x2200 ∧ sub = 2 then decide (v ∈ [2, 3, 4, 0xFF])
  else if i = 0x2210 ∧ sub = 7 then decide (v ∈ [0, 1, 2, 0xFF])
  else if i = 0x2240 ∧ sub = 2 then decide (v ∈ [0, 1, 2, 3, 0xFF])
  else if 0x5000 ≤ i ∧ i < 0x6000 then
    let o := i % 0x800
    if (0x10 ≤ o ∧ o < 0x20 ∧ sub = 3) ∨ (0x30 ≤ o ∧ o < 0x34 ∧ sub = 2) ∨ (0x40 ≤ o ∧ sub = 1) then tenantOr false
    else if 0x40 ≤ o ∧ o < 0x4C ∧ sub = 5 then decide (v = 0) || decide (o % 2 = 0)
    else true
  else if 0x6001 ≤ i ∧ i < 0x6005 ∧ sub ≤ 2 then tenantOr false
  else if 0x6080 ≤ i ∧ i < 0x6084 then tenantOr false
  else true

/-- The value as its type reads it. -/
def objInt (r : ObjRow) (v : Nat) : Int :=
  if r.ty = 2 ∨ r.ty = 3 ∨ r.ty = 4 ∨ r.ty = 0x15 then signed (8 * r.size) v else v

/-- R255: the range of an object. -/
def objRange (r : ObjRow) (i sub v : Nat) : Bool :=
  decide (v < 2 ^ (8 * r.size)) && decide (r.lo ≤ objInt r v) && decide (objInt r v ≤ r.hi) && objSet i sub v

/-- The key of an object: the CAN FD port counts only for the communication profile (R262). -/
def objKey (port i sub : Nat) : Nat := (if i < 0x1E00 then port else 0) * 2 ^ 24 + i * 2 ^ 8 + sub

/-- The default of a key. -/
def keyDefault (k : Nat) : Nat := match objInfo (k / 2 ^ 8 % 2 ^ 16) (k % 2 ^ 8) with | some r => r.dflt | none => 0

/-- The value in force of an rw, rwp or rwt object. -/
def State.val (s : State) (i sub : Nat) (port : Nat := 0) : Nat :=
  tget (keyDefault (objKey port i sub)) s.obj (objKey port i sub)

/-- The value latched at the last warm or cold reset. -/
def State.atReset (s : State) (i sub : Nat) (port : Nat := 0) : Nat :=
  tget (keyDefault (objKey port i sub)) s.eff (objKey port i sub)

/-- The value latched at the last tick. -/
def State.atTick (s : State) (i sub : Nat) (port : Nat := 0) : Nat :=
  tget (keyDefault (objKey port i sub)) s.effT (objKey port i sub)

/-- Does the provisioning store hold a key's value (R285)? rw and rwt values are not provisioning. -/
def isRwp (k : Nat) : Bool :=
  match objInfo (k / 2 ^ 8 % 2 ^ 16) (k % 2 ^ 8) with
  | some r => decide (r.acc = .rwp)
  | none => false

/-- The copy that the commit marker names. -/
def Store.current (x : Store) : Tab Nat := if x.marked then x.copyB else x.copyA

/-- Step 3 of R284: the copy that is not current is written, the marker moves to it, and the other copy follows. -/
def Store.write (x : Store) (t : Tab Nat) : Store := { x with copyA := t, copyB := t, marked := !x.marked, torn := false }

/-- A write of the store that loses power (R285): before the marker has moved nothing counts; after it the new copy does. -/
def Store.cut (x : Store) (t : Tab Nat) (moved : Bool) : Store :=
  if !moved then { x with torn := true }
  else if x.marked then { x with copyA := t, marked := false } else { x with copyB := t, marked := true }

/-- At start-up the current copy is made good in the other (R285). -/
def Store.heal (x : Store) : Store := { x with copyA := x.current, copyB := x.current, torn := false }

/-- What the provisioning store holds (R285). -/
def State.stored (s : State) : Tab Nat := s.boot.store.current

/-- The provisioned part of the values in force. -/
def State.provisioned (s : State) : Tab Nat := s.obj.filter (fun e => isRwp e.1)

/-- Put a value in force. -/
def State.setVal (s : State) (k v : Nat) : State := { s with obj := tset (keyDefault k) s.obj k v }

/-- The frame's settings (R34, R44, R60), which act at a reset. -/
def State.P (s : State) : Nat := s.atReset 0x3000 1
def State.W (s : State) : Nat := s.atReset 0x3000 9
def State.G (s : State) : Nat := s.atReset 0x3000 0x0A

/-- The tenant a binding names (R222, Table 10-1). -/
def State.binding (s : State) (t : Nat) : BitVec 64 := BitVec.ofNat 64 (s.atReset 0x3500 (t + 1))

/-- The Gauge object base (R306). -/
def gaugeBase (d : Nat) : Nat := 0x5000 + 0x800 * (d % 2)

end Sys2Proof.Machine
end

