-- ==== Sys2Proof/Machine/Ops.lean ====
section
/-!
DEFINITION. The named operations every command shares: reading and changing the parts of State, the view of a sender,
memory and poison, translation, event records and notifications.
-/

namespace Sys2Proof.Machine

/-- What a command answers. -/
abbrev Out := Host.Outcome State Fault Refusal

/-- An event: it has its effect where the state holds what it is an event of; where the state does not (a completion with
nothing outstanding, a phase out of order, a number out of range) nothing happens (DESIGN CHOICE, log 49). -/
def due (s : State) (b : Bool) (t : State) : Out := .next (if b then t else s)

/-! ### Parts of State -/

def State.ctx (s : State) (c : Nat) : Ctx := tget {} s.ctxs c
def State.setCtx (s : State) (c : Nat) (x : Ctx) : State := { s with ctxs := tset {} s.ctxs c x }
def State.modCtx (s : State) (c : Nat) (f : Ctx → Ctx) : State := s.setCtx c (f (s.ctx c))
def State.ten (s : State) (t : Nat) : Tenant := tget {} s.tenants t
def State.modTen (s : State) (t : Nat) (f : Tenant → Tenant) : State :=
  { s with tenants := tmod {} s.tenants t f }
def State.link (s : State) (l : Nat) : Link := tget {} s.links l
def State.modLink (s : State) (l : Nat) (f : Link → Link) : State := { s with links := tmod {} s.links l f }
def State.plate (s : State) (g : Nat) : Plate := tget {} s.plates g
def State.modPlate (s : State) (g : Nat) (f : Plate → Plate) : State := { s with plates := tmod {} s.plates g f }
def State.fab (s : State) (m : Nat) : Fab := tget {} s.fabs m
def State.modFab (s : State) (m : Nat) (f : Fab → Fab) : State := { s with fabs := tmod {} s.fabs m f }
def State.gauge (s : State) (d : Nat) : Gauge := tget {} s.gauges d
def State.modGauge (s : State) (d : Nat) (f : Gauge → Gauge) : State := { s with gauges := tmod {} s.gauges d f }
def State.modFrame (s : State) (f : Frame → Frame) : State := { s with frame := f s.frame }
def State.modNet (s : State) (f : Net → Net) : State := { s with net := f s.net }
def State.modSec (s : State) (f : Sec → Sec) : State := { s with sec := f s.sec }
def State.modBoot (s : State) (f : Boot → Boot) : State := { s with boot := f s.boot }
def State.modPower (s : State) (f : Power → Power) : State := { s with power := f s.power }
def State.modOtp (s : State) (f : Otp → Otp) : State := s.modSec fun x => { x with otp := f x.otp }
def State.send (s : State) (m : OutMsg) : State := { s with out := s.out ++ [m] }
def State.can (s : State) (p : Nat) : CanPort := tget {} s.net.can p
def State.modCan (s : State) (p : Nat) (f : CanPort → CanPort) : State :=
  s.modNet fun n => { n with can := tmod {} n.can p f }
def State.eth (s : State) (p : Nat) : EthPort := tget {} s.net.eth p
def State.modEth (s : State) (p : Nat) (f : EthPort → EthPort) : State :=
  s.modNet fun n => { n with eth := tmod {} n.eth p f }
def State.func (s : State) (p f : Nat) : Func := tget {} s.net.func (16 * p + f)
def State.modFunc (s : State) (p f : Nat) (g : Func → Func) : State :=
  s.modNet fun n => { n with func := tmod {} n.func (16 * p + f) g }
def State.part (s : State) (p : Nat) : Part := tget {} s.net.parts p
def State.modPart (s : State) (p : Nat) (f : Part → Part) : State :=
  s.modNet fun n => { n with parts := tmod {} n.parts p f }
def State.map (s : State) (n : Nat) : CycMap := tget {} s.net.maps n
def State.modMap (s : State) (n : Nat) (f : CycMap → CycMap) : State :=
  s.modNet fun x => { x with maps := tmod {} x.maps n f }

/-- A queue of a context, and the change of it. -/
def Ctx.queue (x : Ctx) (q : Nat) : Queue := tget {} x.queues q
def Ctx.modQueue (x : Ctx) (q : Nat) (f : Queue → Queue) : Ctx := { x with queues := tmod {} x.queues q f }
def State.queue (s : State) (c q : Nat) : Queue := (s.ctx c).queue q
def State.modQueue (s : State) (c q : Nat) (f : Queue → Queue) : State := s.modCtx c fun x => x.modQueue q f

/-- A fold of State over a list of indices. -/
def State.each (s : State) (l : List Nat) (f : State → Nat → State) : State := l.foldl f s

/-- The contexts that are not FREE, in ascending order. -/
def State.liveCtxs (s : State) : List Nat := (s.ctxs.filter (fun e => decide (e.2.state ≠ .free))).map (·.1)

/-- An index a free value is applied to; the next one after it. -/
def State.takeFree (s : State) : Nat × State := (s.freeCtr, { s with freeCtr := s.freeCtr + 1 })

/-! ### Fields of the context record, Table 9-2 -/

def Ctx.bundleId (x : Ctx) : Nat := fld x.record 63 0
def Ctx.l1 (x : Ctx) : Nat := fld x.record 107 64
def Ctx.ring (x : Ctx) : Nat := fld x.record 175 128
def Ctx.ringLog (x : Ctx) : Nat := fld x.record 179 176
def Ctx.ringSize (x : Ctx) : Nat := 2 ^ (x.ringLog + 1)
def Ctx.tenantEvents (x : Ctx) : Bool := bit x.record 180
def Ctx.ledgerAddr (x : Ctx) : Nat := fld x.record 239 192
def Ctx.qbase (x : Ctx) (q : Nat) : Nat := fld x.record (64 * q + 303) (64 * q + 256)
def Ctx.qlog (x : Ctx) (q : Nat) : Nat := fld x.record (64 * q + 307) (64 * q + 304)
def Ctx.qvec (x : Ctx) (q : Nat) : Nat :=
  if q < 8 then fld x.record (64 * q + 319) (64 * q + 308) else fld x.record 779 768

/-! ### Codes -/

def Phase.code : Phase → Nat
  | .sample => 0 | .comb => 1 | .impress => 2 | .margin => 3 | .guardPhase => 4

def TickState.code : TickState → Nat
  | .stopped => 0 | .acquiring => 1 | .locked => 2 | .slewing => 3 | .holdover => 4
  | .fallbackFree => 5 | .fallbackSafe => 6 | .fallbackHold => 7

def Fallback.ofCode (n : Nat) : Fallback := if n = 0 then .free else if n = 1 then .safe else .hold

/-- Status codes, Table 7-8. -/
def Status.code : Status → Nat
  | .success => 0x0000 | .bucketNone => 0x0101 | .shapeMismatch => 0x0102 | .stockShare => 0x0103
  | .wellShare => 0x0104 | .etchShare => 0x0105 | .plistIndex => 0x0106 | .misaligned => 0x0107
  | .noRoute => 0x0108 | .mirrorPlace => 0x0109 | .buildMismatch => 0x010A | .unmapped => 0x0201
  | .poison => 0x0202 | .linkDown => 0x0203 | .plateNotOwned => 0x0301 | .bankBusy => 0x0302
  | .bankEmpty => 0x0303 | .burrFault => 0x0304 | .hatchCheck => 0x0401 | .channelNotOwned => 0x0501
  | .actuateMargin => 0x0502 | .extAbsent => 0x0601 | .extTimeout => 0x0602 | .extHung => 0x0603
  | .extFail k => if k < 128 then 0x0700 + k else 0x07FF
  | .overrun => 0x0801 | .reset => 0x0802 | .lateWrite => 0x0803

def PlateState.code : PlateState → Nat
  | .inService => 0 | .overdue => 1 | .linkDown => 2 | .failed => 3
def BankState.code : BankState → Nat
  | .empty => 0 | .loading => 1 | .shadow => 2 | .active => 3 | .activeUpset => 4
def CtxState.code : CtxState → Nat
  | .free => 0 | .created => 1 | .admitted => 2 | .orphaned => 3 | .ending => 4
def Scope.code : Scope → Nat
  | .context => 0 | .function => 1 | .tenant => 2 | .warm => 3 | .cold => 4
def LinkState.code : LinkState → Nat
  | .up => 0 | .spared => 1 | .retraining => 2 | .down => 3
def DieState.code : DieState → Nat
  | .unconfigured => 0 | .configuring => 1 | .held => 2 | .releasing => 3 | .running => 4
def DevState.code : DevState → Nat
  | .starting => 0 | .ready => 1 | .limp => 2 | .waived => 3 | .recovery => 4
def Life.code : Life → Nat
  | .blank => 0 | .provisioned => 1 | .fielded => 2 | .recalled => 3 | .scrapped => 4
def Life.ofCode (n : Nat) : Life :=
  if n = 0 then .blank else if n = 1 then .provisioned else if n = 2 then .fielded
  else if n = 3 then .recalled else .scrapped
def KeyState.code : KeyState → Nat
  | .empty => 0 | .active => 1 | .revoked => 2
def Level.code : Level → Nat
  | .sealedLevel => 0 | .tenant => 1 | .owner => 2 | .vendor => 3
def PowerState.code : PowerState → Nat
  | .run => 0 | .hold => 1 | .doze => 2 | .ember => 3 | .off => 4
def PowerState.ofCode (n : Nat) : PowerState :=
  if n = 0 then .run else if n = 1 then .hold else if n = 2 then .doze else .ember
def Diag.code : Diag → Nat
  | .notDiagnosed => 0 | .goodOn => 1 | .goodOff => 2 | .open => 3 | .overcurrent => 4 | .switchFault => 5
def Mbx.code : Mbx → Nat
  | .idle => 0 | .busy => 1 | .done => 2 | .aborted => 3

/-! ### Views (R222, R223, R259) -/

/-- A view of the dictionary. -/
inductive View where
  | tenant (t : Nat)
  | unbound
  | supervisor
deriving DecidableEq, Repr

def View.key : View → Nat
  | .tenant t => t | .unbound => 8 | .supervisor => 9

/-- Table 10-1: does the binding of tenant t name this endpoint? -/
def State.binds (s : State) (t : Nat) (v : Via) : Bool :=
  let b := s.binding t
  let kind := fld b 1 0
  match v with
  | .supervisor => false
  | .pcie port func => decide (kind ≠ 0) && decide (func < 16) && bit b ((if port = 0 then 2 else 18) + func)
  | .can port node =>
    decide (kind = 2) && decide (fld b 39 37 = port) && decide (port < 4) && decide (fld b 46 40 = node) &&
      decide (node ≠ 0)
  | .eth port ip _ =>
    decide (kind = 2) && decide (fld b 39 37 = port + 4) && decide (port < 2) &&
      decide (s.atReset 0x3505 (t + 1) = ip.toNat)
  | .burin part => decide (kind = 3) && decide (fld b 36 34 = part)

/-- The tenant an endpoint is bound to. -/
def State.tenantOf (s : State) (v : Via) : Option Nat := (List.range 8).find? (fun t => s.binds t v)

/-- The view of a sender (R259). -/
def State.viewOf (s : State) (v : Via) : View :=
  match v with
  | .supervisor => .supervisor
  | _ => match s.tenantOf v with
    | some t => .tenant t
    | none => .unbound

def State.viewSel (s : State) (w : View) : ViewSel := tget {} s.net.views w.key
def State.modView (s : State) (w : View) (f : ViewSel → ViewSel) : State :=
  s.modNet fun n => { n with views := tmod {} n.views w.key f }

/-- The endpoint of a session or a grant: a fieldbus endpoint is its port and client (R282). -/
def Via.same (a b : Via) : Bool := decide (a = b)

/-! ### Device address map (R24, Table 1-9) -/

/-- Where a device address lies. -/
inductive Region where
  | lp (k off : Nat)
  | stock (k off : Nat)
  | etch (p off : Nat)
  | wells (m off : Nat)
  | regs (die off : Nat)
  | unmapped
deriving DecidableEq, Repr

/-- The 128 GiB window of one Ink die's LPDDR5X (Table 1-9): K0's from 0, K1's after it. -/
def lpWindow : Nat := 0x2000000000

/-- Usable LPDDR5X bytes of one Ink die (Table 1-8): six channels, fifteen sixteenths. -/
def State.usable (s : State) : Nat := s.memStat.capacity * 2 ^ 30 * 6 / 16 * 15

def State.region (s : State) (a : Nat) : Region :=
  if a < lpWindow then (if a < s.usable then .lp 0 a else .unmapped)
  else if a < 2 * lpWindow then (if a - lpWindow < s.usable then .lp 1 (a - lpWindow) else .unmapped)
  else if 0x80000000000 ≤ a ∧ a < 0x80004000000 then
    .stock ((a - 0x80000000000) / 0x2000000) ((a - 0x80000000000) % 0x2000000)
  else if 0x81000000000 ≤ a ∧ a < 0x81002000000 then
    .etch ((a - 0x81000000000) / 0x400000) ((a - 0x81000000000) % 0x400000)
  else if 0x82000000000 ≤ a ∧ a < 0x82002000000 then
    .wells ((a - 0x82000000000) / 0x800000) ((a - 0x82000000000) % 0x800000)
  else if 0xF0000000000 ≤ a ∧ a < 0xF0000000000 + 0x14 * 0x1000000 then
    .regs ((a - 0xF0000000000) / 0x1000000) ((a - 0xF0000000000) % 0x1000000)
  else .unmapped

def stockBase (k : Nat) : Nat := 0x80000000000 + k * 0x2000000
def etchBaseOf (p : Nat) : Nat := 0x81000000000 + p * 0x400000
def wellBaseOf (m : Nat) : Nat := 0x82000000000 + m * 0x800000

/-- The unit the error code protects (R18, R20): an aligned 64-byte block of LPDDR5X, an aligned word elsewhere. -/
def eccUnit (a : Nat) : Nat := if a < 2 * lpWindow then 64 else 8
def eccBase (a : Nat) : Nat := a / eccUnit a * eccUnit a

/-- R22: the blocks or words that a write covers only in part, which it reads first. -/
def partialUnits (a n : Nat) : List Nat :=
  ((if a % eccUnit a = 0 ∧ eccUnit a ≤ n then [] else [eccBase a]) ++
    (if (a + n) % eccUnit a = 0 then [] else [eccBase (a + n - 1)])).dedup

/-! ### The keep table (Table 9-10) -/

/-- A keep-table entry. -/
def Ctx.keep (x : Ctx) : BitVec 64 :=
  BitVec.ofNat 64 (x.count.toNat + x.gen.toNat * 2 ^ 32 + x.tenant % 8 * 2 ^ 48
    + (if x.devref then 2 ^ 51 else 0) + (if x.dying then 2 ^ 52 else 0))

def keepBase : Nat := stockBase 0 + 0xC0000

/-- Is the address inside the keep table? -/
def inKeep (a : Nat) : Bool := decide (keepBase ≤ a ∧ a < keepBase + 0x8000)

/-! ### Memory -/

/-- The canonical form of a memory: addresses strictly rising, no byte 0 listed. -/
def Memory.wf (m : Tab Byte) : Bool := twf 0 m

/-- One byte of device memory: what an address that nothing has written reads as is 0 (log 2). -/
def State.rd (s : State) (a : Nat) : Byte :=
  if inKeep a then
    BitVec.ofNat 8 ((s.ctx ((a - keepBase) / 8)).keep.toNat >>> (8 * ((a - keepBase) % 8)))
  else tget 0 s.mem a

/-- Bytes of device memory. -/
def State.rdN (s : State) (a n : Nat) : List Byte := (List.range n).map (fun i => s.rd (a + i))

/-- Does a bus read of a range of a Field die's wells find a parity error (R313)? -/
def Fab.parityBad (f : Fab) (off n : Nat) : Bool :=
  match f.bs with
  | some b => f.wellPar.any (fun e => decide (off ≤ e.1 ∧ e.1 < off + n) && decide (e.1 / 8192 ∈ b.parity))
  | none => false

def State.parityBad (s : State) (a n : Nat) : Bool :=
  match s.region a with
  | .wells m off => (s.fab m).parityBad off n
  | _ => false

/-- Is any part of the range poisoned (R27)? -/
def State.poisoned (s : State) (a n : Nat) : Bool :=
  s.poison.any (fun p => decide (p < a + n ∧ a < p + eccUnit p)) || s.parityBad a n

/-- Units wholly inside the range are clean after the write (R27). -/
def unpoison (l : List Nat) (a n : Nat) : List Nat :=
  l.filter (fun p => !decide (a ≤ p ∧ p + eccUnit p ≤ a + n))

/-- The bus writes even parity, or 0, into the ninth bits (R313). -/
def State.wrPar (s : State) (a n : Nat) : State :=
  match s.region a with
  | .wells m off =>
    if (s.fab m).wellPar = [] then s else
    s.modFab m fun f => { f with wellPar := f.wellPar.filter (fun e => !decide (off ≤ e.1 ∧ e.1 < off + n)) }
  | _ => s

/-- Write bytes to device memory. -/
def State.wr (s : State) (a : Nat) (bs : List Byte) : State :=
  { s.wrPar a bs.length with mem := tsetRun 0 s.mem a bs, poison := unpoison s.poison a bs.length }

/-- Zero a range, as R69 and R224 do: only listed bytes can be nonzero. -/
def State.zero (s : State) (a n : Nat) : State :=
  { s with
    mem := s.mem.filter (fun e => !decide (a ≤ e.1 ∧ e.1 < a + n))
    poison := unpoison s.poison a n }

/-- Does an error code protect the address: LPDDR5X or stock (R18, R20)? -/
def State.eccAt (s : State) (a : Nat) : Bool :=
  match s.region a with
  | .lp _ _ | .stock _ _ => true
  | _ => false

/-- R18, R23, R32: a corrected error is written back, which changes no data, and counted. -/
def State.countCorrected (s : State) (a : Nat) : State :=
  let m := s.memStat
  { s with memStat := if a < 2 * lpWindow then { m with lpCorr := satInc 32 m.lpCorr } else { m with stCorr := satInc 32 m.stCorr } }

/-- R32: the address of the last uncorrectable error. -/
def State.noteBad (s : State) (a : Nat) : State := { s with memStat := { s.memStat with lastBad := a } }

/-- R32: an uncorrectable error counted, with its address. -/
def State.countBad (s : State) (a : Nat) : State :=
  let m := s.memStat
  { s with memStat := { (if a < 2 * lpWindow then { m with lpUncorr := satInc 32 m.lpUncorr }
    else { m with stUncorr := satInc 32 m.stUncorr }) with lastBad := a } }

/-- R27: an uncorrectable error found at `a` poisons its unit; it is counted when it is found first (log 57). -/
def State.markPoison (s : State) (a : Nat) : State :=
  let p := eccBase a
  if p ∈ s.poison then s.noteBad p else { s.countBad p with poison := s.poison ++ [p] }

/-- What the code finds in one unit: nothing, an error it corrects, or one it cannot. -/
def State.findOne (s : State) (e : Nat × Ecc) : State :=
  match e.2 with
  | .clean => s
  | .corrected => s.countCorrected e.1
  | .uncorrectable => s.markPoison e.1

/-- The errors that a read of the range finds, of those the event reports; only LPDDR5X and stock carry check bits. -/
def State.findErrors (s : State) (ecc : Found) (a n : Nat) : State :=
  (ecc.filter (fun e => decide (a ≤ e.1 ∧ e.1 < a + n) && s.eccAt e.1)).foldl State.findOne s

def hostKey (port a : Nat) : Nat := port * 2 ^ 64 + a

/-! ### Translation (R201 to R203, R236) -/

/-! Fields of a build descriptor (Table 5-2). -/

def buildRows (d : BitVec 64) : Nat := 16 * (fld d 6 4 + 1)
def buildCols (d : BitVec 64) : Nat := 16 * (fld d 9 7 + 1)
def buildTypes (d : BitVec 64) : Nat := fld d 16 11
def buildPanel (d : BitVec 64) : Nat := 8 * (fld d 22 17 + 1)
def buildExt (d : BitVec 64) : Nat := fld d 31 24
def buildBase (d : BitVec 64) : Nat := fld d 41 32
/-- R114: wells besides the panel wells; they stand from well 0 (log 12). -/
def buildInternal (d : BitVec 64) : Nat := 19 + (buildRows d + buildCols d) / 4

/-- Does a well belong to the Vyton build (R126)? -/
def inBuild (d : BitVec 64) (w : Nat) : Bool :=
  decide (d ≠ 0) && (decide (w < buildInternal d) || (decide (buildBase d ≤ w) && decide (w < buildBase d + buildPanel d)))

/-- R317: a well group that a mapping may name: outside the build, on the well bus, no FIFO. -/
def State.groupOpen (s : State) (m k : Nat) : Bool :=
  match (s.fab m).bs with
  | some b => (List.range 8).all (fun i =>
      !inBuild (s.fab m).desc (8 * k + i) && decide ((8 * k + i) ∈ b.bus) && !decide ((8 * k + i) ∈ b.fifo))
  | none => false

/-- Does an LPDDR5X, stock or well page belong to tenant t (R25, R235, R236, R317)? Well groups follow 0x6080. -/
def State.granted (s : State) (t a : Nat) : Bool :=
  let sh (k : Nat) := s.atReset (0x3520 + t) k
  match s.region a with
  | .lp k off => decide (sh (2 * k + 1) ≤ off / 65536 ∧ off / 65536 < sh (2 * k + 1) + sh (2 * k + 2))
  | .stock k off =>
    let first := sh (2 * k + 5)
    let cnt := sh (2 * k + 6) - sh (0x18 + k)
    decide (0x100000 ≤ off ∧ first ≤ (off - 0x100000) / 65536 ∧ (off - 0x100000) / 65536 < first + cnt)
  | .wells m off =>
    decide (s.atReset (0x6080 + m) (off / 65536 + 1) = t) && s.groupOpen m (off / 65536)
  | _ => false

/-- Is a level-1 or level-2 table in an LPDDR5X page of the tenant (R201)? -/
def State.tableOk (s : State) (t a : Nat) : Bool :=
  match s.region a with
  | .lp _ _ => s.granted t a
  | _ => false

/-- Key of a cached table entry: level and the address bits above it. -/
def tlbKey (level prefix_ : Nat) : Nat := level * 2 ^ 40 + prefix_

/-- Read a table entry through the device-table cache (R203): an entry once read is not read again before an
INVALIDATE drops it. A poisoned entry does not translate (R27). -/
def State.tableEntry (s : State) (c level pre a : Nat) : BitVec 64 × State :=
  match tget none (s.ctx c).tlb (tlbKey level pre) with
  | some e => (e, s)
  | none =>
    let e := if s.poisoned a 8 then 0 else BitVec.ofNat 64 (leNat (s.rdN a 8))
    (e, s.modCtx c fun x => { x with tlb := tset none x.tlb (tlbKey level pre) (some e) })

/-- Reserved bits [3] and [15:9] of a mapping entry (Table 9-5): an entry with one set is rejected by its check, the walk
(R6). -/
def entryReserved (e : BitVec 64) : Bool := bit e 3 || decide (fld e 15 9 ≠ 0)

/-- R202: where a context address lands, or UNMAPPED. -/
def State.translate (s : State) (c a : Nat) (write : Bool) : Option Target × State :=
  let x := s.ctx c
  let t := x.tenant
  if a ≥ 2 ^ 48 then (none, s) else
  if !(decide (x.l1 % 512 = 0) && s.tableOk t x.l1) then (none, s) else
  let (e1, s) := s.tableEntry c 1 (a / 2 ^ 42) (x.l1 + 8 * (a / 2 ^ 42 % 64))
  let p1 := fld e1 63 16 * 65536
  if !(bit e1 0 && !bit e1 2 && !entryReserved e1 && s.tableOk t p1) then (none, s) else
  let (e2, s) := s.tableEntry c 2 (a / 2 ^ 29) (p1 + 8 * (a / 2 ^ 29 % 8192))
  let p2 := fld e2 63 16 * 65536
  if !(bit e2 0 && !bit e2 2 && !entryReserved e2 && s.tableOk t p2) then (none, s) else
  let (e3, s) := s.tableEntry c 3 (a / 2 ^ 16) (p2 + 8 * (a / 2 ^ 16 % 8192))
  let p3 := fld e3 63 16 * 65536
  if !(bit e3 0 && !entryReserved e3 && (!write || bit e3 1)) then (none, s) else
  if bit e3 2 then
    let port := fld e3 8 8
    let func := fld e3 7 4
    if s.binds t (.pcie port func) then (some (.hostPage port func (p3 + a % 65536)), s) else (none, s)
  else if fld e3 63 44 = 0 ∧ s.granted t p3 then (some (.dev (p3 + a % 65536)), s) else (none, s)

/-- Pieces of a byte range that stay inside one 64 KiB page: address and length. -/
def pagePieces : Nat → Nat → Nat → List (Nat × Nat)
  | 0, _, _ => []
  | fuel + 1, a, n =>
    if n = 0 then [] else
    let k := min n (65536 - a % 65536)
    (a, k) :: pagePieces fuel (a + k) (n - k)

/-- R26: what earlier posted writes leave in the bytes a read takes from its target. -/
def targetOverlay (ps : List Posted) (t : Target) (bs : List Byte) : List Byte :=
  ps.foldl (fun acc p =>
    match p.target, t with
    | .dev pa, .dev a =>
      (acc.zipIdx).map (fun e => if pa ≤ a + e.2 ∧ a + e.2 < pa + p.bytes.length
        then p.bytes.getD (a + e.2 - pa) 0 else e.1)
    | .hostPage pp _ pa, .hostPage hp _ a =>
      if pp = hp then
        (acc.zipIdx).map (fun e => if pa ≤ a + e.2 ∧ a + e.2 < pa + p.bytes.length
          then p.bytes.getD (a + e.2 - pa) 0 else e.1)
      else acc
    | _, _ => acc) bs

/-- The poisoned units of a device range that a read behind the writes `ps` still meets: a write that covers a unit comes
first (R26, R27). -/
def State.badUnits (s : State) (ps : List Posted) (a n : Nat) : List Nat :=
  (ps.foldl (fun l p => match p.target with | .dev x => unpoison l x p.bytes.length | .hostPage _ _ _ => l) s.poison).filter
    (fun p => decide (p < a + n ∧ a < p + eccUnit p))

/-- Does such a read meet a parity error of a well (R313)? -/
def State.badParity (s : State) (ps : List Posted) (a n : Nat) : Bool :=
  (List.range n).any fun i => s.parityBad (a + i) 1 &&
    !ps.any (fun p => match p.target with | .dev x => decide (x ≤ a + i ∧ a + i < x + p.bytes.length) | .hostPage _ _ _ => false)

/-- The writes of a context that a read of it comes behind: those posted, and those its macro-instructions have made so far
(R26, R163, R165). -/
def State.writesOf (s : State) (c : Nat) : List Posted :=
  s.posted.filter (fun p => decide (p.c = c)) ++ (s.ops.filter (fun o => decide (o.c = c))).flatMap (fun o => o.held)

/-- A piece of a read by context c: earlier writes of the same context come first (R26); poison is found and its address
recorded (R27). -/
def State.readPiece (s : State) (c : Nat) (ecc : Found) (t : Target) (n : Nat) :
    Except Status (List Byte) × State :=
  let mine := s.writesOf c
  match t with
  | .dev a =>
    let s := s.findErrors ecc a n
    match s.badUnits mine a n with
    | p :: _ => (.error .poison, s.noteBad p)
    | [] => if s.parityBad a n && s.badParity mine a n then (.error .poison, s)
      else (.ok (targetOverlay mine t (s.rdN a n)), s)
  | .hostPage port func a =>
    if (s.func port func).blocked then (.error .unmapped, s)
    else (.ok (targetOverlay mine t (tgetRun 0 s.host (hostKey port a) n)), s)

/-- A read of context memory (R202): all bytes, or the status and the address that failed. -/
def State.readCtx (s : State) (c : Nat) (ecc : Found) (a n : Nat) :
    Except (Status × Nat) (List Byte) × State :=
  (pagePieces (n / 65536 + 2) a n).foldl (fun (r : Except (Status × Nat) (List Byte) × State) pc =>
    match r with
    | (.error e, s) => (.error e, s)
    | (.ok bs, s) =>
      match s.translate c pc.1 false with
      | (none, s) => (.error (.unmapped, pc.1), s)
      | (some t, s) =>
        match s.readPiece c ecc t pc.2 with
        | (.ok b, s) => (.ok (bs ++ b), s)
        | (.error st, s) => (.error (st, pc.1), s)) (.ok [], s)

/-- Perform a write at its target at once. A covered function sends nothing (R239). -/
def State.wrTarget (s : State) (t : Target) (bs : List Byte) : State :=
  match t with
  | .dev a => s.wr a bs
  | .hostPage port func a =>
    if (s.func port func).blocked then s else { s with host := tsetRun 0 s.host (hostKey port a) bs }

/-- Does a target lie in host memory? -/
def Target.isHost (t : Target) : Bool :=
  match t with
  | .hostPage _ _ _ => true
  | .dev _ => false

/-- The targets of a write, every piece, or the address that does not translate. -/
def State.writeTargets (s : State) (c a : Nat) (bs : List Byte) :
    Except Nat (List (Nat × Target × List Byte)) × State :=
  (pagePieces (bs.length / 65536 + 2) a bs.length).foldl
    (fun (r : Except Nat (List (Nat × Target × List Byte)) × State) pc =>
      match r with
      | (.error e, s) => (.error e, s)
      | (.ok l, s) =>
        match s.translate c pc.1 true with
        | (none, s) => (.error pc.1, s)
        | (some t, s) => (.ok (l ++ [(pc.1, t, slice bs (pc.1 - a) pc.2)]), s)) (.ok [], s)

/-! ### Late failures (R245, R246) -/

/-- The EPOCH of a write (R245): issuing queue in [15:13], fence sequence in [12:0]. -/
def State.epoch (s : State) (c q : Nat) : BitVec 16 :=
  BitVec.ofNat 16 (q % 8 * 8192 + (s.queue c q).seq.toNat)

/-- Is a write of sequence `w` covered by a fence of sequence `f` (13 bits, at most 64 fences pending)? -/
def seqCovered (w f : BitVec 13) : Bool := decide ((f - w).toNat < 4096)

/-- Give a late failure to the first fence of its queue that covers it; true where one does. -/
def lateFence (q : Nat) (seq : BitVec 13) (ca : Nat) : List Fence → Bool × List Fence
  | [] => (false, [])
  | f :: rest =>
    if f.q = q ∧ seqCovered seq f.seq = true then
      (true, { f with late := some (f.late.getD ca) } :: rest)
    else let (b, l) := lateFence q seq ca rest
      (b, f :: l)

/-- R246, Table 10-7: a late failure of context c in its late-fault record and in 0x3504. -/
def State.lateRecord (s : State) (c q cause : Nat) (epoch : BitVec 16) (ca da : Nat) : State :=
  let l := (s.ctx c).late
  let l' : Late := if l.valid then { l with more := true, count := satInc 32 l.count }
    else { valid := true, cause := cause, q := q, epoch := epoch, caddr := ca, daddr := da,
           frame := s.frame.counter.setWidth 32, count := 1 }
  (s.modCtx c fun x => { x with late := l' }).modTen (s.ctx c).tenant fun t => { t with lateFails := satInc 32 t.lateFails }

/-- A late failure recorded; a fence of its queue reports it (R247), the next one where all that covered it have completed
(DEDUCED, log 23). -/
def State.lateFault (s : State) (c q cause : Nat) (epoch : BitVec 16) (ca da : Nat) : State :=
  let s := s.lateRecord c q cause epoch ca da
  let (hit, fs) := lateFence q (epoch.setWidth 13) ca (s.ctx c).fences
  let s := s.modCtx c fun x => { x with fences := fs }
  if hit then s else s.modQueue c q fun y => { y with lateAt := some (y.lateAt.getD ca) }

/-- R22: the device's own write at a target. Where it covers a poisoned block or word only in part, the read it needs fails:
a late failure, and nothing is written. -/
def State.wrOwn (s : State) (c q ca : Nat) (t : Target) (bs : List Byte) : State :=
  match t with
  | .dev a =>
    if (partialUnits a bs.length).any (fun u => decide (u ∈ s.poison)) then s.lateFault c q 1 (s.epoch c q) ca a
    else s.wr a bs
  | .hostPage _ _ _ => s.wrTarget t bs

/-- A write of the device itself into context memory (records, result areas, ledgers), for queue `q`: performed at once; a
page that does not translate takes nothing (R25). -/
def State.wrCtx (s : State) (c q a : Nat) (bs : List Byte) : State :=
  match s.writeTargets c a bs with
  | (.ok l, s) => l.foldl (fun s e => s.wrOwn c q e.1 e.2.1 e.2.2) s
  | (.error _, s) => s

/-- A write of context c, queue q, at a target. -/
def mkPosted (c q : Nat) (way : Target → List Nat) (e : Nat × Target × List Byte) : Posted :=
  { c := c, q := q, epoch := 0, caddr := e.1, target := e.2.1, bytes := e.2.2, way := way e.2.1 }

/-- The PCIe function that carries a write into host memory. -/
def Target.func : Target → Option (Nat × Nat)
  | .hostPage port func _ => some (port, func)
  | .dev _ => none

/-- Does a write through a function carry Relaxed Ordering (R250)? -/
def State.relaxes (s : State) (t : Target) : Bool :=
  match t.func with
  | some (port, func) => (s.func port func).relaxedOrdering
  | none => false

/-- Issue posted writes of context c, queue q (R22): their EPOCH is that of their issue (R245). The queue keeps its last
write into host memory, and the functions such writes went through (R250). -/
def State.postAll (s : State) (c q : Nat) (l : List Posted) : State :=
  let ep := s.epoch c q
  let s := { s with posted := s.posted ++ l.map (fun p => { p with epoch := ep, relaxed := s.relaxes p.target }) }
  match (l.filter (fun p => p.target.isHost)).getLast? with
  | some p => s.modQueue c q fun x =>
      { x with lastHost := some (p.caddr, ep), hostFuncs := (x.hostFuncs ++ l.filterMap (fun p => p.target.func)).dedup }
  | none => s

/-- Issue posted writes to targets. -/
def State.postWrites (s : State) (c q : Nat) (way : Target → List Nat) (l : List (Nat × Target × List Byte)) : State :=
  s.postAll c q (l.map (mkPosted c q way))

/-! ### Event records (R211 to R214) -/

/-- Is the kind droppable (Table 9-9)? -/
def droppable (kind : Nat) : Bool := decide (6 ≤ kind ∧ kind ≤ 0x0E)

/-- The bytes of a record (Table 9-8). A record that names no die holds 0x1F in DIE, as Table 9-8 has it, though Table 0-7
says that 0x14 to 0x1F stand in no record the device writes (DESIGN CHOICE, log 97). -/
def Rec.bytes (r : Rec) (lost : Bool) : List Byte :=
  leBytes 32 (r.kind % 256 + (if r.waiver then 2 ^ 8 else 0) + (if lost then 2 ^ 9 else 0) + r.status % 65536 * 2 ^ 16
    + r.c % 4096 * 2 ^ 32 + r.q % 16 * 2 ^ 44 + r.gen.toNat * 2 ^ 48 + r.cookie.toNat * 2 ^ 64
    + r.frame.toNat * 2 ^ 128 + r.phase % 8 * 2 ^ 160 + r.die % 32 * 2 ^ 163 + r.index % 4096 * 2 ^ 168
    + r.detail.toNat * 2 ^ 192)

/-- A record of a kind, stamped with the frame, the phase and the waiver flag (R192). It names no die where its maker names
none: which die the records of a kind name is the model's choice (DESIGN CHOICE, log 97). -/
def State.mkRec (s : State) (kind : Nat) : Rec :=
  { kind := kind, frame := s.frame.counter.setWidth 32, phase := s.frame.phase.code,
    waiver := decide (s.boot.dev = .waived) }

/-- Records the ring holds that the host has not consumed. -/
def Ctx.used (x : Ctx) : Nat := x.ringWritten - x.ringRead

/-- R242: a function or tenant reset writes no record into host pages of a covered function; such writes are
discarded by the function's block (R239). -/
def State.putRec (s : State) (r : Rec) : State :=
  let x := s.ctx r.c
  let bs := r.bytes x.lost
  let s := s.modCtx r.c fun x =>
    { x with ringWritten := x.ringWritten + 1, lost := false,
             toNotify := if r.q ∈ x.toNotify then x.toNotify else x.toNotify ++ [r.q] }
  s.wrCtx r.c (r.q % 15) (x.ring + x.ringWritten % x.ringSize * 32) bs

/-- R213: write, drop or hold a record of its context. -/
def State.post (s : State) (r : Rec) : State :=
  let x := s.ctx r.c
  let r := { r with gen := x.gen }
  if x.state = .free then s else
  if droppable r.kind then
    if x.ringSize ≤ x.used + x.hold.length + Config.ringReserve then
      (s.modCtx r.c fun x => { x with lost := true }).modTen x.tenant fun t =>
        { t with dropped := satInc 32 t.dropped }
    else if x.hold = [] then s.putRec r else s.modCtx r.c fun x => { x with hold := x.hold ++ [r] }
  else if x.hold = [] ∧ x.used < x.ringSize then s.putRec r
  else s.modCtx r.c fun x => { x with hold := x.hold ++ [r] }

/-- R211: a tenant-wide event goes to each context of the tenant with TENANT_EVENTS. -/
def State.postTenant (s : State) (t : Nat) (r : Rec) : State :=
  (s.liveCtxs.filter (fun c => decide ((s.ctx c).tenant = t) && (s.ctx c).tenantEvents)).foldl
    (fun s c => s.post { r with c := c, q := 15 }) s

/-- R211: a supervisor event. -/
def State.postSup (s : State) (r : Rec) : State := s.send (.superEvent { r with q := 15 })

/-- Tenants with a binding. -/
def State.boundTenants (s : State) : List Nat := (List.range 8).filter (fun t => decide (fld (s.binding t) 1 0 ≠ 0))

/-- R43: the TICK event to the supervisor and every tenant. -/
def State.tickEvent (s : State) : State :=
  let r := { s.mkRec 0x06 with detail := BitVec.ofNat 64 s.frame.tickState.code, die := 0x0F }
  (List.range 8).foldl (fun s t => s.postTenant t r) (s.postSup r)

/-- R227: one MSI-X message. -/
def State.msix (s : State) (port func entry : Nat) : State :=
  let f := s.func port func
  if f.blocked || !f.msixEnable then s
  else if f.msixMask || !(tget false f.unmasked entry) then
    s.modFunc port func fun f => { f with pendingBits := tset false f.pendingBits entry true }
  else s.send (.msix port func entry)

/-- R214: the notification of one queue of a context (R226, R228, R229). -/
def State.notifyQueue (s : State) (c q : Nat) : State :=
  let x := s.ctx c
  let n := x.qvec q
  match x.via with
  | .pcie port func => s.msix port func n
  | .burin part =>
    (s.modPart part fun p =>
      { p with pendingWord := p.pendingWord ||| BitVec.ofNat 64 (2 ^ (n % 64)), irq := true }).send (.burinIrq part)
  | .can _ _ | .eth _ _ _ =>
    s.modTen x.tenant fun t => { t with notify := t.notify ||| BitVec.ofNat 64 (2 ^ (n % 64)), notifyDue := true }
  | .supervisor => s

/-- A header of a datagram the device sends (Table 11-7). -/
def pranilHdr (type seq index sub port length status frame : Nat) : BitVec 256 :=
  BitVec.ofNat 256 (0x4E415250 + 1 * 2 ^ 32 + type % 256 * 2 ^ 40 + seq % 65536 * 2 ^ 48 + index % 65536 * 2 ^ 64
    + sub % 256 * 2 ^ 80 + port % 4 * 2 ^ 88 + length % 65536 * 2 ^ 96 + status % 2 ^ 32 * 2 ^ 128
    + frame % 2 ^ 32 * 2 ^ 160)

/-- The frame number [31:0]. -/
def State.frameLo (s : State) : Nat := s.frame.counter.toNat % 2 ^ 32

/-- R214: records of one queue written within one phase send one message, here, when the phase ends. -/
def State.notifyCtx (s : State) (c : Nat) : State :=
  let l := (s.ctx c).toNotify
  let s := l.foldl (fun s q => s.notifyQueue c q) s
  s.modCtx c fun x => { x with toNotify := [] }

/-! ### Error register and EMCY (R266) -/

/-- Set or clear bits of the error register of one port, with the EMCY that a rise or the last fall sends. -/
def State.errBit (s : State) (p code : Nat) (bitNo : Nat) (on : Bool) : State :=
  let old := (s.can p).errReg
  let m : BitVec 8 := BitVec.ofNat 8 (2 ^ bitNo)
  let new := if on then old ||| m else old &&& ~~~ m
  let s := s.modCan p fun x => { x with errReg := new }
  if s.atReset 0x1E10 (p + 1) = 0 then s
  else if on then (if old &&& m = 0 then s.send (.emcy p code new (s.frame.counter.setWidth 32)) else s)
  else if old ≠ 0 ∧ new = 0 then s.send (.emcy p 0 0 (s.frame.counter.setWidth 32)) else s

def State.errAll (s : State) (code bitNo : Nat) (on : Bool) : State :=
  (List.range 4).foldl (fun s p => s.errBit p code bitNo on) s

end Sys2Proof.Machine
end

