-- ==== Sys2Proof/Machine/Operands.lean ====
section
/-!
DEFINITION. Operands of a macro-instruction: the program it stands in, its fields, its descriptors resolved to
matrices (R141 to R144, R171, R173), the Graver's checks (Table 7-7), and reading and writing of matrices.
-/

namespace Sys2Proof.Machine

/-! ### The bundle of a context and its fields (Tables 8-1 to 8-5b) -/

def Bundle.id (b : Bundle) : Nat := fld b.header 191 128
def Bundle.level (b : Bundle) : Nat := fld b.header 51 48
def Bundle.keySlot (b : Bundle) : Nat := fld b.header 103 102
def Bundle.pclass (b : Bundle) : Nat := fld b.header 107 104
def Bundle.icost (b : Bundle) : Nat := fld b.res 31 0
def Bundle.sheet (b : Bundle) (k : Nat) : Nat := fld b.res (16 * k + 47) (16 * k + 32)
def Bundle.epieces (b : Bundle) (n : Nat) : Nat := fld b.res (16 * n + 70) (16 * n + 64)
def Bundle.eplates (b : Bundle) (n : Nat) : Nat := fld b.res (16 * n + 74) (16 * n + 71)
def Bundle.dwells (b : Bundle) (m : Nat) : Nat := fld b.res (32 * m + 201) (32 * m + 192)
def Bundle.swells (b : Bundle) (m : Nat) : Nat := fld b.res (32 * m + 217) (32 * m + 208)
def Bundle.need (b : Bundle) (m : Nat) : BitVec 256 := b.build.getD m 0
def Bundle.used (b : Bundle) (m : Nat) : Bool := bit (b.need m) 0
def Bundle.role (b : Bundle) (i m : Nat) : Bool := bit (b.need m) i
/-- The HATCH die (role 1), the Stipple die (2), the rebite die (3). -/
def Bundle.roleDie (b : Bundle) (i : Nat) : Option Nat := (List.range 4).find? (fun m => b.role i m)
/-- The declared time of a unit, 0 where no entry names it (R51). -/
def Bundle.utime (b : Bundle) (u : Nat) : Nat :=
  match b.units.find? (fun e => fld e 7 0 = u) with
  | some e => fld e 63 32
  | none => 0
def Bundle.program (b : Bundle) (p : Nat) : Program := tget {} b.progs p

/-- The latest verified copy that a tenant submitted under an identifier: its place among the copies (R178). -/
def State.copyFor (s : State) (t id : Nat) : Option Nat :=
  ((s.bundles.zipIdx).reverse.find? (fun e => decide (e.1.tenant = t) && decide (e.1.id = id))).map (·.2)

/-- The verified copy a context runs, the one found at its CREATE. -/
def State.bundleOf (s : State) (c : Nat) : Bundle := s.bundles.getD (s.ctx c).copy {}

/-- Does the context use impression queues: one with an entry ring in its record (log 9)? -/
def Ctx.impression (x : Ctx) : Bool := (List.range 4).any (fun q => decide (x.qbase q ≠ 0))

/-! ### Fields of a macro-instruction (Tables 6-1, 6-7 to 6-15) -/

abbrev Word256 := BitVec 256

def opcode (w : Word256) : Nat := fld w 7 0
def isAsync (w : Word256) : Bool := bit w 8
def stReg (w : Word256) : Nat := fld w 21 16
def stEn (w : Word256) : Bool := bit w 22

/-- The program a queue runs, and the macro-instruction at an index. -/
def State.progOf (s : State) (c q : Nat) : Program :=
  match (s.queue c q).run with
  | some r => (s.bundleOf c).program r.prog
  | none => {}
def State.macroAt (s : State) (c q i : Nat) : Word256 := (s.progOf c q).macros.getD i 0

/-- A parameter register of a queue (R145). -/
def State.prm (s : State) (c q r : Nat) : BitVec 64 := tget 0 (s.queue c q).prm r
def State.setPrm (s : State) (c q r : Nat) (v : BitVec 64) : State :=
  s.modQueue c q fun x => { x with prm := tset 0 x.prm r v }

/-! ### Descriptors (Table 6-3) -/

def dBase (d : Word256) : Nat := fld d 47 0
def dSpace (d : Word256) : Nat := fld d 49 48
def dPlist (d : Word256) : Bool := bit d 50
def dType (d : Word256) : Nat := fld d 55 52
def dBaseReg (d : Word256) : Nat := fld d 61 56
def dBaseEn (d : Word256) : Bool := bit d 62
def dRows (d : Word256) : Nat := fld d 79 64 + 1
def dCols (d : Word256) : Nat := fld d 95 80 + 1
def dStride (d : Word256) : Nat := fld d 127 96
def dBuckets (d : Word256) : Nat := fld d 135 128
def dShapeReg (d : Word256) : Nat := fld d 141 136
def dShapeEn (d : Word256) : Bool := bit d 142
def dPlen (d : Word256) : Nat := fld d 159 144 + 1

/-- Bits of an element (Table 6-4). -/
def eltBits (ty : Nat) : Nat :=
  if ty = 0 then 4 else if ty = 1 ∨ ty = 6 then 8 else if ty = 2 ∨ ty = 4 ∨ ty = 7 then 16 else 32
/-- Bytes an element is aligned to. -/
def eltAlign (ty : Nat) : Nat := max 1 (eltBits ty / 8)
/-- Bytes of a row of `n` elements. -/
def rowBytes (ty n : Nat) : Nat := (n * eltBits ty + 7) / 8
def isFloat (ty : Nat) : Bool := decide (ty = 4 ∨ ty = 5)
/-- Signed integer types. -/
def isSigned (ty : Nat) : Bool := decide (ty < 4)

/-- The padded shape P(d, b) of the bucket table (R170), if it has one. -/
def Program.bucket (p : Program) (d b : Nat) : Option (Nat × Nat) :=
  match p.buckets.find? (fun e => fld e 7 0 = d ∧ fld e 10 8 = b) with
  | some e => some (fld e 31 16 + 1, fld e 47 32 + 1)
  | none => none

/-- The actual shape of a variable descriptor (R143): 0 in either half means the full count. -/
def actualShape (d : Word256) (reg : BitVec 64) : Nat × Nat :=
  (if fld reg 31 0 = 0 then dRows d else fld reg 31 0, if fld reg 63 32 = 0 then dCols d else fld reg 63 32)

/-- R171: the bucket of a macro-instruction that names the descriptors `ds` (index and word); 8 with none variable. -/
def selectBucket (s : State) (c q : Nat) (p : Program) (ds : List (Nat × Word256)) : Option Nat :=
  let vs := ds.filter (fun e => dShapeEn e.2)
  if vs = [] then some 8 else
  (List.range 8).find? (fun b => vs.all (fun e =>
    decide (dBuckets e.2 / 2 ^ b % 2 = 1) &&
      (match p.bucket e.1 b with
       | some (r, k) =>
         let a := actualShape e.2 (s.prm c q (dShapeReg e.2))
         decide (a.1 ≤ r ∧ a.2 ≤ k)
       | none => false)))

/-- The padded shape a descriptor takes in a bucket (R171). -/
def shapeIn (p : Program) (b : Nat) (e : Nat × Word256) : Nat × Nat :=
  if dShapeEn e.2 then (match p.bucket e.1 b with | some x => x | none => (dRows e.2, dCols e.2))
  else (dRows e.2, dCols e.2)

/-- Read a list at issue: entries one by one, so nothing after LAST is read. A list that cannot be read faults PLIST_INDEX
(Table 7-7, step 3). -/
def readList (s : State) (c : Nat) (ecc : Found) : Nat → Nat → Except (Status × Nat) (List Nat) × State
  | 0, _ => (.ok [], s)
  | fuel + 1, a =>
    match s.readCtx c ecc a 8 with
    | (.error _, s) => (.error (.plistIndex, 0), s)
    | (.ok bs, s) =>
      let w := leNat bs
      if nfld w 62 48 ≠ 0 then (.error (.plistIndex, 0), s)
      else if w / 2 ^ 63 = 1 then (.ok [w % 2 ^ 48], s)
      else match readList s c ecc fuel (a + 8) with
        | (.ok l, s) => (.ok (w % 2 ^ 48 :: l), s)
        | (.error e, s) => (.error e, s)

/-- R143: a descriptor resolved in a bucket, its list not yet read. -/
def preMat (s : State) (c q : Nat) (p : Program) (b : Nat) (e : Nat × Word256) : Mat :=
  let d := e.2
  let base := (dBase d + if dBaseEn d then (s.prm c q (dBaseReg d)).toNat else 0) % 2 ^ 48
  let sh := shapeIn p b e
  { space := dSpace d, base := base, bases := [base], isList := dPlist d, rows := sh.1, cols := sh.2, stride := dStride d,
    ty := dType d, bucket := b }

/-- R144, R173: read the lists of the descriptors that have one, in order. -/
def fetchLists (s : State) (c : Nat) (ecc : Found) : List (Word256 × Mat) → Except (Status × Nat) (List Mat) × State
  | [] => (.ok [], s)
  | (d, m) :: rest =>
    if m.isList then
      match readList s c ecc (dPlen d) (m.bases.getD 0 0) with
      | (.error x, s) => (.error x, s)
      | (.ok l, s) =>
        match fetchLists s c ecc rest with
        | (.ok ms, s) => (.ok ({ m with bases := l } :: ms), s)
        | (.error x, s) => (.error x, s)
    else
      match fetchLists s c ecc rest with
      | (.ok ms, s) => (.ok (m :: ms), s)
      | (.error x, s) => (.error x, s)

/-- The descriptor of an index, with its index. -/
def Program.desc (p : Program) (i : Nat) : Nat × Word256 := (i, p.descs.getD i 0)

/-- Span of one matrix from its base to its last byte. -/
def Mat.span (m : Mat) : Nat := (m.rows - 1) * m.stride + rowBytes m.ty m.cols
/-- The base of walk `e`: a descriptor without a list serves every walk (R173). -/
def Mat.at (m : Mat) (e : Nat) : Nat := if m.isList then m.bases.getD e 0 else m.bases.getD 0 0
/-- Number of walks. -/
def walks (ms : List Mat) : Nat := (ms.map (fun m => if m.isList then m.bases.length else 1)).foldl max 1

/-- A fault and the DETAIL of its record. -/
abbrev Flt := Status × Nat

/-- DETAIL of an overflow fault (Table 9-9): claim or footprint and share size. -/
def overflowDetail (claim size : Nat) : Nat := min claim (2 ^ 32 - 1) + min size (2 ^ 32 - 1) * 2 ^ 32

/-- Step 3 of Table 7-7: list counts agree; a list operand has a list destination. -/
def listCheck (ops : List Mat) (dst : Option Mat) (sumlist : Bool) : Option Flt :=
  let ls := (ops ++ dst.toList).filter (fun m => m.isList)
  let n := match ls with | [] => 0 | m :: _ => m.bases.length
  if !ls.all (fun m => decide (m.bases.length = n)) then some (.plistIndex, 0)
  else if ops.any (fun m => m.isList) && !sumlist && !(match dst with | some d => d.isList | none => false) then
    some (.plistIndex, 0)
  else if sumlist && !((ops.headD {}).isList && !(match dst with | some d => d.isList | none => true)) then
    some (.plistIndex, 0)
  else none

/-- Steps 1 to 6 of Table 7-7 for descriptors `ds`, of which the last is the destination where `hasDst`. `shapes` is
step 2, given the shapes; `es` and `ws` are the sizes of the shares the places mean. -/
def prepare (s : State) (c q : Nat) (ecc : Found) (ds : List (Nat × Word256)) (hasDst sumlist : Bool)
    (shapes : List Mat → Option Flt) (place : List Mat → Option Flt) : Except Flt (List Mat) × State :=
  let p := s.progOf c q
  match selectBucket s c q p ds with
  | none => (.error (.bucketNone, 0), s)
  | some b =>
    let ms := ds.map (preMat s c q p b)
    match shapes ms with
    | some f => (.error f, s)
    | none =>
      match fetchLists s c ecc ((ds.map (·.2)).zip ms) with
      | (.error f, s) => (.error f, s)
      | (.ok ms, s) =>
        let dst := if hasDst then ms.getLast? else none
        let ops := if hasDst then ms.dropLast else ms
        match listCheck ops dst sumlist with
        | some f => (.error f, s)
        | none => match place ms with
          | some f => (.error f, s)
          | none => (.ok ms, s)

/-- Step 4 of Table 7-7: a resolved base or a list entry that is not aligned to its element, or a list not to 8 bytes
(R173; that it faults MISALIGNED is DEDUCED, log 93). -/
def Mat.misaligned (m : Mat) : Bool :=
  decide (m.base % (if m.isList then 8 else eltAlign m.ty) ≠ 0) || m.bases.any (fun b => decide (b % eltAlign m.ty ≠ 0))

/-- Steps 4 to 6 of Table 7-7: alignment, etch share (`es` bytes below its save area), data wells (`ws` bytes). The footprint
reported is the span from the base to the last byte. -/
def placeCheck (ms : List Mat) (es ws : Nat) : Option Flt :=
  if ms.any Mat.misaligned then some (.misaligned, 0) else
  let past (sp size : Nat) : Option Nat :=
    ((ms.filter (fun m => decide (m.space = sp ∧ m.bases.any (fun b => decide (size < b + m.span)) = true))).map
      Mat.span).head?
  match past 1 es with
  | some x => some (.etchShare, overflowDetail x es)
  | none => match past 2 ws with
    | some x => some (.wellShare, overflowDetail x ws)
    | none => none

/-! ### Where a matrix lies -/

/-- The etch share a SPACE 1 descriptor means outside an ETCH: the lowest Plate die with pieces (log 10). -/
def State.etchDie (s : State) (c : Nat) : Nat :=
  match (List.range 8).find? (fun n => decide ((s.bundleOf c).epieces n ≠ 0)) with
  | some n => n
  | none => 0

/-- Bytes of the etch share below the save area (R162). -/
def State.etchSize (s : State) (c p : Nat) : Nat := (s.bundleOf c).epieces p * 65536 - 16384
/-- Bytes of the data part of the panel-well share (R162). -/
def State.wellSize (s : State) (c m : Nat) : Nat := (s.bundleOf c).dwells m * 8192

/-- Device address of an offset in the etch share of context c on Plate die p. -/
def State.etchAddr (s : State) (c p off : Nat) : Nat := etchBaseOf p + tget 0 (s.ctx c).etchBase p * 65536 + off
/-- Device address of an offset in the panel-well share of context c on Field die m. -/
def State.wellAddr (s : State) (c m off : Nat) : Nat := wellBaseOf m + tget 0 (s.ctx c).wellBase m * 8192 + off

/-- The dies that SPACE 1 and SPACE 2 mean for a macro-instruction. -/
structure Place where
  p : Nat
  m : Nat
deriving DecidableEq, Repr

/-! ### Links on the way (R31, Table 1-10) -/

/-- Is the link down in effect: declared, and its first GUARD past? -/
def State.linkDown (s : State) (l : Nat) : Bool := decide ((s.link l).state = .down) && !(s.link l).downDue

/-- Links of Field die m. -/
def fieldLink (m k : Nat) : Nat := 8 + m + 4 * k

/-- Which Ink die's half an address needs, seen from Field die m: is the way to it down? -/
def State.wayDown (s : State) (m : Nat) (t : Target) : Bool :=
  match t with
  | .dev a =>
    match s.region a with
    | .lp k _ => s.linkDown (fieldLink m k)
    | .stock k _ => s.linkDown (fieldLink m k)
    | .etch p _ => s.linkDown (fieldLink m (p / 4)) || s.linkDown p
    | .wells n _ =>
      decide (n ≠ m) && (s.linkDown (fieldLink m 0) || s.linkDown (fieldLink n 0)) &&
        (s.linkDown (fieldLink m 1) || s.linkDown (fieldLink n 1))
    | _ => false
  | .hostPage _ _ _ =>
    (s.linkDown (fieldLink m 0) || s.linkDown 18) && (s.linkDown (fieldLink m 1) || s.linkDown 19)

/-- The same, seen from Ink die k. -/
def State.inkWayDown (s : State) (k : Nat) (t : Target) : Bool :=
  match t with
  | .dev a =>
    match s.region a with
    | .etch p _ => s.linkDown p
    | .wells m _ => s.linkDown (fieldLink m k)
    | _ => false
  | .hostPage _ _ _ => s.linkDown (18 + k)

/-- The engine that walks a macro-instruction: a Field die or an Ink die. -/
inductive Engine where
  | field (m : Nat)
  | ink (k : Nat)
  | plate
deriving DecidableEq, Repr

def State.blockedWay (s : State) (e : Engine) (t : Target) : Bool :=
  match e with
  | .field m => s.wayDown m t
  | .ink k => s.inkWayDown k t
  | .plate => false

/-- The links a write crosses (Table 1-5): through K0, or through K1 where K0's way is down. -/
def State.wayOf (s : State) (e : Engine) (t : Target) : List Nat :=
  match e, t with
  | .field m, .dev a => match s.region a with
    | .lp k _ => [fieldLink m k]
    | .stock k _ => [fieldLink m k]
    | .etch p _ => [fieldLink m (p / 4), p]
    | .wells n _ => if n = m then [] else
        if s.linkDown (fieldLink m 0) || s.linkDown (fieldLink n 0) then [fieldLink m 1, fieldLink n 1]
        else [fieldLink m 0, fieldLink n 0]
    | _ => []
  | .field m, .hostPage _ _ _ =>
    if s.linkDown (fieldLink m 0) || s.linkDown 18 then [fieldLink m 1, 19] else [fieldLink m 0, 18]
  | .ink k, .dev a => match s.region a with
    | .etch p _ => [p]
    | .wells m _ => [fieldLink m k]
    | _ => []
  | .ink k, .hostPage _ _ _ => [18 + k]
  | .plate, _ => []

/-! ### Reading and writing matrices -/

/-- The targets of a byte range of a matrix's space. -/
def State.spaceTargets (s : State) (c : Nat) (pl : Place) (sp a : Nat) (bs : List Byte) (write : Bool) :
    Except Flt (List (Nat × Target × List Byte)) × State :=
  if sp = 1 then (.ok [(a, .dev (s.etchAddr c pl.p a), bs)], s)
  else if sp = 2 then (.ok [(a, .dev (s.wellAddr c pl.m a), bs)], s)
  else
    (pagePieces (bs.length / 65536 + 2) a bs.length).foldl
      (fun (r : Except Flt (List (Nat × Target × List Byte)) × State) pc =>
        match r with
        | (.error e, s) => (.error e, s)
        | (.ok l, s) =>
          match s.translate c pc.1 write with
          | (none, s) => (.error (.unmapped, pc.1), s)
          | (some t, s) => (.ok (l ++ [(pc.1, t, slice bs (pc.1 - a) pc.2)]), s)) (.ok [], s)

/-- Read a byte range of a matrix through the engine's way. -/
def State.readSpace (s : State) (c : Nat) (e : Engine) (pl : Place) (ecc : Found) (sp a n : Nat) :
    Except Flt (List Byte) × State :=
  match s.spaceTargets c pl sp a (List.replicate n 0) false with
  | (.error x, s) => (.error x, s)
  | (.ok l, s) =>
    l.foldl (fun (r : Except Flt (List Byte) × State) t =>
      match r with
      | (.error x, s) => (.error x, s)
      | (.ok bs, s) =>
        if s.blockedWay e t.2.1 then (.error (.linkDown, t.1), s) else
        match s.readPiece c ecc t.2.1 t.2.2.length with
        | (.ok b, s) => (.ok (bs ++ b), s)
        | (.error st, s) => (.error (st, t.1), s)) (.ok [], s)

/-- An element as the arithmetic takes it: an integer, or the bit pattern of a float. -/
def decodeElt (ty v : Nat) : Int := if isSigned ty then signed (eltBits ty) v else v

/-- The elements of a row's bytes; INT4 is packed two to a byte, lower index in [3:0] (R142). -/
def decodeRow (ty n : Nat) (bs : List Byte) : List Int :=
  (List.range n).map (fun j =>
    if ty = 0 then decodeElt 0 ((bs.getD (j / 2) 0).toNat >>> (4 * (j % 2)))
    else decodeElt ty (leNat ((bs.drop (j * (eltBits ty / 8))).take (eltBits ty / 8))))

/-- The bytes of a row of elements. -/
def encodeRow (ty : Nat) (vs : List Int) : List Byte :=
  if ty = 0 then
    (List.range ((vs.length + 1) / 2)).map (fun i =>
      BitVec.ofNat 8 (unsigned 4 (vs.getD (2 * i) 0) + 16 * unsigned 4 (vs.getD (2 * i + 1) 0)))
  else vs.flatMap (fun v => leBytes (eltBits ty / 8) (unsigned (eltBits ty) v))

/-- Rows `r0` to `r0 + rn - 1`, columns `c0` to `c0 + cn - 1` of walk `w` of a matrix, row by row. -/
def State.readBlock (s : State) (c : Nat) (e : Engine) (pl : Place) (ecc : Found) (m : Mat) (w r0 rn c0 cn : Nat) :
    Except Flt (List Int) × State :=
  (List.range rn).foldl (fun (r : Except Flt (List Int) × State) i =>
    match r with
    | (.error x, s) => (.error x, s)
    | (.ok vs, s) =>
      let o := c0 * eltBits m.ty / 8
      let n := rowBytes m.ty (c0 * (if m.ty = 0 then 1 else 0) % 2 + cn)
      match s.readSpace c e pl ecc m.space (m.at w + (r0 + i) * m.stride + o) n with
      | (.ok bs, s) =>
        (.ok (vs ++ (decodeRow m.ty (c0 * (if m.ty = 0 then 1 else 0) % 2 + cn) bs).drop
          (c0 * (if m.ty = 0 then 1 else 0) % 2)), s)
      | (.error x, s) => (.error x, s)) (.ok [], s)

/-- A whole matrix. -/
def State.readMat (s : State) (c : Nat) (e : Engine) (pl : Place) (ecc : Found) (m : Mat) (w : Nat) :
    Except Flt (List Int) × State := s.readBlock c e pl ecc m w 0 m.rows 0 m.cols

/-- The targets of a block of a destination whose rows' bytes are `rows`, from row `r0` and byte `o` of a row on. -/
def State.blockTargets (s : State) (c : Nat) (e : Engine) (pl : Place) (m : Mat) (w r0 o : Nat) (rows : List (List Byte)) :
    Except Flt (List (Nat × Target × List Byte)) × State :=
  (rows.zipIdx).foldl (fun (r : Except Flt (List (Nat × Target × List Byte)) × State) row =>
    match r with
    | (.error x, s) => (.error x, s)
    | (.ok l, s) =>
      match s.spaceTargets c pl m.space (m.at w + (r0 + row.2) * m.stride + o) row.1 true with
      | (.error x, s) => (.error x, s)
      | (.ok k, s) =>
        match k.find? (fun t => s.blockedWay e t.2.1) with
        | some t => (.error (.linkDown, t.1), s)
        | none => (.ok (l ++ k), s)) (.ok [], s)

/-- The targets of every row of a destination, so that nothing is written where one fails (R140, R174). -/
def State.matTargets (s : State) (c : Nat) (e : Engine) (pl : Place) (m : Mat) (w : Nat) (rows : List (List Byte)) :
    Except Flt (List (Nat × Target × List Byte)) × State := s.blockTargets c e pl m w 0 0 rows

/-- Rows of bytes of `rn` rows of `cn` elements, listed row by row. -/
def blockRows (ty rn cn : Nat) (vs : List Int) : List (List Byte) :=
  (List.range rn).map (fun i => encodeRow ty ((vs.drop (i * cn)).take cn))

/-- Rows of bytes of a row-major list of elements. -/
def matRows (m : Mat) (vs : List Int) : List (List Byte) := blockRows m.ty m.rows m.cols vs

/-- Write to a space: context memory by posted writes (R22), etch buffer and wells at once. -/
def State.writeSpace (s : State) (c q : Nat) (e : Engine) (sp : Nat) (l : List (Nat × Target × List Byte)) : State :=
  if sp = 0 then s.postWrites c q (s.wayOf e) l else l.foldl (fun s e => s.wrTarget e.2.1 e.2.2) s

/-- Write a whole destination, or the fault that stops it. -/
def State.writeMat (s : State) (c q : Nat) (e : Engine) (pl : Place) (m : Mat) (w : Nat) (vs : List Int) :
    Option Flt × State :=
  match s.matTargets c e pl m w (matRows m vs) with
  | (.error x, s) => (some x, s)
  | (.ok l, s) => (none, s.writeSpace c q e m.space l)

/-- The Ink die that holds a target, if one does. -/
def State.inkOf (s : State) (t : Target) : Option Nat :=
  match t with
  | .dev a => match s.region a with
    | .lp k _ => some k
    | .stock k _ => some k
    | .etch p _ => some (p / 4)
    | _ => none
  | .hostPage _ _ _ => none

end Sys2Proof.Machine
end

