-- ==== Sys2Proof/Machine/Flags.lean ====
section
/-!
DEFINITION. Rounding, saturation and the status words: R73 and R124 rounding, conversion to an element type with its
saturation count, the plate status word (Table 3-5), the burr word (Table 4-3), the burr of a pass (R94, R95, R97) and
the ledger (Table 4-5).
-/

namespace Sys2Proof.Machine

/-- rnd(a / b), nearest, ties away from zero (R73). -/
def rndDiv (a : Int) (b : Nat) : Int :=
  if a ≥ 0 then (2 * a + b) / (2 * b) else -((2 * (-a) + b) / (2 * b))

/-- rnd(n / d) for a signed divisor. -/
def rndDivI (n d : Int) : Int := if d ≥ 0 then rndDiv n d.natAbs else rndDiv (-n) d.natAbs

/-- Range of an integer type (Table 6-4). -/
def clampTy (ty : Nat) (v : Int) : Int := if isSigned ty then clampS (eltBits ty) v else clampU (eltBits ty) v

/-- An integer stored in a type: the element and 1 where it saturated. -/
def storeInt (ty : Nat) (v : Int) : Int × Nat :=
  if ty = 5 then (toF32 true (fpOfInt v 0), 0) else if ty = 4 then (toBf16 true (fpOfInt v 0), 0)
  else (clampTy ty v, if clampTy ty v = v then 0 else 1)

/-- A float pattern of type `from_` as a number. -/
def fpElt (from_ : Nat) (v : Int) : Fp := if from_ = 4 then fpOfBf v.toNat else fpOf v.toNat

/-- A float stored in a type. `free` is the value where the spec states none: NaN to an integer (log 4). -/
def storeFp (away : Bool) (ty : Nat) (x : Fp) (free : Int) : Int × Nat :=
  if ty = 5 then (toF32 away x, 0) else if ty = 4 then (toBf16 away x, 0)
  else match fpToInt x with
    | some v => (clampTy ty v, if clampTy ty v = v then 0 else 1)
    | none => match x with
      | .inf true => (clampTy ty (-(2 ^ 64)), 1)
      | .inf false => (clampTy ty (2 ^ 64), 1)
      | _ => (clampTy ty free, 0)

/-- Saturations and reruns of HATCH, STIPPLE, TONE and REDUCE (Table 6-6). -/
def countWord (sats reruns : Nat) : BitVec 64 :=
  BitVec.ofNat 64 (min sats 0xFFFFFFFF + min reruns 0xFFFFFFFF * 2 ^ 32)

/-- Table 3-5. -/
def plateWord (clip sat : Nat) (overdue upset : Bool) (plates : Nat) : Nat :=
  min clip 2047 + min sat 2047 * 2 ^ 11 + (if overdue then 2 ^ 22 else 0) + (if upset then 2 ^ 23 else 0)
    + plates % 16 * 2 ^ 24

/-- Table 4-3. -/
def burrWord (maxBurr failed rebitten : Nat) (flagged located : Bool) : Nat :=
  min maxBurr 0xFFFF + min failed 63 * 2 ^ 16 + min rebitten 63 * 2 ^ 22 + (if flagged then 2 ^ 28 else 0)
    + (if located then 2 ^ 29 else 0)

/-- ETCH status word (Table 6-6). -/
def EtchRun.word (h : EtchRun) : BitVec 64 :=
  BitVec.ofNat 64 (plateWord h.clip h.sat h.overdue h.upset (h.plates.foldl (fun m g => m + 2 ^ (g % 4)) 0)
    + burrWord h.maxBurr h.failed h.rebitten (decide (h.flagPlates ≠ [])) h.located * 2 ^ 32)

/-- Integer square root: the greatest r with r² ≤ n, by bisection on 40 bits. -/
def isqrt (n : Nat) : Nat :=
  (List.range 40).foldl (fun r i => let t := r + 2 ^ (39 - i); if t * t ≤ n then t else r) 0

/-- ceil(a · √n). -/
def ceilSqrtMul (a n : Nat) : Nat :=
  let r := isqrt (a * a * n)
  if r * r = a * a * n then r else r + 1

/-- A setting of a proof class (R108), as latched at the last tick (log 8), and one of the class of a context. -/
def State.cls (s : State) (k sub : Nat) : Nat := s.atTick (0x4500 + k) sub
def State.clsOf (s : State) (c : Nat) : Nat := (s.bundleOf c).pclass
def State.pcls (s : State) (c sub : Nat) : Nat := s.cls (s.clsOf c) sub

/-- The burr limit L of a pass of width n under a proof class (R95). -/
def State.burrLimit (s : State) (k n : Nat) : Nat := s.cls k 1 + ceilSqrtMul (s.cls k 2) n

/-- D and D2 of a pass (R94). -/
def residual (codes : Tab Int) (n s : Nat) (e1 e2 : Int) (off : Tab Int) : Int × Int :=
  let js := List.range n
  (16 * (js.map (fun j => tget 0 codes j)).sum - rndDiv (16 * e1) (2 ^ s) - (js.map (fun j => tget 0 off j)).sum,
   16 * (js.map (fun (j : Nat) => ((j : Int) + 1) * tget 0 codes j)).sum - rndDiv (16 * e2) (2 ^ s)
     - (js.map (fun (j : Nat) => ((j : Int) + 1) * tget 0 off j)).sum)

def indexResidual (d2 : Int) (n : Nat) : Int := rndDiv (2 * d2) (n + 1)

/-- M of a pass. -/
def magnitude (codes : Tab Int) (n : Nat) : Nat := ((List.range n).map (fun j => (tget 0 codes j).natAbs)).sum

/-- The burr of a pass, in 1/16 LSB, taken up to a whole unit so that it exceeds L exactly when the exact one does
(R95; λ is in 0.01 %; log 11). -/
def burr (d d2n : Int) (m lam : Nat) : Nat :=
  min 0xFFFF (max (ceilDiv (d.natAbs * 10000 - 16 * lam * m) 10000) (ceilDiv (d2n.natAbs * 10000 - 32 * lam * m) 10000))

/-- R97: class (1 COLUMN, 2 ROW, 3 UNCLASSIFIED) and the located line, of a COLUMN fault only: no other class lies in a
line (DEDUCED, log 90). -/
def classify (d d2 dp dq : Int) (clamped : Bool) (n : Nat) : Nat × Option Nat :=
  if clamped then (3, none)
  else if 2 * dp.natAbs < d.natAbs then
    let j := rndDivI d2 d - 1
    (1, if 2 * dq.natAbs < d2.natAbs ∧ d ≠ 0 ∧ 0 ≤ j ∧ j < n then some j.toNat else none)
  else if 2 * (dp - d).natAbs ≤ d.natAbs then (2, none)
  else (3, none)

/-- Signed mean of the residual history (Table 4-5 DRIFT), rounded as R73 rounds (DESIGN CHOICE, log 90). -/
def Ledger.drift (l : Ledger) : Int := if l.history = [] then 0 else rndDiv l.history.sum l.history.length

/-- Table 4-5. -/
def Ledger.bytes (l : Ledger) : List Byte :=
  leBytes 64 (min l.proven (2 ^ 32 - 1) + min l.failed (2 ^ 32 - 1) * 2 ^ 32 + min l.rebitten (2 ^ 32 - 1) * 2 ^ 64
    + min l.refused 0xFFFF * 2 ^ 96 + min l.flagged 0xFFFF * 2 ^ 112 + min l.maxBurr 0xFFFF * 2 ^ 128
    + min l.lastBurr 0xFFFF * 2 ^ 144 + l.maxFrame % 2 ^ 32 * 2 ^ 160 + unsigned 32 l.drift * 2 ^ 192
    + min l.nColumn 0xFFFF * 2 ^ 224 + min l.nRow 0xFFFF * 2 ^ 240 + min l.nUnclass 0xFFFF * 2 ^ 256
    + min l.nClip 0xFFFF * 2 ^ 272 + min l.nUpset 0xFFFF * 2 ^ 288 + min l.nOut 0xFFFF * 2 ^ 304
    + l.failFrame % 2 ^ 32 * 2 ^ 320 + l.failLine % 1024 * 2 ^ 352 + (if l.located then 2 ^ 362 else 0)
    + l.failPlate % 32 * 2 ^ 363 + l.failCtx % 4096 * 2 ^ 368 + l.failClass % 16 * 2 ^ 380
    + unsigned 32 l.failD * 2 ^ 384 + min l.failBurr 0xFFFF * 2 ^ 416)

/-- A pass recorded in a ledger (R109): class 0 is PROVEN. CLIP and OUT passes give no residual to DRIFT. -/
def Ledger.pass (l : Ledger) (cls beta : Nat) (d : Int) (loc : Option Nat) (frame g c : Nat) : Ledger :=
  let l := { l with lastBurr := beta, changed := true,
                    maxBurr := max l.maxBurr beta,
                    maxFrame := if l.maxBurr < beta then frame else l.maxFrame,
                    history := if cls = 4 ∨ cls = 6 then l.history else (l.history ++ [d]).drop (l.history.length - 1023) }
  if cls = 0 then { l with proven := satInc 32 l.proven } else
  { l with failed := satInc 32 l.failed,
           nColumn := if cls = 1 then satInc 16 l.nColumn else l.nColumn,
           nRow := if cls = 2 then satInc 16 l.nRow else l.nRow,
           nUnclass := if cls = 3 then satInc 16 l.nUnclass else l.nUnclass,
           nClip := if cls = 4 then satInc 16 l.nClip else l.nClip,
           nUpset := if cls = 5 then satInc 16 l.nUpset else l.nUpset,
           nOut := if cls = 6 then satInc 16 l.nOut else l.nOut,
           failFrame := frame, failLine := loc.getD 0, located := loc.isSome, failPlate := g, failCtx := c,
           failClass := cls, failD := d, failBurr := beta }

/-- A 24-bit accumulator register (R79): the value and 1 where it saturated. -/
def acc24 (v : Int) : Int × Nat := (clampS 24 v, if clampS 24 v = v then 0 else 1)

/-- Table 3-4: the written element of a register and 1 where it saturated, by the type of DY. -/
def writeOut (ty u : Nat) (a : Int) : Int × Nat :=
  if ty = 3 then (a, 0) else
  let r := rndDiv a (2 ^ u)
  let v := clampTy ty r
  (v, if v = r then 0 else if ty = 6 ∧ r < 0 then 0 else 1)

end Sys2Proof.Machine
end

