-- ==== Sys2Proof/Machine/Units.lean ====
section
/-!
DEFINITION. Which unit a macro-instruction takes (Table 8-5b; R139, R51), from its word and the queue it stands in.
-/

namespace Sys2Proof.Machine

/-- The macro-instruction about to issue. -/
def State.nextIdx (s : State) (c q : Nat) : Nat := match (s.queue c q).run with | some r => r.pc | none => 0
def State.nextMacro (s : State) (c q : Nat) : Word256 := s.macroAt c q (s.nextIdx c q)

/-! ### Fields that name a die, a plate or a port (Tables 6-7 to 6-15) -/

def hatchDie (w : Word256) : Nat := fld w 65 64
def toneDie (w : Word256) : Nat := fld w 65 64
def moveMover (w : Word256) : Nat := fld w 50 48
/-- The copy a SAMPLE reads: the stock of K0 or of K1. -/
def ioCopy (w : Word256) : Nat := fld w 33 33
def loadDie (w : Word256) : Nat := fld w 51 49
def etchPdie (w : Word256) : Nat := fld w 59 57
def extPort (w : Word256) : Nat := opcode w - 0x10
def extDie (w : Word256) : Nat := fld w 61 60

/-! ### Units -/

/-- A unit of the model's own for the LOADs of a Plate die, and one for each extension port (log 15). -/
def loadUnit (pdie : Nat) : Nat := 0x40 + pdie
def extUnit (m p : Nat) : Nat := 0x60 + 8 * m + p

/-- The padded width of a destination in the bucket selected; wide where none is. -/
def paddedN (p : Program) (d : Nat × Word256) : Option Nat → Nat
  | some b => (shapeIn p b d).2
  | none => 65536

/-- The unit a HATCH waits for: Crosshatch, or Stipple where its padded N is 8 or less. -/
def State.hatchUnit (s : State) (c q : Nat) (stip : Bool) : Nat :=
  let w := s.nextMacro c q
  let p := s.progOf c q
  let m := hatchDie w
  let ds := [p.desc (fld w 39 32), p.desc (fld w 47 40), p.desc (fld w 55 48)]
  let n := paddedN p (p.desc (fld w 55 48)) (selectBucket s c q p ds)
  if stip || decide (n ≤ 8) then 4 + m else m

/-- The base address a descriptor of the next macro-instruction resolves to (R143). -/
def State.baseOf (s : State) (c q : Nat) (d : Word256) : Nat :=
  (dBase d + if dBaseEn d then (s.prm c q (dBaseReg d)).toNat else 0) % 2 ^ 48

/-- The walker of the Ink die that holds a context address; K0's where none does. -/
def State.walkerOf (s : State) (c a : Nat) : Nat :=
  match s.translate c a false with
  | (some t, _) => 0x18 + (s.inkOf t).getD 0
  | (none, _) => 0x18

/-- The unit a MOVE waits for: the walker of the source's Ink die, or the data mover. -/
def State.moveUnit (s : State) (c q : Nat) : Nat :=
  let w := s.nextMacro c q
  let mv := moveMover w
  if 4 ≤ mv then 0x0C + (mv - 4) else
  let d := ((s.progOf c q).desc (fld w 39 32)).2
  if dSpace d = 1 then 0x18 + s.etchDie c / 4
  else if dSpace d = 2 then 0x18
  else s.walkerOf c (s.baseOf c q d)

/-- The walker an ACTUATE waits for: that of its source's Ink die. -/
def State.actuateUnit (s : State) (c q : Nat) : Nat :=
  s.walkerOf c (s.baseOf c q ((s.progOf c q).desc (fld (s.nextMacro c q) 47 40)).2)

/-- The die a unit of Table 8-5b stands on. -/
def unitDie (u : Nat) : Nat :=
  if u < 0x10 then u % 4 else if u < 0x18 then u - 0x10 + 4 else if u < 0x1A then u - 0x18 + 0x0C else 0x0F

/-- The unit of the queue's next macro-instruction, where it takes one. -/
def State.nextUnit (s : State) (c q : Nat) : Option Nat :=
  let w := s.nextMacro c q
  let o := opcode w
  if o = 1 then some (s.hatchUnit c q false)
  else if o = 2 then some (s.hatchUnit c q true)
  else if o = 3 then some (0x10 + etchPdie w)
  else if o = 4 then some (loadUnit (loadDie w))
  else if o = 6 then some (s.moveUnit c q)
  else if o = 7 ∨ o = 8 then some (8 + toneDie w)
  else if o = 9 then some (0x18 + ioCopy w)
  else if o = 0x0A then some (s.actuateUnit c q)
  else if 0x10 ≤ o then some (extUnit (extDie w) (extPort w))
  else none

/-- The die whose engines the combs of Table 2-5 bring up for a macro-instruction: HATCH and STIPPLE on a Field die, ETCH
on a Plate die. -/
def engineDie (w : Word256) : Option Nat :=
  let o := opcode w
  if o = 1 ∨ o = 2 then some (hatchDie w) else if o = 3 then some (4 + etchPdie w) else none

end Sys2Proof.Machine
end

