-- ==== Sys2Proof/Machine/Exec.lean ====
section
/-!
DEFINITION. How a queue runs a program: when a macro-instruction may issue (R139, R45, R51, R213, R248, R340, R353),
what completing, faulting and ending an entry do (R140, R147, R212), the rebite allowance (R101), and the rerun of a
mismatch (R107).
-/

namespace Sys2Proof.Machine

/-! ### Who may run -/

/-- The rail sub-index of a die with a provisioned limit (Table 14-1). -/
def railOf (die : Nat) : Option Nat :=
  if die < 4 then some (9 + die) else if die < 12 then some (die - 3) else if die < 14 then some (die + 1)
  else if die = 14 then some 15 else none

/-- R340: is margin work held on this die? -/
def State.railHeld (s : State) (die : Nat) : Bool :=
  match railOf die with
  | some r => (tget {} s.power.rails r).held
  | none => false

/-- R353: does margin work issue in slot `n` at ladder position `p`: 16 − p of every 16 slots, spread evenly. -/
def slotOpenAt (p n : Nat) : Bool :=
  let k := 16 - min p 14
  decide ((n % 16 + 1) * k / 16 ≠ n % 16 * k / 16)

/-- Phases in which a queue's work issues (R45). -/
def State.phaseOpen (s : State) (q : Nat) : Bool :=
  if q < 4 then decide (s.frame.phase = .impress ∨ s.frame.phase = .margin)
  else decide (s.frame.phase = .margin)

/-- May margin work run on a die: no rail hold (R340), and on Plate and Field dies and B0 an open slot (R353)? -/
def State.marginOpen (s : State) (die : Nat) : Bool :=
  !s.railHeld die && (s.frame.slotOpen || decide (die = 12) || decide (die = 13))

/-- Outstanding macro-instructions of a queue. -/
def State.opsOf (s : State) (c q : Nat) : List Op := s.ops.filter (fun o => decide (o.c = c ∧ o.q = q))

/-- May the queue's next macro-instruction issue? Resident (R198), not poisoned (R248), the hold not full (R213), no
fault, every earlier macro-instruction that is not ASYNC complete (R139), no debug halt at this index (R370). An outstanding
operation of the queue never has the index of the next one: the program runs forward. -/
def State.canIssue (s : State) (c q : Nat) : Bool :=
  let x := s.ctx c
  match (x.queue q).run with
  | none => false
  | some r =>
    decide (x.state = .admitted ∨ x.state = .orphaned) && x.slot.isSome && !x.poisoned &&
      decide (x.hold.length < Config.holdDepth) && decide (r.fault = none) && !r.waiting &&
      decide (∀ h, (x.queue q).haltAt = some h → r.pc < h) && s.phaseOpen q &&
      (s.opsOf c q).all (fun o => isAsync o.word && decide (o.fin = none ∨ o.fin = some .success) && decide (o.idx ≠ r.pc))

/-- The queue may issue and its next macro-instruction has this opcode. -/
def State.ready (s : State) (c q code : Nat) : Bool :=
  s.canIssue c q && decide (opcode (s.nextMacro c q) = code)
    && decide (s.nextIdx c q < (s.progOf c q).macros.length)

/-- One macro-instruction at a time on a unit (R139). A margin macro-instruction that is suspended keeps its turn against
margin work, and holds nothing against reserved work (R53, R83). -/
def State.unitFree (s : State) (q u : Nat) : Bool :=
  !s.ops.any (fun o => decide (o.unit = u ∧ o.fin = none) && (decide (4 ≤ q) || !o.suspended))

/-- R51: reserved work of a context that has held the unit for its declared time issues nothing more on it. -/
def State.unitOpen (s : State) (c q u : Nat) : Bool :=
  decide (q ≥ 4) || decide (tget 0 s.unitHeld (c * 32 + u) < (s.bundleOf c).utime u)

/-- Time on a unit by the formulas of its chapter, in ns, counted in 10 ns units (R51). -/
def State.chargeUnit (s : State) (c q u ns : Nat) : State :=
  if q < 4 then { s with unitHeld := tmod 0 s.unitHeld (c * 32 + u) (· + ceilDiv ns 10) } else s

/-- Does unfinished reserved work wait for the unit? It goes before margin work (R45, R52). -/
def State.reservedWaits (s : State) (u : Nat) : Bool :=
  s.liveCtxs.any fun c => [0, 1, 2, 3].any fun q =>
    s.canIssue c q && decide (s.nextUnit c q = some u) && s.unitOpen c q u

/-- Are all engine groups of a die at operating level (R47)? -/
def State.engineUp (s : State) (die : Nat) : Bool := decide (tget 0 s.frame.level die = 0xFFFF)

/-- What margin work needs besides a free unit: its die open, no reserved work that waits for the unit, and for a HATCH, a
STIPPLE or an ETCH engines at operating level: an idle one waits for its tooth in the next margin comb (R45, R47). -/
def State.marginMay (s : State) (c q u die : Nat) : Bool :=
  s.marginOpen die && !s.reservedWaits u &&
    (match engineDie (s.nextMacro c q) with | some d => s.engineUp d | none => true)

/-- A unit may take the queue's next macro-instruction. -/
def State.unitReady (s : State) (c q u die : Nat) : Bool :=
  s.unitFree q u && s.unitOpen c q u && (decide (q < 4) || s.marginMay c q u die)

/-! ### Completion -/

/-- Change the running entry of a queue. -/
def State.modRun (s : State) (c q : Nat) (f : Run → Run) : State :=
  s.modQueue c q fun x => { x with run := x.run.map f }

/-- The status word of R147: a fault writes its code and bit 63. -/
def State.writeStatus (s : State) (c q : Nat) (w : Word256) (st : Status) (word : BitVec 64) : State :=
  if stEn w then
    s.setPrm c q (stReg w) (if st = .success then word else BitVec.ofNat 64 (st.code + 2 ^ 63))
  else s

/-- R147: PRM48 to PRM63 into the result area. -/
def State.writeResult (s : State) (c q a : Nat) : State :=
  s.wrCtx c q a ((List.range 16).flatMap (fun i => leBytes 8 (s.prm c q (48 + i)).toNat))

/-- DETAIL of an ENTRY record: overflow faults, UNMAPPED and POISON carry one, an OVERRUN record the overrun count, other
statuses 0 (Table 9-9). -/
def Status.detailOf (st : Status) (d : Nat) : Nat :=
  match st with
  | .stockShare | .wellShare | .etchShare | .unmapped | .poison | .overrun => d
  | _ => 0

/-- R140, R158, R208, R209, R212: the running entry ends with a status; a margin entry retires. -/
def State.endRun (s : State) (c q : Nat) (st : Status) (idx detail : Nat) : State :=
  match (s.queue c q).run with
  | none => s
  | some r =>
    let s := s.writeResult c q r.result
    let rec_ := { s.mkRec (if st = .overrun then 0x04 else 0x01) with
      c := c, q := q, status := st.code, cookie := r.cookie, index := idx,
      detail := BitVec.ofNat 64 (st.detailOf detail) }
    let s := if !r.replay || decide (st ≠ .success) || r.notify then s.post rec_ else s
    if q < 4 then
      s.modQueue c q fun x => { x with run := none, headDone := decide (st ≠ .overrun), headRan := true,
                                       headEnded := decide (st = .success), lastIdx := r.lastDone }
    else s.modQueue c q fun x => { x with run := none, head := x.head + 1, started := false }

/-- The context has run in this frame (R199). -/
def State.ran (s : State) (c : Nat) : State := s.modCtx c fun x => { x with lastRun := s.frame.counter.toNat }

/-- A macro-instruction of the queue engine completes at once. -/
def State.finishNow (s : State) (c q : Nat) : State :=
  let i := s.nextIdx c q
  ((s.ran c).writeStatus c q (s.nextMacro c q) .success 0).modRun c q fun r =>
    { r with pc := i + 1, lastDone := i, waiting := false }

/-- A macro-instruction of the queue engine faults at once (R140). -/
def State.faultNow (s : State) (c q : Nat) (f : Flt) : State :=
  let i := s.nextIdx c q
  (s.writeStatus c q (s.nextMacro c q) f.1 0).endRun c q f.1 i f.2

/-- A unit accepts the next macro-instruction. -/
def State.issue (s : State) (op : Op) : State :=
  { (s.ran op.c).modRun op.c op.q (fun r => { r with pc := r.pc + 1 }) with ops := s.ops ++ [op] }

/-- The next macro-instruction of a queue as an outstanding operation. -/
def State.newOp (s : State) (c q u : Nat) : Op :=
  { c := c, q := q, idx := s.nextIdx c q, word := s.nextMacro c q, reserved := decide (q < 4), unit := u }

/-- Issue, with the outcome already known: a fault of a check, or success. -/
def State.issueDone (s : State) (op : Op) (f : Option Flt) (word : BitVec 64) : State :=
  s.issue (match f with
    | some (st, d) => { op with fin := some st, detail := BitVec.ofNat 64 d }
    | none => { op with fin := some .success, sword := word })

/-- Find and change an outstanding operation. -/
def State.op (s : State) (c q idx : Nat) : Option Op :=
  s.ops.find? (fun o => decide (o.c = c ∧ o.q = q ∧ o.idx = idx))
def State.modOp (s : State) (c q idx : Nat) (f : Op → Op) : State :=
  { s with ops := s.ops.map (fun o => if o.c = c ∧ o.q = q ∧ o.idx = idx then f o else o) }
def State.dropOp (s : State) (c q idx : Nat) : State :=
  { s with ops := s.ops.filter (fun o => !decide (o.c = c ∧ o.q = q ∧ o.idx = idx)) }

/-- An operation makes writes to its destination (R163, R165, R173): its context reads them from now on, and they stand where
the operation does not fault (R140; DEDUCED, log 52). -/
def State.holdWrites (s : State) (c q idx : Nat) (e : Engine) (l : List (Nat × Target × List Byte)) : State :=
  let way := s.wayOf e
  s.modOp c q idx fun o => { o with held := o.held ++ l.map (mkPosted c q way) }

/-- The writes of an operation stand: into context memory as posted writes (R22), into etch buffer and wells at once. -/
def State.release (s : State) (o : Op) : State :=
  if o.held = [] then s
  else if o.dd.space = 0 then s.postAll o.c o.q o.held
  else o.held.foldl (fun s p => s.wrTarget p.target p.bytes) s

/-- The writes of an outstanding operation stand, where there is one. -/
def State.settleOp (s : State) (c q idx : Nat) : State :=
  match s.op c q idx with
  | some o => s.release o
  | none => s

/-- The unit of an operation has finished it, with this outcome. -/
def State.endOp (s : State) (c q idx : Nat) (f : Option Flt) (word : BitVec 64) : State :=
  s.modOp c q idx fun o => match f with
    | some (st, d) => { o with fin := some st, detail := BitVec.ofNat 64 d, held := [] }
    | none => { o with fin := some .success, sword := word, held := [] }

/-- An operation whose writes were held ends: they stand, or with a fault none of them does (R140). -/
def State.finishOp (s : State) (c q idx : Nat) (f : Option Flt) (word : BitVec 64) : State :=
  (if f = none then s.settleOp c q idx else s).endOp c q idx f word

/-- MACRO_COMPLETE: the operation retires; a fault ends the entry (R140). -/
def State.retireOp (s : State) (o : Op) (st : Status) : State :=
  let s := ((s.ran o.c).dropOp o.c o.q o.idx).writeStatus o.c o.q o.word st o.sword
  if st = .success then s.modRun o.c o.q fun r => { r with lastDone := o.idx }
  else s.endRun o.c o.q st o.idx o.detail.toNat

/-! ### Allowance and reruns -/

/-- R101: the allowance left to a queue class of a context, in 10 ns units. -/
def State.allowance (s : State) (c q : Nat) : Nat := if q < 4 then (s.ctx c).impAllow else (s.ctx c).marAllow

/-- Charge a rebite or a rerun of `ns`; nothing where the allowance is smaller (R101, R102, R107). -/
def State.charge (s : State) (c q ns : Nat) : Option State :=
  let t := ceilDiv ns 10
  if t ≤ s.allowance c q then
    some (s.modCtx c fun x => if q < 4 then { x with impAllow := x.impAllow - t } else { x with marAllow := x.marAllow - t })
  else none

/-- R107, R332: on every mismatch a scrub pass of the die starts from stripe 0. The pass it interrupts resumes at its
stripe. -/
def State.demandScrub (s : State) (m : Nat) : State :=
  s.modFab m fun f => { f with resumeStripe := if f.demanded then f.resumeStripe else f.stripe,
                               stripe := 0, demanded := true }

/-- Count a mismatch of the Crosshatch array (0x4801+m:04) or of Stipple and Tone (:05). -/
def State.countMismatch (s : State) (m : Nat) (cross : Bool) : State :=
  (s.modFab m fun f => if cross then { f with mismX := satInc 32 f.mismX } else { f with mismS := satInc 32 f.mismS }).demandScrub m

/-- R107, R123, R125: `k` mismatches of an operation of `ns`: none; one, rerun if the allowance covers it; or two.
Answers the reruns and the fault. -/
def State.rerun (s : State) (c q m k ns : Nat) (cross : Bool) : Nat × Option Flt × State :=
  if k = 0 then (0, none, s) else
  let s := s.countMismatch m cross
  match s.charge c q ns with
  | none => (0, some (.hatchCheck, 0), s)
  | some s =>
    if k = 1 then (1, none, s.chargeUnit c q (if cross then m else 8 + m) ns)
    else (1, some (.hatchCheck, 0), s.countMismatch m cross)

end Sys2Proof.Machine
end

