-- ==== Sys2Proof/Machine/Tone.lean ====
section
/-!
DEFINITION. The Tone unit: TONE DRAIN, SCALE, ADD, SUB, CLAMP, CMP, TABLE, CONVERT and the five REDUCE modes (R124,
R125, R152, Tables 5-5, 5-6, 6-11), one meaning per command over one shared walk.
-/

namespace Sys2Proof.Machine

/-- Bits of TYPES a type needs (Table 5-2); UINT8 and UINT16 need those of INT8 and INT16 (log 13). -/
def typeBit (ty : Nat) : Nat := if ty = 6 then 1 else if ty = 7 then 2 else ty

/-- Does the build of die m carry the type? An unconfigured die carries none (R134). -/
def State.hasType (s : State) (m ty : Nat) : Bool :=
  decide ((s.fab m).desc ≠ 0) && decide (buildTypes (s.fab m).desc / 2 ^ typeBit ty % 2 = 1)

/-- Time of a Tone operation over E elements, in ns (R124). -/
def toneTime (e : Nat) : Nat := 40 + 2 * ceilDiv e 64

def toneFunc (w : Word256) : Nat := fld w 35 32
def toneBen (w : Word256) : Bool := bit w 36
def toneU (w : Word256) : Nat := fld w 70 66
def toneM (w : Word256) : Int := signed 16 (fld w 87 72)

/-- A number of a Tone operand: an integer or a float. -/
inductive Val where
  | int (v : Int)
  | fp (x : Fp)
deriving DecidableEq, Repr

def Val.of (ty : Nat) (v : Int) : Val := if isFloat ty then .fp (fpElt ty v) else .int v
def Val.toFp : Val → Fp
  | .int v => fpOfInt v 0
  | .fp x => x

/-- rnd(v / 2^u): exact scaling of a float, R73 rounding of an integer. -/
def Val.shr (u : Nat) : Val → Val
  | .int v => .int (rndDiv v (2 ^ u))
  | .fp (.fin n m e) => .fp (.fin n m (e - u))
  | .fp x => .fp x

/-- Sum; floats round to FP32, ties away from zero (R124). -/
def Val.add (a b : Val) : Val :=
  match a, b with
  | .int x, .int y => .int (x + y)
  | x, y => .fp (fpOf (toF32 true (fpAdd x.toFp y.toFp)))

def Val.neg : Val → Val
  | .int x => .int (-x)
  | .fp x => .fp (fpNeg x)

def Val.gt (a b : Val) : Bool :=
  match a, b with
  | .int x, .int y => decide (x > y)
  | x, y => fpGt x.toFp y.toFp

/-- A value stored in the destination's type, with its saturation. -/
def Val.store (ty : Nat) (free : Int) : Val → Int × Nat
  | .int v => storeInt ty v
  | .fp x => storeFp true ty x free

/-- A free value stored in a type: its bits (log 4). -/
def freeStore (ty : Nat) (free : Int) : Int × Nat := (decodeElt ty (unsigned (eltBits ty) free), 0)

/-- A bound of CLAMP or CMP in the units of DA's type (Table 6-11). -/
def bound (ty v : Nat) : Val := if isFloat ty then .fp (fpOf v) else .int (signed 32 v)

def Val.isNan : Val → Bool
  | .fp .nan => true
  | _ => false

/-- Accumulator width of a type (Table 5-4, R124). -/
def accWidth (ty : Nat) : Nat :=
  if ty = 2 ∨ ty = 7 then 48 else if ty = 3 then 80 else 32

/-- Sum of a list in ascending index at the accumulator width. -/
def sumVals (ty : Nat) (vs : List Val) : Val :=
  match vs.foldl Val.add (Val.of ty 0) with
  | .int v => .int (signed (accWidth ty) (unsigned (accWidth ty) v))
  | x => x

/-- Maximum of a list in ascending index: a later value replaces an earlier one only where it is greater. -/
def maxVals (ty : Nat) : List Val → Val
  | [] => Val.of ty 0
  | v :: vs => vs.foldl (fun m x => if m.isNan then m else if x.isNan then x else if x.gt m then x else m) v

/-- Table 5-6, the lookup of a value that INT16 holds. -/
def tableAt (t : List Int) (v : Int) : Int :=
  let x := (v + 32768).toNat
  let i := x / 64
  let f := x % 64
  let a := t.getD i 0
  clampS 16 (a + rndDiv ((t.getD (i + 1) 0 - a) * f) 64)

/-- The product of SCALE: exact, whatever the type of v (Table 5-5). -/
def Val.scale (m : Int) : Val → Val
  | .int v => .int (v * m)
  | .fp x => .fp (fpMul x (fpOfInt m 0))

/-- One element of an elementwise function. `b` is the second operand where the macro-instruction names one; where a
function needs it and none is named, for SCALE by a vector of floats, and for TABLE of a value that INT16 does not hold, the spec
states no result: a free value (log 4, log 94). -/
def toneElt (fn : Nat) (w : Word256) (tyA tyD : Nat) (a : Int) (b : Option (Nat × Int)) (table : List Int) (free : Int) :
    Int × Nat :=
  let v := Val.of tyA a
  let u := toneU w
  match fn with
  | 0 => (v.shr u).store tyD free
  | 1 => match b with
    | some x => if isFloat x.1 then freeStore tyD free else ((v.scale (signed 16 (unsigned 16 x.2))).shr u).store tyD free
    | none => ((v.scale (toneM w)).shr u).store tyD free
  | 2 => match b with
    | some x => (v.add (Val.of x.1 x.2)).store tyD free
    | none => freeStore tyD free
  | 3 => match b with
    | some x => (v.add (Val.of x.1 x.2).neg).store tyD free
    | none => freeStore tyD free
  | 4 =>
    let lo := bound tyA (fld w 127 96)
    let hi := bound tyA (fld w 159 128)
    if v.isNan || lo.isNan || hi.isNan then freeStore tyD free
    else
      let x := if lo.gt v then lo else v
      (if x.gt hi then hi else x).store tyD free
  | 5 => if v.gt (bound tyA (fld w 127 96)) then storeInt tyD 1 else storeInt tyD 0
  | 6 =>
    if table = [] ∨ isFloat tyA = true ∨ clampS 16 a ≠ a then freeStore tyD free
    else storeInt tyD (tableAt table a)
  | _ => v.store tyD free

/-- The elements of one row of TONE. `b` is what the function takes of B: the per-column vector, the table, or the row of a
second operand. -/
def toneRowOut (fn : Nat) (w : Word256) (tyA tyD : Nat) (tyB : Option Nat) (a b : List Int) (free : Nat) :
    List (Int × Nat) :=
  let table := if fn = 6 then b else []
  (a.zipIdx).map (fun e => toneElt fn w tyA tyD e.1 (if fn = 6 then none else tyB.map (fun t => (t, b.getD e.2 0))) table
    (Config.freeElem (free + e.2)))

/-- What REDUCE makes of one line (R152): modes 0 and 1 its sum, 2 and 3 its maximum, drained with shift U. -/
def reduceLine (mode : Nat) (w : Word256) (tyA tyD : Nat) (l : List Int) (free : Nat) : Int × Nat :=
  let v := l.map (Val.of tyA)
  ((if mode = 0 ∨ mode = 1 then sumVals tyA v else maxVals tyA v).shr (toneU w)).store tyD (Config.freeElem free)

/-- REDUCE along columns: one element for each column. -/
def reduceCols (mode : Nat) (w : Word256) (mA mD : Mat) (a : List Int) (free : Nat) : List (Int × Nat) :=
  (List.range mA.cols).map (fun j =>
    reduceLine mode w mA.ty mD.ty ((List.range mA.rows).map (fun i => a.getD (i * mA.cols + j) 0)) (free + j))

/-- SUMLIST: elementwise over every matrix of the list, in list order. -/
def sumlistWalk (w : Word256) (mA mD : Mat) (mats : List (List Int)) (free : Nat) : List (Int × Nat) :=
  (List.range (mA.rows * mA.cols)).map (fun i =>
    ((sumVals mA.ty (mats.map (fun l => Val.of mA.ty (l.getD i 0)))).shr (toneU w)).store mD.ty
      (Config.freeElem (free + i)))

/-- Step 2 of Table 7-7 for TONE and REDUCE. -/
def toneShapes (red : Bool) (fn : Nat) (ben : Bool) (ms : List Mat) : Option Flt :=
  let a := ms.getD 0 {}
  let d := ms.getLast?.getD {}
  let b := ms.getD 1 {}
  let ok :=
    if red then
      (if fn = 0 ∨ fn = 2 then decide (d.rows = 1 ∧ d.cols = a.cols)
       else if fn = 1 ∨ fn = 3 then decide (d.rows = a.rows ∧ d.cols = 1)
       else decide (d.rows = a.rows ∧ d.cols = a.cols))
    else decide (d.rows = a.rows ∧ d.cols = a.cols) &&
      (!ben || (if fn = 1 then decide (b.rows = 1 ∧ b.cols = a.cols)
        else if fn = 6 then decide (b.rows * b.cols = 1025)
        else if fn = 2 ∨ fn = 3 then decide (b.rows = a.rows ∧ b.cols = a.cols) else true))
  if ok then none else some (.shapeMismatch, 0)

/-- Read every walk of every operand. -/
def readWalks (s : State) (c : Nat) (e : Engine) (pl : Place) (ecc : Found) (m : Mat) (n : Nat) :
    Except Flt (List (List Int)) × State :=
  (List.range n).foldl (fun (r : Except Flt (List (List Int)) × State) i =>
    match r with
    | (.error x, s) => (.error x, s)
    | (.ok l, s) => match s.readMat c e pl ecc m i with
      | (.ok v, s) => (.ok (l ++ [v]), s)
      | (.error x, s) => (.error x, s)) (.ok [], s)

/-- Write every walk of a destination; nothing is written where any row of any walk fails (R174). -/
def writeWalks (s : State) (c q : Nat) (e : Engine) (pl : Place) (m : Mat) (walks : List (List Int)) :
    Option Flt × State :=
  match (walks.zipIdx).foldl (fun (r : Except Flt (List (Nat × Target × List Byte)) × State) x =>
      match r with
      | (.error f, s) => (.error f, s)
      | (.ok l, s) => match s.matTargets c e pl m x.2 (matRows m x.1) with
        | (.ok k, s) => (.ok (l ++ k), s)
        | (.error f, s) => (.error f, s)) (.ok [], s) with
  | (.error f, s) => (some f, s)
  | (.ok l, s) => (none, s.writeSpace c q e m.space l)

/-! ### Claims of the staging part (Table 7-7 step 8, R175) -/

/-- Bytes of `n` elements of a type. -/
def eltBytes (ty n : Nat) : Nat := ceilDiv (n * eltBits ty) 8

/-- Step 8: a claim in wells against the staging part of a context on a die. -/
def wellFault (s : State) (c m bytes : Nat) : Option Flt :=
  let size := (s.bundleOf c).swells m * 8192
  if size < ceilDiv bytes 8192 * 8192 then some (.wellShare, overflowDetail bytes size) else none

/-- Wells of a staging part of `size` wells that an operation claims until it ends: none where its claim can never be met
(its first panel faults). -/
def Op.claim (size : Nat) (o : Op) : Nat :=
  let n := match o.prog with
    | .hatch h => h.claim
    | .stip h => h.claim
    | _ => 0
  if n ≤ size then n else 0

/-- R175: are `claim` wells free, given what earlier macro-instructions of the context claim on the die? They come first even
while they wait themselves. -/
def claimFree (s : State) (c m claim : Nat) (earlier : List Op) : Bool :=
  let size := (s.bundleOf c).swells m
  let held := ((earlier.filter (fun o => decide (o.c = c ∧ o.fin = none ∧ hatchDie o.word = m))).map (Op.claim size)).sum
  decide (claim + held ≤ size)

/-- Bytes that TONE and REDUCE claim of the staging part: a row of each operand that does not stand in the panel-well share,
double-buffered (R161, R164; DEDUCED, log 93). -/
def toneBytes (ops : List Mat) : Nat := (ops.map (fun m => if m.space = 2 then 0 else 2 * rowBytes m.ty m.cols)).sum

/-- The descriptors of a TONE or REDUCE: DA, DB where named, DD. -/
def toneDescs (p : Program) (w : Word256) (red : Bool) : List (Nat × Word256) :=
  [p.desc (fld w 47 40)] ++ (if !red && toneBen w then [p.desc (fld w 55 48)] else []) ++ [p.desc (fld w 63 56)]

/-- Does the staging claim of the next macro-instruction not have to wait (R175)? One that exceeds the share faults. -/
def toneFree (s : State) (c q : Nat) (red : Bool) : Bool :=
  let w := s.nextMacro c q
  let p := s.progOf c q
  let ds := toneDescs p w red
  match selectBucket s c q p ds with
  | none => true
  | some b =>
    let n := ceilDiv (toneBytes ((ds.map (preMat s c q p b)).dropLast)) 8192
    decide ((s.bundleOf c).swells (toneDie w) < n) || claimFree s c (toneDie w) n s.ops

/-! ### The walk (R165, R173) -/

/-- Rows of DD made: its elements, their saturations counted. -/
def toneWrite (s : State) (o : Op) (m e r0 rn cn : Nat) (outs : List (Int × Nat)) : Except Flt Nat × State :=
  match s.blockTargets o.c (.field m) ⟨s.etchDie o.c, m⟩ o.dd e r0 0 (blockRows o.dd.ty rn cn (outs.map (·.1))) with
  | (.error f, s) => (.error f, s)
  | (.ok l, s) => (.ok ((outs.map (·.2)).sum), s.holdWrites o.c o.q o.idx (.field m) l)

/-- What is read of B before the rows of an entry: the vector or the table; a second matrix is read row by row. -/
def toneB (s : State) (o : Op) (m : Nat) (ecc : Found) (mB : Option Mat) (e : Nat) : Except Flt (List Int) × State :=
  match mB with
  | none => (.ok [], s)
  | some x =>
    if toneFunc o.word = 2 ∨ toneFunc o.word = 3 then (.ok [], s)
    else s.readMat o.c (.field m) ⟨s.etchDie o.c, m⟩ ecc x e

/-- What row `i` takes of B. -/
def toneBRow (s : State) (o : Op) (m : Nat) (ecc : Found) (mB : Option Mat) (b : List Int) (e i : Nat) :
    Except Flt (List Int) × State :=
  match mB with
  | none => (.ok b, s)
  | some x =>
    if toneFunc o.word = 2 ∨ toneFunc o.word = 3 then
      s.readBlock o.c (.field m) ⟨s.etchDie o.c, m⟩ ecc x e i 1 0 x.cols
    else (.ok b, s)

/-- Row `i` of entry `e`: read, computed, written. `b` is what is read of B beforehand. -/
def toneRow (s : State) (o : Op) (m : Nat) (red : Bool) (ecc : Found) (mB : Option Mat) (b : List Int) (e i free : Nat) :
    Except Flt Nat × State :=
  let fn := toneFunc o.word
  let pl : Place := ⟨s.etchDie o.c, m⟩
  match s.readBlock o.c (.field m) pl ecc o.da e i 1 0 o.da.cols with
  | (.error f, s) => (.error f, s)
  | (.ok a, s) =>
    if red then toneWrite s o m e i 1 1 [reduceLine fn o.word o.da.ty o.dd.ty a (free + i)] else
    match toneBRow s o m ecc mB b e i with
    | (.error f, s) => (.error f, s)
    | (.ok b, s) =>
      toneWrite s o m e i 1 o.dd.cols
        (toneRowOut fn o.word o.da.ty o.dd.ty (mB.map (fun x => x.ty)) a b (free + i * o.dd.cols))

/-- Add what a further step counts. -/
def addCount (r : Except Flt Nat × State) (f : State → Except Flt Nat × State) : Except Flt Nat × State :=
  match r with
  | (.error x, s) => (.error x, s)
  | (.ok n, s) => match f s with
    | (.error x, s) => (.error x, s)
    | (.ok k, s) => (.ok (n + k), s)

/-- One entry of a TONE or REDUCE, DA row by row; a REDUCE along columns ends with its one row. -/
def toneEntry (s : State) (o : Op) (m : Nat) (red : Bool) (ecc : Found) (mB : Option Mat) (e free : Nat) :
    Except Flt Nat × State :=
  let fn := toneFunc o.word
  let pl : Place := ⟨s.etchDie o.c, m⟩
  if red && decide (fn = 0 ∨ fn = 2) then
    match s.readMat o.c (.field m) pl ecc o.da e with
    | (.error f, s) => (.error f, s)
    | (.ok a, s) => toneWrite s o m e 0 1 o.dd.cols (reduceCols fn o.word o.da o.dd a free)
  else
    match toneB s o m ecc mB e with
    | (.error f, s) => (.error f, s)
    | (.ok b, s) =>
      (List.range o.da.rows).foldl (fun r i => addCount r fun s => toneRow s o m red ecc mB b e i free) ((.ok 0, s) : Except Flt Nat × State)

/-- REDUCE SUMLIST: every matrix of the list, then its one destination. -/
def toneSumlist (s : State) (o : Op) (m : Nat) (ecc : Found) (n free : Nat) : Except Flt Nat × State :=
  match readWalks s o.c (.field m) ⟨s.etchDie o.c, m⟩ ecc o.da n with
  | (.error f, s) => (.error f, s)
  | (.ok as, s) => toneWrite s o m 0 0 o.dd.rows o.dd.cols (sumlistWalk o.word o.da o.dd as free)

/-- The checks of a TONE or REDUCE: its matrices, or its fault. -/
def toneCheck (s : State) (c q : Nat) (red : Bool) (ecc : Found) : Except Flt (List Mat) × State :=
  let w := s.nextMacro c q
  let p := s.progOf c q
  let fn := toneFunc w
  let m := toneDie w
  let ds := toneDescs p w red
  if !ds.all (fun d => s.hasType m (dType d.2)) then (.error (.buildMismatch, 0), s) else
  match prepare s c q ecc ds true (red && decide (fn = 4)) (toneShapes red fn (!red && toneBen w))
      (fun ms => placeCheck ms (s.etchSize c (s.etchDie c)) (s.wellSize c m)) with
  | (.error f, s) => (.error f, s)
  | (.ok ms, s) => match wellFault s c m (toneBytes ms.dropLast) with
    | some f => (.error f, s)
    | none => (.ok ms, s)

/-- A TONE or REDUCE that issued runs: entry by entry (R173), then the residue check (R125). Answers the fault or the status
word. -/
def toneRun (s : State) (o : Op) (red : Bool) (mB : Option Mat) (ecc : Found) (residue n : Nat) :
    Option Flt × BitVec 64 × State :=
  let m := toneDie o.word
  let sumlist := red && decide (toneFunc o.word = 4)
  let free := s.freeCtr
  let cnt := o.dd.rows * o.dd.cols
  let s := { s with freeCtr := free + n * cnt }
  match (if sumlist then toneSumlist s o m ecc n free
      else (List.range n).foldl (fun r e => addCount r fun s => toneEntry s o m red ecc mB e (free + e * cnt)) ((.ok 0, s) : Except Flt Nat × State)) with
  | (.error f, s) => (some f, 0, s)
  | (.ok sats, s) =>
    let t := if sumlist then toneTime (o.da.rows * o.da.cols * n) else n * toneTime (o.da.rows * o.da.cols)
    match (s.chargeUnit o.c o.q (8 + m) t).rerun o.c o.q m residue t false with
    | (_, some f, s) => (some f, 0, s)
    | (k, none, s) => (none, countWord sats k, s)

/-- A Tone macro-instruction of a FUNC or MODE is next, and its unit takes it. -/
def toneReady (s : State) (c q code fn : Nat) : Bool :=
  s.ready c q code && decide (toneFunc (s.nextMacro c q) = fn) &&
    s.unitReady c q (8 + toneDie (s.nextMacro c q)) (toneDie (s.nextMacro c q)) && toneFree s c q (decide (code = 8))

/-- The state after a Tone macro-instruction issued. -/
def toneEffect (s : State) (c q : Nat) (red : Bool) (ecc : Found) (residue : Nat) : State :=
  let op := s.newOp c q (8 + toneDie (s.nextMacro c q))
  match toneCheck s c q red ecc with
  | (.error f, s) => s.issueDone op (some f) 0
  | (.ok ms, s) =>
    let op := { op with da := ms.headD {}, dd := ms.getLastD {} }
    let mB := if !red && toneBen op.word then some (ms.getD 1 {}) else none
    match toneRun (s.issue op) op red mB ecc residue (walks ms) with
    | (f, word, s) => s.finishOp c q op.idx f word

def toneExec (s : State) (c q code fn : Nat) (ecc : Found) (residue : Nat) : Out :=
  due s (toneReady s c q code fn) (toneEffect s c q (decide (code = 8)) ecc residue)

def execToneDrain (c q : Nat) (ecc : Found) (residue : Nat) (s : State) : Out := toneExec s c q 7 0 ecc residue
def execToneScale (c q : Nat) (ecc : Found) (residue : Nat) (s : State) : Out := toneExec s c q 7 1 ecc residue
def execToneAdd (c q : Nat) (ecc : Found) (residue : Nat) (s : State) : Out := toneExec s c q 7 2 ecc residue
def execToneSub (c q : Nat) (ecc : Found) (residue : Nat) (s : State) : Out := toneExec s c q 7 3 ecc residue
def execToneClamp (c q : Nat) (ecc : Found) (residue : Nat) (s : State) : Out := toneExec s c q 7 4 ecc residue
def execToneCmp (c q : Nat) (ecc : Found) (residue : Nat) (s : State) : Out := toneExec s c q 7 5 ecc residue
def execToneTable (c q : Nat) (ecc : Found) (residue : Nat) (s : State) : Out := toneExec s c q 7 6 ecc residue
def execToneConvert (c q : Nat) (ecc : Found) (residue : Nat) (s : State) : Out := toneExec s c q 7 7 ecc residue
def execReduceColumnSum (c q : Nat) (ecc : Found) (residue : Nat) (s : State) : Out := toneExec s c q 8 0 ecc residue
def execReduceRowSum (c q : Nat) (ecc : Found) (residue : Nat) (s : State) : Out := toneExec s c q 8 1 ecc residue
def execReduceColumnMax (c q : Nat) (ecc : Found) (residue : Nat) (s : State) : Out := toneExec s c q 8 2 ecc residue
def execReduceRowMax (c q : Nat) (ecc : Found) (residue : Nat) (s : State) : Out := toneExec s c q 8 3 ecc residue
def execReduceSumlist (c q : Nat) (ecc : Found) (residue : Nat) (s : State) : Out := toneExec s c q 8 4 ecc residue

end Sys2Proof.Machine
end

