-- ==== Sys2Proof/Machine/Macros.lean ====
section
/-!
DEFINITION. MOVE, SAMPLE, ACTUATE, WAIT, SIGNAL, PATCH, END and the completion of a macro-instruction (R147, R151,
R153 to R158).
-/

namespace Sys2Proof.Machine

/-! ### MOVE (R151, Table 6-10) -/

/-- The Field die whose well share SPACE 2 means (R162): the data mover's, or the HATCH die the bundle names. -/
def State.wellDie (s : State) (c : Nat) : Nat := ((s.bundleOf c).roleDie 1).getD 0

/-- The actual shape of a descriptor (R143). -/
def State.actual (s : State) (c q : Nat) (d : Word256) : Nat × Nat :=
  if dShapeEn d then actualShape d (s.prm c q (dShapeReg d)) else (dRows d, dCols d)

/-- Step 2 of Table 7-7 for MOVE: the same shape, actual and padded, and the same element size. -/
def moveShapes (sameActual : Bool) (ms : List Mat) : Option Flt :=
  let a := ms.getD 0 {}
  let b := ms.getD 1 {}
  if sameActual && decide (a.rows = b.rows ∧ a.cols = b.cols ∧ eltBits a.ty = eltBits b.ty) then none
  else some (.shapeMismatch, 0)

/-- The targets of every row of every walk of a matrix, with their lengths, or the fault of the first that does not
translate. -/
def State.allPieces (s : State) (c : Nat) (pl : Place) (m : Mat) (n : Nat) (write : Bool) :
    Except Flt (List (Target × Nat)) × State :=
  ((List.range n).flatMap (fun w => (List.range m.rows).map (fun i => m.at w + i * m.stride))).foldl
    (fun (r : Except Flt (List (Target × Nat)) × State) a =>
      match r with
      | (.error f, s) => (.error f, s)
      | (.ok l, s) =>
        match s.spaceTargets c pl m.space a (List.replicate (rowBytes m.ty m.cols) 0) write with
        | (.error f, s) => (.error f, s)
        | (.ok k, s) => (.ok (l ++ k.map (fun e => (e.2.1, e.2.2.length))), s)) (.ok [], s)

/-- The targets alone. -/
def State.allTargets (s : State) (c : Nat) (pl : Place) (m : Mat) (n : Nat) (write : Bool) :
    Except Flt (List Target) × State :=
  match s.allPieces c pl m n write with
  | (.ok l, s) => (.ok (l.map (·.1)), s)
  | (.error f, s) => (.error f, s)

/-- R151: does Ink die k reach a destination: its own stock and LPDDR5X, its own Plate dies, any panel wells? -/
def State.inkReaches (s : State) (k : Nat) (t : Target) : Bool :=
  match t with
  | .dev a => match s.region a with
    | .wells _ _ => true
    | _ => decide (s.inkOf t = some k)
  | .hostPage _ _ _ => false

/-- The Ink die that carries out a MOVE with MOVER 0: the one that holds every byte of the source. A source that no Ink die
holds, in panel wells or on a host page, has no route (DESIGN CHOICE, log 95). -/
def State.moverInk (s : State) (src : List Target) : Option Nat :=
  match src.head? with
  | none => none
  | some t => match s.inkOf t with
    | none => none
    | some k => if src.all (fun x => decide (s.inkOf x = some k)) then some k else none

/-- Links a transfer crosses between an engine and a target (Table 1-5). -/
def State.hops (s : State) (e : Engine) (t : Target) : Nat :=
  let base := match t with
    | .dev a => match s.region a with
      | .etch _ _ => 1
      | .wells m _ => (match e with | .field n => if m = n then 0 else 2 | _ => 1)
      | _ => 0
    | .hostPage _ _ _ => 1
  match e, t with
  | .field _, .dev a => (match s.region a with | .wells _ _ => base | _ => base + 1)
  | .field _, .hostPage _ _ _ => base + 1
  | _, _ => base

/-- R9: the time a transfer of b bytes occupies the links it crosses, in ns. -/
def State.moveTime (s : State) (e : Engine) (t : Option Target) (b : Nat) : Nat :=
  match t with
  | some t => s.hops e t * ceilDiv b 256 * 4
  | none => 0

/-- The engine of a MOVE, its source and its destination, and the number of walks; or its fault. -/
def moveCheck (s : State) (c q : Nat) (ecc : Found) : Except Flt (Engine × Mat × Mat × Nat) × State :=
  let w := s.nextMacro c q
  let p := s.progOf c q
  let mv := moveMover w
  let m := if mv < 4 then s.wellDie c else mv - 4
  let pl : Place := ⟨s.etchDie c, m⟩
  let ds := [p.desc (fld w 39 32), p.desc (fld w 47 40)]
  let same := decide (s.actual c q (p.desc (fld w 39 32)).2 = s.actual c q (p.desc (fld w 47 40)).2)
  match prepare s c q ecc ds true false (moveShapes same)
      (fun ms => placeCheck ms (s.etchSize c pl.p) (s.wellSize c m)) with
  | (.error f, s) => (.error f, s)
  | (.ok ms, s) =>
    let a := ms.getD 0 {}
    let b := ms.getD 1 {}
    let n := walks ms
    match s.allTargets c pl a n false with
    | (.error f, s) => (.error f, s)
    | (.ok src, s) =>
      match s.allTargets c pl b n true with
      | (.error f, s) => (.error f, s)
      | (.ok dst, s) =>
        let e? : Option Engine := if 4 ≤ mv then some (.field (mv - 4)) else
          match s.moverInk src with
          | some k => if dst.all (fun t => s.inkReaches k t) then some (.ink k) else none
          | none => none
        match e? with
        | none => (.error (.noRoute, 0), s)
        | some e =>
          let bytes := n * a.rows * rowBytes a.ty a.cols
          let unit := match e with | .field k => 0x0C + k | .ink k => 0x18 + k | .plate => 0xFF
          (.ok (e, a, b, n), s.chargeUnit c q unit (s.moveTime e src.head? bytes + s.moveTime e dst.head? bytes))

/-- One block of at most 256 bytes of row `i`, from byte `k` on. -/
def moveBlock (s : State) (o : Op) (e : Engine) (pl : Place) (ecc : Found) (w i : Nat) (k : Nat × Nat) :
    Option Flt × State :=
  match s.readSpace o.c e pl ecc o.da.space (o.da.at w + i * o.da.stride + k.1) k.2 with
  | (.error f, s) => (some f, s)
  | (.ok bs, s) => match s.blockTargets o.c e pl o.dd w i k.1 [bs] with
    | (.error f, s) => (some f, s)
    | (.ok l, s) => (none, s.holdWrites o.c o.q o.idx e l)

/-- The pieces of at most `step` of a run of `n`: start and count. -/
def pieces (n step : Nat) : List (Nat × Nat) :=
  (List.range (ceilDiv n step)).map (fun i => (i * step, min step (n - i * step)))

/-- A MOVE that issued runs: entry by entry, in blocks of 256 bytes, row by row (R161, R173). -/
def moveRun (s : State) (o : Op) (e : Engine) (ecc : Found) (n : Nat) : Option Flt × State :=
  let m := match e with | .field k => k | _ => s.wellDie o.c
  let pl : Place := ⟨s.etchDie o.c, m⟩
  ((List.range n).flatMap (fun w => (List.range o.da.rows).flatMap (fun i =>
      (pieces (rowBytes o.da.ty o.da.cols) 256).map (fun k => (w, i, k))))).foldl
    (fun (r : Option Flt × State) x => match r with
      | (some f, s) => (some f, s)
      | (none, s) => moveBlock s o e pl ecc x.1 x.2.1 x.2.2) (none, s)

/-- A MOVE of one mover class is next and its unit takes it. -/
def moveReady (s : State) (c q : Nat) (field : Bool) : Bool :=
  s.ready c q 6 && decide (decide (4 ≤ moveMover (s.nextMacro c q)) = field) &&
    s.unitReady c q (s.moveUnit c q) (unitDie (s.moveUnit c q))

def moveEffect (s : State) (c q : Nat) (ecc : Found) : State :=
  let op := s.newOp c q (s.moveUnit c q)
  match moveCheck s c q ecc with
  | (.error f, s) => s.issueDone op (some f) 0
  | (.ok (e, a, b, n), s) =>
    let op := { op with da := a, dd := b }
    match moveRun (s.issue op) op e ecc n with
    | (f, s) => s.finishOp c q op.idx f 0

def execMoveInk (c q : Nat) (ecc : Found) (s : State) : Out :=
  due s (moveReady s c q false) (moveEffect s c q ecc)

def execMoveDataMover (c q : Nat) (ecc : Found) (s : State) : Out :=
  due s (moveReady s c q true) (moveEffect s c q ecc)

/-! ### SAMPLE and ACTUATE (R153, R288, R289, R294, Table 6-12) -/

def ioDie (w : Word256) : Nat := fld w 32 32
/-- The bits set in CHMASK or OUTMASK, in ascending order. -/
def ioMask (w : Word256) : List Nat := (List.range 20).filter (fun i => bit w (64 + i))

/-- The tenant an input channel is bound to, 0xFF for none. -/
def State.inputTenant (s : State) (d i : Nat) : Nat :=
  if i < 16 then s.atReset (gaugeBase d + 0x10 + i) 3 else s.atReset (gaugeBase d + 0x30 + (i - 16)) 2
/-- The tenant an output is bound to. -/
def State.outputTenant (s : State) (d o : Nat) : Nat :=
  if o < 12 then s.atReset (gaugeBase d + 0x40 + o) 1 else s.atReset (gaugeBase d + 0x60 + (o - 12)) 1

/-- R289, R294: where the sample record and the staging block of a Gauge die stand in a stock. -/
def sampleAddr (k d : Nat) : Nat := stockBase k + 0x80000 + 0x100 * d
def stagingAddr (k d : Nat) : Nat := stockBase k + 0x81000 + 0x200 * d

/-- Offset of a channel in the sample record. -/
def sampleOff (i : Nat) : Nat := if i < 16 then 4 * i else 64 + 4 * (i - 16)

/-- Is the sample path of a Gauge die to one stock down (Table 1-10, R15)? -/
def State.ioDown (s : State) (d k : Nat) : Bool := s.linkDown (22 + d) || s.linkDown (fieldLink (2 * d) k)

/-- R153: DD is a one-row INT32 matrix with one column for each bit set. -/
def sampleShapes (n : Nat) (ms : List Mat) : Option Flt :=
  let d := ms.getD 0 {}
  if d.rows = 1 ∧ d.cols = n ∧ d.ty = 3 then none else some (.shapeMismatch, 0)

/-- The whole of a SAMPLE. No data passes between K0 and K1 but by a data mover (R14): a destination behind the other
Ink die has no route (log 14). -/
def sampleRun (s : State) (c q : Nat) (ecc : Found) : Option Flt × State :=
  let w := s.nextMacro c q
  let d := ioDie w
  let k := ioCopy w
  let chans := ioMask w
  let pl : Place := ⟨s.etchDie c, s.wellDie c⟩
  if chans.any (fun i => decide (s.inputTenant d i ≠ (s.ctx c).tenant)) then (some (.channelNotOwned, 0), s) else
  match prepare s c q ecc [(s.progOf c q).desc (fld w 47 40)] true false (sampleShapes chans.length)
      (fun ms => placeCheck ms (s.etchSize c pl.p) (s.wellSize c pl.m)) with
  | (.error f, s) => (some f, s)
  | (.ok ms, s) =>
    let m := ms.getD 0 {}
    let n := walks ms
    if s.ioDown d k then (some (.linkDown, 0), s) else
    match s.allTargets c pl m n true with
    | (.error f, s) => (some f, s)
    | (.ok dst, s) =>
      if dst.any (fun t => decide (s.inkOf t = some (1 - k))) then (some (.noRoute, 0), s) else
      match s.readPiece c ecc (.dev (sampleAddr k d)) 80 with
      | (.error st, s) => (some (st, 0), s)
      | (.ok rec_, s) =>
        let vs := chans.map (fun i => signed 32 (leNat (slice rec_ (sampleOff i) 4)))
        let s := s.chargeUnit c q (0x18 + k) (s.moveTime (.ink k) dst.head? (4 * vs.length * n))
        writeWalks s c q (.ink k) pl m (List.replicate n vs)

def sampleReady (s : State) (c q : Nat) : Bool :=
  s.ready c q 9 &&
    s.unitReady c q (0x18 + ioCopy (s.nextMacro c q)) (0x0C + ioCopy (s.nextMacro c q))

def sampleEffect (s : State) (c q : Nat) (ecc : Found) : State :=
  let op := s.newOp c q (0x18 + ioCopy (s.nextMacro c q))
  match sampleRun s c q ecc with
  | (f, s') => s'.issueDone op f 0

def execSample (c q : Nat) (ecc : Found) (s : State) : Out :=
  due s (sampleReady s c q) (sampleEffect s c q ecc)

/-- Table 12-2. -/
def stagingEntry (v : Int) (time c : Nat) (poison : Bool) : List Byte :=
  leBytes 16 (unsigned 32 v + time % 2 ^ 32 * 2 ^ 32 + c % 4096 * 2 ^ 64 + 2 ^ 76 + (if poison then 2 ^ 77 else 0))

/-- Stage one output: the value at a context address; a poisoned one is marked and reported (R28). What VALUE holds
beside a set POISON is stated nowhere: a free value (log 4). -/
def stageOne (s : State) (c q k d o time a : Nat) (ecc : Found) : Option Flt × State :=
  match s.readCtx c ecc a 4 with
  | (.ok bs, s) => (none, s.wr (stagingAddr k d + 16 * o) (stagingEntry (signed 32 (leNat bs)) time c false))
  | (.error (.poison, _), s) =>
    let (f, s) := s.takeFree
    let s := s.wr (stagingAddr k d + 16 * o) (stagingEntry (Config.freeElem f) time c true)
    (none, s.post { s.mkRec 0x08 with c := c, q := q, die := 0x11 + d, index := s.nextIdx c q, detail := BitVec.ofNat 64 o })
  | (.error f, s) => (some f, s)

/-- R153: DS is a one-row INT32 matrix with an element for each bit set in OUTMASK; what it has beyond them is not used
(DESIGN CHOICE, log 95). -/
def actuateShapes (n : Nat) (ms : List Mat) : Option Flt :=
  let d := ms.getD 0 {}
  if d.rows = 1 ∧ n ≤ d.cols ∧ d.ty = 3 then none else some (.shapeMismatch, 0)

/-- The whole of an ACTUATE. The order of its checks is the rule's: queue class, channels, the place of DS. An
ORPHANED context stages nothing (R218). -/
def actuateRun (s : State) (c q time : Nat) (ecc : Found) : Option Flt × State :=
  let w := s.nextMacro c q
  let d := ioDie w
  let outs := ioMask w
  if 4 ≤ q then (some (.actuateMargin, 0), s)
  else if outs.any (fun o => decide (s.outputTenant d o ≠ (s.ctx c).tenant)) then (some (.channelNotOwned, 0), s)
  else if s.linkDown (22 + d) then (some (.linkDown, 0), s) else
  match prepare s c q ecc [(s.progOf c q).desc (fld w 47 40)] false false (actuateShapes outs.length)
      (fun ms => placeCheck ms 0 0) with
  | (.error f, s) => (some f, s)
  | (.ok ms, s) =>
    let m := ms.getD 0 {}
    if m.space ≠ 0 then (some (.noRoute, 0), s) else
    match s.allTargets c ⟨0, 0⟩ m 1 false with
    | (.error f, s) => (some f, s)
    | (.ok src, s) =>
      match (match src.head? with | some t => s.inkOf t | none => none) with
      | none => (some (.noRoute, 0), s)
      | some k =>
        if !src.all (fun t => decide (s.inkOf t = some k)) then (some (.noRoute, 0), s)
        else if (s.ctx c).state = .orphaned then (none, s)
        else (outs.zipIdx).foldl (fun (r : Option Flt × State) e =>
          match r with
          | (some f, s) => (some f, s)
          | (none, s) => stageOne s c q k d e.1 time (m.at 0 + 4 * e.2) ecc) (none, s)

def actuateReady (s : State) (c q : Nat) : Bool :=
  s.ready c q 0x0A && s.unitReady c q (s.actuateUnit c q) (unitDie (s.actuateUnit c q))

def actuateEffect (s : State) (c q time : Nat) (ecc : Found) : State :=
  let op := s.newOp c q (s.actuateUnit c q)
  match actuateRun s c q time ecc with
  | (f, s') => s'.issueDone op f 0

def execActuate (c q time : Nat) (ecc : Found) (s : State) : Out :=
  due s (actuateReady s c q) (actuateEffect s c q time ecc)

/-! ### WAIT (R155, Table 6-13) -/

def ctrOf (w : Word256) : Nat := fld w 35 32
def waitMode (w : Word256) : Nat := fld w 37 36
def sigKind (w : Word256) : Nat := fld w 39 38

/-- The value of a WAIT or SIGNAL. -/
def State.ctrValue (s : State) (c q : Nat) (w : Word256) : BitVec 32 :=
  if bit w 46 then (s.prm c q (fld w 45 40)).setWidth 32 else BitVec.ofNat 32 (fld w 95 64)

/-- The value of a signal counter (R154). -/
def State.counter (s : State) (c k : Nat) : BitVec 32 := tget 0 (s.ctx c).counters k

/-- R155: the condition of the WAIT that is next. Mode 0 COUNT, 1 DRAIN, 2 BOTH. A value in a register is read each time the
condition is looked at (DESIGN CHOICE, log 95). -/
def State.waitMet (s : State) (c q : Nat) : Bool :=
  let w := s.nextMacro c q
  let count := decide (0 ≤ (s.counter c (ctrOf w) - s.ctrValue c q w).toInt)
  let drain := decide (s.opsOf c q = [])
  if waitMode w = 0 then count else if waitMode w = 1 then drain else count && drain

/-- A WAIT issues: it completes where its condition holds, and holds its queue otherwise. -/
def waitEffect (s : State) (c q : Nat) : State :=
  if s.waitMet c q then s.finishNow c q else s.modRun c q fun r => { r with waiting := true }

def waitReady (s : State) (c q mode : Nat) : Bool :=
  s.ready c q 0x0B && decide (waitMode (s.nextMacro c q) = mode)

def execWaitCount (c q : Nat) (s : State) : Out :=
  due s (waitReady s c q 0) (waitEffect s c q)
def execWaitDrain (c q : Nat) (s : State) : Out :=
  due s (waitReady s c q 1) (waitEffect s c q)
def execWaitBoth (c q : Nat) (s : State) : Out :=
  due s (waitReady s c q 2) (waitEffect s c q)

/-- Does the queue hold an unmet WAIT? -/
def State.isWaiting (s : State) (c q : Nat) : Bool :=
  match (s.queue c q).run with
  | some r => r.waiting && decide (r.fault = none)
  | none => false

def execWaitSatisfied (c q : Nat) (s : State) : Out :=
  due s (s.isWaiting c q && s.phaseOpen q && s.waitMet c q) (s.finishNow c q)

/-! ### SIGNAL (R154, R156, R215, R245) -/

/-- Update a counter: OP 0 adds, OP 1 sets, modulo 2^32. -/
def State.bump (s : State) (c k : Nat) (set : Bool) (v : BitVec 32) : State :=
  s.modCtx c fun x => { x with counters := tmod 0 x.counters k (fun n => if set then v else n + v) }

/-- The counter update of the SIGNAL that is next. -/
def signalBump (s : State) (c q : Nat) : State :=
  let w := s.nextMacro c q
  s.bump c (ctrOf w) (bit w 36) (s.ctrValue c q w)

/-- KIND EVENT: the record of the SIGNAL, with the counter after the update. -/
def signalRecord (s : State) (c q : Nat) : State :=
  let w := s.nextMacro c q
  s.post { s.mkRec 0x02 with c := c, q := q, cookie := BitVec.ofNat 64 (fld w 191 128), index := s.nextIdx c q,
                             detail := (s.counter c (ctrOf w)).setWidth 64 }

/-- KIND FENCE or FLUSH: a pending fence over the writes issued so far, and the next fence sequence. A failure of an
earlier write that no fence has covered is its to report (R247). -/
def signalFence (s : State) (c q : Nat) (flush : Bool) : State :=
  let w := s.nextMacro c q
  let f : Fence := { q := q, seq := (s.queue c q).seq, ctr := ctrOf w, set := bit w 36, value := s.ctrValue c q w,
                     event := true, flush := flush, cookie := BitVec.ofNat 64 (fld w 191 128), idx := s.nextIdx c q,
                     reads := if flush then (s.queue c q).hostFuncs else [], late := (s.queue c q).lateAt,
                     host := if flush then (s.queue c q).lastHost else none }
  (s.modCtx c fun x => { x with fences := x.fences ++ [f] }).modQueue c q fun x =>
    { x with seq := x.seq + 1, lateAt := none }

def signalReady (s : State) (c q kind : Nat) : Bool :=
  s.ready c q 0x0C && decide (sigKind (s.nextMacro c q) = kind)

/-- R215: at most 64 fences pending; one more holds its queue. -/
def fenceReady (s : State) (c q kind : Nat) : Bool :=
  signalReady s c q kind && decide ((s.ctx c).fences.length < Config.fenceLimit)

def execSignalCounter (c q : Nat) (s : State) : Out :=
  due s (signalReady s c q 0) ((signalBump s c q).finishNow c q)
def execSignalEvent (c q : Nat) (s : State) : Out :=
  due s (signalReady s c q 1) ((signalRecord (signalBump s c q) c q).finishNow c q)
def execSignalFence (c q : Nat) (s : State) : Out :=
  due s (fenceReady s c q 2) ((signalFence s c q false).finishNow c q)
def execSignalFlush (c q : Nat) (s : State) : Out :=
  due s (fenceReady s c q 3) ((signalFence s c q true).finishNow c q)

/-! ### PATCH (R157, Table 6-14) -/

def patchOp (w : Word256) : Nat := fld w 35 32
def patchDst (w : Word256) : Nat := fld w 45 40
def patchSrc (w : Word256) : Nat := fld w 53 48
def patchImm (w : Word256) : BitVec 64 := BitVec.ofNat 64 (fld w 127 64)

def patchReady (s : State) (c q op : Nat) : Bool :=
  s.ready c q 0x0D && decide (patchOp (s.nextMacro c q) = op)

/-- The register operations, from the word, the old DST and SRC. -/
def patchValue (op : Nat) (imm dst src : BitVec 64) : BitVec 64 :=
  if op = 0 then imm else if op = 1 then dst + imm else if op = 2 then src else dst + src

/-- SET, ADD, COPY and ADDREG. -/
def patchReg (s : State) (c q op : Nat) : State :=
  let w := s.nextMacro c q
  (s.setPrm c q (patchDst w)
    (patchValue op (patchImm w) (s.prm c q (patchDst w)) (s.prm c q (patchSrc w)))).finishNow c q

/-- The alignment rule of LOAD and STORE. -/
def patchAligned (w : Word256) : Bool := decide (fld w 127 112 = 0) && decide (fld w 66 64 = 0)

def patchLoad (s : State) (c q : Nat) (ecc : Found) : State :=
  let w := s.nextMacro c q
  if !patchAligned w then s.faultNow c q (.misaligned, 0) else
  match s.readCtx c ecc (fld w 111 64) 8 with
  | (.error f, s) => s.faultNow c q f
  | (.ok bs, s) => (s.setPrm c q (patchDst w) (BitVec.ofNat 64 (leNat bs))).finishNow c q

/-- The links a PATCH STORE crosses: it leaves from the Ink die of its target; for a host page K0's, or K1's where K0's link
to the host die is down (DEDUCED, log 58). -/
def State.patchWay (s : State) (t : Target) : List Nat :=
  s.wayOf (.ink (match t with | .hostPage _ _ _ => (if s.linkDown 18 then 1 else 0) | .dev _ => (s.inkOf t).getD 0)) t

def patchStore (s : State) (c q : Nat) : State :=
  let w := s.nextMacro c q
  if !patchAligned w then s.faultNow c q (.misaligned, 0) else
  match s.writeTargets c (fld w 111 64) (leBytes 8 (s.prm c q (patchSrc w)).toNat) with
  | (.error a, s) => s.faultNow c q (.unmapped, a)
  | (.ok l, s) => (s.postWrites c q s.patchWay l).finishNow c q

def execPatchSet (c q : Nat) (s : State) : Out := due s (patchReady s c q 0) (patchReg s c q 0)
def execPatchAdd (c q : Nat) (s : State) : Out := due s (patchReady s c q 1) (patchReg s c q 1)
def execPatchCopy (c q : Nat) (s : State) : Out := due s (patchReady s c q 2) (patchReg s c q 2)
def execPatchAddreg (c q : Nat) (s : State) : Out :=
  due s (patchReady s c q 3) (patchReg s c q 3)
def execPatchLoad (c q : Nat) (ecc : Found) (s : State) : Out :=
  due s (patchReady s c q 4) (patchLoad s c q ecc)
def execPatchStore (c q : Nat) (s : State) : Out := due s (patchReady s c q 5) (patchStore s c q)

/-! ### END and completion -/

/-- R158: END waits as a WAIT in mode DRAIN does, and completes the entry with success. -/
def endReady (s : State) (c q : Nat) : Bool := s.ready c q 0x0E && decide (s.opsOf c q = [])

def endEffect (s : State) (c q : Nat) : State :=
  (s.writeStatus c q (s.nextMacro c q) .success 0).endRun c q .success (s.nextIdx c q) 0

def execEndEntry (c q : Nat) (s : State) : Out := due s (endReady s c q) (endEffect s c q)

/-- R147: the unit of an outstanding macro-instruction has finished it. -/
def completeReady (s : State) (c q idx : Nat) : Bool :=
  match s.op c q idx with
  | some o => o.fin.isSome
  | none => false

def completeEffect (s : State) (c q idx : Nat) : State :=
  match s.op c q idx with
  | some o => (match o.fin with | some st => s.retireOp o st | none => s)
  | none => s

def execMacroComplete (c q idx : Nat) (s : State) : Out :=
  due s (completeReady s c q idx) (completeEffect s c q idx)

end Sys2Proof.Machine
end

