-- ==== Sys2Proof/Machine/Plates.lean ====
section
/-!
DEFINITION. The Plate dies (ch. 03, 04): LOAD, SWAP, ETCH, the passes with their burr and classification, rebites, the
write-out, the bank scrubber, burnishing.
-/

namespace Sys2Proof.Machine

/-! ### Banks (R62 to R69, Table 3-2) -/

def BankState.live (b : BankState) : Bool := decide (b = .active ∨ b = .activeUpset)

/-- Is bank B the ACTIVE or ACTIVE_UPSET one; none where neither is. -/
def Plate.activeB (p : Plate) : Option Bool :=
  if p.bankA.state.live then some false else if p.bankB.state.live then some true else none

def Plate.bank (p : Plate) (b : Bool) : Bank := if b then p.bankB else p.bankA
def Plate.setBank (p : Plate) (b : Bool) (k : Bank) : Plate := if b then { p with bankB := k } else { p with bankA := k }

/-- The bank a LOAD targets: the one that is not ACTIVE or ACTIVE_UPSET, A where neither is (R65). -/
def Plate.targetB (p : Plate) : Bool :=
  match p.activeB with
  | some b => !b
  | none => false

/-- The bank ETCHes use. -/
def Plate.active (p : Plate) : Bank :=
  match p.activeB with
  | some b => p.bank b
  | none => {}

/-- Out of service for an ETCH: link down or FAILED, from the GUARD after (R31, R88). -/
def State.plateOut (s : State) (g : Nat) : Bool :=
  let p := s.plate g
  s.linkDown (g / 4) || (decide (p.state = .failed) && !p.failDue)

/-- Both banks cleared, the plate back with the supervisor (R69). -/
def Plate.cleared (p : Plate) : Plate := { p with bankA := {}, bankB := {}, owner := none }

/-- The plates of a Plate die that a mask names, as global numbers. -/
def maskPlates (pdie mask : Nat) : List Nat := ((List.range 4).filter (fun q => mask / 2 ^ q % 2 = 1)).map (4 * pdie + ·)

/-- Is a plate inside an unfinished ETCH, one that is suspended included (R66)? -/
def State.inEtch (s : State) (g : Nat) : Bool :=
  s.ops.any (fun o => match o.prog with | .etch h => decide (o.fin = none) && decide (g ∈ h.plates) | _ => false)

/-- A record about a plate, to the supervisor and the owning context. -/
def State.plateEvent (s : State) (kind g : Nat) (detail : Nat) (sup : Bool) : State :=
  let r := { s.mkRec kind with die := 4 + g / 4, detail := BitVec.ofNat 64 detail }
  let s := if sup then s.postSup r else s
  match (s.plate g).owner with
  | some c => s.post { r with c := c, q := 15 }
  | none => s

/-! ### LOAD (R64, R65, R150, R91) -/

def loadPlate (w : Word256) : Nat := 4 * loadDie w + fld w 53 52
def loadMirror (w : Word256) : Bool := bit w 48

/-- Step 2 for LOAD: a source of type INT8 and actual shape K by N, each from 1 to 1024. -/
def loadShapes (kn : Nat × Nat) (ms : List Mat) : Option Flt :=
  if 1 ≤ kn.1 ∧ kn.1 ≤ 1024 ∧ 1 ≤ kn.2 ∧ kn.2 ≤ 1024 ∧ (ms.getD 0 {}).ty = 1 then none else some (.shapeMismatch, 0)

/-- The checks of a LOAD: its source and mirror, or its fault. -/
def loadCheck (s : State) (c q : Nat) (ecc : Found) : Except Flt (Mat × Option Mat) × State :=
  let w := s.nextMacro c q
  let p := s.progOf c q
  let g := loadPlate w
  let k := loadDie w / 4
  let pl : Place := ⟨s.etchDie c, s.wellDie c⟩
  let ds := [p.desc (fld w 39 32)] ++ (if loadMirror w then [p.desc (fld w 47 40)] else [])
  let kn := s.actual c q (p.desc (fld w 39 32)).2
  match prepare s c q ecc ds false false (loadShapes kn)
      (fun ms => placeCheck ms (s.etchSize c pl.p) (s.wellSize c pl.m)) with
  | (.error f, s) => (.error f, s)
  | (.ok ms, s) =>
    let src := ms.getD 0 {}
    let mir := if loadMirror w then some (ms.getD 1 {}) else none
    if (s.plate g).owner ≠ some c then (.error (.plateNotOwned, 0), s)
    else if s.linkDown (g / 4) then (.error (.linkDown, 0), s)
    else if ((s.plate g).bank (s.plate g).targetB).state = .loading then (.error (.bankBusy, 0), s) else
    match s.allTargets c pl src 1 false with
    | (.error f, s) => (.error f, s)
    | (.ok ts, s) =>
      let placed (k : Nat) (t : Target) : Bool := match t with
        | .dev a => (match s.region a with | .lp j _ => decide (j = k) | .stock j _ => decide (j = k) | _ => false)
        | .hostPage _ _ _ => false
      if !ts.all (placed k) then (.error (.noRoute, 0), s) else
      match mir with
      | none => (.ok (src, mir), s)
      | some m =>
        if s.actual c q (p.desc (fld w 47 40)).2 ≠ kn ∨ m.ty ≠ src.ty then (.error (.mirrorPlace, 0), s) else
        match s.allTargets c pl m 1 false with
        | (.error _, s) => (.error (.mirrorPlace, 0), s)
        | (.ok tm, s) => if tm.all (placed (1 - k)) then (.ok (src, mir), s) else (.error (.mirrorPlace, 0), s)

def loadReady (s : State) (c q : Nat) : Bool :=
  let d := loadDie (s.nextMacro c q)
  s.ready c q 4 && s.unitFree q (loadUnit d) && s.unitOpen c q (0x10 + d) && (decide (q < 4) || s.marginMay c q (loadUnit d) (4 + d))

/-- A LOAD issues: its bank becomes LOADING. -/
def loadEffect (s : State) (c q : Nat) (ecc : Found) : State :=
  let w := s.nextMacro c q
  let g := loadPlate w
  let op := s.newOp c q (loadUnit (loadDie w))
  match loadCheck s c q ecc with
  | (.error f, s) => s.issueDone op (some f) 0
  | (.ok (src, mir), s) =>
    let b := (s.plate g).targetB
    let kn := s.actual c q ((s.progOf c q).desc (fld w 39 32)).2
    let s := s.modPlate g fun p => p.setBank b { state := .loading, k := kn.1, n := kn.2, src := src, mirror := mir }
    let s := s.chargeUnit c q (0x10 + loadDie w) (ceilDiv (src.rows * src.cols) 256 * 4 + 28 + 256)
    s.issue { op with prog := .load { g := g, toB := b, k := kn.1, n := kn.2 }, da := src }

def execLoad (c q : Nat) (ecc : Found) (s : State) : Out :=
  due s (loadReady s c q) (loadEffect s c q ecc)

/-- The weights and what LOAD computes from them: column sums (R64), row and index sums, proof weights (R91), a check word
for each row. -/
def mkBank (b : Bank) (w : List Int) : Bank :=
  let at_ (i j : Nat) : Int := w.getD (i * b.n + j) 0
  let rowR (i : Nat) : Int := ((List.range b.n).map (fun j => at_ i j)).sum
  let rowH (i : Nat) : Int := ((List.range b.n).map (fun (j : Nat) => ((j : Int) + 1) * at_ i j)).sum
  let rows := List.range b.k
  { b with
    state := .shadow, lost := false
    w := ((List.range (b.k * b.n)).filter (fun e => decide (w.getD e 0 ≠ 0))).map
      (fun e => (1024 * (e / b.n) + e % b.n, w.getD e 0))
    colSum := tofList 0 ((List.range b.n).map (fun j => (rows.map (fun i => at_ i j)).sum))
    rowR := tofList 0 (rows.map rowR)
    rowH := tofList 0 (rows.map rowH)
    p := tofList 0 (rows.map (fun i => clampS 8 (rndDiv (rowR i) (2 ^ 10))))
    h := tofList 0 (rows.map (fun i => clampS 8 (rndDiv (rowH i) (2 ^ 20))))
    crc := (List.range 1024).map (fun i =>
      Config.rowCrc ((List.range 1024).map (fun j => if i < b.k ∧ j < b.n then at_ i j else 0) ++ [rowR i, rowH i])) }

/-- The LOAD that an operation runs. -/
def Op.loadRun (o : Op) : Option LoadRun := match o.prog with | .load r => some r | _ => none

def State.loadOp (s : State) (c q idx : Nat) : Option (Op × LoadRun) :=
  match s.op c q idx with
  | some o => (match o.loadRun with | some r => some (o, r) | none => none)
  | none => none

/-- A margin LOAD ends only in MARGIN, outside which it is stopped (R53, R64). -/
def loadCompleteReady (s : State) (c q idx : Nat) : Bool :=
  match s.loadOp c q idx with
  | some (o, _) => decide (o.fin = none) && !o.suspended && (decide (q < 4) || decide (s.frame.phase = .margin))
  | none => false

/-- R64, R28, R172: the last flit is in: the padded source is read, its K by N weights stand in the bank. Poisoned data leaves
the bank EMPTY and faults. -/
def loadCompleteEffect (s : State) (c q idx : Nat) (ecc : Found) : State :=
  match s.loadOp c q idx with
  | none => s
  | some (o, r) =>
    match s.readMat c .plate ⟨0, 0⟩ ecc o.da 0 with
    | (.ok w, s) =>
      (s.modPlate r.g fun p => p.setBank r.toB (mkBank (p.bank r.toB)
        ((List.range r.k).flatMap (fun i => (w.drop (i * o.da.cols)).take r.n)))).endOp c q idx none 0
    | (.error f, s) => (s.modPlate r.g fun p => p.setBank r.toB {}).endOp c q idx (some f) 0

def execLoadComplete (c q idx : Nat) (ecc : Found) (s : State) : Out :=
  due s (loadCompleteReady s c q idx) (loadCompleteEffect s c q idx ecc)

/-! ### SWAP (R66, R150) -/

def swapDie (w : Word256) : Nat := fld w 51 49
def swapPlates (w : Word256) : List Nat := maskPlates (swapDie w) (fld w 55 52)

/-- The bank that a SWAP brings in. -/
def Plate.other (p : Plate) : Bank := p.bank p.targetB

/-- The checks of a SWAP: ownership, the way to the plates, no EMPTY other bank. -/
def swapCheck (s : State) (c : Nat) (gs : List Nat) : Option Flt :=
  if gs.any (fun g => decide ((s.plate g).owner ≠ some c)) then some (.plateNotOwned, 0)
  else if gs.any (fun g => s.linkDown (g / 4)) then some (.linkDown, 0)
  else if gs.any (fun g => decide ((s.plate g).other.state = .empty)) then some (.bankEmpty, 0)
  else none

def swapReady (s : State) (c q : Nat) : Bool := s.ready c q 5

def swapEffect (s : State) (c q : Nat) : State :=
  let w := s.nextMacro c q
  match swapCheck s c (swapPlates w) with
  | some f => s.issueDone (s.newOp c q 0xFF) (some f) 0
  | none => s.issue { s.newOp c q 0xFF with prog := .swap (swapPlates w) }

def execSwap (c q : Nat) (s : State) : Out := due s (swapReady s c q) (swapEffect s c q)

def State.swapOp (s : State) (c q idx : Nat) : Option (List Nat) :=
  match s.op c q idx with
  | some o => (match o.prog with | .swap l => if o.fin = none ∧ o.suspended = false then some l else none | _ => none)
  | none => none

/-- A pass boundary at which no named plate is LOADING or inside an ETCH. -/
def swapDue (s : State) (c q idx : Nat) : Bool :=
  match s.swapOp c q idx with
  | some gs => gs.all (fun g => decide ((s.plate g).other.state ≠ .loading) && !s.inEtch g) &&
      (decide (q < 4) || decide (s.frame.phase = .margin))
  | none => false

/-- R66: SHADOW becomes ACTIVE; ACTIVE becomes SHADOW, ACTIVE_UPSET becomes EMPTY. -/
def Plate.swapped (p : Plate) : Plate :=
  let t := p.targetB
  let old := p.bank (!t)
  let old' := if old.state = .active then { old with state := BankState.shadow }
    else if old.state = .activeUpset then {} else old
  (p.setBank t { p.bank t with state := .active }).setBank (!t) old'

def swapTake (s : State) (c q idx : Nat) : State :=
  match s.swapOp c q idx with
  | none => s
  | some gs =>
    if gs.any (fun g => decide ((s.plate g).other.state = .empty)) then s.endOp c q idx (some (.bankEmpty, 0)) 0
    else (s.each gs (fun s g => s.modPlate g Plate.swapped)).endOp c q idx none 0

def execSwapTakeEffect (c q idx : Nat) (s : State) : Out :=
  due s (swapDue s c q idx) (swapTake s c q idx)

/-! ### ETCH (R149) -/

def etchPlates (w : Word256) : List Nat := maskPlates (etchPdie w) (fld w 63 60)
def etchCin (w : Word256) : Bool := bit w 56

/-- May the named plates be judged: owned, with an active bank? Otherwise the fault. -/
def etchPlateFault (s : State) (c : Nat) (gs : List Nat) : Option Flt :=
  if gs.any (fun g => decide ((s.plate g).owner ≠ some c)) then some (.plateNotOwned, 0)
  else if gs.any (fun g => decide ((s.plate g).activeB = none)) then some (.bankEmpty, 0)
  else none

/-- Step 2 for ETCH: the input width is the sum of the K, every plate has the same N, DY and DC have N columns and a row
for each round. -/
def etchShapes (s : State) (gs : List Nat) (cin : Bool) (ms : List Mat) : Option Flt :=
  let x := ms.getD 0 {}
  let dc := ms.getD 1 {}
  let y := ms.getLast?.getD {}
  let ks := gs.map (fun g => (s.plate g).active.k)
  let n := (s.plate (gs.getD 0 0)).active.n
  if x.cols = ks.sum ∧ gs.all (fun g => decide ((s.plate g).active.n = n)) = true ∧ y.cols = n ∧ y.rows = x.rows ∧
      (!cin || decide (dc.cols = n ∧ dc.rows = x.rows ∧ dc.ty = 3)) = true then none
  else some (.shapeMismatch, 0)

/-- All checks of an ETCH: the resolved DX, DC and DY. -/
def etchCheck (s : State) (c q : Nat) (ecc : Found) : Except Flt (Mat × Mat × Mat) × State :=
  let w := s.nextMacro c q
  let p := s.progOf c q
  let gs := etchPlates w
  let pf := etchPlateFault s c gs
  let ds := [p.desc (fld w 39 32)] ++ (if etchCin w then [p.desc (fld w 55 48)] else []) ++ [p.desc (fld w 47 40)]
  let es := s.etchSize c (etchPdie w)
  match prepare s c q ecc ds true false
      (fun ms => if pf = none then etchShapes s gs (etchCin w) ms else none)
      (fun ms => if ms.any Mat.misaligned then some (.misaligned, 0) else
        match ms.find? (fun m => decide (m.space ≠ 1)) with
        | some m => some (.etchShare, overflowDetail m.span es)
        | none => placeCheck ms es 0) with
  | (.error f, s) => (.error f, s)
  | (.ok ms, s) => match pf with
    | some f => (.error f, s)
    | none => (.ok (ms.getD 0 {}, if etchCin w then ms.getD 1 {} else {}, ms.getLast?.getD {}), s)

/-- The ETCHes of a Plate die that hold an accumulator group: every unfinished one whose group is not in its save slot. -/
def State.groupsHeld (s : State) (pdie : Nat) : Nat :=
  (s.ops.filter (fun o => match o.prog with
    | .etch h => decide (o.fin = none) && decide (h.pdie = pdie) && !h.saved | _ => false)).length

/-- Is a plate at work for an ETCH? A suspended margin ETCH leaves its plates to reserved work (R53, R83). -/
def State.plateBusy (s : State) (q g : Nat) : Bool :=
  s.ops.any (fun o => match o.prog with
    | .etch h => decide (o.fin = none) && decide (g ∈ h.plates) && (decide (4 ≤ q) || !o.suspended) | _ => false)

/-- Four accumulator groups and the plates themselves bound the ETCHes of a die; a margin queue has one there, so that a
save slot never holds two groups (R83). -/
def etchRoom (s : State) (c q pdie : Nat) (gs : List Nat) : Bool :=
  decide (s.groupsHeld pdie < 4) && gs.all (fun g => !s.plateBusy q g) &&
    (decide (q < 4) || !s.ops.any (fun o => match o.prog with
      | .etch h => decide (o.fin = none ∧ h.pdie = pdie ∧ o.c = c ∧ o.q = q) | _ => false))

def etchReady (s : State) (c q : Nat) : Bool :=
  let w := s.nextMacro c q
  s.ready c q 3 && etchRoom s c q (etchPdie w) (etchPlates w) && s.unitOpen c q (0x10 + etchPdie w) &&
    (decide (q < 4) || s.marginMay c q (0x10 + etchPdie w) (4 + etchPdie w))

/-- The row of a matrix that a round uses: rows of walk 0, then of walk 1, and so on. -/
def roundRow (m : Mat) (rows round : Nat) : Nat := m.at (round / rows) + round % rows * m.stride

/-- The DAC codes of a pass (R70), read from the etch buffer: the byte of each element, its signed offset included. The
DACs of the rows that follow, and the calibration DAC, stand at 0 (R61, R70). -/
def dacCodes (s : State) (o : Op) (h : EtchRun) (p : Pass) : List Nat :=
  let (g, round, hi) := p
  let i := (h.plates.findIdx? (fun x => x = g)).getD 0
  let off := (h.ks.take i).sum
  let k := h.ks.getD i 0
  let row := decodeRow o.da.ty o.da.cols
    (s.rdN (s.etchAddr o.c h.pdie (roundRow o.da o.da.rows round)) (rowBytes o.da.ty o.da.cols))
  ((row.drop off).take k).map (fun v =>
    let u := (v + (if h.signed then (if h.wide then 32768 else 128) else 0)).toNat
    if h.wide then (if hi then u / 256 else u % 256) else u % 256)

/-- The round and byte after one. -/
def EtchRun.after (h : EtchRun) (r : Nat × Bool) : Nat × Bool := if h.wide && !r.2 then (r.1, true) else (r.1 + 1, false)

/-- The pass a plate runs and the one after it: those that run again first. -/
def EtchRun.coming (h : EtchRun) (g : Nat) : List Pass :=
  let first := if g ∈ h.arrived then h.after (h.round, h.hi) else (h.round, h.hi)
  ((h.redo.filter (fun e => decide (e.1 = g)) ++
    ([first, h.after first].filter (fun r => decide (r.1 < h.rounds))).map (fun r => (g, r))).take 2)

/-- R72: the input latch is double-buffered: while a pass runs, the input of the next is fetched. What is latched stays. -/
def EtchRun.fetch (h : EtchRun) (s : State) (o : Op) : EtchRun :=
  { h with latch := (h.plates.flatMap h.coming).map (fun p => match h.latch.find? (fun e => decide (e.1 = p)) with
      | some e => e
      | none => (p, dacCodes s o h p)) }

/-- The codes latched for a pass. -/
def EtchRun.codes (h : EtchRun) (p : Pass) : List Nat :=
  match h.latch.find? (fun e => decide (e.1 = p)) with
  | some e => e.2
  | none => []

def etchEffect (s : State) (c q : Nat) (ecc : Found) : State :=
  let w := s.nextMacro c q
  let gs := etchPlates w
  let op := s.newOp c q 0xFF
  match etchCheck s c q ecc with
  | (.error f, s) => s.issueDone op (some f) 0
  | (.ok (x, dc, y), s) =>
    let rounds := x.rows * walks [x, y]
    let wide := decide (x.ty = 2 ∨ x.ty = 7)
    let h : EtchRun :=
      { pdie := etchPdie w, plates := gs, s := fld w 68 64, u := fld w 75 72, cin := etchCin w, wide := wide,
        signed := decide (x.ty = 1 ∨ x.ty = 2), ks := gs.map (fun g => (s.plate g).active.k),
        n := (s.plate (gs.getD 0 0)).active.n, rounds := rounds }
    let s := s.chargeUnit c q (0x10 + etchPdie w) (48 + 64 * rounds * (if wide then 2 else 1))
    let op := { op with da := x, db := dc, dd := y }
    s.issue { op with prog := .etch (h.fetch s op) }

def execEtch (c q : Nat) (ecc : Found) (s : State) : Out :=
  due s (etchReady s c q) (etchEffect s c q ecc)

/-! ### A pass (R70 to R79, R92 to R97, R109, R110) -/

def Op.etchRun (o : Op) : Option EtchRun := match o.prog with | .etch h => some h | _ => none

def State.etchOp (s : State) (c q idx : Nat) : Option (Op × EtchRun) :=
  match s.op c q idx with
  | some o => (match o.etchRun with | some h => some (o, h) | none => none)
  | none => none

def State.setEtch (s : State) (c q idx : Nat) (h : EtchRun) : State := s.modOp c q idx fun o => { o with prog := .etch h }

/-- Σ of a DAC vector against sums or weights stored by row. -/
def dacSum (x : List Nat) (t : Tab Int) : Int := ((x.zipIdx).map (fun e => (e.1 : Int) * tget 0 t e.2)).sum

/-- What a code of line j adds to its register (R76, R77): the signed-input correction goes with the last byte. -/
def lineAdd (h : EtchRun) (b : Bank) (hi : Bool) (j : Nat) (code : Int) : Int :=
  let cj := tget 0 b.colSum j
  if h.wide then
    if hi then 4096 * code - (if h.signed then rndDiv (524288 * cj) (2 ^ h.s) else 0) else 16 * code
  else 16 * code - (if h.signed then rndDiv (2048 * cj) (2 ^ h.s) else 0)

/-- The contributions of a pass to a group. -/
def passAdds (h : EtchRun) (b : Bank) (hi : Bool) (codes : Tab Int) : Tab Int :=
  tofList 0 ((List.range h.n).map (fun j => lineAdd h b hi j (tget 0 codes j)))

/-- Add contributions to the group of a round in one step, saturating (R78, R79). -/
def EtchRun.addGroup (h : EtchRun) (round : Nat) (adds : Tab Int) : EtchRun :=
  (List.range h.n).foldl (fun h j =>
    let r := acc24 (tget 0 h.acc (1024 * round + j) + tget 0 adds j)
    { h with acc := tset 0 h.acc (1024 * round + j) r.1, sat := h.sat + r.2 }) h

/-- Carry-in (R78): the group of a round loaded from its row of DC. -/
def EtchRun.carryIn (h : EtchRun) (s : State) (o : Op) (round : Nat) : EtchRun :=
  if h.loaded then h else
  let h := { h with loaded := true }
  if !h.cin then h else
  let row := decodeRow 3 h.n (s.rdN (s.etchAddr o.c h.pdie (roundRow o.db o.db.rows round)) (4 * h.n))
  h.addGroup round (tofList 0 row)

/-- What the accumulator stage finds about one pass. -/
structure Verdict where
  cls : Nat
  beta : Nat
  d : Int
  line : Option Nat
  clips : Nat
  codes : Tab Int
  e1 : Int
  e2 : Int

/-- R92 to R97 for a pass on bank `b` of plate g under proof class `k`. `x` are the latched DAC codes, `raw` the converter
values before the clamps of R74 and R92; of a plate out of service too they come with the event (DESIGN CHOICE, log 90). -/
def judge (s : State) (k : Nat) (b : Bank) (h : EtchRun) (g : Nat) (x : List Nat) (raw : Tab Int) (p1 p2 : Int) : Verdict :=
  let pl := s.plate g
  let codes := tofList 0 ((List.range h.n).map (fun j => clampS 10 (tget 0 raw j)))
  let clips := ((List.range h.n).filter (fun j => decide (clampS 10 (tget 0 raw j) ≠ tget 0 raw j))).length
  let e1 := dacSum x b.rowR
  let e2 := dacSum x b.rowH
  let r := residual codes h.n h.s e1 e2 pl.offsets
  let lam := s.cls k 3
  let beta := burr r.1 (indexResidual r.2 h.n) (magnitude codes h.n) lam
  let out := s.plateOut g
  let upset := decide (b.state = .activeUpset)
  let c1 := clampS 14 p1
  let c2 := clampS 14 p2
  let sp := 2 ^ (h.s - 6)
  let dp := 16 * (16 * c1 - tget 0 pl.offsets 1024 - rndDiv (16 * dacSum x b.p) sp)
  let dq := 16384 * (16 * c2 - tget 0 pl.offsets 1025 - rndDiv (16 * dacSum x b.h) sp)
  let cl := classify r.1 r.2 dp dq (decide (c1 ≠ p1 ∨ c2 ≠ p2)) h.n
  let limit := s.burrLimit k h.n
  let cls := if out then 6 else if upset then 5 else if 0 < clips then 4 else if limit < beta then cl.1 else 0
  { cls := cls, beta := if cls = 6 ∨ cls = 4 then 0xFFFF else beta, d := r.1,
    line := if 1 ≤ cls ∧ cls ≤ 3 then cl.2 else none, clips := if out then 0 else clips, codes := codes,
    e1 := e1, e2 := e2 }

/-- A burnish falls due, by time or by temperature (R86). -/
def Plate.fallDue (p : Plate) (timed : Bool) : Plate :=
  let p := if p.dueTimed ∨ p.dueTemp then p else { p with steps := 0, measured := {} }
  if timed then { p with dueTimed := true } else if p.dueTemp then p else { p with dueTemp := true, frames := 0 }

def Plate.due (p : Plate) : Bool := p.dueTimed || p.dueTemp
def Plate.withLedger (p : Plate) (l : Ledger) : Plate := { p with ledger := l }

/-- R110: one BURR_DRIFT until |DRIFT| has fallen below half the limit. -/
def Ledger.driftCheck (l : Ledger) (limit : Nat) : Bool × Ledger :=
  if l.driftAlarm then (false, { l with driftAlarm := decide (limit ≤ 2 * l.drift.natAbs) })
  else if limit < l.drift.natAbs then (true, { l with driftAlarm := true }) else (false, l)

/-- R109, R110: both ledgers take the pass; a drift event where a limit is first passed. A plate whose drift exceeds its
limit is due for a burnish as by temperature. -/
def State.recordPass (s : State) (k c g : Nat) (v : Verdict) : State :=
  let up (l : Ledger) := l.pass v.cls v.beta v.d v.line s.frameLo g c
  let (pe, pl) := (up (s.plate g).ledger).driftCheck (s.atTick 0x4520 1)
  let (ce, cl) := (up (s.ctx c).ledger).driftCheck (s.cls k 8)
  let s := s.modPlate g fun p => (if pe then p.fallDue false else p).withLedger pl
  let s := s.modCtx c fun x => { x with ledger := cl }
  let r := { s.mkRec 0x0E with die := 4 + g / 4 }
  let s := if pe then s.postSup { r with detail := BitVec.ofNat 64 (unsigned 32 pl.drift + g % 32 * 2 ^ 32) } else s
  if ce then
    let r := { r with c := c, detail := BitVec.ofNat 64 (unsigned 32 cl.drift) }
    (s.postSup r).post { r with q := 15 }
  else s

/-- Change both ledgers of a pass. -/
def State.modLedgers (s : State) (c g : Nat) (f : Ledger → Ledger) : State :=
  (s.modPlate g fun p => { p with ledger := f p.ledger }).modCtx c fun x =>
    { x with ledger := { f x.ledger with changed := true } }

/-! ### Rebites (R99 to R105) -/

/-- R100: t_rb in ns. -/
def rebiteTime (b : Bank) : Nat := 200 + ceilDiv (b.k * b.n) (if b.mirror.isSome then 128 else 64)

def FailedPass.is (f : FailedPass) (g round : Nat) (hi : Bool) : Bool := decide (f.g = g ∧ f.round = round ∧ f.hi = hi)

/-- The rebite die of a context and whether it can be reached (R102). -/
def State.rebiteOpen (s : State) (c g m : Nat) : Bool :=
  decide ((s.fab m).die = .running) && decide ((s.bundleOf c).roleDie 3 = some m) && !s.linkDown (fieldLink m (g / 16))

/-- R102: a refused pass: FLAG adds the analogue codes, FAULT stops the ETCH. The codes of a plate out of service are those
its event brought (DESIGN CHOICE, log 90). -/
def refusePass (s : State) (c q idx g round : Nat) (hi : Bool) : State :=
  match s.etchOp c q idx with
  | none => s
  | some (_, h) =>
    match h.fails.find? (fun f => f.is g round hi) with
    | none => s
    | some f =>
      let s := s.modLedgers c g fun l => { l with refused := satInc 16 l.refused }
      let s := s.modCtx c fun x => { x with refused := satInc 32 x.refused }
      if s.pcls c 6 = 0 then
        let h := { h with fails := h.fails.filter (fun f => !f.is g round hi),
                          flagPlates := if g ∈ h.flagPlates then h.flagPlates else h.flagPlates ++ [g] }
        s.setEtch c q idx (h.addGroup round (passAdds h (s.plate g).active hi f.codes))
      else s.endOp c q idx (some (.burrFault, 0)) 0

/-- R122: the Stipple operation that a rebite pre-empts takes the rebite's time longer. -/
def State.delayStipple (s : State) (m ns : Nat) : State :=
  s.ops.foldl (fun s o => match o.prog with
    | .stip _ => if hatchDie o.word = m ∧ o.fin = none ∧ o.suspended = false then s.chargeUnit o.c o.q (4 + m) ns else s
    | _ => s) s

/-- Start a rebite: charged, or refused (R101, R102); it holds the Stipple path (R51) and pre-empts other work there (R122).
A rebite whose ETCH has ended is dropped. -/
def tryRebite (s : State) (m : Nat) (r : Rebite) : Bool × State :=
  match s.etchOp r.c r.q r.idx with
  | none => (false, s)
  | some (o, h) =>
    if o.fin ≠ none ∨ !h.fails.any (fun f => f.is r.g r.round r.hi) then (false, s)
    else if !s.rebiteOpen r.c r.g m then (false, refusePass s r.c r.q r.idx r.g r.round r.hi)
    else match s.charge r.c r.q (rebiteTime (s.plate r.g).active) with
      | some s =>
        let ns := rebiteTime (s.plate r.g).active
        (true, (s.chargeUnit r.c r.q (4 + m) ns).delayStipple m ns)
      | none => (false, refusePass s r.c r.q r.idx r.g r.round r.hi)

/-- The next waiting rebite of a die that starts becomes its head. -/
def startRebites (m : Nat) : List Rebite → State → State
  | [], s => { s with rebites := tset [] s.rebites m [] }
  | r :: rest, s =>
    match tryRebite s m r with
    | (true, s) => { s with rebites := tset [] s.rebites m (r :: rest) }
    | (false, s) => startRebites m rest s

/-- Queue a rebite behind the running one, reserved work before margin work (R100). -/
def queueRebite (s : State) (m : Nat) (r : Rebite) : State :=
  match tget [] s.rebites m with
  | [] => startRebites m [r] s
  | h :: t =>
    let t := if r.reserved then t.filter (fun x => x.reserved) ++ [r] ++ t.filter (fun x => !x.reserved) else t ++ [r]
    { s with rebites := tset [] s.rebites m (h :: t) }

/-- A failed pass waits for its rebite, or is refused where the bundle names no rebite die. -/
def rebitePass (s : State) (c q idx g round : Nat) (hi : Bool) : State :=
  match (s.bundleOf c).roleDie 3 with
  | some m => queueRebite s m { c := c, q := q, idx := idx, g := g, round := round, hi := hi, reserved := decide (q < 4) }
  | none => refusePass s c q idx g round hi

/-! ### PASS_COMPLETE -/

/-- Which pass of plate g comes in: one that runs again after a GUARD, or its pass of the current slot. -/
def EtchRun.passOf (h : EtchRun) (g : Nat) : Option (Nat × Bool × Bool) :=
  match h.redo.find? (fun e => decide (e.1 = g)) with
  | some e => some (e.2.1, e.2.2, true)
  | none =>
    if h.redo = [] ∧ !h.slotsDone ∧ g ∈ h.plates ∧ ¬ g ∈ h.arrived then some (h.round, h.hi, false) else none

/-- The pass of an ETCH that was in flight on a plate when GUARD began (R83, R240). -/
def State.flightOf (s : State) (c q idx g : Nat) : Option Flight :=
  match (s.plate g).flight with
  | some x => if x.op.c = c ∧ x.op.q = q ∧ x.op.idx = idx ∧ s.frame.phase = .guardPhase then some x else none
  | none => none

/-- A pass runs in IMPRESS and MARGIN; in GUARD the one in flight completes. -/
def passReady (s : State) (c q idx g : Nat) : Bool :=
  (s.flightOf c q idx g).isSome ||
  match s.etchOp c q idx with
  | some (o, h) => decide (o.fin = none) && !o.suspended && (h.passOf g).isSome
      && decide (s.frame.phase = .impress ∨ s.frame.phase = .margin)
  | none => false

/-- The slot is complete: after its last byte the group takes the contributions; the next slot follows. -/
def EtchRun.advance (h : EtchRun) : EtchRun :=
  if h.arrived.length < h.plates.length then h
  else if h.wide && !h.hi then { h with hi := true, arrived := [] }
  else
    let h := { h.addGroup h.round h.lo with lo := [], arrived := [], hi := false, loaded := false, round := h.round + 1 }
    { h with slotsDone := decide (h.rounds ≤ h.round) }

/-- Add a proven pass's contributions to what the slot has gathered. -/
def EtchRun.gather (h : EtchRun) (adds : Tab Int) : EtchRun :=
  { h with lo := (List.range h.n).foldl (fun t j => tmod 0 t j (· + tget 0 adds j)) h.lo }

/-- The ETCH after a pass was judged, before any rebite starts. -/
def EtchRun.take (h : EtchRun) (b : Bank) (overdue : Bool) (g round : Nat) (hi again : Bool) (v : Verdict) : EtchRun :=
  let h := { h with clip := h.clip + v.clips, maxBurr := max h.maxBurr v.beta, overdue := h.overdue || overdue,
                    upset := h.upset || decide (b.state = .activeUpset), located := h.located || v.line.isSome,
                    failed := if v.cls = 0 then h.failed else h.failed + 1 }
  let adds := passAdds h b hi v.codes
  let h := if v.cls ≠ 0 then
      { h with fails := h.fails ++ [{ g := g, round := round, hi := hi, e1 := v.e1, e2 := v.e2, codes := v.codes,
                                      out := decide (v.cls = 6), lost := b.lost }] }
    else if again then h.addGroup round adds else h.gather adds
  if again then { h with redo := h.redo.filter (fun e => decide (e ≠ (g, round, hi))) }
  else { h with arrived := h.arrived ++ [g] }.advance

/-- A pass judged and taken by its ETCH; the input of the one after the next is fetched. -/
def takePass (s : State) (o : Op) (h : EtchRun) (g round : Nat) (hi again : Bool) (raw : Tab Int) (p1 p2 : Int) :
    Verdict × EtchRun :=
  let h := if again then h else h.carryIn s o round
  let pl := s.plate g
  let v := judge s (s.clsOf o.c) pl.active h g (h.codes (g, round, hi)) raw p1 p2
  (v, (h.take pl.active (decide (pl.state = .overdue) || pl.overdueToo) g round hi again v).fetch s o)

/-- Passes that waited for a rebite run again on their plates (R105). -/
def EtchRun.abandon (h : EtchRun) : EtchRun :=
  { h with redo := h.redo ++ h.fails.map (fun f => (f.g, f.round, f.hi)), fails := [] }

/-- The registers of a group as its save slot holds them: what the passes of the slot in progress add included. -/
def EtchRun.groupAt (h : EtchRun) : Nat := min h.round (h.rounds - 1)
def EtchRun.saveWords (h : EtchRun) : List Int :=
  (List.range 1024).map (fun j => tget 0 h.acc (1024 * h.groupAt + j) + tget 0 h.lo j)

/-- The slot of a margin queue in the save area of the etch share (R83, R162). -/
def State.saveSlot (s : State) (c q pdie : Nat) : Nat := s.etchAddr c pdie (s.etchSize c pdie + (q - 4) * 4096)

/-- R83: the group goes to its slot, in OUT32 form. -/
def State.saveEtch (s : State) (o : Op) (h : EtchRun) : State :=
  (s.wr (s.saveSlot o.c o.q h.pdie) (h.saveWords.flatMap (fun v => leBytes 4 (unsigned 32 v)))).modOp o.c o.q o.idx
    fun p => { p with suspended := true, prog := .etch { h with saved := true } }

/-- A pass that ends in GUARD is proven and counted. A margin ETCH takes it, and runs it again where it failed (R105); of an
ETCH that overran or was reset the codes are discarded (R240). -/
def flightEffect (s : State) (x : Flight) (g : Nat) (raw : Tab Int) (p1 p2 : Int) : State :=
  let s := s.modPlate g fun p => { p with flight := none }
  match x.op.etchRun with
  | none => s
  | some h0 =>
    match h0.passOf g with
    | none => s
    | some (round, hi, again) =>
      match s.etchOp x.op.c x.op.q x.op.idx with
      | some (o, h) =>
        let (v, h) := takePass s o h g round hi again raw p1 p2
        (s.recordPass x.cls x.op.c g v).saveEtch o h.abandon
      | none => s.recordPass x.cls x.op.c g (judge s x.cls x.bank h0 g (h0.codes (g, round, hi)) raw p1 p2)

def passEffect (s : State) (c q idx g : Nat) (raw : Tab Int) (p1 p2 : Int) : State :=
  match s.flightOf c q idx g with
  | some x => flightEffect s x g raw p1 p2
  | none =>
  match s.etchOp c q idx with
  | none => s
  | some (o, h) =>
    match h.passOf g with
    | none => s
    | some (round, hi, again) =>
      let (v, h) := takePass s o h g round hi again raw p1 p2
      let s := (s.setEtch c q idx h).recordPass (s.clsOf c) c g v
      if v.cls = 0 then s else rebitePass s c q idx g round hi

def execPassComplete (c q idx p : Nat) (codes : Tab Int) (cP1 cP2 : Int) (s : State) : Out :=
  due s (passReady s c q idx p) (passEffect s c q idx p codes cP1 cP2)

/-! ### REBITE_COMPLETE -/

/-- The weights of a rebite: rows below the split from the source, the rest from the mirror (R99; odd K: log 16). -/
def rebiteWeights (s : State) (c m : Nat) (ecc : Found) (b : Bank) : Except Flt (List Int) × State :=
  let split := match b.mirror with | some _ => (b.k + 1) / 2 | none => b.k
  let pl : Place := ⟨0, m⟩
  match s.readBlock c (.field m) pl ecc b.src 0 0 split 0 b.n with
  | (.error f, s) => (.error f, s)
  | (.ok a, s) => match b.mirror with
    | none => (.ok a, s)
    | some mm => match s.readBlock c (.field m) pl ecc mm 0 split (b.k - split) 0 b.n with
      | (.error f, s) => (.error f, s)
      | (.ok r, s) => (.ok (a ++ r), s)

/-- S_j of every line. -/
def exactSums (b : Bank) (x : List Nat) (w : List Int) : List Int :=
  (List.range b.n).map (fun j => ((List.range b.k).map (fun i => (x.getD i 0 : Int) * w.getD (i * b.n + j) 0)).sum)

/-- c*_j (R73) before its clamp. -/
def idealCodes (sh : Nat) (sums : List Int) : List Int := sums.map (fun v => rndDiv v (2 ^ sh))

/-- R103: the rebite's own sums against E and E2; any difference rejects, where the source has changed too (log 90). A pass
whose bank's sums were lost with its link has none to compare with (log 91). -/
def sumCheck (f : FailedPass) (sums : List Int) : Bool :=
  f.lost || decide (sums.sum = f.e1 ∧ ((sums.zipIdx).map (fun e => ((e.2 : Int) + 1) * e.1)).sum = f.e2)

/-- The rebite accepted: its codes in place of the withheld ones. -/
def acceptRebite (s : State) (r : Rebite) (h : EtchRun) (f : FailedPass) (b : Bank) (sums : List Int) : State :=
  let ideal := idealCodes h.s sums
  let clips := if f.out then (ideal.filter (fun v => decide (clampS 10 v ≠ v))).length else 0
  let codes := tofList 0 (ideal.map (clampS 10))
  let h := { h with fails := h.fails.filter (fun x => !x.is r.g r.round r.hi), rebitten := h.rebitten + 1, clip := h.clip + clips }
  (s.setEtch r.c r.q r.idx (h.addGroup r.round (passAdds h b r.hi codes))).modLedgers r.c r.g fun l =>
    { l with rebitten := satInc 32 l.rebitten }

/-- The running rebite of a die ends. -/
def endRebite (s : State) (m : Nat) (r : Rebite) (bad : Bool) (ecc : Found) : State :=
  match s.etchOp r.c r.q r.idx with
  | none => s
  | some (o, h) =>
    match h.fails.find? (fun f => f.is r.g r.round r.hi) with
    | none => s
    | some f =>
      if o.fin ≠ none then s else
      let b := (s.plate r.g).active
      match rebiteWeights s r.c m ecc b with
      | (.error _, s) => refusePass s r.c r.q r.idx r.g r.round r.hi
      | (.ok w, s) =>
        let sums := exactSums b (dacCodes s o h (r.g, r.round, r.hi)) w
        if !bad && sumCheck f sums then acceptRebite s r h f (if b.lost then mkBank b w else b) sums
        else
          let e := { s.mkRec 0x0D with c := r.c, die := 4 + r.g / 4, detail := BitVec.ofNat 64 r.g }
          refusePass ((s.postSup e).post { e with q := 15 }) r.c r.q r.idx r.g r.round r.hi

def rebiteReady (s : State) (m : Nat) : Bool := decide (tget [] s.rebites m ≠ [])

def rebiteEffect (s : State) (m : Nat) (bad : Bool) (ecc : Found) : State :=
  match tget [] s.rebites m with
  | [] => s
  | r :: rest => startRebites m rest (endRebite s m r bad ecc)

def execRebiteComplete (m : Nat) (bad : Bool) (ecc : Found) (s : State) : Out :=
  due s (rebiteReady s m) (rebiteEffect s m bad ecc)

/-! ### ETCH_WRITE_OUT (R79, R80, R98, R104) -/

def writeOutReady (s : State) (c q idx : Nat) : Bool :=
  match s.etchOp c q idx with
  | some (o, h) => decide (o.fin = none) && !o.suspended && h.slotsDone && decide (h.fails = []) && decide (h.redo = [])
  | none => false

/-- The elements of a round's output and their saturations (Table 3-4). -/
def EtchRun.outRow (h : EtchRun) (ty round : Nat) : List (Int × Nat) :=
  (List.range h.n).map (fun j => writeOut ty h.u (tget 0 h.acc (1024 * round + j)))

/-- Write-out saturations of a row. -/
def satSum (l : List (Int × Nat)) : Nat := (l.map (fun e => e.2)).sum

def writeOutEffect (s : State) (c q idx : Nat) : State :=
  match s.etchOp c q idx with
  | none => s
  | some (o, h) =>
    let rows := (List.range h.rounds).map (fun r => h.outRow o.dd.ty r)
    let h := { h with sat := h.sat + (rows.map satSum).sum }
    let s := (rows.zipIdx).foldl (fun s r =>
      s.wr (s.etchAddr c h.pdie (roundRow o.dd o.dd.rows r.2)) (encodeRow o.dd.ty (r.1.map (·.1)))) s
    let s := if h.flagPlates = [] then s else
      (s.each h.flagPlates fun s g => s.modPlate g fun p =>
        { p with ledger := { p.ledger with flagged := satInc 16 p.ledger.flagged } }).modCtx c fun x =>
          { x with ledger := { x.ledger with flagged := satInc 16 x.ledger.flagged, changed := true } }
    s.endOp c q idx none h.word

def execEtchWriteOut (c q idx : Nat) (s : State) : Out :=
  due s (writeOutReady s c q idx) (writeOutEffect s c q idx)

/-! ### BANK_SCRUB (R68) -/

/-- Every row of every bank that is not EMPTY, on a die that can be reached. -/
def bankScrubReady (s : State) (g bank row : Nat) : Bool :=
  let b := (s.plate g).bank (decide (bank = 1))
  decide (g < 32) && decide (bank < 2) && decide (row < 1024) && decide (b.state ≠ .empty) && !b.lost

/-- What a mismatch makes of a bank: ACTIVE becomes ACTIVE_UPSET, SHADOW becomes EMPTY, any other stays. -/
def Bank.upset (b : Bank) : Bank :=
  match b.state with
  | .active => { b with state := .activeUpset }
  | .shadow => {}
  | _ => b

/-- The upset count rises with every mismatch; the event tells of an ACTIVE or a SHADOW bank (log 55). `mismatch`: the row
read differs from its CRC-16. -/
def bankScrubEffect (s : State) (g bank row : Nat) (mismatch : Bool) : State :=
  let isB := decide (bank = 1)
  let b := (s.plate g).bank isB
  if !mismatch then s else
  let s := s.modPlate g fun p => { p.setBank isB b.upset with upsets := satInc 32 p.upsets }
  if b.state = .active ∨ b.state = .shadow then s.plateEvent 0x09 g (g + bank * 2 ^ 8 + row * 2 ^ 16) false else s

def execBankScrub (g bank row : Nat) (mismatch : Bool) (s : State) : Out :=
  due s (bankScrubReady s g bank row) (bankScrubEffect s g bank row mismatch)

/-! ### Burnishing (R84 to R88) -/

/-- Time since the last burnish, in 10 ns. -/
def State.sinceBurnish (s : State) (g : Nat) : Nat := s.frame.now - (s.plate g).lastAt

/-- The burnish interval and temperature step in force (R86, Table 3-7). -/
def State.burnishInterval (s : State) : Nat := s.atTick 0x4410 1 * 100000
def State.burnishStep (s : State) : Nat := s.atTick 0x4410 2

/-- R86, R187: eight frames before the interval ends, or the temperature step; none in LIMP. -/
def burnishDueReady (s : State) (g : Nat) (timed : Bool) : Bool :=
  let p := s.plate g
  decide (g < 32) && decide (s.boot.dev ≠ .limp) && decide (p.state ≠ .failed) &&
    (if timed then !p.dueTimed && decide (s.burnishInterval ≤ s.sinceBurnish g + 8 * s.P)
     else !p.dueTemp && decide (s.burnishStep ≤ (p.temp - p.lastTemp).natAbs))

def execBurnishDue (g : Nat) (timed : Bool) (s : State) : Out :=
  due s (burnishDueReady s g timed) (s.modPlate g fun p => p.fallDue timed)

/-- Reserved work on a plate: an unfinished reserved ETCH, LOAD or SWAP that names it. -/
def State.reservedOn (s : State) (g : Nat) : Bool :=
  s.ops.any (fun o => o.reserved && decide (o.fin = none) && (match o.prog with
    | .etch h => decide (g ∈ h.plates)
    | .load r => decide (r.g = g)
    | .swap l => decide (g ∈ l)
    | _ => false))

/-- A step takes 512 ns from a margin comb and ends before GUARD. -/
def burnishStepReady (s : State) (g : Nat) : Bool :=
  let p := s.plate g
  decide (g < 32) && p.due && !p.stepped && decide (s.frame.phase = .margin) && decide (s.frame.comb = .marginComb) &&
    decide (10 * s.frame.elapsed + 512 ≤ 10 * (s.frame.len - s.G)) && !s.reservedOn g && decide (s.boot.dev ≠ .limp)

/-- Lines of a plate, the proof lines included. -/
def plateLines : List Nat := List.range 1026

/-- The weight of the calibration row in every column, and the ideal code × 64 of its gain passes (R61, R84). -/
def calWeight : Int := 127
def calIdeal : Int := 255 * calWeight

/-- One pass of a step: the delivered codes of every line (R74, R92), less `base`, added. -/
def addPass (base : Int) (t raw : Tab Int) : Tab Int :=
  plateLines.foldl (fun t j => tmod 0 t j (· + (clampS (if j < 1024 then 10 else 14) (tget 0 raw j) - base))) t

/-- Steps 1 to 4 measure the offsets, steps 5 to 8 the gains (R84). -/
def Plate.measure (p : Plate) (passes : List (Tab Int)) : Plate :=
  let m := p.measured
  { p with steps := p.steps + 1, stepped := true
           measured := if p.steps < 4 then { m with zero := passes.foldl (addPass 0) m.zero }
             else { m with cal := passes.foldl (addPass 506) m.cal } }

/-- What a line's averages ask for: its offset trim (1/8 LSB) and its gain trim (0.01 %), each from the trim in effect and
what 32 passes measured with it (R84; log 89). -/
def Plate.offNeed (p : Plate) (m : BurnishSums) (j : Nat) : Int := tget 0 p.offTrim j - rndDiv (tget 0 m.zero j) 4
/-- The gain error of a line, in 0.01 % / 32,385. -/
def gainError (m : BurnishSums) (j : Nat) : Int := 20000 * (32 * 506 + tget 0 m.cal j - tget 0 m.zero j) - 10000 * calIdeal
def Plate.gainNeed (p : Plate) (m : BurnishSums) (j : Nat) : Int := tget 0 p.gainTrim j - rndDiv (gainError m j) calIdeal.natAbs

/-- Does a line need a trim beyond its range (R88)? -/
def Plate.beyond (p : Plate) (m : BurnishSums) : Bool :=
  plateLines.any fun j => decide (clampS 7 (p.offNeed m j) ≠ p.offNeed m j) || decide (clampS 8 (p.gainNeed m j) ≠ p.gainNeed m j)

/-- The sum over 32 zero passes of what the new offset trim leaves, in LSB. -/
def Plate.offLeft (p : Plate) (m : BurnishSums) (j : Nat) : Int :=
  tget 0 m.zero j + 4 * (clampS 7 (p.offNeed m j) - tget 0 p.offTrim j)
/-- What the new gain trim leaves, in 0.01 % / 32,385. -/
def Plate.gainLeft (p : Plate) (m : BurnishSums) (j : Nat) : Int :=
  gainError m j + calIdeal * (clampS 8 (p.gainNeed m j) - tget 0 p.gainTrim j)

/-- The trims a burnish sets, and the residual offsets in 1/16 LSB. -/
def Plate.trims (p : Plate) (m : BurnishSums) : Trims :=
  { off := tofList 0 (plateLines.map fun j => clampS 7 (p.offNeed m j))
    gain := tofList 0 (plateLines.map fun j => clampS 8 (p.gainNeed m j))
    resid := tofList 0 (plateLines.map fun j => rndDiv (p.offLeft m j) 2) }

/-- The worst residuals after trimming: 0.01 LSB and 0.001 % (Table 3-7). -/
def Plate.worst (p : Plate) (m : BurnishSums) : Nat × Nat :=
  ((plateLines.map fun j => (rndDiv (100 * p.offLeft m j) 32).natAbs).foldl max 0,
   (plateLines.map fun j => (rndDiv (10 * p.gainLeft m j) calIdeal.natAbs).natAbs).foldl max 0)

/-- R85: the drift slopes come from the last two burnishes whose temperatures differ by 1 °C or more. -/
def Plate.keepBurnish (p : Plate) (t : Trims) : Plate :=
  { p with
    lastTrim := some (p.temp, t)
    slope := (match p.history.find? (fun e => decide (10 ≤ (p.temp - e.1).natAbs)) with
      | some e => some (e, (p.temp, t))
      | none => p.slope)
    history := (p.temp, t) :: p.history.filter (fun e => decide (e.1 ≠ p.temp)) }

/-- The last step: the plate's figures, the trims that wait for GUARD, OVERDUE left; FAILED where a trim lies beyond its
range (R84 to R88). -/
def Plate.burnished (p : Plate) (m : BurnishSums) (now : Nat) : Plate :=
  let t := p.trims m
  let w := p.worst m
  { p.keepBurnish t with
    dueTimed := false, dueTemp := false, steps := 0, frames := 0, measured := {}, pendingTrim := some t,
    burnishes := satInc 32 p.burnishes, lastAt := now, lastTemp := p.temp, worstOff := min w.1 0xFFFF,
    worstGain := min w.2 0xFFFF, overdueToo := false, failDue := p.failDue || p.beyond m
    state := if p.beyond m then .failed else if p.state = .overdue then .inService else p.state }

def burnishDone (s : State) (g : Nat) (m : BurnishSums) : State :=
  let bad := (s.plate g).beyond m
  let s := s.modPlate g fun p => p.burnished m s.frame.now
  if bad then s.plateEvent 0x0B g g true else s

def burnishStepEffect (s : State) (g : Nat) (passes : List (Tab Int)) : State :=
  let s := s.modPlate g fun p => p.measure passes
  if (s.plate g).steps < 8 then s else burnishDone s g (s.plate g).measured

def execBurnishStep (g : Nat) (passes : List (Tab Int)) (s : State) : Out :=
  due s (burnishStepReady s g) (burnishStepEffect s g passes)

/-- R87: the interval has ended with a timed burnish due, or 16 frames have passed with one due by temperature. -/
def overdueReady (s : State) (g : Nat) : Bool :=
  let p := s.plate g
  decide (g < 32) && decide (p.state ≠ .overdue) && !p.overdueToo && decide (s.boot.dev ≠ .limp) &&
    ((p.dueTimed && decide (s.burnishInterval ≤ s.sinceBurnish g)) || (p.dueTemp && decide (16 ≤ p.frames)))

/-- A plate that is LINK_DOWN or FAILED goes on showing that, is counted and told OVERDUE all the same, and sets OVERDUE in
its status words (Table 3-7 gives no precedence: DESIGN CHOICE, log 92). -/
def overdueEffect (s : State) (g : Nat) : State :=
  (s.modPlate g fun p =>
    { p with overdues := satInc 32 p.overdues,
             state := if p.state = .inService then .overdue else p.state,
             overdueToo := decide (p.state ≠ .inService) }).plateEvent 0x0A g g true

def execPlateOverdue (g : Nat) (s : State) : Out := due s (overdueReady s g) (overdueEffect s g)

/-- A trim at a temperature: that of the last burnish, moved along the slope of the pair, held in its range (R85;
rounding: log 17). -/
def driftTrim (bits : Nat) (pair : Int × Int × Int × Int) (t1 t last : Int) : Int :=
  clampS bits (last + rndDivI ((pair.2.2.2 - pair.2.1) * (t - t1)) (pair.2.2.1 - pair.1))

/-- R85, at GUARD: new trims take effect, then the drift correction of every line. -/
def Plate.guardTrim (p : Plate) (temp : Int) : Plate :=
  let p := { p with temp := temp }
  let p := match p.pendingTrim with
    | some b => { p with pendingTrim := none, offTrim := b.off, gainTrim := b.gain, offsets := b.resid }
    | none => p
  match p.slope, p.lastTrim with
  | some ((ta, a), (tb, b)), some (t1, l) =>
    let at_ (bits : Nat) (f : Trims → Tab Int) := tofList 0 (plateLines.map fun j =>
      driftTrim bits (ta, tget 0 (f a) j, tb, tget 0 (f b) j) t1 temp (tget 0 (f l) j))
    { p with offTrim := at_ 7 Trims.off, gainTrim := at_ 8 Trims.gain }
  | _, _ => p

end Sys2Proof.Machine
end

