-- ==== Sys2Proof/Machine/Vyton.lean ====
section
/-!
DEFINITION. The Vyton overlay (ch. 05, 07): HATCH on the Crosshatch array and on Stipple, STIPPLE, the fetches, claims
and drains of their walks, and the extension ports.
-/

namespace Sys2Proof.Machine

/-! ### Fields and times (Tables 6-7, 7-2 to 7-5, 5-4; R118, R121) -/

def hatchPlan (w : Word256) : Nat := fld w 79 68
def hatchU (w : Word256) : Nat := fld w 60 56

/-- Twice the step cost q of a type. -/
def stepCost2 (ty : Nat) : Nat :=
  if ty = 0 then 1 else if ty = 1 then 2 else if ty = 2 then 8 else if ty = 3 then 32 else if ty = 4 then 4 else 16

/-- A plan variant with the array shape it is used at. -/
structure Variant where
  sheet : Nat
  sorder : Bool
  panel : Nat
  porder : Bool
  horder : Bool
  rh : Nat
  ch : Nat
deriving DecidableEq, Repr

/-- Variant `b` of a tile-plan entry (Tables 7-2, 7-5). -/
def planVariant (plan : Word256) (b rp cp : Nat) : Variant :=
  let v := BitVec.ofNat 16 (fld plan (16 * b + 15) (16 * b))
  let h := fld v 9 8
  { sheet := fld v 2 0, sorder := bit v 3, panel := fld v 6 4, porder := bit v 7, horder := bit v 10,
    rh := if h < 2 then rp else rp / 2, ch := if h % 2 = 0 then cp else cp / 2 }

/-- Table 7-3: PM, PN and KP. -/
def Variant.pm (v : Variant) : Nat := if v.panel < 2 then v.rh else if v.panel < 4 then 2 * v.rh else 4 * v.rh
def Variant.pn (v : Variant) : Nat :=
  if v.panel = 0 then v.ch else if v.panel < 3 then 2 * v.ch else 4 * v.ch
def Variant.kp (v : Variant) : Nat := if v.panel = 0 then 4096 else if v.panel < 3 then 2048 else 1024
/-- Table 7-4: SM and SN. -/
def Variant.sm (v : Variant) (m : Nat) : Nat :=
  if v.sheet = 1 then 2 * v.pm else if v.sheet = 2 then 4 * v.pm else if v.sheet = 3 then v.pm else m
def Variant.sn (v : Variant) (n : Nat) : Nat :=
  if v.sheet = 1 then 2 * v.pn else if v.sheet = 2 then 4 * v.pn else if v.sheet = 4 then v.pn else n

/-- Cut `n` elements from `o` into pieces of at most `step`: start and count (R164). -/
def cuts (o n step : Nat) : List (Nat × Nat) :=
  (List.range (ceilDiv n (max 1 step))).map (fun i => (o + i * max 1 step, min (max 1 step) (n - i * max 1 step)))

/-- The order of a level: 0 ROWFIRST, 1 COLFIRST. -/
def inOrder (col : Bool) (a b : List (Nat × Nat)) : List ((Nat × Nat) × (Nat × Nat)) :=
  if col then b.flatMap (fun y => a.map (fun x => (x, y))) else a.flatMap (fun x => b.map (fun y => (x, y)))

/-- R163: the walk of one list entry. An operand that stands in the panel-well share is read in place by the hatch level
(R161): with both there, the panel level has nothing to fetch. -/
def hatchWalk (v : Variant) (sheet panel : Bool) (e m k n : Nat) : List WalkItem :=
  let sm := if sheet then v.sm m else m
  let sn := if sheet then v.sn n else n
  (inOrder v.sorder (cuts 0 m sm) (cuts 0 n sn)).flatMap fun sh =>
    (if sheet then [⟨.sheet, e, sh.1.1, sh.1.2, sh.2.1, sh.2.2, 0, k⟩] else []) ++
    (inOrder v.porder (cuts sh.1.1 sh.1.2 v.pm) (cuts sh.2.1 sh.2.2 v.pn)).flatMap fun pn =>
      (if panel && decide (k ≤ v.kp) then [⟨.panel, e, pn.1.1, pn.1.2, pn.2.1, pn.2.2, 0, k⟩] else []) ++
      (inOrder v.horder (cuts pn.1.1 pn.1.2 v.rh) (cuts pn.2.1 pn.2.2 v.ch)).flatMap fun h =>
        (if !panel || decide (k ≤ v.kp) then [] else
          (cuts 0 k v.kp).map (fun s => ⟨.slice, e, h.1.1, h.1.2, h.2.1, h.2.2, s.1, s.2⟩)) ++
        [⟨.tile, e, h.1.1, h.1.2, h.2.1, h.2.2, 0, k⟩]

def WalkItem.isTile (i : WalkItem) : Bool := decide (i.kind = .tile)

/-- The next item of a walk from an index on that satisfies a test; the walk's length where none does. -/
def nextItem (p : WalkItem → Bool) (walk : List WalkItem) (i : Nat) : Nat :=
  i + ((walk.drop i).findIdx? p).getD (walk.length - i)

/-- The last item before or at an index that satisfies a test. -/
def lastItem (p : WalkItem → Bool) (walk : List WalkItem) (i : Nat) : Option Nat :=
  ((List.range (i + 1)).filter (fun j => match walk[j]? with | some x => p x | none => false)).getLast?

/-- The array shape a context's plan was made for, on its HATCH die (R132). -/
def Bundle.rp (b : Bundle) (m : Nat) : Nat := 16 * (fld (b.need m) 6 4 + 1)
def Bundle.cp (b : Bundle) (m : Nat) : Nat := 16 * (fld (b.need m) 9 7 + 1)

/-- Nanoseconds of XCLK cycles of a build (R111). -/
def xclkNs (d : BitVec 64) (cycles : Nat) : Nat := if bit d 10 then ceilDiv (cycles * 5) 2 else cycles * 2

/-- Steps of one tile: max(ceil(k × q), C). -/
def tileCycles (ty k c : Nat) : Nat := max (ceilDiv (k * stepCost2 ty) 2) c

/-- R121, in ns. -/
def stippleTime (ty batch k n w0 w1 : Nat) : Nat :=
  120 + max (ceilDiv (batch * k * n * stepCost2 ty) 256) (max (ceilDiv w0 64) (ceilDiv w1 64))

/-! ### Issue (R148, R171, R174, R175) -/

/-- Does the element type of a Vyton operation belong to the build (R115)? -/
def State.vytonType (s : State) (m ty : Nat) : Bool := decide (ty < 6) && s.hasType m ty

/-- Step 2 for HATCH and STIPPLE. -/
def hatchShapes (stip : Bool) (ms : List Mat) : Option Flt :=
  let a := ms.getD 0 {}
  let b := ms.getD 1 {}
  let d := ms.getD 2 {}
  if a.cols = b.rows ∧ d.rows = a.rows ∧ d.cols = b.cols ∧ (!stip || decide (a.rows ≤ 64)) = true then none
  else some (.shapeMismatch, 0)

/-- Steps 1 to 6: the resolved DA, DB, DD and the bucket. -/
def hatchPrepare (s : State) (c q : Nat) (stip : Bool) (ecc : Found) : Except Flt (Mat × Mat × Mat) × State :=
  let w := s.nextMacro c q
  let p := s.progOf c q
  let m := hatchDie w
  let ds := [p.desc (fld w 39 32), p.desc (fld w 47 40), p.desc (fld w 55 48)]
  if !(s.vytonType m (dType (ds.getD 0 (0, 0)).2) && s.vytonType m (dType (ds.getD 1 (0, 0)).2)) then
    (.error (.buildMismatch, 0), s) else
  match prepare s c q ecc ds true false (hatchShapes stip)
      (fun ms => placeCheck ms (s.etchSize c (s.etchDie c)) (s.wellSize c m)) with
  | (.error f, s) => (.error f, s)
  | (.ok ms, s) => (.ok (ms.getD 0 {}, ms.getD 1 {}, ms.getD 2 {}), s)

/-- The Ink die behind whose LPDDR5X an operand stands, if it does (R161). -/
def State.lpInk (s : State) (c : Nat) (m : Mat) : Option Nat :=
  if m.space ≠ 0 then none else
  match s.translate c (m.at 0) false with
  | (some (.dev a), _) => (match s.region a with | .lp k _ => some k | _ => none)
  | _ => none

/-- R168: what a sheet claims in the share of one stock, in bytes and in pages: 2 × e × K × SM for A and 2 × e × K × SN for B,
each in whole pages, where LPDDR5X of that Ink die holds them. -/
def sheetClaims (s : State) (c : Nat) (v : Variant) (a b : Mat) (k : Nat) : List Nat :=
  (if s.lpInk c a = some k then [eltBytes a.ty (2 * a.cols * v.sm a.rows)] else [])
    ++ (if s.lpInk c b = some k then [eltBytes b.ty (2 * b.rows * v.sn b.cols)] else [])

def sheetPages (s : State) (c : Nat) (v : Variant) (a b : Mat) (k : Nat) : Nat :=
  ((sheetClaims s c v a b k).map (fun n => ceilDiv n 65536)).sum

/-- R167: bytes of the staging claim of a panel: both operands, whichever is in place. -/
def panelClaim (v : Variant) (ty k : Nat) : Nat :=
  if k ≤ v.kp then eltBytes ty (2 * k * (v.pm + v.pn)) else eltBytes ty (2 * v.kp * (v.rh + v.ch))

/-- Step 7 of Table 7-7. -/
def sheetFault (s : State) (c : Nat) (v : Variant) (a b : Mat) : Option Flt :=
  ((List.range 2).filterMap (fun k =>
    let size := (s.bundleOf c).sheet k
    if size < sheetPages s c v a b k then
      some (Status.stockShare, overflowDetail (sheetClaims s c v a b k).sum (size * 65536))
    else none)).head?

/-- The claim that is checked at issue: the first sheet's where a sheet is used, the first panel's otherwise. -/
def firstClaimFault (s : State) (c m : Nat) (v : Variant) (a b : Mat) (sheet : Bool) : Option Flt :=
  if sheet then sheetFault s c v a b else wellFault s c m (panelClaim v a.ty a.cols)

/-- Pages of the sheet share of stock k that an operation claims until it ends. -/
def Op.pages (k : Nat) (o : Op) : Nat :=
  match o.prog with
  | .hatch h => if k = 0 then h.pages.1 else h.pages.2
  | _ => 0

/-- R175 for the pages of a sheet in both stocks. -/
def sheetFree (s : State) (c : Nat) (pages : Nat × Nat) (earlier : List Op) : Bool :=
  let mine := earlier.filter (fun o => decide (o.c = c ∧ o.fin = none))
  decide (pages.1 + (mine.map (Op.pages 0)).sum ≤ (s.bundleOf c).sheet 0) &&
    decide (pages.2 + (mine.map (Op.pages 1)).sum ≤ (s.bundleOf c).sheet 1)

/-- Does a HATCH or STIPPLE run on Stipple (R120)? -/
def onStipple (stip : Bool) (d : Mat) : Bool := stip || decide (d.cols ≤ 8)

/-- Weights behind K0 and behind K1, in bytes; weights elsewhere count as behind K0 (log 18). -/
def weightBytes (s : State) (c : Nat) (pl : Place) (b : Mat) (n : Nat) : Nat × Nat :=
  match s.allPieces c pl b n false with
  | (.ok l, s) =>
    let w1 := ((l.filter (fun t => decide (s.inkOf t.1 = some 1))).map (·.2)).sum
    (n * b.rows * rowBytes b.ty b.cols - w1, w1)
  | (.error _, _) => (n * b.rows * rowBytes b.ty b.cols, 0)

/-- Issue on the Stipple path. An output width above 1,024 is a shape beyond the instance (R120, R134). -/
def issueStipple (s : State) (op : Op) (m : Nat) (a b d : Mat) : State :=
  if 1024 < d.cols then s.issueDone op (some (.buildMismatch, 0)) 0 else
  let n := walks [a, b, d]
  let per := ceilDiv a.rows 64
  let bytes := if a.space = 2 then 0 else (if 1 < n * per then 2 else 1) * eltBytes a.ty (min 64 a.rows * a.cols)
  match wellFault s op.c m bytes with
  | some f => s.issueDone op (some f) 0
  | none =>
    let claim := ceilDiv bytes 8192
    let ws := weightBytes s op.c ⟨0, m⟩ b 1
    let t := ((List.range per).map (fun i => stippleTime a.ty (min 64 (a.rows - 64 * i)) a.cols b.cols ws.1 ws.2)).sum * n
    let h : StipRun := { ops := n * per, claim := claim, waiting := !claimFree s op.c m claim s.ops
                         fetched := decide (a.space = 2) }
    (s.chargeUnit op.c op.q (4 + m) t).issue { op with prog := .stip h, da := a, db := b, dd := d, unit := 4 + m }

/-- Issue on the Crosshatch array. -/
def issueHatch (s : State) (op : Op) (m : Nat) (a b d : Mat) : State :=
  let bu := s.bundleOf op.c
  let v := planVariant ((s.progOf op.c op.q).plans.getD (hatchPlan op.word) 0) a.bucket (bu.rp m) (bu.cp m)
  if buildRows (s.fab m).desc < bu.rp m ∨ buildCols (s.fab m).desc < bu.cp m then
    s.issueDone op (some (.buildMismatch, 0)) 0 else
  let sheet := decide (v.sheet ≠ 0) && (decide (s.lpInk op.c a ≠ none) || decide (s.lpInk op.c b ≠ none))
  let bytes := panelClaim v a.ty a.cols
  match firstClaimFault s op.c m v a b sheet with
  | some f => s.issueDone op (some f) 0
  | none =>
    let n := walks [a, b, d]
    let panel := decide (a.space ≠ 2 ∨ b.space ≠ 2)
    let walk := (List.range n).flatMap (fun e => hatchWalk v sheet panel e a.rows a.cols b.cols)
    let claim := ceilDiv bytes 8192
    let pages := if sheet then (sheetPages s op.c v a b 0, sheetPages s op.c v a b 1) else (0, 0)
    let tiles := (walk.filter WalkItem.isTile).length
    let h : HatchRun := { walk := walk, ch := v.ch, tileAt := nextItem WalkItem.isTile walk 0, claim := claim
                          waiting := decide (claim ≤ bu.swells m) && !claimFree s op.c m claim s.ops
                          pages := pages, sheetWait := !sheetFree s op.c pages s.ops }
    (s.chargeUnit op.c op.q m (xclkNs (s.fab m).desc (v.rh + v.ch + tiles * tileCycles a.ty a.cols v.ch))).issue
      { op with prog := .hatch h, da := a, db := b, dd := d, unit := m }

def hatchReady (s : State) (c q : Nat) (stip : Bool) : Bool :=
  s.ready c q (if stip then 2 else 1) && s.unitReady c q (s.hatchUnit c q stip) (hatchDie (s.nextMacro c q))

def hatchEffect (s : State) (c q : Nat) (stip : Bool) (ecc : Found) : State :=
  let w := s.nextMacro c q
  let m := hatchDie w
  let op := s.newOp c q (s.hatchUnit c q stip)
  match hatchPrepare s c q stip ecc with
  | (.error f, s) => s.issueDone op (some f) 0
  | (.ok (a, b, d), s) => if onStipple stip d then issueStipple s op m a b d else issueHatch s op m a b d

def execHatch (c q : Nat) (ecc : Found) (s : State) : Out :=
  due s (hatchReady s c q false) (hatchEffect s c q false ecc)

def execStipple (c q : Nat) (ecc : Found) (s : State) : Out :=
  due s (hatchReady s c q true) (hatchEffect s c q true ecc)

/-! ### Fetches (R163 to R165) -/

def Op.hatchRun (o : Op) : Option HatchRun := match o.prog with | .hatch h => some h | _ => none
def Op.stipRun (o : Op) : Option StipRun := match o.prog with | .stip h => some h | _ => none

/-- The engines of a queue run: IMPRESS and MARGIN for reserved work, MARGIN for margin work. -/
def State.runPhase (s : State) (q : Nat) : Bool :=
  decide (s.frame.phase = .margin) || (decide (q < 4) && decide (s.frame.phase = .impress))

/-- An outstanding operation that is running: not finished, not suspended, in a phase of its class. -/
def State.runningOp (s : State) (c q idx : Nat) : Option Op :=
  match s.op c q idx with
  | some o => if o.fin = none ∧ o.suspended = false ∧ s.runPhase q = true then some o else none
  | none => none

def HatchRun.has (h : HatchRun) (i : Nat) : Bool := h.bufs.any (fun b => decide (b.item = i))

/-- The first tile that an item of a walk serves. -/
def firstTile (walk : List WalkItem) (i : Nat) : Nat := nextItem WalkItem.isTile walk i

/-- The sheet an item stands in. -/
def HatchRun.sheetAt (h : HatchRun) (i : Nat) : Option Nat := lastItem (fun y => decide (y.kind = .sheet)) h.walk i

/-- The fetched items that feed a tile: its panel, or its slices. -/
def HatchRun.feeds (h : HatchRun) (t : Nat) : List Nat :=
  match lastItem (fun y => decide (y.kind = .panel)) h.walk t with
  | some j => [j]
  | none => (List.range t).filter (fun j => decide (firstTile h.walk j = t) &&
      (match h.walk[j]? with | some y => decide (y.kind = .slice) | none => false))

/-- R164: double buffering. The fetch for the next tile of a level is issued when the current one of that level starts: the
item before it on its level feeds an earlier tile, or feeds this one and is there. A panel or slice also needs the sheet it
stands in, and each level its claim. -/
def HatchRun.mayFetch (h : HatchRun) (i : Nat) : Bool :=
  match h.walk[i]? with
  | none => false
  | some x =>
    !x.isTile && !h.has i && (decide (h.tileAt ≤ firstTile h.walk i) || decide (i ∈ h.feeds h.tileAt)) &&
      (if x.kind = .sheet then !h.sheetWait
        else !h.waiting && (match h.sheetAt i with | some j => h.has j | none => true)) &&
      (match (if i = 0 then none else lastItem (fun y => decide (y.kind = x.kind)) h.walk (i - 1)) with
        | some y => decide (firstTile h.walk y < h.tileAt) || (decide (firstTile h.walk y = h.tileAt) && h.has y)
        | none => true)

/-- An element block of an operand, from the sheet that stages it or from where it stands; nothing of an operand that the
hatch level reads in place. -/
def fetchBlock (s : State) (o : Op) (m : Nat) (ecc : Found) (x : Mat) (sheet : Option (List Int × Nat × Nat × Nat))
    (e r0 rn c0 cn : Nat) : Except Flt (List Int) × State :=
  if x.space = 2 then (.ok [], s) else
  match sheet with
  | some (vs, sr, sc, w) =>
    (.ok ((List.range rn).flatMap (fun i => (List.range cn).map (fun j => vs.getD ((r0 + i - sr) * w + (c0 + j - sc)) 0))), s)
  | none => s.readBlock o.c (.field m) ⟨s.etchDie o.c, m⟩ ecc x e r0 rn c0 cn

/-- The sheet that serves an item, as staged: A part and B part where that operand is staged. -/
def HatchRun.sheetOf (h : HatchRun) (i : Nat) : Option (WalkItem × FetchBuf) :=
  match h.sheetAt i with
  | none => none
  | some j => match h.walk[j]?, h.bufs.find? (fun b => b.item = j) with
    | some w, some b => some (w, b)
    | _, _ => none

/-- Read the operands of one item. -/
def fetchItem (s : State) (o : Op) (h : HatchRun) (m i : Nat) (x : WalkItem) (ecc : Found) :
    Except Flt FetchBuf × State :=
  let stA := decide (s.lpInk o.c o.da ≠ none)
  let stB := decide (s.lpInk o.c o.db ≠ none)
  if x.kind = .sheet then
    match (if stA then fetchBlock s o m ecc o.da none x.entry x.r0 x.rn 0 x.kn else (.ok [], s)) with
    | (.error f, s) => (.error f, s)
    | (.ok a, s) => match (if stB then fetchBlock s o m ecc o.db none x.entry 0 x.kn x.c0 x.cn else (.ok [], s)) with
      | (.error f, s) => (.error f, s)
      | (.ok b, s) => (.ok { item := i, a := a, b := b }, s)
  else
    let sh := h.sheetOf i
    let shA := match sh with | some (w, b) => if stA then some (b.a, w.r0, 0, w.kn) else none | none => none
    let shB := match sh with | some (w, b) => if stB then some (b.b, 0, w.c0, w.cn) else none | none => none
    match fetchBlock s o m ecc o.da shA x.entry x.r0 x.rn x.k0 x.kn with
    | (.error f, s) => (.error f, s)
    | (.ok a, s) => match fetchBlock s o m ecc o.db shB x.entry x.k0 x.kn x.c0 x.cn with
      | (.error f, s) => (.error f, s)
      | (.ok b, s) => (.ok { item := i, a := a, b := b }, s)

/-- The batch of one Stipple operation: entry, first row, rows. -/
def stipBatch (o : Op) (h : StipRun) : Nat × Nat × Nat :=
  let per := ceilDiv o.da.rows 64
  let i := h.opAt % max 1 per
  (h.opAt / max 1 per, 64 * i, min 64 (o.da.rows - 64 * i))

def fetchReady (s : State) (c q idx item : Nat) : Bool :=
  match s.runningOp c q idx with
  | some o => (match o.prog with
    | .hatch h => h.mayFetch item
    | .stip h => !h.waiting && !h.fetched && decide (h.opAt < h.ops)
    | _ => false)
  | none => false

/-- A fetch ends: an item of a HATCH's walk, or the batch of a Stipple operation. The first panel of a walk with sheets makes
check 8 (Table 7-7). -/
def fetchEffect (s : State) (c q idx item : Nat) (ecc : Found) : State :=
  match s.op c q idx with
  | none => s
  | some o =>
    let m := hatchDie o.word
    match o.prog with
    | .hatch h =>
      (match h.walk[item]? with
       | none => s
       | some x =>
         match (if x.kind = .sheet then none else wellFault s c m (h.claim * 8192)) with
         | some f => s.finishOp c q idx (some f) 0
         | none => match fetchItem s o h m item x ecc with
           | (.error f, s) => s.finishOp c q idx (some f) 0
           | (.ok b, s) => s.modOp c q idx fun o => { o with prog := .hatch { h with bufs := h.bufs ++ [b] } })
    | .stip h =>
      let (e, r0, rn) := stipBatch o h
      (match s.readBlock c (.field m) ⟨s.etchDie c, m⟩ ecc o.da e r0 rn 0 o.da.cols with
       | (.error f, s) => s.finishOp c q idx (some f) 0
       | (.ok v, s) => s.modOp c q idx fun o => { o with prog := .stip { h with fetched := true, bufX := v } })
    | _ => s

def execOperandFetchComplete (c q : Nat) (x : FetchOf) (ecc : Found) (s : State) : Out :=
  due s (fetchReady s c q x.idx x.item) (fetchEffect s c q x.idx x.item ecc)

/-! ### CLAIM_GRANTED (R175) -/

/-- Operations issued before one. -/
def State.earlier (s : State) (c q idx : Nat) : List Op :=
  s.ops.takeWhile (fun o => !decide (o.c = c ∧ o.q = q ∧ o.idx = idx))

/-- What a waiting HATCH may take now: its pages, its wells. -/
def HatchRun.grants (s : State) (o : Op) (h : HatchRun) (earlier : List Op) : Bool × Bool :=
  (h.sheetWait && sheetFree s o.c h.pages earlier, h.waiting && claimFree s o.c (hatchDie o.word) h.claim earlier)

def claimReady (s : State) (c q idx : Nat) : Bool :=
  match s.op c q idx with
  | some o => decide (o.fin = none) && (match o.prog with
    | .hatch h => let g := h.grants s o (s.earlier c q idx); g.1 || g.2
    | .stip h => h.waiting && claimFree s c (hatchDie o.word) h.claim (s.earlier c q idx)
    | _ => false)
  | none => false

def claimEffect (s : State) (c q idx : Nat) : State :=
  match s.op c q idx with
  | none => s
  | some o => match o.prog with
    | .hatch h =>
      let g := h.grants s o (s.earlier c q idx)
      s.modOp c q idx fun o =>
        { o with prog := .hatch { h with sheetWait := h.sheetWait && !g.1, waiting := h.waiting && !g.2 } }
    | .stip h => s.modOp c q idx fun o => { o with prog := .stip { h with waiting := false } }
    | _ => s

def execClaimGranted (c q idx : Nat) (s : State) : Out :=
  due s (claimReady s c q idx) (claimEffect s c q idx)

/-! ### Accumulators and their checks (R106, R115 to R117, R123) -/

/-- One accumulator: the products in ascending reduction index, as the pattern it holds, modulo 2^w or FP32. -/
def accumulate (ty : Nat) (l : List (Int × Int)) : Nat :=
  if isFloat ty then
    let p (v : Int) : Nat := if ty = 4 then v.toNat * 65536 else v.toNat
    l.foldl (fun acc e => fpMac acc (p e.1) (p e.2)) 0
  else unsigned (accWidth ty) ((l.map (fun e => e.1 * e.2)).sum)

/-- The drain of an accumulator into DD's type, with its saturation (R148). -/
def drain (ty tyD u free acc : Nat) : Int × Nat :=
  if isFloat ty then storeFp false tyD (fpOf acc) (Config.freeElem free)
  else storeInt tyD (rndDiv (signed (accWidth ty) acc) (2 ^ u))

/-- The product of an `rn` by `k` block and a `k` by `cn` block, both row by row: its accumulators, row by row. -/
def product (ty rn k cn : Nat) (a b : List Int) : List Nat :=
  (List.range (rn * cn)).map (fun n =>
    accumulate ty ((List.range k).map (fun t => (a.getD (n / cn * k + t) 0, b.getD (t * cn + n % cn) 0))))

/-- What the array holds at a place: what a fault left there, or what it computed. -/
def struck (faults : Tab (Option Nat)) (vs : List Nat) : List Nat :=
  (vs.zipIdx).map (fun e => (tget none faults e.2).getD e.1)

/-- A pattern of an accumulator, of its type's width, as a number. -/
def Val.pat (ty p : Nat) : Val := if isFloat ty then .fp (fpOf p) else .int p

def sumFp (l : List Fp) : Fp := l.foldl fpAdd (.zero false)
def fpAbs (x : Fp) : Fp :=
  match x with
  | .fin _ m e => .fin false m e
  | .inf _ => .inf false
  | .zero _ => .zero false
  | .nan => .nan

/-- What a check line gathers: over the cycles, the sum of one side's operands times the sum of the other's. For a floating
type the spec states no rounding of it: exact (DESIGN CHOICE, log 93). -/
def checkLine (ty : Nat) (l : List (List Int × List Int)) : Val :=
  if isFloat ty then
    .fp (sumFp (l.map (fun e => fpMul (sumFp (e.1.map (fpElt ty))) (sumFp (e.2.map (fpElt ty))))))
  else .int ((l.map (fun e => e.1.sum * e.2.sum)).sum)

/-- What a check line holds: what a fault left there, or what it gathered. -/
def heldLine (ty : Nat) (fault : Option Nat) (v : Val) : Val := match fault with | some p => .pat ty p | none => v

/-- Does a line agree: exactly modulo 2^w, or for a floating type within 2^-14 times the magnitudes compared (R106)? -/
def lineOk (ty : Nat) (terms : List Val) (chk : Val) : Bool :=
  if isFloat ty then
    let diff := fpAdd (sumFp (terms.map Val.toFp)) (fpNeg chk.toFp)
    let mag := sumFp ((chk :: terms).map (fun v => fpAbs v.toFp))
    !fpGt (fpAbs diff) (Val.toFp ((Val.fp mag).shr 14))
  else
    let int (v : Val) : Int := match v with | .int x => x | .fp _ => 0
    decide (((terms.map int).sum - int chk) % (2 : Int) ^ accWidth ty = 0)

/-- Row `i` and column `j` of a block listed row by row, `n` elements to a row. -/
def rowOf (n : Nat) (vs : List Int) (i : Nat) : List Int := (vs.drop (i * n)).take n
def colOf (n rows : Nat) (vs : List Int) (j : Nat) : List Int := (List.range rows).map (fun i => vs.getD (i * n + j) 0)

/-- The accumulators of a tile and the lines that differ: rows, columns, the corner (R106). -/
structure TileSums where
  acc : List Nat
  rows : List Nat
  cols : List Nat
  corner : Bool
deriving DecidableEq, Repr

/-- R106, over a tile of `rn` by `cn` with `k` cycles. -/
def tileSums (ty rn k cn : Nat) (a b : List Int) (chk : TileCheck) : TileSums :=
  let acc := struck chk.acc (product ty rn k cn a b)
  let at_ (n : Nat) : Val := .pat ty (acc.getD n 0)
  let cycles := List.range k
  let t := (List.range rn).map (fun i =>
    heldLine ty (tget none chk.t i) (checkLine ty (cycles.map (fun c => ([a.getD (i * k + c) 0], rowOf cn b c)))))
  let v := (List.range cn).map (fun j =>
    heldLine ty (tget none chk.v j) (checkLine ty (cycles.map (fun c => (colOf k rn a c, [b.getD (c * cn + j) 0])))))
  let z := heldLine ty chk.z (checkLine ty (cycles.map (fun c => (colOf k rn a c, rowOf cn b c))))
  { acc := acc
    rows := (List.range rn).filter (fun i => !lineOk ty ((List.range cn).map (fun j => at_ (i * cn + j))) (t.getD i (.int 0)))
    cols := (List.range cn).filter (fun j => !lineOk ty ((List.range rn).map (fun i => at_ (i * cn + j))) (v.getD j (.int 0)))
    corner := !lineOk ty t z }

/-- The outputs of a Stipple operation over one group of columns. -/
def laneSums (ty rn k cn : Nat) (x w : List Int) (chk : TileCheck) (col0 n : Nat) : List Nat :=
  ((product ty rn k cn x w).zipIdx).map (fun e =>
    (tget none chk.acc (e.2 / cn * n + col0 + e.2 % cn)).getD e.1)

/-- R123: the vectors whose checksum lane differs from the sum of their outputs. -/
def laneBad (ty rn k : Nat) (x : List Int) (rho : List (List Int)) (outs : Nat → List Nat) (chk : TileCheck) : List Nat :=
  (List.range rn).filter (fun b =>
    !lineOk ty ((outs b).map (Val.pat ty))
      (heldLine ty (tget none chk.t b) (checkLine ty ((List.range k).map (fun i => ([x.getD (b * k + i) 0], rho.getD i []))))))

/-! ### TILE_DRAIN (R107, R119, R163, R165) -/

def HatchRun.fed (h : HatchRun) (t : Nat) : Bool := (h.feeds t).all (fun j => h.has j)

/-- The fetched items of a tile, in ascending reduction index. -/
def HatchRun.parts (h : HatchRun) : List (WalkItem × FetchBuf) :=
  (h.feeds h.tileAt).filterMap (fun j => match h.walk[j]?, h.bufs.find? (fun b => b.item = j) with
    | some y, some b => some (y, b)
    | _, _ => none)

/-- The A rows of a tile from what is fetched, row by row over the whole reduction; its B columns. -/
def HatchRun.tileA (h : HatchRun) (x : WalkItem) : List Int :=
  (List.range x.rn).flatMap (fun i => h.parts.flatMap (fun f => rowOf f.1.kn f.2.a (x.r0 + i - f.1.r0)))
def HatchRun.tileB (h : HatchRun) (x : WalkItem) : List Int :=
  h.parts.flatMap (fun f => (List.range f.1.kn).flatMap (fun k => ((rowOf f.1.cn f.2.b k).drop (x.c0 - f.1.c0)).take x.cn))

/-- An operand that stands in the panel-well share, read in place: `none` where a byte fails its well's parity (R119). -/
def readWells (s : State) (o : Op) (m : Nat) (x : Mat) (e r0 rn c0 cn : Nat) : Except Flt (Option (List Int)) × State :=
  match s.readBlock o.c (.field m) ⟨s.etchDie o.c, m⟩ [] x e r0 rn c0 cn with
  | (.ok v, s) => (.ok (some v), s)
  | (.error (.poison, _), s) => (.ok none, s)
  | (.error f, s) => (.error f, s)

/-- The operands of a tile at the hatch level. -/
def tileOperands (s : State) (o : Op) (h : HatchRun) (m : Nat) (x : WalkItem) :
    Except Flt (Option (List Int × List Int)) × State :=
  match (if o.da.space = 2 then readWells s o m o.da x.entry x.r0 x.rn 0 x.kn else (.ok (some (h.tileA x)), s)) with
  | (.error f, s) => (.error f, s)
  | (.ok a, s) =>
    match (if o.db.space = 2 then readWells s o m o.db x.entry 0 x.kn x.c0 x.cn else (.ok (some (h.tileB x)), s)) with
    | (.error f, s) => (.error f, s)
    | (.ok b, s) => match a, b with
      | some a, some b => (.ok (some (a, b)), s)
      | _, _ => (.ok none, s)

def tileReady (s : State) (c q idx : Nat) : Bool :=
  match s.runningOp c q idx with
  | some o => (match o.hatchRun with
    | some h => !h.waiting && !h.sheetWait && decide (h.tileAt < h.walk.length) && h.fed h.tileAt
    | none => false)
  | none => false

/-- Table 4-5: a Crosshatch mismatch in the context ledger; a single row and column locate one accumulator, by its column in
the tile. FAILPLATE keeps what it held: no plate failed (DESIGN CHOICE, log 90). -/
def tileLedger (s : State) (c : Nat) (rows cols : List Nat) : State :=
  s.modCtx c fun k =>
    let l := k.ledger
    let col := match rows, cols with
      | [_], [j] => some j
      | _, _ => none
    { k with ledger := { l with
        nUnclass := satInc 16 l.nUnclass, failFrame := s.frameLo, failLine := col.getD 0, located := col.isSome,
        failCtx := c, failClass := 3, failD := 0, failBurr := 0, changed := true } }

/-- A mismatching tile: re-hatched once with its operands fetched afresh, or HATCH_CHECK. -/
def tileMismatch (s : State) (o : Op) (h : HatchRun) (m : Nat) (x : WalkItem) (rows cols : List Nat) : State :=
  let s := (tileLedger s o.c rows cols).countMismatch m true
  let ns := xclkNs (s.fab m).desc (tileCycles o.da.ty x.kn h.ch)
  if h.rerun then s.finishOp o.c o.q o.idx (some (.hatchCheck, 0)) 0 else
  match s.charge o.c o.q ns with
  | none => s.finishOp o.c o.q o.idx (some (.hatchCheck, 0)) 0
  | some s =>
    let fs := h.feeds h.tileAt
    (s.chargeUnit o.c o.q m ns).modOp o.c o.q o.idx fun p =>
      { p with prog := .hatch { h with rerun := true, reruns := h.reruns + 1,
                                       bufs := h.bufs.filter (fun b => !decide (b.item ∈ fs)) } }

/-- A block of a product drained into DD: its elements, saturations counted, its writes made. -/
def drainBlock (s : State) (o : Op) (m e r0 rn c0 cn : Nat) (acc : List Nat) : Except Flt Nat × State :=
  let free := s.freeCtr
  let vs := (acc.zipIdx).map (fun a => drain o.da.ty o.dd.ty (hatchU o.word) (free + a.2) a.1)
  match State.blockTargets { s with freeCtr := free + vs.length } o.c (.field m) ⟨s.etchDie o.c, m⟩ o.dd e r0
      (c0 * eltBits o.dd.ty / 8) (blockRows o.dd.ty rn cn (vs.map (·.1))) with
  | (.error f, s) => (.error f, s)
  | (.ok l, s) => (.ok ((vs.map (·.2)).sum), s.holdWrites o.c o.q o.idx (.field m) l)

/-- A tile that agrees is drained into DD (R163); its buffers are released with their last consumer (R165). -/
def tileGood (s : State) (o : Op) (h : HatchRun) (m : Nat) (x : WalkItem) (acc : List Nat) : State :=
  match drainBlock s o m x.entry x.r0 x.rn x.c0 x.cn acc with
  | (.error f, s) => s.finishOp o.c o.q o.idx (some f) 0
  | (.ok sats, s) =>
    let next := nextItem WalkItem.isTile h.walk (h.tileAt + 1)
    let keep := (h.feeds next) ++ (match h.sheetAt next with | some j => [j] | none => [])
    let h := { h with
      tileAt := next, rerun := false, sats := h.sats + sats,
      bufs := h.bufs.filter (fun b => decide (h.tileAt < b.item) || decide (b.item ∈ keep)) }
    if next < h.walk.length then s.modOp o.c o.q o.idx fun p => { p with prog := .hatch h }
    else s.finishOp o.c o.q o.idx none (countWord h.sats h.reruns)

def tileEffect (s : State) (c q idx : Nat) (chk : TileCheck) : State :=
  match s.op c q idx with
  | none => s
  | some o => match o.hatchRun with
    | none => s
    | some h => match h.walk[h.tileAt]? with
      | none => s
      | some x =>
        let m := hatchDie o.word
        match tileOperands s o h m x with
        | (.error f, s) => s.finishOp c q idx (some f) 0
        | (.ok none, s) => tileMismatch s o h m x [] []
        | (.ok (some (a, b)), s) =>
          let t := tileSums o.da.ty x.rn x.kn x.cn a b chk
          if t.rows ≠ [] ∨ t.cols ≠ [] ∨ t.corner = true ∨ chk.parity = true then tileMismatch s o h m x t.rows t.cols
          else tileGood s o h m x t.acc

def execTileDrain (c q idx : Nat) (chk : TileCheck) (s : State) : Out :=
  due s (tileReady s c q idx) (tileEffect s c q idx chk)

/-! ### STIPPLE_COMPLETE (R120 to R123, R165) -/

/-- A Stipple operation ends while no rebite runs on the die: a rebite pre-empts it (R122). -/
def stipReady (s : State) (c q idx : Nat) : Bool :=
  match s.runningOp c q idx with
  | some o => (match o.stipRun with
    | some h => !h.waiting && h.fetched && decide (h.opAt < h.ops) && decide (tget [] s.rebites (hatchDie o.word) = [])
    | none => false)
  | none => false

/-- The groups of 256 output columns of a Stipple operation, in order: weights streamed, outputs made and drained (R165).
Answers the outputs of each group, the rows of each group's weights, and the saturations. -/
def stipGroups (s : State) (o : Op) (m e r0 rn : Nat) (x : List Int) (chk : TileCheck) (ecc : Found) :
    Except Flt (List (Nat × List Nat) × List (List Int) × Nat) × State :=
  let k := o.da.cols
  (cuts 0 o.db.cols 256).foldl (fun (r : Except Flt (List (Nat × List Nat) × List (List Int) × Nat) × State) g =>
    match r with
    | (.error f, s) => (.error f, s)
    | (.ok (outs, rho, sats), s) =>
      match s.readBlock o.c (.field m) ⟨s.etchDie o.c, m⟩ ecc o.db e 0 k g.1 g.2 with
      | (.error f, s) => (.error f, s)
      | (.ok w, s) =>
        let acc := laneSums o.da.ty rn k g.2 x w chk g.1 o.db.cols
        match drainBlock s o m e r0 rn g.1 g.2 acc with
        | (.error f, s) => (.error f, s)
        | (.ok n, s) =>
          (.ok (outs ++ [(g.2, acc)], (List.range k).map (fun i => rho.getD i [] ++ rowOf g.2 w i), sats + n), s))
    (.ok ([], [], 0), s)

/-- A checksum lane that differs: one rerun with everything fetched afresh, or HATCH_CHECK. -/
def stipMismatch (s : State) (o : Op) (h : StipRun) (m rn : Nat) : State :=
  let s := s.countMismatch m false
  let ws := weightBytes s o.c ⟨0, m⟩ o.db 1
  let ns := stippleTime o.da.ty rn o.da.cols o.db.cols ws.1 ws.2
  if h.rerun then s.finishOp o.c o.q o.idx (some (.hatchCheck, 0)) 0 else
  match s.charge o.c o.q ns with
  | none => s.finishOp o.c o.q o.idx (some (.hatchCheck, 0)) 0
  | some s => (s.chargeUnit o.c o.q (4 + m) ns).modOp o.c o.q o.idx fun p =>
      { p with held := o.held
               prog := .stip { h with rerun := true, reruns := h.reruns + 1, fetched := decide (o.da.space = 2) } }

/-- An operation that agrees. -/
def stipGood (s : State) (o : Op) (h : StipRun) (sats : Nat) : State :=
  let h := { h with opAt := h.opAt + 1, rerun := false, fetched := decide (o.da.space = 2), sats := h.sats + sats }
  if h.opAt < h.ops then s.modOp o.c o.q o.idx fun p => { p with prog := .stip h }
  else s.finishOp o.c o.q o.idx none (countWord h.sats h.reruns)

def stipEffect (s : State) (c q idx : Nat) (chk : TileCheck) (ecc : Found) : State :=
  match s.op c q idx with
  | none => s
  | some o => match o.stipRun with
    | none => s
    | some h =>
      let m := hatchDie o.word
      let (e, r0, rn) := stipBatch o h
      match (if o.da.space = 2 then readWells s o m o.da e r0 rn 0 o.da.cols else (.ok (some h.bufX), s)) with
      | (.error f, s) => s.finishOp c q idx (some f) 0
      | (.ok none, s) => stipMismatch s o h m rn
      | (.ok (some x), s) => match stipGroups s o m e r0 rn x chk ecc with
        | (.error f, s) => s.finishOp c q idx (some f) 0
        | (.ok (outs, rho, sats), s) =>
          let bad := laneBad o.da.ty rn o.da.cols x rho
            (fun b => outs.flatMap (fun g => (g.2.drop (b * g.1)).take g.1)) chk
          if bad ≠ [] ∨ chk.parity = true then stipMismatch s o h m rn else stipGood s o h sats

def execStippleComplete (c q idx : Nat) (chk : TileCheck) (ecc : Found) (s : State) : Out :=
  due s (stipReady s c q idx) (stipEffect s c q idx chk ecc)

/-! ### Extension ports (R127 to R130, R159) -/

def State.ext (s : State) (m p : Nat) : ExtPort := tget {} (s.fab m).ext p
def State.modExt (s : State) (m p : Nat) (f : ExtPort → ExtPort) : State :=
  s.modFab m fun x => { x with ext := tmod {} x.ext p f }

/-- R129: ABORT on a port that runs an operation's command: the result beats written until then stand. -/
def State.abortExt (s : State) (m p : Nat) (o : Op) : State :=
  s.modExt m p fun x => { x with aborting := true, job := some o }

/-- Is the port in the build and not disabled? -/
def State.extThere (s : State) (m p : Nat) : Bool :=
  decide (buildExt (s.fab m).desc / 2 ^ p % 2 = 1) && !bit (s.fab m).disabled p

/-- The descriptors DEN enables, in order D0, D1, D2. -/
def extDescs (p : Program) (w : Word256) : List (Nat × Word256) :=
  (if bit w 56 then [p.desc (fld w 39 32)] else []) ++ (if bit w 57 then [p.desc (fld w 47 40)] else [])
    ++ (if bit w 58 then [p.desc (fld w 55 48)] else [])

/-- Is no D2 named? Then the result stream goes nowhere. -/
def noMat : Mat := { bases := [], rows := 0, isList := true }

/-- The checks of an EXT: the matrices that DEN enables, resolved. -/
def extCheck (s : State) (c q : Nat) (ecc : Found) : Except Flt (List Mat × Mat) × State :=
  let w := s.nextMacro c q
  let m := extDie w
  if !s.extThere m (extPort w) then (.error (.extAbsent, 0), s) else
  match prepare s c q ecc (extDescs (s.progOf c q) w) (bit w 58) false (fun _ => none)
      (fun ms => placeCheck ms (s.etchSize c (s.etchDie c)) (s.wellSize c m)) with
  | (.error f, s) => (.error f, s)
  | (.ok ms, s) => (.ok (if bit w 58 then (ms.dropLast, ms.getLast?.getD {}) else (ms, noMat)), s)

/-- The bytes of a matrix, row after row. -/
def State.matBytes (s : State) (c : Nat) (e : Engine) (pl : Place) (ecc : Found) (m : Mat) (w : Nat) :
    Except Flt (List Byte) × State :=
  (List.range m.rows).foldl (fun (r : Except Flt (List Byte) × State) i =>
    match r with
    | (.error f, s) => (.error f, s)
    | (.ok bs, s) => match s.readSpace c e pl ecc m.space (m.at w + i * m.stride) (rowBytes m.ty m.cols) with
      | (.ok b, s) => (.ok (bs ++ b), s)
      | (.error f, s) => (.error f, s)) (.ok [], s)

/-- The operand stream (R159): D0, then D1; with lists, of entry 0, then of entry 1, and so on (R173). -/
def extStream (s : State) (o : Op) (m : Nat) (ecc : Found) : Except Flt (List Byte) × State :=
  let ops := (if bit o.word 56 then [o.da] else []) ++ (if bit o.word 57 then [o.db] else [])
  ((List.range (walks (ops ++ [o.dd]))).flatMap (fun e => ops.map (fun x => (e, x)))).foldl
    (fun (r : Except Flt (List Byte) × State) x =>
      match r with
      | (.error f, s) => (.error f, s)
      | (.ok bs, s) => match s.matBytes o.c (.field m) ⟨s.etchDie o.c, m⟩ ecc x.2 x.1 with
        | (.ok b, s) => (.ok (bs ++ b), s)
        | (.error f, s) => (.error f, s)) (.ok [], s)

/-- The command goes to the port with its operand stream (R159, R130), or the macro-instruction faults. -/
def extStart (s : State) (o : Op) (m p : Nat) (ecc : Found) : State :=
  match extStream s o m ecc with
  | (.error f, s) => s.endOp o.c o.q o.idx (some f) 0
  | (.ok bs, s) =>
    (s.modExt m p fun _ => { cmd := some (o.c, o.q, o.idx) }).send (.extCommand m p o.c (s.ctx o.c).tenant o.word bs)

def extReady (s : State) (c q : Nat) : Bool :=
  let w := s.nextMacro c q
  s.canIssue c q && decide (0x10 ≤ opcode w ∧ opcode w ≤ 0x17) && decide (s.nextIdx c q < (s.progOf c q).macros.length) &&
    s.unitFree q (extUnit (extDie w) (extPort w)) && decide ((s.ext (extDie w) (extPort w)).cmd = none) &&
    !(s.ext (extDie w) (extPort w)).aborting &&
    (decide (q < 4) || s.marginMay c q (extUnit (extDie w) (extPort w)) (extDie w))

def extEffect (s : State) (c q : Nat) (ecc : Found) : State :=
  let w := s.nextMacro c q
  let m := extDie w
  let p := extPort w
  let op := s.newOp c q (extUnit m p)
  match extCheck s c q ecc with
  | (.error f, s) => s.issueDone op (some f) 0
  | (.ok (ms, d), s) =>
    let op := { op with prog := .ext m p, dd := d, da := ms.headD {}, db := ms.getLastD {} }
    extStart (s.issue op) op m p ecc

def execExt (c q : Nat) (ecc : Found) (s : State) : Out := due s (extReady s c q) (extEffect s c q ecc)

/-- R127: the targets of the result beats in the destination, in order, up to its size. -/
def extTargets (s : State) (o : Op) (m : Nat) (beats : List Byte) : Except Flt (List (Nat × Target × List Byte)) × State :=
  let d := o.dd
  let rb := rowBytes d.ty d.cols
  ((List.range d.bases.length).map (fun e => (e, (List.range d.rows).map (fun i =>
      slice beats ((e * d.rows + i) * rb) (min rb (beats.length - (e * d.rows + i) * rb)))))).foldl
    (fun (r : Except Flt (List (Nat × Target × List Byte)) × State) x => match r with
      | (.error f, s) => (.error f, s)
      | (.ok l, s) => match s.blockTargets o.c (.field m) ⟨s.etchDie o.c, m⟩ d x.1 0 0 (x.2.filter (fun b => decide (b ≠ []))) with
        | (.error f, s) => (.error f, s)
        | (.ok k, s) => (.ok (l ++ k), s)) (.ok [], s)

/-- The result beats into the destination; with a fault nothing (R140). -/
def extWrite (s : State) (o : Op) (m : Nat) (beats : List Byte) : Option Flt × State :=
  match extTargets s o m beats with
  | (.error f, s) => (some f, s)
  | (.ok l, s) => (none, s.writeSpace o.c o.q (.field m) o.dd.space l)

/-- The command a port runs and has not aborted. -/
def extDoneReady (s : State) (m p : Nat) : Bool :=
  match (s.ext m p).cmd with
  | some (c, q, i) => !(s.ext m p).aborting && (match s.op c q i with | some o => decide (o.fin = none) | none => false)
  | none => false

/-- R127: DONE. Status 0 completes the macro-instruction with its result written; any other faults it (R140). -/
def extDoneEffect (s : State) (m p : Nat) (status : BitVec 8) (beats : List Byte) : State :=
  match (s.ext m p).cmd with
  | none => s
  | some (c, q, i) =>
    match s.op c q i with
    | none => s
    | some o =>
      let s := s.modExt m p fun x => { x with cmd := none }
      if status ≠ 0 then s.endOp c q i (some (.extFail status.toNat, 0)) 0 else
      match extWrite s o m beats with
      | (f, s) => s.endOp c q i f (status.setWidth 64)

def execExtDone (m p : Nat) (status : BitVec 8) (beats : List Byte) (s : State) : Out :=
  due s (extDoneReady s m p) (extDoneEffect s m p status beats)

/-- R128: ABORT; the macro-instruction faults EXT_TIMEOUT when the logic acknowledges (log 19). -/
def execExtTimeout (m p : Nat) (s : State) : Out :=
  due s (extDoneReady s m p)
    (s.modExt m p fun x => { x with aborting := true, timedOut := true })

def extAckReady (s : State) (m p : Nat) : Bool := (s.ext m p).aborting

/-- Finish the command of a port with a fault, where it is still outstanding. -/
def extFault (s : State) (m p : Nat) (st : Status) : State :=
  match (s.ext m p).cmd with
  | some (c, q, i) => s.endOp c q i (some (st, 0)) 0
  | none => s

/-- R129: ABORT_ACK. A command that timed out faults; one aborted otherwise leaves the result beats it has written, `beats`,
and one aborted at GUARD is issued again next MARGIN. -/
def extAckEffect (s : State) (m p : Nat) (beats : List Byte) : State :=
  let x := s.ext m p
  let s := if x.timedOut then extFault s m p .extTimeout else
    match x.job with
    | some o => (extWrite s o m beats).2
    | none => s
  s.modExt m p fun _ => {}

def execExtAbortAck (m : Nat) (ack : AbortAck) (s : State) : Out :=
  due s (extAckReady s m ack.port) (extAckEffect s m ack.port ack.beats)

/-- R129: no ABORT_ACK in 512 ns: the port is held in reset and disabled, its command faults EXT_HUNG. -/
def extHungEffect (s : State) (m p : Nat) : State :=
  let s := (extFault s m p .extHung).modExt m p fun _ => {}
  s.modFab m fun f => { f with disabled := f.disabled ||| BitVec.ofNat 8 (2 ^ (p % 8)) }

def execExtHung (m p : Nat) (s : State) : Out :=
  due s (extAckReady s m p) (extHungEffect s m p)

end Sys2Proof.Machine
end

