-- ==== Sys2Proof/Machine/Queues.lean ====
section
/-!
DEFINITION. Queues, doorbells, entries, the held records, fences, late failures and the keep table (R195, R206 to R217,
R245 to R250).
-/

namespace Sys2Proof.Machine

/-! ### Abort codes (Table 11-12) and answers -/

def abTimeout : Nat := 0x05040000
def abCommand : Nat := 0x05040001
def abView : Nat := 0x06010000
def abWriteOnly : Nat := 0x06010001
def abReadOnly : Nat := 0x06010002
def abObject : Nat := 0x06020000
def abLength : Nat := 0x06070010
def abSub : Nat := 0x06090011
def abRange : Nat := 0x06090030
def abGeneral : Nat := 0x08000000
def abState : Nat := 0x08000022
def abNoSession : Nat := 0x0F0D0001
def abSessionOpen : Nat := 0x0F0D0002
def abSignature : Nat := 0x0F0D0003
def abConstraint : Nat := 0x0F0D0004
def abWaiver : Nat := 0x0F0D0005
def abReserved : Nat := 0x0F0D0006
def abKeep : Nat := 0x0F0D0007
def abForeign : Nat := 0x0F0D0008
def abLimit : Nat := 0x0F0D0009

/-- The answer to a request: abort 0 and a value, or the abort. -/
def State.answer (s : State) (via : Via) (abort len v : Nat) : State := s.send (.reply via abort len v)

/-- A transfer is counted as accepted (0x1E40:01), and its answer; an abort is counted in 0x1E40:03. -/
def State.accepted (s : State) : State := s.modNet fun n => { n with xferAccepted := satInc 32 n.xferAccepted }
def State.countAbort (s : State) : State := s.modNet fun n => { n with aborts := satInc 32 n.aborts }
def State.respond (s : State) (via : Via) (abort len v : Nat) : State :=
  if abort = 0 then s.answer via 0 len v else s.countAbort.answer via abort 0 0

/-- Is the device past start-up: READY, LIMP or WAIVED? -/
def State.up (s : State) : Bool := decide (s.boot.dev = .ready ∨ s.boot.dev = .limp ∨ s.boot.dev = .waived)

/-- Does the part that serves contexts run: past start-up and not in DOZE (Table 15-6)? -/
def State.awake (s : State) : Bool := s.up && decide (s.sec.power ≠ .doze)

/-- Count an ignored doorbell or a stale command (0x3402). -/
def State.ignored (s : State) (t : Nat) : State := s.modTen t fun x => { x with ignored := satInc 32 x.ignored }

/-! ### Entries (R206, R210, Table 9-6a) -/

def entProg (e : BitVec 512) : Nat := fld e 3 0
def entReplay (e : BitVec 512) : Bool := bit e 8
def entNotify (e : BitVec 512) : Bool := bit e 9
def entNpatch (e : BitVec 512) : Nat := fld e 21 16
def entPatch (e : BitVec 512) : Nat := fld e 79 32
def entResult (e : BitVec 512) : Nat := fld e 127 80
def entCookie (e : BitVec 512) : BitVec 64 := BitVec.ofNat 64 (fld e 191 128)

/-- Programs of a bundle (Table 8-1). -/
def Bundle.nprog (b : Bundle) : Nat := fld b.header 59 56 + 1

/-- The first reason of R210, 1 to 5, that rejects an entry; 0 for none. -/
def entryReason (q nprog : Nat) (e : BitVec 512) : Nat :=
  if fld e 7 4 ≠ 0 ∨ fld e 15 10 ≠ 0 ∨ fld e 31 22 ≠ 0 ∨ fld e 511 192 ≠ 0 then 1
  else if nprog ≤ entProg e then 2
  else if entReplay e = true ∧ 4 ≤ q then 3
  else if 32 < entNpatch e then 4
  else if entPatch e % 16 ≠ 0 ∨ entResult e % 128 ≠ 0 then 5
  else 0

/-- The context address of the entry at the head. -/
def State.headAddr (s : State) (c q : Nat) : Nat :=
  (s.ctx c).qbase q + (s.queue c q).head.toNat % 2 ^ (s.ctx c).qlog q * 64

/-- Read and check the head entry and its patch records: the entry and its records, or the reason. A patch record whose
reserved field is nonzero is a reserved field of the entry (DEDUCED, log 21). -/
def State.checkHead (s : State) (c q : Nat) : Except Nat (BitVec 512 × List (BitVec 128)) × State :=
  match s.readCtx c [] (s.headAddr c q) 64 with
  | (.error _, s) => (.error 6, s)
  | (.ok bs, s) =>
    let e := BitVec.ofNat 512 (leNat bs)
    let r := entryReason q (s.bundleOf c).nprog e
    if r ≠ 0 then (.error r, s) else
    match s.readCtx c [] (entPatch e) (16 * entNpatch e) with
    | (.error _, s) => (.error 6, s)
    | (.ok ps, s) =>
      let l := (List.range (entNpatch e)).map (fun i => BitVec.ofNat 128 (leNat (slice ps (16 * i) 16)))
      if l.any (fun p => decide (fld p 63 8 ≠ 0)) then (.error 1, s) else (.ok (e, l), s)

/-- R210: the queue halts; an impression entry counts as reserved work short of END. -/
def State.rejectEntry (s : State) (c q reason : Nat) : State :=
  let h := (s.queue c q).head.toNat
  (s.modQueue c q fun x => { x with halted := true, eligible := false, headRan := true, headEnded := false,
                                    headDone := false, started := false, lastIdx := 0 }).post
    { s.mkRec 0x05 with c := c, q := q, detail := BitVec.ofNat 64 (reason + h * 2 ^ 8) }

/-- One patch record (R146): OP 0 SET, 1 ADD, 2 SETLO, 3 SETHI. -/
def patchRecord (old : BitVec 64) (p : BitVec 128) : BitVec 64 :=
  let v := BitVec.ofNat 64 (fld p 127 64)
  let op := fld p 7 6
  if op = 0 then v else if op = 1 then old + v
  else if op = 2 then BitVec.ofNat 64 (fld old 63 32 * 2 ^ 32 + fld v 31 0)
  else BitVec.ofNat 64 (fld v 31 0 * 2 ^ 32 + fld old 31 0)

def State.applyPatch (s : State) (c q : Nat) (p : BitVec 128) : State :=
  s.setPrm c q (fld p 5 0) (patchRecord (s.prm c q (fld p 5 0)) p)

/-- Start the head entry, or reject it. -/
def State.startEntry (s : State) (c q : Nat) : State :=
  match s.checkHead c q with
  | (.error r, s) => s.rejectEntry c q r
  | (.ok (e, ps), s) =>
    let s := ps.foldl (fun s p => s.applyPatch c q p) s
    let run : Run := { prog := entProg e, replay := entReplay e, notify := entNotify e, result := entResult e,
                       cookie := entCookie e }
    (s.modQueue c q fun x => { x with run := some run, eligible := false, started := true, mode := entReplay e,
                                      cookie := entCookie e, result := entResult e, lastIdx := 0 }).ran c

/-- May a queue start an entry: resident, not running, not halted, nothing of an earlier entry outstanding, its phase
open? -/
def State.startOpen (s : State) (c q : Nat) : Bool :=
  let x := s.queue c q
  (s.ctx c).slot.isSome && decide (x.run = none) && !x.halted && decide (s.opsOf c q = []) && s.phaseOpen q &&
    decide ((s.ctx c).state = .admitted)

/-- ENTRY_START: an impression queue's reserved work of the frame (R49, R208). -/
def entryReady (s : State) (c q : Nat) : Bool := decide (q < 4) && s.startOpen c q && (s.queue c q).eligible

def execEntryStart (c q : Nat) (s : State) : Out :=
  due s (entryReady s c q) (s.startEntry c q)

/-- R209. -/
def marginEntryReady (s : State) (c q : Nat) : Bool :=
  decide (4 ≤ q) && decide (q < 8) && s.startOpen c q && decide ((s.queue c q).head ≠ (s.queue c q).tail)

def execMarginEntryStart (c q : Nat) (s : State) : Out :=
  due s (marginEntryReady s c q) (s.startEntry c q)

/-! ### Advance at COMB (R208, R210, R212, R218) -/

/-- What the head entry says of itself: MODE, result area and cookie, as it last ran, or read from its ring where it has not
started yet; none where it cannot be read. -/
def State.headInfo (s : State) (c q : Nat) : Option (Bool × Nat × BitVec 64) × State :=
  let x := s.queue c q
  if x.started then (some (x.mode, x.result, x.cookie), s) else
  match s.readCtx c [] (s.headAddr c q) 64 with
  | (.ok bs, s) =>
    let e := BitVec.ofNat 512 (leNat bs)
    (some (entReplay e, entResult e, entCookie e), s)
  | (.error _, s) => (none, s)

/-- Did the head entry overrun in the frame before? It stays, whatever its MODE (R208). -/
def Queue.overran (x : Queue) : Bool := x.headRan && !x.headDone

/-- The result area of an entry, where it names an aligned one. -/
def State.resultArea (s : State) (c q a : Nat) : State := if a % 128 = 0 then s.writeResult c q a else s

/-- The head retires; a REPLAY entry reports it, its result area written first (R212). -/
def State.retireHead (s : State) (c q : Nat) (i : Bool × Nat × BitVec 64) : State :=
  let s := if i.1 then (s.resultArea c q i.2.1).post
      { s.mkRec 0x01 with c := c, q := q, cookie := i.2.2, index := (s.queue c q).lastIdx } else s
  s.modQueue c q fun x => { x with head := x.head + 1, headDone := false, headRan := false, started := false, lastIdx := 0 }

/-- May a REPLAY head retire: it has a successor and did not overrun, or its context is ORPHANED (R208, R218)? -/
def Queue.replayGoes (x : Queue) (orphaned : Bool) : Bool :=
  !x.halted && decide (x.head ≠ x.tail) && (orphaned || (!x.overran && decide (1 < (x.tail - x.head).toNat)))

/-- The second step of R208: a REPLAY head retires. In an ORPHANED context every one that comes to the head does. -/
def State.retireReplays (s : State) (c q : Nat) (orphaned : Bool) : Nat → State
  | 0 => s
  | n + 1 =>
    if !(s.queue c q).replayGoes orphaned then s else
    match s.headInfo c q with
    | (some i, s) => if i.1 then (s.retireHead c q i).retireReplays c q orphaned n else s
    | (none, s) => s

/-- The first step of R208: a ONCE head that reached END or faulted retires. -/
def State.retireOnce (s : State) (c q : Nat) : State :=
  let x := s.queue c q
  if !x.halted && decide (x.head ≠ x.tail) && x.headDone && !x.mode then s.retireHead c q (false, 0, 0) else s

/-- One impression queue at the start of COMB, of an ADMITTED, resident context or an ORPHANED one. A head that is rejected
stays the frame's reserved work, short of END (R210). -/
def State.advanceQueue (s : State) (c q : Nat) : State :=
  let orphaned := decide ((s.ctx c).state = .orphaned)
  let runs := decide ((s.ctx c).state = .admitted) && (s.ctx c).slot.isSome
  if (s.queue c q).run.isSome then s else
  let n := if orphaned then ((s.queue c q).tail - (s.queue c q).head).toNat else 1
  let s := if runs || orphaned then (s.retireOnce c q).retireReplays c q orphaned n else s
  s.modQueue c q fun x =>
    let work := runs && decide (x.head ≠ x.tail)
    { x with eligible := work && !x.halted, headRan := work && x.halted, headEnded := false }

def State.advanceCtx (s : State) (c : Nat) : State := s.each [0, 1, 2, 3] fun s q => s.advanceQueue c q

/-! ### Doorbells (R207, Table 9-7) -/

def bellCtx (w : BitVec 64) : Nat := fld w 11 0
def bellTarget (w : BitVec 64) : Nat := fld w 15 12
def bellIndex (w : BitVec 64) : BitVec 16 := BitVec.ofNat 16 (fld w 31 16)
def bellGen (w : BitVec 64) : BitVec 16 := BitVec.ofNat 16 (fld w 47 32)

/-- Does a doorbell move the tail forwards, at most the ring size past the head? -/
def Queue.takes (x : Queue) (size : Nat) (idx : BitVec 16) : Bool :=
  decide ((x.tail - x.head).toNat ≤ (idx - x.head).toNat) && decide ((idx - x.head).toNat ≤ size)

/-- Ask for a slot at the next GUARD (R198, R199): a margin doorbell, or an impression doorbell, which pins its context
and is served with the admissions (DEDUCED, log 22). -/
def State.askRestore (s : State) (margin : Bool) (c : Nat) : State :=
  if (s.ctx c).slot.isSome ∨ s.restores.any (fun e => decide (e.2 = c)) then s
  else { s with restores := s.restores ++ [(margin, c)] }

/-- A doorbell on a halted queue checks the head entry again (R210). -/
def State.recheck (s : State) (c q : Nat) : State :=
  if !(s.queue c q).halted then s else
  match s.checkHead c q with
  | (.error r, s) =>
    s.post { s.mkRec 0x05 with c := c, q := q, detail := BitVec.ofNat 64 (r + (s.queue c q).head.toNat * 2 ^ 8) }
  | (.ok _, s) => s.modQueue c q fun x => { x with halted := false }

/-- Is a doorbell of tenant t to be looked at: the context its own, alive, of this generation (R195, R218)? -/
def State.bellOpen (s : State) (t : Nat) (w : BitVec 64) : Bool :=
  let x := s.ctx (bellCtx w)
  decide (x.state = .created ∨ x.state = .admitted) && decide (x.tenant = t) && decide (x.gen = bellGen w)

/-- A doorbell to a queue, accepted. -/
def State.ring (s : State) (c q : Nat) (idx : BitVec 16) : State :=
  let s := (s.modQueue c q fun x => { x with tail := idx }).recheck c q
  if (s.ctx c).state = .admitted then s.askRestore (decide (4 ≤ q)) c else s

/-- The tenant whose doorbells and keep updates count: none for an unbound sender (R223) or before READY (R384). -/
def State.bellSender (s : State) (via : Via) : Option Nat := if s.awake then s.tenantOf via else none

def doorbellQueue (s : State) (via : Via) (w : BitVec 64) : State :=
  match s.bellSender via with
  | none => s
  | some t =>
    let c := bellCtx w
    let q := bellTarget w
    if s.bellOpen t w && decide (q < 8) && (s.queue c q).takes (2 ^ (s.ctx c).qlog q) (bellIndex w) then
      s.ring c q (bellIndex w)
    else s.ignored t

def execDoorbellQueue (via : Via) (w : BitVec 64) (s : State) : Out :=
  due s (decide (bellTarget w ≠ 8)) (doorbellQueue s via w)

/-- R213: the consumer index, free-running; one past the records written is ignored. -/
def doorbellConsumer (s : State) (via : Via) (w : BitVec 64) : State :=
  match s.bellSender via with
  | none => s
  | some t =>
    let c := bellCtx w
    let x := s.ctx c
    let k := (bellIndex w - BitVec.ofNat 16 x.ringRead).toNat
    if s.bellOpen t w && decide (k ≤ x.used) then s.modCtx c fun x => { x with ringRead := x.ringRead + k }
    else s.ignored t

def execDoorbellConsumer (via : Via) (w : BitVec 64) (s : State) : Out :=
  due s (decide (bellTarget w = 8)) (doorbellConsumer s via w)

/-! ### The hold (R213) -/

def heldReady (s : State) (c : Nat) : Bool :=
  let x := s.ctx c
  decide (x.hold ≠ []) && decide (x.used < x.ringSize) && decide (x.state ≠ .free)

/-- The oldest held record goes into the ring. -/
def heldEffect (s : State) (c : Nat) : State :=
  match (s.ctx c).hold with
  | [] => s
  | r :: rest => (s.modCtx c fun x => { x with hold := rest }).putRec r

def execHeldRecordWrite (c : Nat) (s : State) : Out :=
  due s (heldReady s c) (heldEffect s c)

/-! ### Fences (R215, R245, R247, R248) -/

/-- The oldest pending fence of a queue, with what is before and behind it. -/
def splitFence (q : Nat) : List Fence → Option (List Fence × Fence × List Fence)
  | [] => none
  | f :: rest =>
    if f.q = q then some ([], f, rest)
    else match splitFence q rest with
      | some (a, x, b) => some (f :: a, x, b)
      | none => none

/-- Are all writes that a fence covers performed? -/
def State.fencePerformed (s : State) (c : Nat) (f : Fence) : Bool :=
  decide (f.reads = []) && !s.posted.any (fun p => decide (p.gone = none) && decide (p.c = c ∧ p.q = f.q) &&
    seqCovered (p.epoch.setWidth 13) f.seq)

def fenceDue (s : State) (c q : Nat) : Bool :=
  match splitFence q (s.ctx c).fences with
  | some (_, f, _) => s.fencePerformed c f
  | none => false

/-- The FENCE record with a status; the counter update is the fence's completion (R156). -/
def State.fenceRecord (s : State) (c : Nat) (f : Fence) (st : Status) (detail : Nat) : State :=
  s.post { s.mkRec 0x03 with c := c, q := f.q, status := st.code, cookie := f.cookie, index := f.idx,
                             detail := BitVec.ofNat 64 detail }

def fenceEffect (s : State) (c q : Nat) : State :=
  match splitFence q (s.ctx c).fences with
  | none => s
  | some (a, f, b) =>
    let s := (s.modCtx c fun x => { x with fences := a ++ b }).bump c f.ctr f.set f.value
    match f.late with
    | none => s.fenceRecord c f .success 0
    | some ca => (s.fenceRecord c f .lateWrite ca).modCtx c fun x => { x with poisoned := true }

def execFenceComplete (c q : Nat) (s : State) : Out :=
  due s (fenceDue s c q) (fenceEffect s c q)

/-! ### FLUSH (R250) -/

/-- The oldest FLUSH of a queue that still waits for a read, and the list with that read complete: a zero-length read went
through each function that carried writes it covers. -/
def flushed (q : Nat) : List Fence → Option (Fence × List Fence)
  | [] => none
  | f :: rest =>
    if f.q = q ∧ f.reads ≠ [] then some (f, { f with reads := f.reads.drop 1 } :: rest)
    else match flushed q rest with
      | some (x, l) => some (x, f :: l)
      | none => none

/-- Is a write that the fence covers still to go out through a function? The read stands behind it. -/
def State.writesLeft (s : State) (c : Nat) (f : Fence) (fn : Nat × Nat) : Bool :=
  s.posted.any fun p => decide (p.gone = none) && decide (p.c = c ∧ p.q = f.q) && seqCovered (p.epoch.setWidth 13) f.seq &&
    decide (p.target.func = some fn)

def flushDue (s : State) (c q : Nat) : Bool :=
  match flushed q (s.ctx c).fences with
  | some (f, _) => !s.writesLeft c f (f.reads.headD (0, 0))
  | none => false

/-- That FLUSH is to complete with LATE_WRITE, for the last host write it covers. -/
def failFlush (q : Nat) : List Fence → List Fence
  | [] => []
  | f :: rest =>
    if f.q = q ∧ f.reads ≠ [] then { f with late := some (f.late.getD ((f.host.map (·.1)).getD 0)) } :: rest
    else f :: failFlush q rest

/-- A read of a FLUSH completes; an error or a timeout is a late failure of cause 4 of the last host write covered, and the
FLUSH reports it. -/
def flushEffect (s : State) (c q : Nat) (ok : Bool) : State :=
  let fs := (s.ctx c).fences
  match flushed q (if ok then fs else failFlush q fs) with
  | none => s
  | some (f, l) =>
    let s := s.modCtx c fun x => { x with fences := l }
    if ok then s else
    match f.host with
    | some (ca, ep) => s.lateRecord c q 4 ep ca 0
    | none => s

def execFlushReadCompletion (c q : Nat) (ok : Bool) (s : State) : Out :=
  due s (flushDue s c q) (flushEffect s c q ok)

def execCompletionTimeout (c q : Nat) (s : State) : Out :=
  due s (flushDue s c q) (flushEffect s c q false)

/-! ### Posted writes that end (R22, R242, R246) -/

/-- A posted write fails late with a cause. A context reset since only counts. -/
def State.failPosted (s : State) (p : Posted) (cause : Nat) : State :=
  match p.gone with
  | some t => s.modTen t fun x => { x with lateFails := satInc 32 x.lateFails }
  | none => s.lateFault p.c p.q cause p.epoch p.caddr (match p.target with | .dev a => a | .hostPage _ _ _ => 0)

/-- Perform a write at a device address: where its read-modify-write meets an uncorrectable error it fails late. -/
def State.performDev (s : State) (p : Posted) (a : Nat) (e : Ecc) : State :=
  let us := partialUnits a p.bytes.length
  if us = [] then s.wr a p.bytes else
  match us.find? (fun u => decide (u ∈ s.poison)) with
  | some _ => s.failPosted p 1
  | none => match e with
    | .clean => s.wr a p.bytes
    | .corrected => (s.countCorrected a).wr a p.bytes
    | .uncorrectable => (s.markPoison (us.headD a)).failPosted p 1

/-- Perform a posted write, or fail it: its link was declared down, or its read-modify-write failed. -/
def State.performPosted (s : State) (p : Posted) (e : Ecc) : State :=
  if p.way.any (fun l => decide ((s.link l).state = .down)) then s.failPosted p 3
  else match p.target with
    | .dev a => s.performDev p a e
    | .hostPage _ _ _ => s.wrTarget p.target p.bytes

/-- Every write of a context still in flight is performed, in issue order. -/
def State.drainPosted (s : State) (c : Nat) : State :=
  (s.posted.filter (fun p => decide (p.c = c))).foldl (fun s p => s.performPosted p .clean)
    { s with posted := s.posted.filter (fun p => decide (p.c ≠ c)) }

/-! ### The keep table (R216, R217) -/

/-- COUNT takes a new value; at 0 DYING is set in the same step and the side that wrote owns the teardown (R219). A TEARDOWN
that the host has sent before stands. -/
def State.setCount (s : State) (c : Nat) (n : BitVec 32) (device : Bool) : State :=
  s.modCtx c fun x =>
    if n = 0 then { x with count := 0, dying := true, state := .ending, deviceOwns := device,
                           teardownDue := device || x.teardownDue }
    else { x with count := n }

/-- May a tenant's compare succeed: its own entry, all 64 bits equal, not DYING? -/
def State.keepMatch (s : State) (t c : Nat) (cmp : BitVec 64) : Bool :=
  let x := s.ctx c
  decide (x.tenant = t) && decide (x.state ≠ .free) && decide (x.keep = cmp) && !x.dying

/-- What an entry reads as for a tenant: entries of other tenants are zero. -/
def State.keepRead (s : State) (t c : Nat) : BitVec 64 := if (s.ctx c).tenant = t then (s.ctx c).keep else 0

/-- Does an update name another generation than the entry's (R195, R217)? -/
def State.keepStale (s : State) (t c gen : Nat) : Bool := decide (fld (s.keepRead t c) 47 32 ≠ gen)

/-- A host compare-and-swap: the old value is answered. A stale generation is counted (R195). -/
def keepCas (s : State) (via : Via) (c : Nat) (cmp new : BitVec 64) : State :=
  match s.bellSender via with
  | none => s.answer via 0 8 0
  | some t =>
    let old := s.keepRead t c
    let s := if s.keepStale t c (fld cmp 47 32) then s.ignored t else s
    let s := if s.keepMatch t c cmp then s.setCount c (new.setWidth 32) false else s
    s.answer via 0 8 old.toNat

def execKeepCas (via : Via) (c : Nat) (cmp new : BitVec 64) (s : State) : Out :=
  due s (decide (c < 4096)) (keepCas s via c cmp new)

/-- R217, Table 10-9a: abort code 0 or the refusal. -/
def keepUpdate (s : State) (t : Nat) (v : BitVec 192) : Nat × State :=
  let c := fld v 11 0
  let exp_ := BitVec.ofNat 64 (fld v 127 64)
  if fld v 15 12 ≠ 0 ∨ fld v 63 32 ≠ 0 ∨ fld v 191 160 ≠ 0 then (abReserved, s)
  else if s.keepStale t c (fld v 31 16) then (0, s.ignored t)
  else if s.keepMatch t c exp_ then (0, s.setCount c (BitVec.ofNat 32 (fld v 159 128)) false)
  else if (s.ctx c).tenant ≠ t ∧ exp_ = 0 then (0, s)
  else (abKeep, s)

end Sys2Proof.Machine
end

