-- ==== Sys2Proof/Machine/Bundles.lean ====
section
/-!
DEFINITION. The loader verifier: a bundle's bytes (R177, Tables 8-1 to 8-5b), stages 1 to 4 at submission (R178, R180,
Table 8-6), stages 5 and 6 at admission (R179, R183).
-/

namespace Sys2Proof.Machine

/-- A rejection: code, program, item index, byte offset (R180). -/
structure Rej where
  code : Nat
  prog : Nat := 0
  item : Nat := 0
  off : Nat := 0
deriving DecidableEq, Repr

/-- The word of 0x2108 (Table 8-9). -/
def Rej.word (r : Rej) : BitVec 64 :=
  BitVec.ofNat 64 (r.code % 2 ^ 16 + r.prog % 16 * 2 ^ 16 + r.item % 4096 * 2 ^ 20 + r.off % 2 ^ 32 * 2 ^ 32)

/-- The first rejection of a list of checks. -/
def firstRej (l : List (Option Rej)) : Option Rej := (l.filterMap id).head?

/-- A directory entry (Table 8-2) with the offset of the entry itself. -/
structure Sect where
  ty : Nat
  prog : Nat
  off : Nat
  size : Nat
  resv : Bool
  at_ : Nat
deriving DecidableEq, Repr

def sectOf (bs : List Byte) (i : Nat) : Sect :=
  let e := leNat (slice bs (64 + 16 * i) 16)
  { ty := nfld e 7 0, prog := nfld e 11 8, off := nfld e 63 32, size := nfld e 95 64,
    resv := decide (nfld e 31 12 ≠ 0) || decide (nfld e 127 96 ≠ 0), at_ := 64 + 16 * i }

/-- A submitted bundle, cut up. -/
structure Raw where
  bytes : List Byte
  header : BitVec 512
  sects : List Sect

def Raw.len (r : Raw) : Nat := fld r.header 95 64
def Raw.nsect (r : Raw) : Nat := fld r.header 101 96
def Raw.nprog (r : Raw) : Nat := fld r.header 59 56 + 1

def rawBundle (bs : List Byte) : Raw :=
  let h := BitVec.ofNat 512 (leNat (slice bs 0 64))
  { bytes := bs, header := h, sects := (List.range (fld h 101 96)).map (sectOf bs) }

/-- The section of a type and program. -/
def Raw.find (r : Raw) (ty prog : Nat) : Option Sect := r.sects.find? (fun s => decide (s.ty = ty ∧ s.prog = prog))
def Raw.size (r : Raw) (ty prog : Nat) : Nat := match r.find ty prog with | some s => s.size | none => 0
def Raw.off (r : Raw) (ty prog : Nat) : Nat := match r.find ty prog with | some s => s.off | none => 0

/-- The items of a section, `n` bytes each, as numbers. -/
def Raw.items (r : Raw) (ty prog n : Nat) : List Nat :=
  (List.range (r.size ty prog / n)).map (fun i => leNat (slice r.bytes (r.off ty prog + n * i) n))

/-- Is a section type given once per program? -/
def perProgram (ty : Nat) : Bool := decide (1 ≤ ty ∧ ty ≤ 4)

/-! ### Stage 1 -/

def checkMagic (r : Raw) : Option Rej :=
  if fld r.header 31 0 ≠ 0x4A484442 ∨ fld r.header 47 32 ≠ 1 then some ⟨0x0901, 0, 0, 0⟩ else none

def checkLength (r : Raw) : Option Rej :=
  if r.len % 32 ≠ 0 ∨ r.bytes.length < r.len ∨ 0x04000000 < r.len ∨ r.len < 64 + 16 * r.nsect + 96 then
    some ⟨0x0902, 0, 0, 8⟩ else none

/-- The entry-by-entry part of SECTION: of two entries for one section the later fails, of two that overlap both do. -/
def sectBad (r : Raw) (i : Nat) (s : Sect) : Bool :=
  decide (s.ty = 0 ∨ 8 < s.ty) || decide (s.off % 32 ≠ 0) || decide (s.off < 64 + 16 * r.nsect) ||
    decide (r.len - 96 < s.off + s.size) || decide (r.nprog ≤ s.prog) || (!perProgram s.ty && decide (s.prog ≠ 0)) ||
    (r.sects.zipIdx).any (fun e => (decide (e.2 < i) && decide (e.1.ty = s.ty ∧ e.1.prog = s.prog)) ||
      (decide (e.2 ≠ i) && decide (e.1.off < s.off + s.size) && decide (s.off < e.1.off + e.1.size)))

/-- The first unit entry whose code is reserved or given before (Table 8-5b). -/
def unitsBad (l : List Nat) : Option Nat :=
  ((l.zipIdx).find? (fun e => decide (0x1A ≤ nfld e.1 7 0) ||
    (l.take e.2).any (fun x => decide (nfld x 7 0 = nfld e.1 7 0)))).map (·.2)

/-- Counts of Table 8-3, and the sizes of the sections that have a fixed layout. -/
def countsBad (r : Raw) : Bool :=
  !(List.range r.nprog).all (fun p => (r.find 1 p).isSome) || (r.find 5 0).isNone || (r.find 6 0).isNone ||
    decide (r.size 5 0 ≠ 128) || decide (r.size 6 0 ≠ 64) || decide (r.size 7 0 % 64 ≠ 0) || decide (r.size 8 0 % 8 ≠ 0) ||
    r.sects.any (fun s => decide (s.ty = 4) && decide (s.size % 8 ≠ 0)) ||
    (decide (nfld (leNat (slice r.bytes (r.off 6 0) 64)) 31 0 ≠ 0) && (r.find 8 0).isNone)

def checkSection (r : Raw) : Option Rej :=
  match (r.sects.zipIdx).find? (fun e => sectBad r e.2 e.1) with
  | some e => some ⟨0x0903, 0, e.2, e.1.at_⟩
  | none => if r.nsect = 0 ∨ countsBad r = true then some ⟨0x0903, 0, 0, 64⟩ else
    (unitsBad (r.items 8 0 8)).map (fun i => ⟨0x0903, 0, i, r.off 8 0 + 8 * i⟩)

/-- The owner key a slot holds, if ACTIVE. A slot whose key the provisioning store has lost counts as REVOKED (R361). -/
def State.ownerKey (s : State) (slot : Nat) : Option (BitVec 776) :=
  if slot < 3 ∧ (tget {} s.sec.otp.slots slot).state = .active ∧ tget 0 s.sec.keys slot ≠ 0 ∧ slot ∉ s.sec.badKeys then
    some (tget 0 s.sec.keys slot)
  else none

def checkKey (s : State) (r : Raw) : Option Rej :=
  if (s.ownerKey (fld r.header 103 102)).isNone then some ⟨0x0904, 0, 0, 12⟩ else none

def checkSig (s : State) (r : Raw) : Option Rej :=
  match s.ownerKey (fld r.header 103 102) with
  | none => some ⟨0x0904, 0, 0, 12⟩
  | some k =>
    if sigVerify k (r.bytes.take (r.len - 96)) (BitVec.ofNat 768 (leNat (slice r.bytes (r.len - 96) 96))) then none
    else some ⟨0x0905, 0, 0, r.len - 96⟩

/-- Bits of a word that a body field list names, as a mask. -/
def maskOf (l : List (Nat × Nat)) : Nat := (l.map (fun e => (2 ^ (e.1 - e.2 + 1) - 1) * 2 ^ e.2)).foldl (· ||| ·) 0

/-- The bits Tables 6-1 and 6-7 to 6-15 name for an opcode; TONE names BEN, DB, M, LO and HI for every FUNC, REDUCE
none of them (DEDUCED, log 24). A reserved opcode has no named body: stage 2 refuses it. -/
def macroMask (op : Nat) : Nat :=
  maskOf [(8, 0), (21, 16), (22, 22)] |||
  (if op = 1 ∨ op = 2 then maskOf [(55, 32), (60, 56), (65, 64), (79, 68)]
   else if op = 3 then maskOf [(68, 32), (75, 72)]
   else if op = 4 then maskOf [(48, 32), (53, 49)]
   else if op = 5 then maskOf [(51, 49), (55, 52)]
   else if op = 6 then maskOf [(50, 32)]
   else if op = 7 then maskOf [(36, 32), (63, 40), (70, 64), (87, 72), (159, 96)]
   else if op = 8 then maskOf [(35, 32), (47, 40), (63, 56), (70, 64)]
   else if op = 9 then maskOf [(33, 32), (47, 40), (83, 64)]
   else if op = 0x0A then maskOf [(32, 32), (47, 40), (83, 64)]
   else if op = 0x0B then maskOf [(37, 32), (46, 40), (95, 64)]
   else if op = 0x0C then maskOf [(36, 32), (39, 38), (46, 40), (95, 64), (191, 128)]
   else if op = 0x0D then maskOf [(35, 32), (45, 40), (53, 48), (127, 64)]
   else if op = 0x0E then 0
   else if 0x10 ≤ op ∧ op ≤ 0x17 then maskOf [(58, 32), (61, 60), (255, 64)]
   else maskOf [(255, 32)])

/-- Does a word have a bit outside a mask? -/
def outside (w mask : Nat) : Bool := decide ((w ||| mask) ≠ mask)

def descMask : Nat := maskOf [(50, 0), (62, 52), (142, 64), (159, 144)]
def buildMask : Nat := maskOf [(16, 0), (33, 24), (41, 34), (255, 128)]
def resMask : Nat :=
  maskOf ([(63, 0)] ++ (List.range 8).map (fun n => (16 * n + 74, 16 * n + 64))
    ++ (List.range 4).flatMap (fun m => [(32 * m + 201, 32 * m + 192), (32 * m + 217, 32 * m + 208)]))

/-- A digest entry with a reserved bit, or CHECK = 1 on a descriptor it may not name (R183). -/
def digestBad (r : Raw) (e : Nat) : Bool :=
  let d := (r.items 2 (nfld e 3 0) 32)
  let w := BitVec.ofNat 256 (d.getD (nfld e 15 8) 0)
  outside e (maskOf [(3, 0), (16, 8), (511, 128)]) ||
    (decide (nfld e 16 16 = 1) && (decide (d.length ≤ nfld e 15 8) || decide (dSpace w ≠ 0) || dBaseEn w || dPlist w))

/-- The first item of a section that a test rejects. -/
def badItem (r : Raw) (ty prog n : Nat) (bad : Nat → Bool) (code : Nat) : Option Rej :=
  match (r.items ty prog n).findIdx? bad with
  | some i => some ⟨code, prog, i, r.off ty prog + n * i⟩
  | none => none

def checkReserved (r : Raw) : Option Rej :=
  if fld r.header 55 52 ≠ 0 ∨ fld r.header 63 60 ≠ 0 ∨ fld r.header 127 108 ≠ 0 ∨ fld r.header 511 224 ≠ 0 then
    some ⟨0x0906, 0, 0, 0⟩ else
  match (r.sects.zipIdx).find? (fun e => e.1.resv) with
  | some e => some ⟨0x0906, 0, e.2, e.1.at_⟩
  | none => firstRej ((List.range r.nprog).flatMap (fun p =>
      [badItem r 1 p 32 (fun w => outside w (macroMask (nfld w 7 0))) 0x0906,
       badItem r 2 p 32 (fun w => outside w descMask) 0x0906,
       badItem r 3 p 32 (fun w => decide (nfld w 255 144 ≠ 0) ||
         (List.range 9).any (fun v => decide (nfld w (16 * v + 15) (16 * v + 11) ≠ 0))) 0x0906,
       badItem r 4 p 8 (fun w => outside w (maskOf [(10, 0), (47, 16)])) 0x0906]) ++
      [badItem r 5 0 32 (fun w => outside w buildMask) 0x0906, badItem r 6 0 64 (fun w => outside w resMask) 0x0906,
       badItem r 7 0 64 (digestBad r) 0x0906, badItem r 8 0 8 (fun w => decide (nfld w 31 8 ≠ 0)) 0x0906])

def stage1 (s : State) (r : Raw) : Option Rej :=
  firstRej [checkMagic r] <|> firstRej [checkLength r] <|> checkSection r <|> checkKey s r <|> checkSig s r <|>
    checkReserved r

/-! ### The bundle as it is kept -/

def mkProgram (r : Raw) (p : Nat) : Program :=
  { macros := (r.items 1 p 32).map (BitVec.ofNat 256), descs := (r.items 2 p 32).map (BitVec.ofNat 256),
    plans := (r.items 3 p 32).map (BitVec.ofNat 256), buckets := (r.items 4 p 8).map (BitVec.ofNat 64) }

def mkBundle (r : Raw) (t : Nat) : Bundle :=
  { tenant := t, header := r.header, progs := tofList {} ((List.range r.nprog).map (mkProgram r)),
    build := (r.items 5 0 32).map (BitVec.ofNat 256), res := BitVec.ofNat 512 ((r.items 6 0 64).getD 0 0),
    digests := (r.items 7 0 64).map (BitVec.ofNat 512), units := (r.items 8 0 8).map (BitVec.ofNat 64),
    offs := [5, 6, 7, 8].map (fun ty => r.off ty 0) }

/-! ### Stage 2: programs -/

def knownOp (op : Nat) : Bool := decide (1 ≤ op ∧ op ≤ 0x0E) || decide (0x10 ≤ op ∧ op ≤ 0x17)

/-- The descriptor indices a macro-instruction names. -/
def macroDescs (w : Word256) : List Nat :=
  let op := opcode w
  if op = 1 ∨ op = 2 then [fld w 39 32, fld w 47 40, fld w 55 48]
  else if op = 3 then [fld w 39 32, fld w 47 40] ++ (if bit w 56 then [fld w 55 48] else [])
  else if op = 4 then [fld w 39 32] ++ (if bit w 48 then [fld w 47 40] else [])
  else if op = 6 then [fld w 39 32, fld w 47 40]
  else if op = 7 then [fld w 47 40] ++ (if bit w 36 then [fld w 55 48] else []) ++ [fld w 63 56]
  else if op = 8 then [fld w 47 40, fld w 63 56]
  else if op = 9 ∨ op = 0x0A then [fld w 47 40]
  else if 0x10 ≤ op then
    (if bit w 56 then [fld w 39 32] else []) ++ (if bit w 57 then [fld w 47 40] else []) ++
      (if bit w 58 then [fld w 55 48] else [])
  else []

/-- 0x0A05. -/
def fieldBad (p : Program) (w : Word256) : Bool :=
  let op := opcode w
  if op = 1 ∨ op = 2 then isFloat (dType (p.desc (fld w 39 32)).2) && decide (fld w 60 56 ≠ 0)
  else if op = 3 then decide (fld w 68 64 < 6 ∨ 16 < fld w 68 64) || decide (fld w 63 60 = 0)
  else if op = 5 then decide (fld w 55 52 = 0)
  else if op = 6 then decide (1 ≤ fld w 50 48 ∧ fld w 50 48 ≤ 3)
  else if op = 7 then decide (7 < fld w 35 32)
  else if op = 8 then decide (4 < fld w 35 32)
  else if op = 0x0B then decide (fld w 37 36 = 3)
  else if op = 0x0D then decide (5 < fld w 35 32)
  else false

/-- 0x0A06: an FDIE, a PDIE or a plate that the bundle does not use. A MOVE names its data mover by MOVER, no FDIE. -/
def dieBad (b : Bundle) (w : Word256) : Bool :=
  let op := opcode w
  let unused (m : Nat) := !b.used m
  if op = 1 ∨ op = 2 ∨ op = 7 ∨ op = 8 then unused (fld w 65 64)
  else if 0x10 ≤ op then unused (fld w 61 60)
  else if op = 3 then decide (b.eplates (fld w 59 57) = 0)
  else if op = 4 then decide (b.eplates (fld w 51 49) / 2 ^ fld w 53 52 % 2 = 0)
  else if op = 5 then decide (fld w 55 52 &&& b.eplates (fld w 51 49) ≠ fld w 55 52)
  else false

/-- The checks of one macro-instruction, in the order of Table 8-6. -/
def macroRej (b : Bundle) (p : Program) (i : Nat) (w : Word256) : Option Nat :=
  if decide (opcode w = 0x0E) ≠ decide (i + 1 = p.macros.length) then some 0x0A02
  else if !knownOp (opcode w) then some 0x0A03
  else if (macroDescs w).any (fun d => decide (p.descs.length ≤ d)) then some 0x0A04
  else if fieldBad p w then some 0x0A05
  else if dieBad b w then some 0x0A06
  else if opcode w = 1 ∧ p.plans.length ≤ fld w 79 68 then some 0x0A07
  else none

/-- The first item of a list that a check refuses. -/
def firstItem {α : Type} (l : List α) (f : Nat → α → Option Nat) (prog base size : Nat) : Option Rej :=
  ((l.zipIdx).filterMap (fun e => (f e.2 e.1).map (fun c => (⟨c, prog, e.2, base + size * e.2⟩ : Rej)))).head?

def progSizeBad (r : Raw) (p : Nat) : Bool :=
  decide (r.size 1 p = 0) || decide (4096 * 32 < r.size 1 p) || decide (256 * 32 < r.size 2 p) ||
    [1, 2, 3].any (fun ty => decide (r.size ty p % 32 ≠ 0))

def stage2 (r : Raw) (b : Bundle) : Option Rej :=
  firstRej ((List.range r.nprog).map (fun k =>
    let p := b.program k
    if progSizeBad r k then some ⟨0x0A01, k, 0, r.off 1 k⟩
    else firstItem p.macros (macroRej b p) k (r.off 1 k) 32))

/-! ### Stage 3: descriptors -/

def descRej (w : Word256) : Option Nat :=
  if 8 ≤ dType w ∨ dSpace w = 3 then some 0x0B01
  else if dStride w < rowBytes (dType w) (dCols w) ∨ dStride w % eltAlign (dType w) ≠ 0 ∨
      (dType w = 0 ∧ dCols w % 2 = 1) then some 0x0B02
  else none

/-- The length of an integer reduction that a macro-instruction makes (R116). -/
def reductionOf (p : Program) (w : Word256) : Nat :=
  let a := (p.desc (fld w 39 32)).2
  let r := (p.desc (fld w 47 40)).2
  if opcode w = 1 ∨ opcode w = 2 then (if isFloat (dType a) then 0 else dCols a)
  else if opcode w = 8 then
    (if isFloat (dType r) then 0 else if fld w 35 32 = 0 then dRows r else if fld w 35 32 = 1 then dCols r
     else if fld w 35 32 = 4 then dPlen r else 0)
  else 0

/-- 0x0B04. -/
def opTypeBad (p : Program) (w : Word256) : Bool :=
  let d (i : Nat) := (p.desc i).2
  let op := opcode w
  let f0 := d (fld w 39 32)
  let f1 := d (fld w 47 40)
  let f2 := d (fld w 55 48)
  if op = 1 ∨ op = 2 then
    decide (dType f0 ≠ dType f1) || decide (5 < dType f0) || (isFloat (dType f0) && !isFloat (dType f2))
  else if op = 3 then
    !decide (dType f0 ∈ [1, 2, 6, 7]) || !decide (dType f1 ∈ [1, 2, 3, 6]) || (bit w 56 && decide (dType f2 ≠ 3))
  else if op = 4 then decide (dType f0 ≠ 1) || decide (1024 < dRows f0 ∨ 1024 < dCols f0)
  else if op = 9 then decide (dType f1 ≠ 3 ∨ dRows f1 ≠ 1)
  else if op = 0x0A then decide (dType f1 ≠ 3 ∨ dRows f1 ≠ 1 ∨ dSpace f1 ≠ 0)
  else false

def stage3 (r : Raw) (b : Bundle) : Option Rej :=
  firstRej ((List.range r.nprog).flatMap (fun k =>
    let p := b.program k
    [firstItem p.descs (fun _ w => descRej w) k (r.off 2 k) 32,
     firstItem p.macros (fun _ w => if 65536 < reductionOf p w then some 0x0B03
       else if opTypeBad p w then some 0x0B04 else none) k (r.off 1 k) 32]))

/-! ### Stage 4: plans and buckets -/

/-- R170 for one descriptor: every named bucket has its shape, within the descriptor, growing with the bucket. -/
def bucketBad (p : Program) (i : Nat) (w : Word256) : Bool :=
  let named := (List.range 8).filter (fun b => decide (dBuckets w / 2 ^ b % 2 = 1))
  named.any (fun b => match p.bucket i b with
    | none => true
    | some (r, c) => decide (dRows w < r ∨ dCols w < c) ||
        named.any (fun b' => decide (b < b') && (match p.bucket i b' with
          | some (r', c') => decide (r' < r ∨ c' < c)
          | none => false)))

/-- An entry that names a descriptor or bucket it may not, or one named before, or a shape beyond the descriptor's. -/
def bucketEntryBad (p : Program) (i : Nat) (e : BitVec 64) : Bool :=
  decide (p.descs.length ≤ fld e 7 0) || decide (dBuckets (p.desc (fld e 7 0)).2 / 2 ^ fld e 10 8 % 2 = 0) ||
    (p.buckets.take i).any (fun x => decide (fld x 10 0 = fld e 10 0)) ||
    decide (dRows (p.desc (fld e 7 0)).2 < fld e 31 16 + 1 ∨ dCols (p.desc (fld e 7 0)).2 < fld e 47 32 + 1)

/-- 0x0B12 for a plan entry: reserved codes, or a hatch tile below 16 on the HATCH die's array (R166). -/
def planBad (b : Bundle) (w : Word256) : Bool :=
  (List.range 9).any (fun v =>
    let x := fld w (16 * v + 15) (16 * v)
    decide (4 < nfld x 2 0 ∨ 4 < nfld x 6 4) ||
      (match b.roleDie 1 with
       | some m => let y := planVariant w v (b.rp m) (b.cp m)
         decide (y.rh < 16 ∨ y.ch < 16)
       | none => false))

def stage4 (r : Raw) (b : Bundle) : Option Rej :=
  firstRej ((List.range r.nprog).flatMap (fun k =>
    let p := b.program k
    [firstItem p.buckets (fun i e => if bucketEntryBad p i e then some 0x0B11 else none) k (r.off 4 k) 8,
     firstItem p.descs (fun i w => if bucketBad p i w then some 0x0B11 else none) k (r.off 2 k) 32,
     firstItem p.plans (fun _ w => if planBad b w then some 0x0B12 else none) k (r.off 3 k) 32]))

/-- Stages 1 to 4: the rejection, or the copy to keep. -/
def verify (s : State) (t : Nat) (bs : List Byte) : Except Rej Bundle :=
  let r := rawBundle bs
  match stage1 s r with
  | some e => .error e
  | none =>
    let b := mkBundle r t
    match stage2 r b <|> stage3 r b <|> stage4 r b with
    | some e => .error e
    | none => .ok b

/-- BUNDLE_SUBMIT (R178, R180): a tenant's bundle is verified and kept; a rejection stands in 0x2108. Nothing that an
unbound sender submits is attributed to a tenant (R222). -/
def bundleSubmit (s : State) (via : Via) (bytes : List Byte) : State :=
  match s.bellSender via with
  | none => s
  | some t =>
    match verify s t bytes with
    | .error e => (s.modTen t fun x => { x with lastRejection := e.word }).send (.bundle via e.word)
    | .ok b => { s with bundles := s.bundles ++ [b] }.send (.bundle via 0)

def execBundleSubmit (via : Via) (bytes : List Byte) (s : State) : Out :=
  .next (bundleSubmit s via bytes)

/-! ### Stage 5: fit (R131 to R133, R182) -/

/-- Table 5-8: is the instance of a die configured and on a link? In LIMP a configured die is held before its release
(R187), which leaves the refusal to 0x0D01. -/
def State.instanceReady (s : State) (m : Nat) : Bool :=
  (decide ((s.fab m).die = .running) || (decide (s.boot.dev = .limp) && decide ((s.fab m).desc ≠ 0))) &&
    !(s.linkDown (fieldLink m 0) && s.linkDown (fieldLink m 1))

/-- Does an opcode occur in any program? -/
def Bundle.hasOp (b : Bundle) (op : Nat) : Bool := b.progs.any (fun e => e.2.macros.any (fun w => decide (opcode w = op)))

/-- A level in a tested-with list (R184). -/
def imageLevel (i : Image) (l : Nat) : Bool := i.list.any (fun e => decide (e.code = 4 ∧ e.version.toNat = l))

/-- Does a used die fail a code of stage 5, 0x0C03 to 0x0C07? -/
def fitBad (s : State) (b : Bundle) (m code : Nat) : Bool :=
  let d := (s.fab m).desc
  let n := b.need m
  if code = 0x0C03 then decide (buildRows d < b.rp m ∨ buildCols d < b.cp m)
  else if code = 0x0C04 then bit d 10 && !bit n 10
  else if code = 0x0C05 then decide (fld n 16 11 ||| buildTypes d ≠ buildTypes d)
  else if code = 0x0C06 then decide (buildPanel d < fld n 33 24 ∨ fld n 33 24 ≠ b.dwells m + b.swells m)
  else (List.range 8).any (fun i => bit n (34 + i) &&
    !(s.extThere m i && decide (fld (tget 0 (s.fab m).ports i) 15 0 = fld n (16 * i + 143) (16 * i + 128))))

/-- 0x0C09. -/
def rolesBad (b : Bundle) : Bool :=
  let cnt (i : Nat) := ((List.range 4).filter (fun m => b.role i m)).length
  (b.hasOp 1 && decide (cnt 1 ≠ 1)) || (b.hasOp 2 && decide (cnt 2 ≠ 1)) || (b.hasOp 3 && decide (cnt 3 ≠ 1)) ||
    (List.range 4).any (fun m => !b.used m && (b.role 1 m || b.role 2 m || b.role 3 m))

/-- Byte offset of item i, of n bytes, in section 5 BUILD, 6 RESOURCES, 7 DIGESTS or 8 UNITS of the bundle. -/
def Bundle.itemOff (b : Bundle) (ty i n : Nat) : Nat := b.offs.getD (ty - 5) 0 + n * i

/-- Stage 5, in the order of Table 8-6. A used die that has no build is passed over by the comparisons with a build, and
0x0C08 names it (DEDUCED, log 25). -/
def stage5 (s : State) (b : Bundle) : Option Rej :=
  let used := (List.range 4).filter (fun m => b.used m)
  let built := used.filter (fun m => decide ((s.fab m).desc ≠ 0))
  let rej (code m : Nat) : Rej := ⟨code, 0, m, b.itemOff 5 m 32⟩
  let lists (i : Option Image) : Bool := match i with | some i => imageLevel i b.level | none => false
  ((built.find? (fun m => decide (fld (s.fab m).desc 3 0 ≠ b.level))).map (rej 0x0C01)) <|>
  (if !lists s.boot.gImg && !lists s.boot.bImg then some (rej 0x0C02 0) else none) <|>
  ([0x0C03, 0x0C04, 0x0C05, 0x0C06, 0x0C07].findSome? fun code =>
    (built.find? (fun m => fitBad s b m code)).map (rej code)) <|>
  ((used.find? (fun m => !s.instanceReady m)).map (rej 0x0C08)) <|>
  (if rolesBad b then some (rej 0x0C09 0) else none)

end Sys2Proof.Machine
end

