-- ==== Sys2Proof/Machine/Cells.lean ====
section
/-!
DEFINITION. The user logic of a Field die (R309, R311, R318 to R322): cells, carry chains, dynamic cells, flip-flops, spines
and clock generators as the bitstream configures them, and one clock edge of it. Cell n stands in bay n / 8, counted up a
column of 240 bays, so that the carry of cell n comes from cell n - 1 but at the bottom of a column.
-/

namespace Sys2Proof

open Machine

def cellCount : Nat := 460800
def columnCells : Nat := 1920

def Bitstream.cell (b : Bitstream) (n : Nat) : Cell := tget {} b.cells n
def Bitstream.spine (b : Bitstream) (k : Nat) : Option Spine := tget none b.spines k

/-! ### What a bitstream may configure (R309, R311, R318) -/

def Wire.legal : Wire → Bool
  | .low | .high => true
  | .out n _ | .ff n _ => decide (n < cellCount)
  | .pad n => decide (n < 96)
  | .signal n => decide (n < 30)

def ClockFrom.legal : ClockFrom → Bool
  | .spine k => decide (k < 32)
  | .wire w => w.legal

def FlipFlop.legal (x : FlipFlop) : Bool := x.d.legal && x.clock.legal && x.enable.legal && x.reset.legal

def Cell.legal (x : Cell) : Bool :=
  decide (x.ins.length ≤ 6) && x.ins.all Wire.legal && x.data.legal && x.write.legal && x.clock.legal && x.ff0.legal && x.ff1.legal

/-- Sixteen of the pads can drive a clock. -/
def SpineSource.legal : SpineSource → Bool
  | .vclk | .sysref => true
  | .generator g o => decide (g < 4 ∧ o < 4)
  | .pad p => decide (p < 16)
  | .wire w => w.legal

def ClockGen.legal (x : ClockGen) : Bool :=
  decide (x.src < if x.fromPad then 16 else 32) && decide (x.outs.length ≤ 4) &&
    x.outs.all (fun f => decide (10000 ≤ f ∧ f ≤ 800000))

/-- R311: every multiplexer names a source that exists. -/
def Bitstream.legal (b : Bitstream) : Bool :=
  b.cells.all (fun e => decide (e.1 < cellCount) && e.2.legal) &&
    b.spines.all (fun e => decide (e.1 < 32) && match e.2 with | some x => x.source.legal && x.enable.legal | none => true) &&
    b.gens.all (fun e => decide (e.1 < 4) && match e.2 with | some x => x.legal | none => true)

/-! ### Initial contents (R309, R330) -/

/-- The two flip-flops of a cell. -/
def Cell.init (x : Cell) : Bool × Bool := (x.ff0.init, x.ff1.init)

def putPair (t : Tab Bool) (n : Nat) (q : Bool × Bool) : Tab Bool := tset false (tset false t (2 * n) q.1) (2 * n + 1) q.2

def Bitstream.ffInit (b : Bitstream) : Tab Bool := b.cells.foldl (fun t e => putPair t e.1 e.2.init) []

def Cell.memInit (x : Cell) : BitVec 64 :=
  match x.kind with
  | .ram i => i
  | .shift i => i.setWidth 64
  | _ => 0

def Bitstream.memInit (b : Bitstream) : Tab (BitVec 64) := b.cells.foldl (fun t e => tset 0 t e.1 e.2.memInit) []

/-! ### Levels -/

/-- What the inputs spell, the first the least significant. -/
def inIndex (l : List Bool) : Nat := l.foldr (fun b n => (if b then 1 else 0) + 2 * n) 0

/-- The two outputs of a cell by its inputs: a carry stage adds its first two and the carry-in (log 100). -/
def Cell.output (x : Cell) (mem : BitVec 64) (ins : List Bool) (carry second : Bool) : Bool :=
  match x.kind with
  | .lut6 t => t.getLsbD (inIndex (ins.take 6))
  | .lut5 a b => (if second then b else a).getLsbD (inIndex (ins.take 5))
  | .carry =>
    let p := ins.getD 0 false
    let q := ins.getD 1 false
    if second then (p && q) || (carry && (p != q)) else (p != q) != carry
  | .ram _ => mem.getLsbD (inIndex (ins.take 6))
  | .shift _ => mem.getLsbD (inIndex (ins.take 5))

/-- The level of a wire, through at most so many cells; `ext`: pads and device signals. -/
def Machine.Fab.level (f : Fab) (b : Bitstream) (ext : Wire → Bool) : Nat → Wire → Bool
  | _, .low => false
  | _, .high => true
  | _, .ff n second => tget false f.ffs (2 * n + if second then 1 else 0)
  | 0, .out n second => Config.loopLevel (.out n second)
  | k + 1, .out n second =>
    let x := b.cell n
    let carry := decide (n % columnCells ≠ 0) && decide ((b.cell (n - 1)).kind = .carry) && f.level b ext k (.out (n - 1) true)
    x.output (tget 0 f.cellMem n) (x.ins.map (f.level b ext k)) carry second
  | _, w => ext w

/-! ### One edge -/

/-- Does a clock rise at this edge? Every running spine does whose source runs; a pad or a routed wire where its level rises. -/
def Machine.Fab.rises (f : Fab) (b : Bitstream) (v : Wire → Bool) (key : Nat) : ClockFrom → Bool
  | .wire w => v w && !tget false f.clockWas key
  | .spine k =>
    tget false f.spineOn k && match b.spine k with
      | none => false
      | some x => match x.source with
        | .vclk | .sysref => true
        | .generator g o => match tget none b.gens g with
          | some y => decide (o < y.outs.length)
          | none => false
        | .pad p => v (.pad p) && !tget false f.clockWas k
        | .wire w => v w && !tget false f.clockWas k

/-- A flip-flop: its asynchronous reset, then at an edge its reset before its clock enable (log 100). A reset gives the
initial value. -/
def FlipFlop.next (x : FlipFlop) (v : Wire → Bool) (rise q : Bool) : Bool :=
  if x.async && v x.reset then x.init
  else if !rise then q
  else if v x.reset then x.init
  else if v x.enable then v x.d else q

/-- A dynamic cell: a RAM writes the bit its inputs address, a shift register takes its data in at the bottom. -/
def Cell.nextMem (x : Cell) (v : Wire → Bool) (rise : Bool) (m : BitVec 64) : BitVec 64 :=
  if !(rise && v x.write) then m else
  match x.kind with
  | .ram _ =>
    let i := inIndex ((x.ins.take 6).map v)
    let bit : BitVec 64 := BitVec.ofNat 64 (2 ^ i)
    if v x.data then m ||| bit else m &&& ~~~bit
  | .shift _ => ((m <<< 1) ||| (if v x.data then 1 else 0)) &&& 0xFFFFFFFF
  | _ => m

/-- Keys of clockWas: the spines, then three of each cell. -/
def clockKey (n i : Nat) : Nat := 32 + 3 * n + i

def ClockFrom.levelNow (v : Wire → Bool) : ClockFrom → Bool
  | .wire w => v w
  | .spine _ => false

def SpineSource.levelNow (v : Wire → Bool) : SpineSource → Bool
  | .pad p => v (.pad p)
  | .wire w => v w
  | _ => false

/-- The levels of the routed clocks at this edge. -/
def Bitstream.clocksNow (b : Bitstream) (v : Wire → Bool) : Tab Bool :=
  let t := b.spines.foldl (fun t e => tset false t e.1 (match e.2 with | some x => x.source.levelNow v | none => false)) []
  b.cells.foldl (fun t e =>
    tset false (tset false (tset false t (clockKey e.1 0) (e.2.ff0.clock.levelNow v)) (clockKey e.1 1) (e.2.ff1.clock.levelNow v))
      (clockKey e.1 2) (e.2.clock.levelNow v)) t

/-- A spine's enable acts between pulses: from the next edge on (R318). -/
def Bitstream.enablesNow (b : Bitstream) (v : Wire → Bool) : Tab Bool :=
  b.spines.foldl (fun t e => tset false t e.1 (match e.2 with | some x => v x.enable | none => false)) []

/-- One edge of a die's clocks: every flip-flop and dynamic cell from the levels before it. -/
def Machine.Fab.edge (f : Fab) (b : Bitstream) (ext : Wire → Bool) : Fab :=
  let v := f.level b ext (b.cells.length + 1)
  { f with
    ffs := b.cells.foldl (fun t e =>
      let q0 := tget false f.ffs (2 * e.1)
      let q1 := tget false f.ffs (2 * e.1 + 1)
      putPair t e.1 (e.2.ff0.next v (f.rises b v (clockKey e.1 0) e.2.ff0.clock) q0,
        e.2.ff1.next v (f.rises b v (clockKey e.1 1) e.2.ff1.clock) q1)) f.ffs
    cellMem := b.cells.foldl (fun t e =>
      tmod 0 t e.1 (e.2.nextMem v (f.rises b v (clockKey e.1 2) e.2.clock))) f.cellMem
    spineOn := b.enablesNow v
    clockWas := b.clocksNow v }

/-- The device signals of Table 13-4 to a die: FAB_TICK, FAB_PHASE, FAB_FRAME, FAB_TRST, FAB_REL. -/
def Machine.State.deviceSignals (s : State) (m : Nat) : Nat :=
  let f := s.fab m
  (if f.fabTick then 1 else 0) + s.frame.phase.code * 2 + s.frame.counter.toNat % 2 ^ 16 * 2 ^ 4 + f.trst.toNat * 2 ^ 20
    + f.rel % 4 * 2 ^ 28

def Machine.State.fabInput (s : State) (m : Nat) (w : Wire) : Bool :=
  match w with
  | .pad p => Config.padLevel s.freeCtr (96 * m + p)
  | .signal n => (s.deviceSignals m).testBit n
  | _ => false

/-- The bitstream of a die whose user logic runs: enables given, resets released, cells of its own. -/
def Machine.Fab.clocked (f : Fab) : Option Bitstream :=
  if f.enables && !f.resetsOn then f.bs.filter (fun b => decide (b.cells ≠ [])) else none

/-- One edge of user logic on every die where it runs; elsewhere nothing happens (log 20). -/
def Machine.State.fabricEdge (s : State) : State :=
  [0, 1, 2, 3].foldl (fun s m =>
    match (s.fab m).clocked with
    | some b => { s.modFab m (fun f => f.edge b (s.fabInput m)) with freeCtr := s.freeCtr + 1 }
    | none => s) s

end Sys2Proof
end

