-- ==== Sys2Proof/Machine/Contexts.lean ====
section
/-!
DEFINITION. Contexts: the commands of Tables 9-1 and 10-4, admission with its shares, plates and slots (R179, R181, R199,
R237), INVALIDATE, plate release, orphans, teardown (R205, R200, R218, R219), resets of every scope (R238 to R244), and
the notification paths (R226 to R229).
-/

namespace Sys2Proof.Machine

/-! ### Shares (R162, R235, R237, Table 10-2) -/

/-- A share of a tenant, as latched at the last reset. -/
def State.share (s : State) (t sub : Nat) : Nat := s.atReset (0x3520 + t) sub

/-- Contexts that hold admitted shares. -/
def State.holders (s : State) : List Nat := s.liveCtxs.filter (fun c => (s.ctx c).granted)
def State.holdersOf (s : State) (t : Nat) : List Nat := s.holders.filter (fun c => decide ((s.ctx c).tenant = t))

/-- First etch piece of a tenant on a Plate die: tenants stand in ascending order (DEDUCED, log 26). -/
def State.pieceBase (s : State) (t p : Nat) : Nat := ((List.range t).map (fun u => s.share u (9 + p))).sum

/-- Panel wells of a tenant on a Field die: first well from PBASE and count, cut where a build is smaller (R237). -/
def State.wellRange (s : State) (t m : Nat) : Nat × Nat :=
  let total := if (s.fab m).desc = 0 then 0 else buildPanel (s.fab m).desc
  let before := min total ((List.range t).map (fun u => s.share u (0x11 + m))).sum
  (before, min (s.share t (0x11 + m)) (total - before))

/-- The lowest start of `n` free units in `[lo, lo + cnt)`, the taken ranges given as start and count. -/
def firstFit (lo cnt n : Nat) (taken : List (Nat × Nat)) : Option Nat :=
  (List.range (cnt + 1)).findSome? (fun i =>
    if i + n ≤ cnt ∧ taken.all (fun r => decide (lo + i + n ≤ r.1 ∨ r.1 + r.2 ≤ lo + i)) = true then some (lo + i) else none)

/-- Etch pieces of a context on a die: where they would stand. -/
def State.fitPieces (s : State) (t : Nat) (b : Bundle) (p : Nat) : Option Nat :=
  firstFit (s.pieceBase t p) (s.share t (9 + p)) (b.epieces p)
    ((s.holdersOf t).map (fun c => (tget 0 (s.ctx c).etchBase p, (s.bundleOf c).epieces p)))

/-- Panel wells of a context on a die, counted from PBASE. -/
def State.fitWells (s : State) (t : Nat) (b : Bundle) (m : Nat) : Option Nat :=
  let r := s.wellRange t m
  let pb := buildBase (s.fab m).desc
  firstFit (pb + r.1) r.2 (b.dwells m + b.swells m)
    ((s.holdersOf t).map (fun c => (tget 0 (s.ctx c).wellBase m, (s.bundleOf c).dwells m + (s.bundleOf c).swells m)))

/-- Sheet pages left to a tenant in a stock. -/
def State.sheetLeft (s : State) (t k : Nat) : Nat :=
  s.share t (0x18 + k) - ((s.holdersOf t).map (fun c => (s.bundleOf c).sheet k)).sum

/-! ### Slots (R198, R199, R237) -/

def State.residents (s : State) (t : Nat) : List Nat :=
  s.liveCtxs.filter (fun c => decide ((s.ctx c).tenant = t) && (s.ctx c).slot.isSome)

/-- The lowest free tenant slot. -/
def State.freeSlot (s : State) : Option Nat :=
  ((List.range Config.slotCount).drop Config.supervisorSlots).find? (fun n =>
    !s.ctxs.any (fun e => decide (e.2.slot = some n)))

/-- Is nothing of a context running, suspended, pending or outstanding? -/
def State.quiet (s : State) (c : Nat) : Bool :=
  let x := s.ctx c
  (List.range 8).all (fun q => decide ((x.queue q).run = none)) && decide (x.fences = []) &&
    !s.ops.any (fun o => decide (o.c = c)) && !s.rebites.any (fun e => e.2.any (fun r => decide (r.c = c)))

/-- R198: resident, not pinned, nothing running. -/
def State.evictable (s : State) (c : Nat) : Bool :=
  let x := s.ctx c
  x.slot.isSome && decide (x.state = .admitted) && s.quiet c &&
    (List.range 4).all (fun q => decide ((x.queue q).head = (x.queue q).tail))

/-- The evictable context of a tenant that has run least recently; the lower slot breaks ties. -/
def State.victim (s : State) (t : Nat) : Option Nat :=
  ((s.residents t).filter s.evictable).foldl (fun best c => match best with
    | none => some c
    | some b =>
      let key (n : Nat) := ((s.ctx n).lastRun, (s.ctx n).slot.getD 0)
      if (key c).1 < (key b).1 ∨ ((key c).1 = (key b).1 ∧ (key c).2 < (key b).2) then some c else best) none

/-- A slot that a restore of tenant t may take at once. -/
def State.slotFor (s : State) (t : Nat) : Option Nat :=
  if (s.residents t).length < s.share t 0x15 then s.freeSlot else none

/-- R199: a free or evictable slot within the tenant's slot share. -/
def State.slotPossible (s : State) (t : Nat) : Bool := (s.slotFor t).isSome || (s.victim t).isSome

/-- Slot operations a GUARD of the provisioned length admits (R199). -/
def State.slotLimit (s : State) : Nat := min 16 ((s.G * 10 - 890) / 160)

/-- One slot operation is counted. -/
def State.countSlotOp (s : State) : State :=
  { s.modFrame (fun f => { f with slotOps := f.slotOps + 1 }) with slotOpsTotal := satInc 32 s.slotOpsTotal }

/-- The restores that wait, in the order of R199: admissions, then margin doorbells, oldest first. -/
def State.restoreOrder (s : State) : List Nat :=
  (s.restores.filter (fun e => !e.1)).map (·.2) ++ (s.restores.filter (fun e => e.1)).map (·.2)

/-- What the next slot operation does: restore a context into a slot, or save a victim first. -/
inductive SlotOp where
  | restore (c slot : Nat)
  | save (c : Nat)
deriving DecidableEq, Repr

def State.nextSlotOp (s : State) : Option SlotOp :=
  s.restoreOrder.findSome? (fun c =>
    let t := (s.ctx c).tenant
    if (s.ctx c).state ≠ .admitted then none else
    match s.slotFor t with
    | some n => some (.restore c n)
    | none => (s.victim t).map .save)

/-! ### Stage 6 (R179, R181, Table 8-6) -/

/-- Costs and unit times of a set of impression contexts. -/
def State.costOf (s : State) (l : List Nat) : Nat := (l.map (fun c => (s.bundleOf c).icost)).sum
def State.unitOf (s : State) (l : List Nat) (u : Nat) : Nat := (l.map (fun c => (s.bundleOf c).utime u)).sum

/-- 0x0D08: both rules of R51 with context c counted. -/
def State.unitTimeBad (s : State) (c : Nat) : Bool :=
  let all := (s.holders.filter (fun d => (s.ctx d).impression && decide (d ≠ c))) ++ [c]
  let of_ (t : Nat) := all.filter (fun d => decide ((s.ctx d).tenant = t))
  let units := List.range 0x1A
  units.any (fun u => decide (s.W < s.unitOf all u)) ||
    (List.range 8).any (fun t =>
      let mine := of_ t
      let used := units.filter (fun u => decide (0 < s.unitOf mine u))
      decide (mine ≠ []) && decide (s.atTick 0x3100 (t + 1) <
        s.costOf mine + (used.map (fun u => s.unitOf (all.filter (fun d => decide ((s.ctx d).tenant ≠ t))) u)).sum))

/-- The bytes of a matrix in row order, through the context's mappings. -/
def State.preloadBytes (s : State) (c : Nat) (d : Word256) : Except Flt (List Byte) × State :=
  (List.range (dRows d)).foldl (fun (r : Except Flt (List Byte) × State) i => match r with
    | (.error f, s) => (.error f, s)
    | (.ok bs, s) => match s.readCtx c [] (dBase d + i * dStride d) (rowBytes (dType d) (dCols d)) with
      | (.error f, s) => (.error f, s)
      | (.ok b, s) => (.ok (bs ++ b), s)) (.ok [], s)

/-- 0x0D07: the first checked digest that differs or cannot be read (R183). -/
def State.digestFault (s : State) (c : Nat) (b : Bundle) : Option Nat × State :=
  (b.digests.zipIdx).foldl (fun (r : Option Nat × State) e => match r with
    | (some i, s) => (some i, s)
    | (none, s) =>
      if !bit e.1 16 then (none, s) else
      match s.preloadBytes c ((b.program (fld e.1 3 0)).desc (fld e.1 15 8)).2 with
      | (.error _, s) => (some e.2, s)
      | (.ok bs, s) =>
        if leNat (beBytes 48 (sha384 bs)) = fld e.1 511 128 then (none, s) else (some e.2, s)) (none, s)

/-- Plates that a bundle claims, as global numbers. -/
def Bundle.plates (b : Bundle) : List Nat := (List.range 8).flatMap (fun n => maskPlates n (b.eplates n))

/-- 0x0D05: a declared share does not fit in what the tenant may still claim. A context that holds its shares keeps them. -/
def State.sharesShort (s : State) (c : Nat) (b : Bundle) : Bool :=
  let t := (s.ctx c).tenant
  !(s.ctx c).granted && ([0, 1].any (fun k => decide (s.sheetLeft t k < b.sheet k)) ||
    (List.range 8).any (fun p => (s.fitPieces t b p).isNone) || (List.range 4).any (fun m => (s.fitWells t b m).isNone) ||
    b.plates.any (fun g => decide (s.share t 0x17 / 2 ^ g % 2 = 0)) || ((s.ctx c).impression && !s.slotPossible t))

/-- The checks of stage 6 up to 0x0D06. -/
def State.stage6a (s : State) (c : Nat) (b : Bundle) : Option Nat :=
  let x := s.ctx c
  let t := x.tenant
  let pc := 0x4500 + b.pclass
  let mask := s.atTick pc 7
  let imp := x.impression
  let mine := (s.holdersOf t).filter (fun d => (s.ctx d).impression && decide (d ≠ c))
  if s.boot.dev = .limp then some 0x0D01
  else if mask / 2 ^ t % 2 = 0 then some 0x0D02
  else if (if imp then decide (b.icost < s.atTick pc 4) else decide (b.icost ≠ 0)) then some 0x0D03
  else if imp && (decide (s.atTick 0x3100 (t + 1) = 0) ||
      decide (s.atTick 0x3100 (t + 1) < s.costOf mine + b.icost)) then some 0x0D04
  else if s.sharesShort c b then some 0x0D05
  else if b.plates.any (fun g => match (s.plate g).owner with | some d => decide (d ≠ c) | none => false) then some 0x0D06
  else none

/-- Stages 5 and 6: the rejection, or none. -/
def State.admitCheck (s : State) (c : Nat) : Option Rej × State :=
  let b := s.bundleOf c
  match stage5 s b with
  | some r => (some r, s)
  | none => match s.stage6a c b with
    | some code => (some ⟨code, 0, 0, b.itemOff 6 0 64⟩, s)
    | none => match s.digestFault c b with
      | (some i, s) => (some ⟨0x0D07, 0, i, b.itemOff 7 i 64⟩, s)
      | (none, s) =>
        if (s.ctx c).impression && s.unitTimeBad c then (some ⟨0x0D08, 0, 0, b.itemOff 8 0 8⟩, s) else (none, s)

/-- Grant the shares; a piece or a well is zero before its new owner can read it (R71, R224). -/
def State.grant (s : State) (c : Nat) (b : Bundle) : State :=
  let t := (s.ctx c).tenant
  let eb := tofList 0 ((List.range 8).map (fun p => (s.fitPieces t b p).getD 0))
  let wb := tofList 0 ((List.range 4).map (fun m => (s.fitWells t b m).getD 0))
  let s := s.each (List.range 8) fun s p => s.zero (etchBaseOf p + tget 0 eb p * 65536) (b.epieces p * 65536)
  let s := s.each (List.range 4) fun s m => s.zero (wellBaseOf m + tget 0 wb m * 8192) ((b.dwells m + b.swells m) * 8192)
  let s := s.each b.plates fun s g => s.modPlate g fun p => { p with owner := some c }
  s.modCtx c fun x => { x with etchBase := eb, wellBase := wb, granted := true }

/-- A refused admission: its code in 0x2108 and in an ADMITTED record (R180, R196). -/
def State.refuseAdmission (s : State) (c : Nat) (r : Rej) : State :=
  (s.modTen (s.ctx c).tenant fun t => { t with lastRejection := r.word }).post
    { s.mkRec 0x10 with c := c, q := 15, detail := BitVec.ofNat 64 r.code }

/-- The admission of one context, at GUARD: refused with its code, or ADMITTED with the device's reference (R216). -/
def State.admitCtx (s : State) (c : Nat) : State :=
  let s := s.modCtx c fun x => { x with admitDue := false }
  if (s.ctx c).state ≠ .created then s else
  match s.admitCheck c with
  | (some r, s) => s.refuseAdmission c r
  | (none, s) =>
    let b := s.bundleOf c
    let s := (s.grant c b).modCtx c fun x =>
      { x with state := .admitted, devref := true, count := x.count + 1,
               impAllow := s.pcls c 4, marAllow := s.pcls c 5 }
    let s := s.post { s.mkRec 0x10 with c := c, q := 15 }
    if (s.ctx c).impression then s.askRestore false c
    else if (List.range 4).any (fun i => decide ((s.queue c (4 + i)).head ≠ (s.queue c (4 + i)).tail)) then s.askRestore true c
    else s

/-! ### Slot operations (R179, R199) -/

/-- A restore of a context: one that was evicted is admitted again, by stages 5 and 6 (R179); one that fails them stays
saved, and its request is over (DEDUCED, log 96). -/
def State.restoreCtx (s : State) (c n : Nat) : State :=
  let s := { s with restores := s.restores.filter (fun e => decide (e.2 ≠ c)) }
  match (if (s.ctx c).evicted then s.admitCheck c else (none, s)) with
  | (some r, s) => s.refuseAdmission c r
  | (none, s) => (s.modCtx c fun x => { x with slot := some n, evicted := false }).countSlotOp

/-- Carry out a slot operation. A saved context with margin entries waiting asks again. -/
def State.doSlotOp (s : State) (o : SlotOp) : State :=
  match o with
  | .restore c n => s.restoreCtx c n
  | .save c =>
    let s := (s.modCtx c fun x => { x with slot := none, evicted := true }).countSlotOp
    if (List.range 4).any (fun i => decide ((s.queue c (4 + i)).head ≠ (s.queue c (4 + i)).tail)) then s.askRestore true c
    else s

/-! ### INVALIDATE (R205) -/

/-- Does a cached entry cover one of `n` pages from page `p0` (0: all)? -/
def tlbCovers (key p0 n : Nat) : Bool :=
  let level := key / 2 ^ 40
  let sh := if level = 1 then 26 else if level = 2 then 13 else 0
  let lo := key % 2 ^ 40 * 2 ^ sh
  decide (n = 0) || (decide (lo < p0 + n) && decide (p0 < lo + 2 ^ sh))

/-- Posted writes in flight whose mapping is gone are late failures; the others stay in flight. -/
def State.revoke (s : State) (c p0 n : Nat) : State :=
  (s.posted).foldl (fun s p =>
    if p.c ≠ c ∨ p.gone ≠ none ∨ ¬ (n = 0 ∨ (p0 ≤ p.caddr / 65536 ∧ p.caddr / 65536 < p0 + n)) then s else
    match s.translate c p.caddr true with
    | (t, s) =>
      if t = some p.target then s else
      ({ s with posted := s.posted.filter (fun x => decide (x ≠ p)) }).lateFault c p.q 2 p.epoch p.caddr
        (match p.target with | .dev a => a | .hostPage _ _ _ => 0)) s

def State.invalidateOne (s : State) (c a n : Nat) : State :=
  let s := s.modCtx c fun x => { x with tlb := x.tlb.filter (fun e => !tlbCovers e.1 (a / 65536) n) }
  (s.revoke c (a / 65536) n).post
    { s.mkRec 0x0F with c := c, q := 15, detail := BitVec.ofNat 64 (a % 2 ^ 48 + n % 2 ^ 16 * 2 ^ 48) }

def State.invalidates (s : State) (c : Nat) : State :=
  let l := (s.ctx c).invalidates
  l.foldl (fun s e => s.invalidateOne c e.1 e.2) (s.modCtx c fun x => { x with invalidates := [] })

/-! ### Plates (R63, R200) -/

def Plate.isLoading (p : Plate) : Bool := decide (p.bankA.state = .loading ∨ p.bankB.state = .loading)

/-- A RELEASE_PLATE waits while a bank is LOADING. -/
def State.releasePlates (s : State) (c : Nat) : State :=
  (s.ctx c).plateReleases.foldl (fun s g =>
    if (s.plate g).isLoading then s else
    let s := s.modCtx c fun x => { x with plateReleases := x.plateReleases.filter (fun h => decide (h ≠ g)) }
    if (s.plate g).owner = some c then s.modPlate g Plate.cleared else s) s

/-- Every plate of a context taken and cleared (R69). -/
def State.clearPlates (s : State) (c : Nat) : State :=
  s.each (List.range 32) fun s g => if (s.plate g).owner = some c then s.modPlate g Plate.cleared else s

/-! ### Resets of a context (Table 10-6) -/

/-- Everything the context has on engines is given up: rebites (R105), macro-instructions, commands on extension ports
(R129), whose result beats it takes no more, loading banks. What its macro-instructions have written stands. -/
def State.dropWork (s : State) (c : Nat) : State :=
  let mine := s.ops.filter (fun o => decide (o.c = c))
  let s := s.each (List.range 4) fun s m => s.each (List.range 8) fun s p =>
    match (s.ext m p).job with
    | some o => if o.c = c then s.modExt m p fun x => { x with job := none } else s
    | none => s
  let s := mine.foldl (fun s o => let s := s.release o; match o.prog with
    | .ext m p => if o.fin = none then s.modExt m p fun x => { x with aborting := true } else s
    | .load r => if o.fin = none then s.modPlate r.g fun p => p.setBank r.toB {} else s
    | _ => s) s
  { s with
    ops := s.ops.filter (fun o => decide (o.c ≠ c))
    rebites := tmap [] (fun _ l => l.filter (fun r => decide (r.c ≠ c))) s.rebites }

/-- Pending fences complete with RESET, in order. -/
def State.resetFences (s : State) (c : Nat) : State :=
  let l := (s.ctx c).fences
  l.foldl (fun s f => s.fenceRecord c f .reset 0) (s.modCtx c fun x => { x with fences := [] })

/-- The running entry of a queue completes with RESET; entries not started are discarded. -/
def State.resetQueue (s : State) (c q : Nat) : State :=
  let r := (s.queue c q).run
  let s := match r with
    | some r => s.endRun c q .reset r.lastDone 0
    | none => s
  s.modQueue c q fun x => { head := x.tail, tail := x.tail }

/-- Registers, counters and the late-fault record cleared. -/
def State.clearRegs (s : State) (c : Nat) : State :=
  (s.each (List.range 8) fun s q => s.modQueue c q fun x => { x with prm := [], seq := 0, lateAt := none }).modCtx c
    fun x => { x with counters := [], late := {}, poisoned := false }

/-- Table 10-6, what every scope does to a context. Writes in flight only count if they fail later (R242). -/
def State.resetCommon (s : State) (c : Nat) : State :=
  let t := (s.ctx c).tenant
  let s := s.each (List.range 8) fun s q => s.resetQueue c q
  let s := (s.dropWork c).resetFences c
  let s := (s.clearRegs c).clearPlates c
  { s with
    posted := s.posted.map (fun p => if p.c = c ∧ p.gone = none then { p with gone := some t } else p)
    restores := s.restores.filter (fun e => decide (e.2 ≠ c)) }

/-- Is a teardown due: the device owns it, or the host has sent TEARDOWN? A TEARDOWN of a CREATED or ADMITTED context takes
its COUNT to 0 at the GUARD it acts in, on the host's behalf (DEDUCED, log 62). -/
def Ctx.endDue (x : Ctx) : Bool := decide (x.state ≠ .free) && x.teardownDue

/-- A context discarded: its number's generation stays, so that old requests are stale, and its ledger, which its tenant may
read until the number is created again (R109). -/
def Ctx.discarded (x : Ctx) : Ctx := { gen := x.gen, tenant := x.tenant, ledger := x.ledger }

/-- The RESET record, then one notification per vector. -/
def State.resetRecord (s : State) (c : Nat) (sc : Scope) : State :=
  (s.post { s.mkRec 0x12 with c := c, q := 15, detail := BitVec.ofNat 64 sc.code }).notifyCtx c

/-- Shares and the slot claim released. -/
def Ctx.released (x : Ctx) : Ctx :=
  { x with granted := false, etchBase := [], wellBase := [], slot := none, admitDue := false, plateReleases := [] }

/-- Context scope: the context is CREATED again without the device's reference; if that was the last, the device owns the
teardown. -/
def State.resetToCreated (s : State) (c : Nat) : State :=
  let s := (s.resetCommon c).resetRecord c .context
  let s := s.modCtx c fun x => { x.released with state := .created, devref := false }
  if (s.ctx c).count.toNat ≤ 1 then s.setCount c 0 true
  else s.setCount c ((s.ctx c).count - 1) true

/-- Function and tenant scope: the device tears the context down. -/
def State.resetToEnd (s : State) (c : Nat) (sc : Scope) : State :=
  ((s.resetCommon c).modCtx c fun x => { x with devref := false, scope := some sc }).setCount c 0 true

/-- A TEARDOWN with DEVREF set: a reset of context scope, after which the host's teardown goes on (R219, Table 10-3). -/
def State.resetToTeardown (s : State) (c : Nat) : State :=
  (((s.resetCommon c).resetRecord c .context).setCount c 0 false).modCtx c fun x =>
    { x with devref := false, scope := none, resetDue := false }

/-- Warm and cold scope: the context is discarded, but for a TEARDOWN that follows the reset in the same GUARD (R243). -/
def State.resetToNone (s : State) (c : Nat) (sc : Scope) : State :=
  ((s.resetCommon c).resetRecord c sc).modCtx c fun x =>
    if x.endDue then { x with state := .ending, devref := false, scope := none } else x.discarded

/-- The reset of one context by the widest scope that covers it. -/
def State.resetCtx (s : State) (c : Nat) (sc : Scope) : State :=
  match sc with
  | .context =>
    if (s.ctx c).endDue then s.resetToTeardown c
    else if (s.ctx c).state = .created then (s.clearRegs c).modCtx c fun x => { x with resetDue := false }
    else (s.resetToCreated c).modCtx c fun x => { x with resetDue := false }
  | .function | .tenant => s.resetToEnd c sc
  | .warm | .cold => s.resetToNone c sc

/-- Is the context covered by a function reset? -/
def State.funcCovers (s : State) (c : Nat) : Bool :=
  match (s.ctx c).via with
  | .pcie port func => (s.func port func).resetReq
  | _ => false

/-- The widest scope due for a context at this GUARD (R243): a device reset, a tenant reset, a function reset, a RESET
command or a TEARDOWN with DEVREF set. -/
def State.scopeDue (s : State) (c : Nat) : Option Scope :=
  let x := s.ctx c
  if x.state = .free then none
  else if s.boot.coldReq then some .cold
  else if s.boot.warmReq.isSome ∨ s.frame.ctxReset = true then some .warm
  else if (s.ten x.tenant).resetReq then some .tenant
  else if s.funcCovers c then some .function
  else if (x.resetDue ∧ (x.state = .admitted ∨ x.state = .created)) ∨ (x.endDue = true ∧ x.devref = true) then some .context
  else none

/-! ### Orphans and teardown (R218, R219) -/

/-- Does a REPLAY entry stand at the head of an impression queue, to retire at the next COMB? -/
def State.replayHead (s : State) (c : Nat) : Bool :=
  [0, 1, 2, 3].any fun q => (s.queue c q).replayGoes true &&
    (match (s.headInfo c q).1 with | some i => i.1 | none => false)

/-- R218 for one context at GUARD. -/
def State.orphanCheck (s : State) (c : Nat) : State :=
  let s := if (s.ctx c).state = .admitted ∧ (s.ctx c).count = 1 ∧ (s.ctx c).devref = true then
      s.modCtx c fun x => { x with state := .orphaned } else s
  if (s.ctx c).state = .orphaned ∧ (s.ctx c).devref = true ∧ s.quiet c = true ∧ s.replayHead c = false then
    (s.modCtx c fun x => { x with devref := false }).setCount c ((s.ctx c).count - 1) true
  else s

/-- R219: the steps, in one GUARD; a resident context takes one slot operation, or waits for the next GUARD. Its writes still
in flight are performed before TEARDOWN_DONE, after which nothing of it touches its pages (DEDUCED, log 62). A record that
finds no room in the ring is lost with it (log 27). -/
def State.teardownCtx (s : State) (c : Nat) : State :=
  let x := s.ctx c
  if !x.endDue then s
  else if x.slot.isSome && decide (s.slotLimit ≤ s.frame.slotOps) then s
  else
    let s := (s.resetCommon c).drainPosted c
    let s := if x.slot.isSome then s.countSlotOp else s
    let s := match x.scope with
      | some k => s.resetRecord c k
      | none => s
    let s := (s.post { s.mkRec 0x11 with c := c, q := 15, detail := if x.deviceOwns then 1 else 0 }).notifyCtx c
    s.modCtx c fun x => { x.discarded with dying := true }

/-- ACK_LATE takes effect (R249). -/
def State.ackLate (s : State) (c : Nat) : State :=
  s.modCtx c fun x => if x.ackDue then { x with ackDue := false, late := {}, poisoned := false } else x

/-! ### The commands (R195, R196, Tables 9-1, 10-4) -/

def hdrCmd (h : BitVec 128) : Nat := fld h 7 0
def hdrCtx (h : BitVec 128) : Nat := fld h 27 16
def hdrGen (h : BitVec 128) : BitVec 16 := BitVec.ofNat 16 (fld h 47 32)
def hdrReserved (h : BitVec 128) : Bool := decide (fld h 15 8 ≠ 0 ∨ fld h 31 28 ≠ 0 ∨ fld h 127 48 ≠ 0)

/-- R226: the vectors a path has. -/
def State.vecLimit (via : Via) : Nat :=
  match via with
  | .pcie _ f => if f = 0 then 256 else 32
  | _ => 64

/-- Are the record's alignments and sizes as Table 9-2 has them? -/
def recordOk (x : Ctx) : Bool :=
  decide (6 ≤ x.ringLog) && decide (x.ring % (32 * x.ringSize) = 0) && decide (x.ledgerAddr % 64 = 0) &&
    decide (x.l1 % 512 = 0) &&
    (List.range 8).all (fun q => decide (x.qlog q ≤ 12) && decide (x.qbase q % (64 * 2 ^ x.qlog q) = 0))

def recordReserved (r : BitVec 1024) : Bool :=
  decide (fld r 127 108 ≠ 0 ∨ fld r 191 182 ≠ 0 ∨ fld r 255 240 ≠ 0 ∨ fld r 1023 780 ≠ 0)

/-- The lowest FREE context number. -/
def State.freeCtx (s : State) : Option Nat := (List.range 4096).find? (fun c => decide ((s.ctx c).state = .free))

/-- Contexts of a tenant. -/
def State.ctxCount (s : State) (t : Nat) : Nat := (s.liveCtxs.filter (fun c => decide ((s.ctx c).tenant = t))).length

/-- CREATE (R195, R196, R216, R226, R237): abort 0 and the created context, or the refusal. -/
def createCtx (s : State) (via : Via) (t : Nat) (r : BitVec 1024) : Nat × State :=
  let x : Ctx := { record := r, via := via, tenant := t }
  if recordReserved r then (abReserved, s)
  else if !recordOk x then (abRange, s)
  else if !(List.range 9).all (fun q => decide (x.qvec q < State.vecLimit via)) then (abLimit, s)
  else match s.copyFor t x.bundleId with
  | none => (abRange, s)
  | some copy =>
    if s.share t 0x16 ≤ s.ctxCount t then (abLimit, s) else
    match s.freeCtx with
    | none => (abLimit, s)
    | some c =>
      let g := (s.ctx c).gen + 1
      let x := { x with state := .created, gen := g, count := 1, copy := copy, admitDue := bit r 181 }
      (0, (s.setCtx c x).modView (.tenant t) fun v => { v with created := BitVec.ofNat 32 (c + g.toNat * 2 ^ 16) })

/-- Does the context's state admit the command (R196, Table 9-3)? An ENDING context takes a TEARDOWN that the host owns. -/
def ctxAdmits (x : Ctx) (cmd : Nat) : Bool :=
  let created := decide (x.state = .created)
  let admitted := decide (x.state = .admitted)
  if cmd = 2 then created
  else if cmd = 3 then created || admitted || decide (x.state = .orphaned)
  else if cmd = 5 then created || admitted || (decide (x.state = .ending) && !x.deviceOwns)
  else if cmd = 6 then created || admitted
  else admitted

/-- Is a reserved bit of the command's body set (R6)? INVALIDATE holds [95:16], RELEASE_PLATE one byte, the others no body. -/
def ctxSpare (cmd : Nat) (body : BitVec 1024) : Bool :=
  if cmd = 3 then decide (fld body 15 0 ≠ 0 ∨ fld body 1023 96 ≠ 0)
  else if cmd = 4 then decide (fld body 1023 8 ≠ 0)
  else decide (body ≠ 0)

/-- A command on an existing context: abort 0 and the change at once, which waits for GUARD. -/
def ctxChange (s : State) (c cmd : Nat) (body : BitVec 1024) : Nat × State :=
  if !ctxAdmits (s.ctx c) cmd then (abState, s)
  else if ctxSpare cmd body then (abReserved, s)
  else if cmd = 2 then (0, s.modCtx c fun x => { x with admitDue := true })
  else if cmd = 3 then
    if fld body 63 48 ≠ 0 then (abRange, s)
    else (0, s.modCtx c fun x => { x with invalidates := x.invalidates ++ [(fld body 63 16 * 65536, fld body 95 64)] })
  else if cmd = 4 then
    if 32 ≤ fld body 7 0 ∨ (s.plate (fld body 7 0)).owner ≠ some c then (abRange, s)
    else (0, s.modCtx c fun x => { x with plateReleases := x.plateReleases ++ [fld body 7 0] })
  else if cmd = 5 then (0, s.modCtx c fun x => { x with teardownDue := true })
  else if cmd = 6 then (0, s.modCtx c fun x => { x with resetDue := true })
  else (0, s.modCtx c fun x => { x with ackDue := true })

/-- Any context command of a sender. -/
def contextCommand (s : State) (via : Via) (h : BitVec 128) (body : BitVec 1024) : Nat × State :=
  match s.viewOf via with
  | .unbound | .supervisor => (abView, s)
  | .tenant t =>
    if !s.awake then (abState, s)
    else if hdrCmd h = 0 ∨ 7 < hdrCmd h then (abRange, s)
    else if hdrReserved h then (abReserved, s)
    else if hdrCmd h = 1 then createCtx s via t body
    else
      let x := s.ctx (hdrCtx h)
      if x.state ≠ .free ∧ x.tenant ≠ t then (abForeign, s)
      else if x.state = .free ∨ x.gen ≠ hdrGen h then (0, s.ignored t)
      else ctxChange s (hdrCtx h) (hdrCmd h) body

/-- A command row, a write of 0x3410:01: its header must carry its own code. -/
def commandRow (s : State) (cmd : Nat) (via : Via) (h : BitVec 128) (body : BitVec 1024) : Out :=
  due s (decide (hdrCmd h = cmd)) <|
    match contextCommand s.accepted via h body with
    | (a, s) => if cmd = 1 then s.respond via a 4 (s.viewSel (s.viewOf via)).created.toNat else s.respond via a 0 0

def execCreate (via : Via) (hdr : BitVec 128) (record : BitVec 1024) (s : State) : Out := commandRow s 1 via hdr record
def execAdmit (via : Via) (hdr : BitVec 128) (s : State) : Out := commandRow s 2 via hdr 0
def execInvalidate (via : Via) (hdr : BitVec 128) (body : BitVec 96) (s : State) : Out :=
  commandRow s 3 via hdr (body.setWidth 1024)
def execReleasePlate (via : Via) (hdr : BitVec 128) (g : BitVec 8) (s : State) : Out :=
  commandRow s 4 via hdr (g.setWidth 1024)
def execTeardown (via : Via) (hdr : BitVec 128) (s : State) : Out := commandRow s 5 via hdr 0
def execContextReset (via : Via) (hdr : BitVec 128) (s : State) : Out := commandRow s 6 via hdr 0
def execAckLate (via : Via) (hdr : BitVec 128) (s : State) : Out := commandRow s 7 via hdr 0

/-! ### Reset requests (R238, R239) -/

/-- A tenant reset is accepted: its floors idle until the tick that ends its frame (R231). -/
def State.requestTenantReset (s : State) (t : Nat) : State :=
  s.modTen t fun x => { x with resetReq := true, floorsHeld := true }

/-- A device reset is asked for; the wider one stands. -/
def State.requestWarm (s : State) (cause : Nat) : State :=
  s.modBoot fun b => { b with warmReq := some (b.warmReq.getD cause) }
def State.requestCold (s : State) : State := s.modBoot fun b => { b with coldReq := true }

/-- Before the first tick a reset starts at once (R387); otherwise it waits for a GUARD. -/
def State.resetAtOnce (s : State) : State := if s.frame.ticking ∨ s.up = true then s else s.modBoot fun b => { b with warmDue := true }

def execWarmResetRequest (cause : Nat) (s : State) : Out :=
  due s s.boot.started (s.requestWarm cause).resetAtOnce
def execColdResetRequest (s : State) : Out := due s s.boot.started s.requestCold.resetAtOnce

/-- The functions that an FLR covers: of a physical function, or clearing its VF Enable, also its virtual functions. -/
def flrCovers (func : Nat) (vfEnableCleared : Bool) : List Nat :=
  if vfEnableCleared then (List.range 16).drop 1 else if func = 0 then List.range 16 else [func]

/-- A queue whose halting endpoint has lost its grant. -/
def Queue.unhalt (y : Queue) (gone : List Via) : Queue :=
  match y.haltBy with
  | some v => if v ∈ gone then { y with haltBy := none } else y
  | none => y

/-- Grants that end: the queues they halted resume at the next COMB or MARGIN (R370), their windows are gone. -/
def State.endGrants (s : State) (p : Grant → Bool) : State :=
  let gone := (s.sec.grants.filter p).map (·.endpoint)
  let s := s.modSec fun x => { x with
    grants := x.grants.filter (fun g => !p g)
    window := x.window.filter (fun e => !decide (e.1 ∈ gone)) }
  { s with ctxs := tmap {} (fun _ x => { x with queues := tmap {} (fun _ y => y.unhalt gone) x.queues }) s.ctxs }

/-- The loss of endpoints discards their session and ends their grants and challenges (R286, R368). -/
def State.dropEndpoints (s : State) (p : Via → Bool) : State :=
  let s := match s.net.session with
    | some x => if p x.endpoint then s.modNet fun n => { n with session := none } else s
    | none => s
  (s.modSec fun x => { x with challenges := x.challenges.filter (fun c => !p c.endpoint) }).endGrants
    (fun g => p g.endpoint)

/-- One function under reset: it sends nothing more, its mailbox is discarded (R239, R279). -/
def State.flrOne (s : State) (port f : Nat) : State :=
  let s := (s.modFunc port f fun x =>
    { x with blocked := true, resetReq := true, mbx := .idle, vec := 0, rspHdr := 0, rspData := [] }).dropEndpoints
      (fun v => decide (v = .pcie port f))
  match s.tenantOf (.pcie port f) with
  | some t => s.modTen t fun x => { x with floorsHeld := true }
  | none => s

def execFunctionLevelReset (port func : Nat) (vfEnableCleared : Bool) (s : State) : Out :=
  due s (decide (port < 2) && decide (func < 16) && (!vfEnableCleared || decide (func = 0)))
    (s.each (flrCovers func vfEnableCleared) fun s f => s.flrOne port f)

/-- The supervisor restarts a partition: a tenant reset of the tenant it is bound to. -/
def partitionRestart (s : State) (part : Nat) : State :=
  match s.tenantOf (.burin part) with
  | some t => s.requestTenantReset t
  | none => s

def execPartitionRestart (part : Nat) (s : State) : Out :=
  due s (decide (part < 8) && s.awake && decide (s.boot.dev ≠ .limp)) (partitionRestart s part)

/-! ### Notification paths (R227, R229) -/

/-- The pending messages of a function's unmasked entries are sent, where MSI-X is enabled and the function not masked. -/
def State.msixPending (s : State) (port func : Nat) : State :=
  let f := s.func port func
  if f.blocked || !f.msixEnable || f.msixMask then s else
  s.each ((List.range 256).filter fun e => tget false f.pendingBits e && tget false f.unmasked e) fun s e =>
    (s.modFunc port func fun f => { f with pendingBits := tset false f.pendingBits e false }).send (.msix port func e)

/-- A configuration write of a function: MSI-X masks follow PCI Express (R227), Enable Relaxed Ordering (R250). -/
def msixUnmask (s : State) (port func : Nat) (w : CfgWrite) : State :=
  (s.modFunc port func fun f => match w with
    | .entry e masked => { f with unmasked := tset false f.unmasked e (!masked) }
    | .control enable mask => { f with msixEnable := enable, msixMask := mask }
    | .relaxed on => { f with relaxedOrdering := on }).msixPending port func

/-- The entries of the function's MSI-X table that the write may name. -/
def cfgFits (w : CfgWrite) (port func : Nat) : Bool :=
  match w with
  | .entry e _ => decide (e < State.vecLimit (.pcie port func))
  | _ => true

def execMsixUnmask (port func : Nat) (w : CfgWrite) (s : State) : Out :=
  due s (decide (port < 2) && decide (func < 16) && cfgFits w port func) (msixUnmask s port func w)

/-- R229: the partition reads and clears its pending word. -/
def execBurinPendingClear (part : Nat) (s : State) : Out :=
  due s (decide (part < 8))
    ((s.modPart part fun p => { p with pendingWord := 0, irq := false }).answer (.burin part) 0 8
      (s.part part).pendingWord.toNat)

end Sys2Proof.Machine
end

