-- ==== Sys2Proof/Machine/Links.lean ====
section
/-!
DEFINITION. Links, their arbitration, the scrubbers and posted writes (R8 to R13, R18, R20, R22, R23, R29 to R32,
R230 to R232, R246).
-/

namespace Sys2Proof.Machine

/-! ### Flits (R10, Tables 1-3, 1-4) -/

def Flit.ty (f : Flit) : Nat := fld f.header 13 10
def Flit.cls (f : Flit) : Nat := fld f.header 16 14
def Flit.seq (f : Flit) : BitVec 15 := BitVec.ofNat 15 (fld f.trailer 14 0)
def Flit.ack (f : Flit) : BitVec 15 := BitVec.ofNat 15 (fld f.trailer 30 16)
def Flit.nak (f : Flit) : Bool := bit f.trailer 31
def Flit.crc (f : Flit) : Nat := fld f.trailer 63 32

/-- The bytes the CRC covers: header, payload, trailer bits [31:0]. -/
def flitBytes (f : Flit) : List Byte :=
  leBytes 8 f.header.toNat ++ f.payload ++ leBytes 4 (fld f.trailer 31 0)

/-- R10, R6: does the receiver accept a flit? The reserved trailer bit [15] set is an error as well. -/
def flitOk (d : Dir) (f : Flit) : Bool :=
  decide ((crc32c (flitBytes f)).toNat = Flit.crc f) && decide (Flit.seq f = d.expSeq) &&
    decide (Flit.ty f < 8) && decide (Flit.cls f < 4) && !bit f.trailer 15

def Link.dir (k : Link) (d : Nat) : Dir := if d = 0 then k.d0 else k.d1
def Link.modDir (k : Link) (d : Nat) (f : Dir → Dir) : Link :=
  if d = 0 then { k with d0 := f k.d0 } else { k with d1 := f k.d1 }

/-! ### The sender of a direction (R10, R11) -/

/-- The flit as the link sends it: its header and payload behind a trailer of SEQ, the ACK of what came the other way, a
NAK where one is to go, and the CRC (Table 1-4). -/
def stamp (f : Flit) (seq ack : BitVec 15) (nak : Bool) : Flit :=
  let low := seq.toNat + ack.toNat * 2 ^ 16 + (if nak then 2 ^ 31 else 0)
  let crc := (crc32c (leBytes 8 f.header.toNat ++ f.payload ++ leBytes 4 low)).toNat
  { f with trailer := BitVec.ofNat 64 (low + crc * 2 ^ 32) }

/-- R10: flits acknowledged up to `ack` leave the replay buffer. -/
def Dir.acknowledge (d : Dir) (ack : BitVec 15) : Dir :=
  let first : BitVec 15 := d.nextSeq - BitVec.ofNat 15 d.buffer.length
  let k := (ack - first + 1).toNat
  if k ≤ d.buffer.length then
    let b := d.buffer.drop k
    { d with acked := ack, buffer := b, toReplay := min d.toReplay b.length }
  else { d with acked := ack }

/-- Replays of a direction within the last 10 µs. Times in ns. -/
def recentReplays (l : List Nat) (time : Nat) : List Nat := l.filter (fun t => decide (time < t + 10000))

/-- R10: a NAK makes the sender send again every flit of its buffer after ACK. -/
def Dir.replay (d : Dir) (ack : BitVec 15) (time : Nat) : Dir :=
  let d := d.acknowledge ack
  { d with buffer := d.buffer.map (fun e => (e.1, e.2 + 1)), toReplay := d.buffer.length,
           replayTimes := recentReplays d.replayTimes time ++ [time] }

/-- R11: does the direction ask for retraining: too many replays, or one flit replayed four times? -/
def Dir.worn (d : Dir) : Bool :=
  decide (64 < d.replayTimes.length) || d.buffer.any (fun e => decide (4 ≤ e.2))

/-- Flits a replay buffer holds (R10). -/
def bufferDepth : Nat := 128

/-- The next flit of a direction: one to be sent again, else the oldest that waits, else the one offered, while the replay
buffer has room. Answers the flit that crosses, if one does, and the direction after it. -/
def Dir.sendNext (d : Dir) (sent : Flit) : Option (Flit × BitVec 15) × Dir :=
  if d.toReplay ≠ 0 then
    let i := d.buffer.length - d.toReplay
    ((d.buffer[i]?).map fun e => (e.1, d.nextSeq - BitVec.ofNat 15 d.toReplay), { d with toReplay := d.toReplay - 1 })
  else
    match d.waiting with
    | [] =>
      if bufferDepth ≤ d.buffer.length then (none, { d with waiting := [sent] })
      else (some (sent, d.nextSeq), { d with buffer := d.buffer ++ [(sent, 0)], nextSeq := d.nextSeq + 1 })
    | w :: ws =>
      if bufferDepth ≤ d.buffer.length then (none, d)
      else (some (w, d.nextSeq), { d with buffer := d.buffer ++ [(w, 0)], nextSeq := d.nextSeq + 1, waiting := ws })

/-- Retraining starts: both directions stop, the replay counts start afresh. Flits that wait stay with the sender, and so
do those in its replay buffer. -/
def Link.retrain (k : Link) (time : Nat) : Link :=
  let clear (d : Dir) : Dir := { d with replayTimes := [], buffer := d.buffer.map (fun e => (e.1, 0)) }
  { k with state := .retraining, retrains := satInc 16 k.retrains,
           retrainTimes := k.retrainTimes.filter (fun t => decide (time < t + 1000000000)) ++ [time],
           d0 := clear k.d0, d1 := clear k.d1 }

/-- A flit arrives in direction d: accepted, with the replay its NAK asks of the opposite direction, or discarded with
NAK on the next outgoing flit. -/
def Link.receive (k : Link) (d : Nat) (f : Flit) (time : Nat) : Link :=
  if flitOk (k.dir d) f then
    let k := k.modDir d fun x => { x with expSeq := x.expSeq + 1, nak := false, accepted := x.accepted ++ [f] }
    if Flit.nak f then
      let k := { k.modDir (1 - d) (fun x => x.replay (Flit.ack f) time) with replays := satInc 32 k.replays }
      if (k.dir (1 - d)).worn then k.retrain time else k
    else k.modDir (1 - d) fun x => x.acknowledge (Flit.ack f)
  else k.modDir d fun x => { x with nak := true }

/-- One flit crosses: the sender stamps it, with the NAK its own receiving side waits to send; it arrives as it was sent,
or as the lanes damaged it. -/
def Link.cross (k : Link) (d : Nat) (sent : Flit) (damaged : Option Flit) (time : Nat) : Link × Option Flit :=
  let (out, x) := (k.dir d).sendNext sent
  let back := k.dir (1 - d)
  let k := k.modDir d fun _ => x
  match out with
  | none => (k, none)
  | some (f, seq) =>
    let f := damaged.getD (stamp f seq (back.expSeq - 1) back.nak)
    let k := k.modDir (1 - d) fun y => { y with nak := false }
    (k.receive d f time, if flitOk (k.dir d) f then some f else none)

/-- Does the link carry flits? -/
def Link.carries (k : Link) : Bool := decide (k.state = .up ∨ k.state = .spared)

/-! ### Routing (R14, Table 1-5, R31) -/

/-- Die codes of the ends of a link (Table 1-2); direction 0 goes from the first to the second. -/
def linkEnds (l : Nat) : Nat × Nat :=
  if l < 8 then (0x04 + l, 0x0C + l / 4)
  else if l < 12 then (l - 8, 0x0C)
  else if l < 16 then (l - 12, 0x0D)
  else if l < 18 then (0x0E, 0x0C + (l - 16))
  else if l < 20 then (0x10, 0x0C + (l - 18))
  else if l = 20 then (0x0F, 0x0E)
  else if l = 21 then (0x0F, 0x10)
  else if l = 22 then (0x11, 0x00)
  else (0x12, 0x02)

/-- The link that joins two dies, if one does. -/
def dieLink (a b : Nat) : Option Nat :=
  (List.range 24).find? fun l => decide (linkEnds l = (a, b)) || decide (linkEnds l = (b, a))

/-- The die at the sending end and at the receiving end of a direction. -/
def fromDie (l d : Nat) : Nat := if d = 0 then (linkEnds l).1 else (linkEnds l).2
def toDie (l d : Nat) : Nat := if d = 0 then (linkEnds l).2 else (linkEnds l).1

def isInk (a : Nat) : Bool := decide (a = 0x0C ∨ a = 0x0D)
def isPlate (a : Nat) : Bool := decide (0x04 ≤ a ∧ a ≤ 0x0B)

/-- The die next to an Ink die behind which a die stands: a Gauge die behind its Field die, G0 behind B0. -/
def behind (a : Nat) : Nat := if a = 0x11 then 0x00 else if a = 0x12 then 0x02 else if a = 0x0F then 0x0E else a

/-- Is the link between two dies down (a die is always joined to itself)? -/
def State.cut (s : State) (a b : Nat) : Bool := match dieLink a b with | some l => s.linkDown l | none => false

/-- The Ink die over which a die that is no Ink die reaches another: the one the target hangs on; with both, K0, and K1
where a link at either end to K0 is down (Table 1-5). -/
def State.viaInk (s : State) (a dst : Nat) : Nat :=
  if isInk dst then dst
  else if isPlate dst then 0x0C + (dst - 4) / 4
  else if isPlate a then 0x0C + (a - 4) / 4
  else if s.cut a 0x0C || s.cut (behind dst) 0x0C then 0x0D else 0x0C

/-- The link on which die `a` sends a flit for `dst` of a class on: fixed by die code (Table 1-5). Management from G0 takes
B0, and H0 where the B0 path is down. -/
def State.outLink (s : State) (a dst cls : Nat) : Option Nat :=
  match dieLink a dst with
  | some l => some l
  | none =>
    if a = dst then none
    else if a = 0x0F then
      if cls ≠ 2 then none
      else if s.cut 0x0F 0x0E || s.cut 0x0E (s.viaInk 0x0E dst) then dieLink 0x0F 0x10 else dieLink 0x0F 0x0E
    else if a = 0x11 ∨ a = 0x12 then dieLink a (behind a)
    else if isInk a then
      if isInk dst ∨ isPlate dst then none
      else if dst = 0x0F then
        (if cls ≠ 2 then none else if s.cut 0x0F 0x0E || s.cut 0x0E a then dieLink a 0x10 else dieLink a 0x0E)
      else dieLink a (behind dst)
    else if isPlate a && isPlate dst && decide ((a - 4) / 4 ≠ (dst - 4) / 4) then none
    else dieLink a (s.viaInk a dst)

/-- R14: does die `a` send a flit that came over `l` on over `next`? The Ink dies switch every flit; F0 and F2 plant I/O, and
management of a Gauge die (DEDUCED, log 70), between a Gauge die and an Ink die; B0, G0 and H0 management. -/
def forwards (a l next cls : Nat) : Bool :=
  if isInk a then true
  else if a = 0x0E ∨ a = 0x0F ∨ a = 0x10 then decide (cls = 2)
  else if a = 0x00 ∨ a = 0x02 then decide (2 ≤ cls) && decide (22 ≤ l ∨ 22 ≤ next)
  else false

/-- The partition that a tenant's binding names. -/
def State.tenantPart (s : State) (t : Nat) : Option Nat :=
  (List.range 8).find? fun p => s.binds t (.burin p)

/-- R28, R251: a machine check in a partition. -/
def State.checkPart (s : State) (p : Nat) (kind : MachineCheck) : State :=
  (s.modPart p fun x => { x with mcheck := kind }).send (.partCheck p kind)

/-- An accepted flit: at its destination it is delivered, and poisoned data for a Burin core is a precise machine check in
the partition that issued the read (R28); elsewhere it waits for the next link of its route, if there is one. -/
def State.route (s : State) (l d : Nat) (f : Flit) : State :=
  let a := toDie l d
  let dst := fld f.header 9 5
  if a = dst then
    if dst = 0x0E ∧ Flit.ty f = 7 then
      match s.tenantPart (fld f.header 31 29) with
      | some p => s.checkPart p .precise
      | none => s
    else s
  else match s.outLink a dst (Flit.cls f) with
    | none => s
    | some n =>
      if forwards a l n (Flit.cls f) then
        s.modLink n fun k => k.modDir (if (linkEnds n).1 = a then 0 else 1) fun x => { x with waiting := x.waiting ++ [f] }
      else s

/-- May the sending end of a direction send the flit there: it is on the flit's route, or the link has flits of its own to
send first? -/
def State.mayCross (s : State) (l d : Nat) (f : Flit) : Bool :=
  let x := (s.link l).dir d
  decide (x.toReplay ≠ 0) || decide (x.waiting ≠ []) ||
    decide (s.outLink (fromDie l d) (fld f.header 9 5) (Flit.cls f) = some l)

def flitEffect (s : State) (l dir : Nat) (f : Crossing) (time : Nat) : State :=
  let (k, got) := (s.link l).cross dir f.sent f.damaged time
  let s := s.modLink l fun _ => k
  match got with
  | some f => s.route l dir f
  | none => s

/-- A flit crosses link l (`dir` 0 from the first end of Table 1-2): one sent again, one that waits, or `f.sent`; `f.damaged`
is what arrives where the lanes did not carry it unharmed. -/
def execFlitReceive (l dir : Nat) (f : Crossing) (time : Nat) (s : State) : Out :=
  due s (decide (l < 24) && decide (dir < 2) && (s.link l).carries && s.mayCross l dir f.sent)
    (flitEffect s l dir f time)

/-! ### Retraining and links down (R11, R12, R31, R246) -/

/-- Posted writes that were to cross a link declared down fail late (cause 3). -/
def State.failWay (s : State) (l : Nat) : State :=
  (s.posted.filter (fun p => decide (l ∈ p.way))).foldl (fun s p => s.failPosted p 3)
    { s with posted := s.posted.filter (fun p => !decide (l ∈ p.way)) }

/-- The flits a direction has not delivered: those of its replay buffer past what arrived, and those that wait. -/
def Dir.undelivered (d : Dir) : List Flit :=
  (d.buffer.drop (d.buffer.length - (d.nextSeq - d.expSeq).toNat)).map (·.1) ++ d.waiting

/-- R251: a store of a Burin core, a posted write from B0, that a link declared down loses is an imprecise machine check in
its partition. -/
def State.failStores (s : State) (l : Nat) : State :=
  let k := s.link l
  ((k.d0.undelivered ++ k.d1.undelivered).filter (fun f => decide (Flit.ty f = 2 ∧ fld f.header 4 0 = 0x0E))).foldl
    (fun s f => match s.tenantPart (fld f.header 31 29) with
      | some p => s.checkPart p .imprecise
      | none => s) s

/-- R12: the link is down until the next warm or cold reset; its effects begin at the next GUARD. -/
def State.declareDown (s : State) (l : Nat) : State :=
  (((s.modLink l fun k => { k with state := .down, downDue := true }).failWay l).failStores l).errAll 0xFF03 0 true

/-- R12: does retraining end with the link down? -/
def retrainFails (k : Link) (fail0 fail1 : Nat) (ok : Bool) (time : Nat) : Bool :=
  !ok || decide (Config.spareLanes < k.d0.sparesUsed + fail0) || decide (Config.spareLanes < k.d1.sparesUsed + fail1) ||
    decide (8 < (k.retrainTimes.filter (fun t => decide (time < t + 1000000000))).length)

/-- R11: failing lanes are replaced by spares. -/
def Link.repaired (k : Link) (fail0 fail1 : Nat) : Link :=
  let k := { k with d0 := { k.d0 with sparesUsed := k.d0.sparesUsed + fail0 },
                    d1 := { k.d1 with sparesUsed := k.d1.sparesUsed + fail1 } }
  { k with state := if k.d0.sparesUsed = 0 ∧ k.d1.sparesUsed = 0 then .up else .spared }

def retrainComplete (s : State) (l fail0 fail1 : Nat) (ok : Bool) (time : Nat) : State :=
  if retrainFails (s.link l) fail0 fail1 ok time then s.declareDown l
  else s.modLink l fun k => k.repaired fail0 fail1

def execRetrainComplete (l fail0 fail1 : Nat) (ok : Bool) (time : Nat) (s : State) : Out :=
  due s (decide (l < 24) && decide ((s.link l).state = .retraining))
    (retrainComplete s l fail0 fail1 ok time)

/-! ### Arbitration (R230 to R232) -/

/-- The masters: tenants 0 to 7 and the supervisor. -/
def masters : List Nat := List.range 9

/-- Floor and weight of a master at an arbiter: link directions 0 to 47, the LPDDR5X ports of K0 and K1 as 48 and 49;
as latched at the last tick (R234). -/
def State.floor (s : State) (d m : Nat) : Nat :=
  if m < 8 then s.atTick (0x3510 + m) (if d < 48 then d / 2 + 1 else 0x19 + (d - 48))
  else if d < 48 then s.atTick 0x3518 (d / 2 + 1) else s.atTick 0x3518 (0x19 + (d - 48))
def State.weight (s : State) (m : Nat) : Nat := s.atTick (0x3510 + m) 0x1B

/-- Deficit round robin over one class: next master, deficits, demand, slots left, grants. -/
structure Drr where
  next : Nat
  deficit : Tab Nat
  demand : Tab Nat
  slots : Nat
  grant : Tab Nat
deriving DecidableEq, Repr

/-- One visit. A master cut off by the end of the window goes on with its deficit in the next one. -/
def Drr.visit (wt : Nat → Nat) (x : Drr) : Drr :=
  let m := x.next
  let n := tget 0 x.demand m
  if x.slots = 0 ∨ tkeys x.demand = [] then x
  else if n = 0 then { x with next := (m + 1) % 9, deficit := tset 0 x.deficit m 0 }
  else
    let d := if tget 0 x.deficit m = 0 then wt m else tget 0 x.deficit m
    let g := min d (min n x.slots)
    let cut := decide (g < n) && decide (g < d)
    { next := if cut then m else (m + 1) % 9, deficit := tset 0 x.deficit m (if cut then d - g else 0),
      demand := tset 0 x.demand m (n - g), slots := x.slots - g, grant := tmod 0 x.grant m (· + g) }

/-- At most nine visits pass between two grants of a slot. -/
def drr (wt : Nat → Nat) (x : Drr) : Drr := (List.range 640).foldl (fun x _ => x.visit wt) x

/-- Floor slots of the masters in order: each master's impression flits first. Answers slots left, what is left of
the demands, the grants, the slots that idle. -/
def floorGrants (s : State) (d slots : Nat) (w : Demand) : Nat × Demand × Tab Nat × Nat :=
  masters.foldl (fun (r : Nat × Demand × Tab Nat × Nat) m =>
    let (left, w, grants, idle) := r
    let f := min (s.floor d m) left
    let gi := min f (tget 0 w.imp m)
    let gm := min (f - gi) (tget 0 w.mar m)
    let held := if m < 8 ∧ (s.ten m).floorsHeld = true then f - gi - gm else 0
    (left - gi - gm - held, { w with imp := tmod 0 w.imp m (· - gi), mar := tmod 0 w.mar m (· - gm) },
      tset 0 grants m (gi + gm), idle + held)) (slots, w, [], 0)

/-- Table 1-2: the Ink die of a link, if one of its ends is one. -/
def linkInk (l : Nat) : Option Nat :=
  if l < 4 ∨ (8 ≤ l ∧ l < 12) ∨ l = 16 ∨ l = 18 then some 0
  else if l < 20 then some 1 else none

/-- Remainder slots offered to margin class: none while the Ink die's rail holds margin work (R340), and as the cut ladder
allows (Table 14-5), of `n` slots of the remainder. -/
def State.marginOffer (s : State) (d n : Nat) : Nat :=
  let p := s.power.position
  let held := match (if d < 48 then linkInk (d / 2) else some (d - 48)) with
    | some k => s.railHeld (0x0C + k)
    | none => false
  if held then 0
  else if d < 48 then (if 16 ≤ p then n * (31 - min p 27) / 16 else n)
  else if 28 ≤ p then n * (43 - min p 35) / 16 else n

/-- Is it MARGIN time (R18, R23)? -/
def State.inMargin (s : State) : Bool := s.frame.ticking && decide (s.frame.phase = .margin)

/-- What is left of the remainder of an LPDDR5X port goes to the scrubbers, in MARGIN (R232). -/
def State.scrubSlots (s : State) (d left : Nat) (w : Demand) : Nat :=
  if 48 ≤ d ∧ s.inMargin = true then min w.scrub left else 0

/-- One window of 64 slots: plant I/O, management, floors, the remainder by class; what is left over goes to management
that still waits, then to the scrubbers, then idles. -/
def arbitrate (s : State) (d : Nat) (a : Arb) (w : Demand) : Arb :=
  let p := min w.plant 4
  let m := min w.mgmt 2
  let (left, w', floors, held) := floorGrants s d (64 - p - m) w
  let x := drr s.weight ⟨a.nextImp, a.deficitImp, w'.imp, left, []⟩
  let offer := min x.slots (s.marginOffer d left)
  let y := drr s.weight ⟨a.nextMar, a.deficitMar, w'.mar, offer, []⟩
  let more := min (w.mgmt - m) (x.slots - offer + y.slots)
  let left := x.slots - offer + y.slots - more
  let scrub := s.scrubSlots d left w
  { deficitImp := x.deficit, deficitMar := y.deficit, nextImp := x.next, nextMar := y.next, plant := p,
    mgmt := m + more, floor := floors, imp := x.grant, mar := y.grant, scrub := scrub, idle := held + (left - scrub) }

def execArbitrationWindow (d : Nat) (w : Demand) (s : State) : Out :=
  due s (decide (d < 50)) { s with arb := tset {} s.arb d (arbitrate s d (tget {} s.arb d) w) }

/-! ### Scrubbers (R18, R23, R29, R30) -/

/-- R29: a scrubber's uncorrectable error: poisoned and told to the supervisor; one already known is not new. -/
def State.scrubBad (s : State) (a die : Nat) : State :=
  if eccBase a ∈ s.poison then s else
  (s.markPoison a).postSup { s.mkRec 0x08 with die := die, detail := BitVec.ofNat 64 (eccBase a) }

def stockScrub (s : State) (k off : Nat) (e : Ecc) (recovers : Bool) : State :=
  let a := stockBase k + off
  match e with
  | .clean => s
  | .corrected => s.countCorrected a
  | .uncorrectable =>
    let s := s.scrubBad a (0x0C + k)
    if off < 0x80000 then
      let s := s.send (.machineCheck k)
      if recovers then s else s.requestWarm 4
    else s

/-- Has the port of an Ink die a slot for a scrubber in this window (R232)? The request takes it. -/
def State.scrubOpen (s : State) (k : Nat) : Bool := s.inMargin && decide (0 < (tget {} s.arb (48 + k)).scrub)
def State.takeScrub (s : State) (k : Nat) : State :=
  { s with arb := tmod {} s.arb (48 + k) fun a => { a with scrub := a.scrub - 1 } }

def execStockScrub (k off : Nat) (e : Ecc) (recovers : Bool) (s : State) : Out :=
  due s (s.scrubOpen k && decide (k < 2) && decide (off < 0x2000000) && decide (off % 8 = 0))
    (stockScrub (s.takeScrub k) k off e recovers)

def patrol (s : State) (a : Nat) (e : Ecc) : State :=
  match e with
  | .clean => s
  | .corrected => s.countCorrected a
  | .uncorrectable => s.scrubBad a (0x0C + a / lpWindow)

/-- Is an address usable LPDDR5X? -/
def State.isLp (s : State) (a : Nat) : Bool := match s.region a with | .lp _ _ => true | _ => false

def execLpddr5xPatrol (a : Nat) (e : Ecc) (s : State) : Out :=
  due s (s.scrubOpen (a / lpWindow) && s.isLp a && decide (a % 64 = 0)) (patrol (s.takeScrub (a / lpWindow)) a e)

/-! ### Posted writes (R22, R26, R246) -/

/-- Do two targets share a byte? -/
def overlaps (a : Target) (n : Nat) (b : Target) (m : Nat) : Bool :=
  match a, b with
  | .dev x, .dev y => decide (x < y + m ∧ y < x + n)
  | .hostPage p _ x, .hostPage q _ y => decide (p = q ∧ x < y + m ∧ y < x + n)
  | _, _ => false

/-- R26: an earlier write of the same context to the same bytes comes first. -/
def postedReady (s : State) (i : Nat) : Bool :=
  match s.posted[i]? with
  | none => false
  | some p => !(s.posted.take i).any (fun o => decide (o.c = p.c) && overlaps o.target o.bytes.length p.target p.bytes.length)

def postedEffect (s : State) (i : Nat) (e : Ecc) : State :=
  match s.posted[i]? with
  | none => s
  | some p => { s with posted := s.posted.eraseIdx i }.performPosted p e

def execPostedWriteComplete (i : Nat) (e : Ecc) (s : State) : Out :=
  due s (postedReady s i) (postedEffect s i e)

end Sys2Proof.Machine
end

