-- ==== Sys2Proof/Machine/Gauge.lean ====
section
/-!
DEFINITION. The Gauge dies (ch. 12): samples, position interfaces, output preparation, PWM and load-control channels,
diagnosis. Offsets `b` are those of Table 12-5; times of load-control channels are in 10 ns, of PWM channels in 100 ps.
-/

namespace Sys2Proof.Machine

/-- No valid sample. -/
def noSample : Int := -2147483648

def gSd (d c : Nat) : Nat := gaugeBase d + 0x10 + c
def gPos (d i : Nat) : Nat := gaugeBase d + 0x30 + i
def gPwm (d c : Nat) : Nat := gaugeBase d + 0x40 + c
def gLoad (d k : Nat) : Nat := gaugeBase d + 0x60 + k

def State.sd (s : State) (d c : Nat) : SdCh := tget {} (s.gauge d).sd c
def State.pos (s : State) (d i : Nat) : PosIf := tget {} (s.gauge d).pos i
def State.modPos (s : State) (d i : Nat) (f : PosIf → PosIf) : State :=
  s.modGauge d fun g => { g with pos := tmod {} g.pos i f }
def State.output (s : State) (d o : Nat) : Output := tget {} (s.gauge d).outs o
def State.modOutput (s : State) (d o : Nat) (f : Output → Output) : State :=
  s.modGauge d fun g => { g with outs := tmod {} g.outs o f }
def State.pwm (s : State) (d c : Nat) : Pwm := tget {} (s.gauge d).pwm c
def State.modPwm (s : State) (d c : Nat) (f : Pwm → Pwm) : State :=
  s.modGauge d fun g => { g with pwm := tmod {} g.pwm c f }
def State.load (s : State) (d k : Nat) : LoadCh := tget {} (s.gauge d).load k
def State.modLoad (s : State) (d k : Nat) (f : LoadCh → LoadCh) : State :=
  s.modGauge d fun g => { g with load := tmod {} g.load k f }

/-! ### Samples (R46, R289, R290) -/

/-- One sigma-delta channel at a tick, `bits` modulator bits after the last one: 3D bits fill its filter. -/
def SdCh.latch (x : SdCh) (enabled : Bool) (ratio bits : Nat) (v : Int) : SdCh :=
  if !enabled then { x with latched := noSample, valid := false, overrange := false, bits := 0, ratio := 0 } else
  let n := if x.ratio = ratio then min (3 * ratio) (x.bits + bits) else 0
  let ok := decide (3 * ratio ≤ n)
  let clip := ok && decide (clampS 24 v ≠ v)
  { latched := if ok then clampS 24 v else noSample, valid := ok, overrange := clip,
    overranges := if clip then satInc 32 x.overranges else x.overranges, bits := n, ratio := ratio }

/-- One position interface at a tick. `res` is what a resolver shows: angle in [15:0], turns above it. A re-arm acts where
the fault has cleared, and counting restarts from 0; a resolver counts its turns from there (R293). -/
def PosIf.latch (x : PosIf) (mode res : Nat) : PosIf :=
  let armed := x.error && x.rearm && x.cleared
  let x := if armed then { x with error := false, rearm := false, cleared := false, count :=
      if mode = 2 then BitVec.ofNat 31 (res / 65536 * 65536) else 0 }
    else if x.error then x else { x with rearm := false }
  let v : Int := if mode = 2 then ((BitVec.ofNat 31 res - x.count).toNat : Nat) else (x.count.toNat : Nat)
  { x with latched := if mode = 0 ∨ x.error = true then noSample else v }

/-- The sample record (R289): 88 bytes, the rest reserved. -/
def sampleRecord (g : Gauge) (frame : BitVec 64) : List Byte :=
  (List.range 16).flatMap (fun c => leBytes 4 (unsigned 32 (tget {} g.sd c).latched)) ++
    (List.range 4).flatMap (fun i => leBytes 4 (unsigned 32 (tget {} g.pos i).latched)) ++ leBytes 8 frame.toNat

/-- Latch one Gauge die and write its record to both stocks, over the ways that are not down (R15). -/
def State.latchGauge (s : State) (d : Nat) (x : GaugeIn) (bits : Nat) : State :=
  if !(s.gauge d).written then s else
  let s := s.modGauge d fun g =>
    { g with
      sd := tofList {} ((List.range 16).map (fun c => (tget {} g.sd c).latch (decide (s.atReset (gSd d c) 1 = 1))
        (s.atReset (gSd d c) 2) bits (tget 0 x.sd c)))
      pos := tofList {} ((List.range 4).map (fun i => (tget {} g.pos i).latch (s.atReset (gPos d i) 1) (tget 0 x.resolver i))) }
  let bs := sampleRecord (s.gauge d) s.frame.counter
  s.each [0, 1] fun s k => if s.ioDown d k then s else s.wr (sampleAddr k d) bs

/-! ### Position interfaces (R291, R293) -/

def State.posMode (s : State) (d i : Nat) : Nat := s.atReset (gPos d i) 1
def posThere (s : State) (d i : Nat) : Bool := decide (d < 2) && decide (i < 4) && (s.gauge d).written

def execEncoderEdge (d i : Nat) (up : Bool) (s : State) : Out :=
  due s (posThere s d i && decide (s.posMode d i = 1))
    (s.modPos d i fun x => { x with count := if up then x.count + 1 else x.count - 1 })

def execEncoderIndex (d i : Nat) (s : State) : Out :=
  due s (posThere s d i && decide (s.posMode d i = 1))
    (s.modPos d i fun x => { x with indexPos := (x.count.toNat : Nat), index := true })

def execPositionError (d i : Nat) (s : State) : Out :=
  due s (posThere s d i && decide (s.posMode d i ≠ 0))
    (s.modPos d i fun x => { x with error := true, cleared := false })

/-! ### Output preparation (R294, R295, R59) -/

/-- A staging entry as it stands (Table 12-2). -/
structure Staged where
  k : Nat
  v : Int
  time : Nat
  c : Nat
  poison : Bool
deriving DecidableEq, Repr

def State.stagedAt (s : State) (k d o : Nat) : Option Staged :=
  let w := leNat (s.rdN (stagingAddr k d + 16 * o) 16)
  if nfld w 76 76 = 1 then
    some ⟨k, signed 32 w, nfld w 63 32, nfld w 75 64, decide (nfld w 77 77 = 1)⟩
  else none

/-- The later TIME wins; on equal TIME, the entry in K1 stock. -/
def laterOf (a b : Option Staged) : Option Staged :=
  match a, b with
  | some x, some y => if y.time < x.time then some x else some y
  | some x, none => some x
  | none, y => y

/-- R295: the entry that counts for an output. Entries of a context in a reset scope of this GUARD are passed over
(R241: another context of the tenant may still stage it). -/
def State.stagedFor (s : State) (d o : Nat) : Option Staged :=
  let ok (e : Option Staged) : Option Staged := match e with
    | some x => if x.c ∈ s.frame.resetCtxs then none else some x
    | none => none
  laterOf (if s.ioDown d 0 then none else ok (s.stagedAt 0 d o)) (if s.ioDown d 1 then none else ok (s.stagedAt 1 d o))

/-- Safe value and overrun action of an output, as latched at the last tick (R306). -/
def State.safeValue (s : State) (d o : Nat) : Int :=
  signed 32 (if o < 12 then s.atTick (gPwm d o) 8 else s.atTick (gLoad d (o - 12)) 3)
def State.actionSafe (s : State) (d o : Nat) : Bool :=
  decide ((if o < 12 then s.atTick (gPwm d o) 9 else s.atTick (gLoad d (o - 12)) 4) = 1)

def State.pairMode (s : State) (d c : Nat) : Bool := decide (s.atReset (gPwm d (c / 2 * 2)) 5 = 1)

/-- The channel whose value an output takes: the odd channel of a pair takes the even one's (R298). -/
def State.valueFrom (s : State) (d o : Nat) : Nat := if o < 12 ∧ o % 2 = 1 ∧ s.pairMode d o = true then o - 1 else o

/-- Does a rule of the whole device or of the tenant put an output at its safe value (R59)? -/
def State.forcedSafe (s : State) (d o : Nat) : Bool :=
  let t := s.outputTenant d o
  s.frame.allSafe || decide (s.boot.dev = .limp) ||
    decide (s.frame.tickState = .fallbackSafe ∨ s.frame.tickState = .fallbackHold) ||
    s.linkDown (22 + d) || decide (8 ≤ t) || (s.ten t).latch || decide (t ∈ s.frame.resetTenants)

/-- Is the staging block of die d in stock k unreadable? -/
def State.blockBad (s : State) (d k : Nat) : Bool := s.ioDown d k || s.poisoned (stagingAddr k d) 320

def Output.safe (x : Output) (v : Int) : Output := { x with pend := v, pendSafe := true }
/-- The active value again, without the SAFE mark (R295). -/
def Output.keep (x : Output) : Output := { x with pend := x.act, pendSafe := false }

/-- The pending value of one output. -/
def State.prepareOutput (s : State) (d o : Nat) (bad : Bool) : State :=
  let p := s.valueFrom d o
  let sv := s.safeValue d p
  let e := s.stagedFor d p
  let poison := match e with | some x => x.poison | none => false
  s.modOutput d o fun x =>
    if s.forcedSafe d p then x.safe sv
    else if (s.ten (s.outputTenant d p)).overran || bad || poison then (if s.actionSafe d p then x.safe sv else x.keep)
    else match e with
      | some y => { x with pend := y.v, pendSafe := false }
      | none => x.keep

/-- VALID goes to 0 in every entry of a block. -/
def State.clearStaging (s : State) (d k : Nat) : State :=
  s.each (List.range 20) fun s o =>
    let a := stagingAddr k d + 16 * o + 9
    if bit (s.rd a) 4 then s.wr a [s.rd a &&& 0xEF] else s

/-- An unreadable block is counted and told to the supervisor. -/
def State.reportBlock (s : State) (d k : Nat) : State :=
  let s := s.modGauge d fun g => { g with unreadable := satInc 32 g.unreadable }
  if s.ioDown d k then
    s.postSup { s.mkRec 0x07 with die := 0x11 + d, detail := BitVec.ofNat 64 (fieldLink (2 * d) k) }
  else s.postSup { s.mkRec 0x08 with die := 0x11 + d, detail := BitVec.ofNat 64 (stagingAddr k d) }

/-- R295 for one Gauge die. With its own link down it reads no block. -/
def State.prepareGauge (s : State) (d : Nat) : State :=
  if !(s.gauge d).written then s
  else if s.linkDown (22 + d) then s.each (List.range 20) fun s o => s.prepareOutput d o false
  else
    let bad := s.blockBad d 0 || s.blockBad d 1
    let s := s.each (List.range 20) fun s o => s.prepareOutput d o bad
    s.each [0, 1] fun s k => if s.blockBad d k then s.reportBlock d k else s.clearStaging d k

/-! ### PWM channels (R296 to R298) -/

/-- The carrier period, rounded down to 100 ps. -/
def State.carrierPeriod (s : State) (d c : Nat) : Nat := s.P * 100 / s.atReset (gPwm d c) 2

/-- R297: the on-time applied. An on-time of 0 stays 0 where the minimum pulse exceeds the period (DEDUCED, log 47). -/
def pwmOnTime (v : Int) (period minPulse : Nat) : Nat :=
  let n := min v.toNat period
  if 0 < n ∧ n < minPulse then 0
  else if 0 < n ∧ 0 < period - n ∧ period - n < minPulse then period
  else n

/-- One carrier period: the levels at its start and the edges inside it, high side and low side. -/
def pwmPlan (centre pair : Bool) (period on dead : Nat) : Bool × Bool × List (Nat × Bool × Bool) :=
  let hi := if pair then on - dead else on
  let lo := if pair then (period - on) - dead else 0
  -- intervals of the high side and of the low side
  let h0 := if centre then (period - hi) / 2 else (if pair then dead / 2 else 0)
  let l0 := if centre then 0 else on + dead / 2
  let hiAt (t : Nat) : Bool := decide (h0 ≤ t ∧ t < h0 + hi)
  let loAt (t : Nat) : Bool :=
    if centre then decide (0 < lo) && (decide (t < lo / 2) || decide (period - (lo - lo / 2) ≤ t))
    else decide (l0 ≤ t ∧ t < l0 + lo)
  let times := ([h0, h0 + hi] ++ (if pair then (if centre then [lo / 2, period - (lo - lo / 2)] else [l0, l0 + lo]) else [])).dedup
  let times := (times.filter (fun t => decide (0 < t ∧ t < period))).mergeSort
  let steps := times.map (fun t => (t, hiAt t, loAt t))
  (hiAt 0, loAt 0, steps.filter (fun e => decide (hiAt (e.1 - 1) ≠ e.2.1 ∨ loAt (e.1 - 1) ≠ e.2.2)))

/-- A channel that has carrier periods of its own: the odd channel of a pair follows the even one. -/
def State.pwmOwn (s : State) (d c : Nat) : Bool := decide (c % 2 = 0) || !s.pairMode d c

def carrierReady (s : State) (d c : Nat) : Bool :=
  decide (d < 2) && decide (c < 12) && (s.gauge d).written && s.frame.ticking && s.pwmOwn d c &&
    decide ((s.pwm d c).carrier < s.atReset (gPwm d c) 2)

def carrierStart (s : State) (d c : Nat) : State :=
  let period := s.carrierPeriod d c
  let on := pwmOnTime (s.output d c).act period (s.atReset (gPwm d c) 7)
  let (h, l, plan) := pwmPlan (decide (s.atReset (gPwm d c) 3 = 1)) (s.pairMode d c) period on (s.atReset (gPwm d c) 6)
  s.modPwm d c fun x => { carrier := x.carrier + 1, onTime := on, on := h, lowOn := l, plan := plan }

def execCarrierPeriodStart (d c : Nat) (s : State) : Out :=
  due s (carrierReady s d c) (carrierStart s d c)

/-- The next level change of the carrier period in progress. -/
def pulseEdge (s : State) (d c : Nat) : State :=
  s.modPwm d c fun x => match x.plan with
    | [] => x
    | e :: rest => { x with on := e.2.1, lowOn := e.2.2, plan := rest }

def execPwmPulseEdge (d c : Nat) (s : State) : Out :=
  due s (decide (d < 2) && decide (c < 12) && decide ((s.pwm d c).plan ≠ []))
    (pulseEdge s d c)

/-- The level of a PWM pin: high for on, or low where its polarity says so; none in high impedance (R297, R305). -/
def State.pwmPin (s : State) (d c : Nat) : Option Bool :=
  if (s.gauge d).hiZ then none
  else
    let on := if s.pwmOwn d c then (s.pwm d c).on else (s.pwm d (c - 1)).lowOn
    some (on != decide (s.atReset (gPwm d c) 4 = 1))

/-- At a tick the last carrier period ends, and a pulse still running with it. -/
def Pwm.atTick (x : Pwm) : Pwm :=
  if x.plan = [] then { x with carrier := 0 } else { x with carrier := 0, plan := [], on := false, lowOn := false }

/-! ### Load-control channels (R299 to R304) -/

/-- 30 µs. -/
def diagTime : Nat := 3000

def State.loadPeriod (s : State) (d k : Nat) : Nat := s.atReset (gLoad d k) 2
def State.loadSpan (s : State) (d k : Nat) : Nat := s.loadPeriod d k * s.P
def State.lowDuty (s : State) (d k : Nat) : Nat := s.atReset (gLoad d k) 5
def State.tickTime (s : State) : Nat := s.frame.now - s.frame.elapsed

/-- Does a period without an on-state result get a probe: PROBE, and 30 µs of off-time? -/
def State.probes (s : State) (d k on : Nat) : Bool :=
  decide (s.lowDuty d k = 1) && decide (diagTime ≤ s.loadSpan d k - on)

/-- A result, or none, is reported at GUARD: Table 12-3. -/
def LoadCh.report (x : LoadCh) (r : Diag) (limit : Nat) : LoadCh :=
  if r = .notDiagnosed then
    { x with period := r, age := satInc 16 x.age, starveCount := x.starveCount + 1,
             starved := x.starved || decide (limit ≤ x.starveCount + 1) }
  else { x with last := r, period := r, age := 0, starveCount := 0, starved := false }

/-- R303 for one channel: the previous period's result where it is still owed, then this period's. -/
def LoadCh.guard (x : LoadCh) (limit : Nat) : LoadCh :=
  let x := match x.oldResult with
    | some r => { x.report r limit with oldResult := none }
    | none => x
  if x.running && !x.reported && (x.windowDone || decide (x.result ≠ .notDiagnosed)) then
    { x.report x.result limit with reported := true }
  else x

def State.diagnoseAll (s : State) : State :=
  s.each [0, 1] fun s d => s.each (List.range 8) fun s k =>
    s.modLoad d k fun x => x.guard (s.atReset (gLoad d k) 7)

def loadReadyD (s : State) (d k : Nat) : Bool := decide (d < 2) && decide (k < 8) && (s.gauge d).written

def loadPeriodReady (s : State) (d k : Nat) : Bool :=
  loadReadyD s d k && s.frame.ticking && decide (s.frame.phase = .sample) &&
    decide (s.frame.counter.toNat % s.loadPeriod d k = 0) &&
    !((s.load d k).running && decide ((s.load d k).start = s.tickTime))

/-- R299, R302: a period takes the active value; STRETCH raises a short on-time once per interval, a SAFE one never (log 72);
a probe of a zero on-time starts at once. -/
def LoadCh.begin (x : LoadCh) (v interval now : Nat) (stretch probes : Bool) : LoadCh :=
  let n := if x.running then x.stretchCount + 1 else 0
  let raise := stretch && decide (interval ≤ n) && decide (1 ≤ v ∧ v < diagTime)
  let on := if raise then diagTime else v
  { x with
    running := true, start := now, onTime := on, on := decide (0 < on) && !x.latched, stretched := raise,
    stretchCount := if raise then 0 else n, probing := probes && decide (on = 0), result := .notDiagnosed,
    windowDone := x.latched || (decide (on < diagTime) && !probes), reported := false,
    oldResult := if x.running && !x.reported then some x.result else x.oldResult }

def loadPeriodStart (s : State) (d k : Nat) : State :=
  let v := (s.output d (12 + k)).act.toNat
  s.modLoad d k fun x =>
    x.begin v (s.atReset (gLoad d k) 6) s.tickTime (decide (s.lowDuty d k = 2) && !(s.output d (12 + k)).actSafe)
      (decide (v < diagTime) && s.probes d k v && !x.latched)

def execLoadPeriodStart (d k : Nat) (s : State) : Out :=
  due s (loadPeriodReady s d k) (loadPeriodStart s d k)

/-- The channel turns off: a period without a result is probed where its method is PROBE (R302). -/
def LoadCh.turnOff (x : LoadCh) (probes : Bool) : LoadCh :=
  let p := probes && decide (x.result = .notDiagnosed) && x.running
  { x with on := false, probing := p, windowDone := !p }

def loadOffReady (s : State) (d k : Nat) : Bool :=
  let x := s.load d k
  loadReadyD s d k && x.on && decide (x.onTime < s.loadSpan d k) && (decide (x.onTime < diagTime) || x.windowDone || !x.running)

def execLoadTurnOff (d k : Nat) (s : State) : Out :=
  due s (loadOffReady s d k)
    (s.modLoad d k fun x => x.turnOff (decide (x.onTime < diagTime) && s.probes d k x.onTime))

/-- A SAFE value acts at its tick for the rest of the period (R299); a stretch in progress is cancelled and tried again
(R302). -/
def LoadCh.safeCut (x : LoadCh) (v elapsed interval : Nat) (probes : Bool) : LoadCh :=
  let x := if x.stretched && decide (elapsed < diagTime) then { x with stretched := false, stretchCount := interval } else x
  let x := { x with onTime := v }
  if elapsed < v ∧ x.latched = false then { x with on := true }
  else if x.on then x.turnOff (probes && decide (elapsed < diagTime))
  else x

/-- R300: a sense sample at a threshold. -/
def Diag.isFault (r : Diag) : Bool := decide (r = .overcurrent ∨ r = .switchFault)

def LoadCh.fault (x : LoadCh) (r : Diag) (latch : Bool) : LoadCh :=
  let x := if x.result.isFault then x else { x with result := r, reported := false }
  if latch then { x with latched := true, on := false, windowDone := true, probing := false } else x

def State.overTh (s : State) (d k : Nat) : Nat := s.atTick (gLoad d k) 9
def State.faultTh (s : State) (d k : Nat) : Nat := s.atTick (gLoad d k) 0x0A

def execOvercurrentDetect (d k mv : Nat) (s : State) : Out :=
  due s (loadReadyD s d k && (s.load d k).on && decide (s.overTh d k ≤ mv ∨ s.faultTh d k ≤ mv))
    (s.modLoad d k fun x => x.fault (if s.faultTh d k ≤ mv then .switchFault else .overcurrent)
      (decide (s.atReset (gLoad d k) 0x0B = 1)))

/-- R301: the on-state window closes. -/
def LoadCh.window (x : LoadCh) (mv openTh : Nat) : LoadCh :=
  { x with senseAvg := mv, windowDone := true,
           result := if x.result.isFault then x.result else if mv < openTh then .open else .goodOn }

def execOnStateDiagnosis (d k mv : Nat) (s : State) : Out :=
  due s (loadReadyD s d k && (s.load d k).running && (s.load d k).on && decide (diagTime ≤ (s.load d k).onTime) &&
      !(s.load d k).windowDone)
    (s.modLoad d k fun x => x.window mv (s.atTick (gLoad d k) 8))

/-- R302: the probe window closes. -/
def LoadCh.probed (x : LoadCh) (mv th : Nat) : LoadCh :=
  { x with probing := false, windowDone := true, result := if th ≤ mv then .open else .goodOff }

def execProbeDiagnosis (d k mv : Nat) (s : State) : Out :=
  due s (loadReadyD s d k && (s.load d k).probing)
    (s.modLoad d k fun x => x.probed mv (s.atTick (gLoad d k) 0x0C))

/-! ### The tick (R55, R299) and provisioning (R305) -/

/-- Pending values become active; a SAFE one cuts the load's period in progress. -/
def State.activate (s : State) (d : Nat) : State :=
  if !(s.gauge d).written then s else
  let s := s.each (List.range 20) fun s o => s.modOutput d o fun x => { x with act := x.pend, actSafe := x.pendSafe }
  let s := s.each (List.range 12) fun s c => s.modPwm d c Pwm.atTick
  s.each (List.range 8) fun s k =>
    let o := s.output d (12 + k)
    if o.actSafe && (s.load d k).running && decide (s.frame.counter.toNat % s.loadPeriod d k ≠ 0) then
      s.modLoad d k fun x => x.safeCut o.act.toNat (s.frame.now - x.start) (s.atReset (gLoad d k) 6)
        (s.probes d k (s.frame.now - x.start))
    else s

/-- G0 writes a Gauge die: every output leaves high impedance for its safe value. A load-control channel's safe on-time
counts from here until its first period. -/
def State.provisionGauge (s : State) (d : Nat) : State :=
  let s := s.modGauge d fun g => { g with written := true, hiZ := false }
  let s := s.each (List.range 20) fun s o =>
    let v := s.safeValue d (s.valueFrom d o)
    s.modOutput d o fun _ => ⟨v, true, v, true⟩
  s.each (List.range 8) fun s k => s.modLoad d k fun x =>
    { x with running := false, start := s.frame.now, onTime := (s.safeValue d (12 + k)).toNat,
             on := decide (0 < s.safeValue d (12 + k)) && !x.latched }

end Sys2Proof.Machine
end

