-- ==== Sys2Proof/Machine/Fabric.lean ====
section
/-!
DEFINITION. The Field dies' own side (ch. 13): tested pairs and waivers (R184 to R191), configuration, release, scrubbing,
reconfiguration, the hard well bus, collars, taps, serial lanes.
-/

namespace Sys2Proof.Machine

/-! ### Tested pairs and waivers (R184, R185, R189 to R191) -/

def State.imageOf (s : State) (code : Nat) : Option Image :=
  if code = 1 then s.boot.gImg else if code = 2 then s.boot.bImg else if code = 3 then s.boot.nImg else none

def State.imageVersion (s : State) (code : Nat) : BitVec 32 := match s.imageOf code with | some i => i.version | none => 0

/-- Does an image's list hold a code with an exact version? -/
def imageNames (i : Image) (code : Nat) (v : BitVec 32) : Bool := i.list.any (fun e => decide (e.code = code ∧ e.version = v))

/-- R185: is a pair tested? Code 4 stands for a bitstream, its version for the LEVEL. -/
def State.tested (s : State) (a : Nat) (va : BitVec 32) (b : Nat) (vb : BitVec 32) : Bool :=
  (match s.imageOf a with | some i => imageNames i b vb | none => false) ||
    (decide (b ≠ 4) && (match s.imageOf b with | some i => imageNames i a va | none => false))

/-- The waiver in a slot (0 to 3), as latched at the last reset. -/
def State.waiver (s : State) (k : Nat) : BitVec 1024 := BitVec.ofNat 1024 (s.atReset 0x2103 (k + 1))

/-- Does the waiver in a slot cover a pair? A record written over since counts no more, and its successor not yet (R190). -/
def State.waives (s : State) (k a : Nat) (va : BitVec 32) (b : Nat) (vb : BitVec 32) : Bool :=
  let w := s.waiver k
  decide (s.val 0x2103 (k + 1) = w.toNat) && decide (0 < tget 0 s.sec.waiverBoots k) && decide (fld w 2 0 = a) && decide (fld w 5 3 = b) &&
    decide (fld w 39 8 = va.toNat) && decide (fld w 71 40 = vb.toNat) && decide (fld w 255 128 = s.sec.otp.uid.toNat) &&
    (s.ownerKey (fld w 81 80)).isSome

def State.waived (s : State) (a : Nat) (va : BitVec 32) (b : Nat) (vb : BitVec 32) : Bool :=
  (List.range 4).any (fun k => s.waives k a va b vb)

/-- The pairs of a bitstream's LEVEL with the running images are tested or waived (R188). -/
def State.levelOk (s : State) (level : Nat) : Bool :=
  [1, 2, 3].all (fun a => s.tested a (s.imageVersion a) 4 (BitVec.ofNat 32 level) ||
    s.waived a (s.imageVersion a) 4 (BitVec.ofNat 32 level))

/-! ### Configuration (R111, R326 to R328) -/

/-- The time limit of an extension entry, in 10 ns (log 30). -/
def portLimit (e : BitVec 64) : Nat := fld e 63 32

/-- R111: the limits of Table 5-1; reserved fields of the descriptor are zero (R6). -/
def buildOk (d : BitVec 64) (ports : List (BitVec 64)) : Bool :=
  (bit d 10 || decide (buildRows d * buildCols d ≤ 8192)) && bit d 12 && decide (7 ≤ fld d 22 17) && !bit d 23 &&
    decide (fld d 47 42 = 0) && decide (buildBase d % 8 = 0) &&
    (List.range 8).all (fun p => !decide (buildExt d / 2 ^ p % 2 = 1) ||
      decide (1 ≤ portLimit (ports.getD p 0) ∧ portLimit (ports.getD p 0) ≤ 100000))

/-- R327: the first check that fails, 1 to 4; 0 for none. `stripesOk`: every stripe passes its check bits. -/
def State.loadResult (s : State) (b : Bitstream) (stripesOk : Bool) : Nat :=
  let signed := match s.ownerKey b.keySlot with
    | some k => ecdsaVerify (keyX k) (keyY k) (beNum (leBytes 48 b.digest.toNat)) (beNum (leBytes 48 (fld b.sig 383 0)))
        (beNum (leBytes 48 (fld b.sig 767 384)))
    | none => false
  if !signed then 1 else if !(stripesOk && b.legal) then 2 else if !buildOk b.desc b.ports then 3
  else if !s.levelOk (fld b.desc 3 0) then 4 else 0

/-- Every well of a die zeroed, then the initial contents (R328). -/
def State.fillWells (s : State) (m : Nat) (w : Tab Byte) : State :=
  let s := s.zero (wellBaseOf m) 0x800000
  { s with mem := w.foldl (fun t e => if e.1 < 0x800000 then tset 0 t (wellBaseOf m + e.1) e.2 else t) s.mem }

/-- What a die loses when it is held for a new configuration: resets asserted, enables withdrawn, pads off. -/
def Fab.hold (f : Fab) : Fab :=
  { f with rel := 0, releaseDue := false, restartDue := false, restarting := false, restartGo := false, demanded := false,
           resetsOn := true, enables := false, padsOn := false, bs := none, desc := 0, ports := [], wellPar := [],
           collars := [], tapIn := [], tapOut := [], lanes := [], stripe := 0, ffs := [], cellMem := [], spineOn := [],
           clockWas := [] }

def loadBits (s : State) (m : Nat) (b : Bitstream) (stripesOk : Bool) : State :=
  let r := s.loadResult b stripesOk
  if r = 0 then
    (s.fillWells m b.wells).modFab m fun f =>
      { f.hold with
        die := .held, result := 0, bs := some b, desc := b.desc, ports := tofList 0 b.ports, releaseDue := true
        ffs := b.ffInit, cellMem := b.memInit }
  else (s.fillWells m []).modFab m fun f => { f.hold with die := .unconfigured, result := r }

def configReady (s : State) (m : Nat) : Bool :=
  decide (m < 4) && decide ((s.fab m).die = .configuring) && (s.fab m).copy.isSome

def configEffect (s : State) (m : Nat) (stripesOk : Bool) : State :=
  match (s.fab m).copy with
  | some b => loadBits s m b stripesOk
  | none => s

def execConfigurationLoadComplete (m : Nat) (stripesOk : Bool) (s : State) : Out :=
  due s (configReady s m) (configEffect s m stripesOk)

/-- Does start-up wait for the copy of a die's boot slot? -/
def State.bootCopyDue (s : State) (m slot : Nat) : Bool :=
  decide (s.boot.dev = .starting) && s.boot.started && s.boot.imagesDone && decide ((s.fab m).die = .unconfigured) &&
    (s.fab m).copy.isNone && decide (s.atReset (0x6001 + m) 1 = slot)

def copyReady (s : State) (m slot : Nat) : Bool :=
  decide (m < 4) && decide (slot < 8) && (s.bootCopyDue m slot || decide ((s.fab m).reconfig = some slot))

/-- The copy of the boot slot starts its load; the copy of a slot asked for waits for GUARD (R329). -/
def copyEffect (s : State) (m slot : Nat) (b : Bitstream) : State :=
  if s.bootCopyDue m slot then s.modFab m fun f => { f.hold with die := .configuring, copy := some b, copySlot := slot }
  else s.modFab m fun f => { f with newCopy := some b }

def execBitstreamCopyComplete (m slot : Nat) (b : Bitstream) (s : State) : Out :=
  due s (copyReady s m slot) (copyEffect s m slot b)

/-! ### Reconfiguration (R133, R329) -/

/-- Does an admitted context name the die as its HATCH, Stipple or rebite die? -/
def State.dieNamed (s : State) (m : Nat) : Bool :=
  s.liveCtxs.any (fun c => (s.ctx c).granted && [1, 2, 3].any (fun i => (s.bundleOf c).role i m))

/-- ABORT on every port of a die that runs a command. -/
def State.abortPorts (s : State) (m : Nat) : State :=
  s.each (List.range 8) fun s p => if (s.ext m p).cmd.isSome then s.modExt m p fun x => { x with aborting := true } else s

/-- One die at GUARD. A request whose copy has not been read waits for the next GUARD (log 31). -/
def State.reconfigure (s : State) (m : Nat) : State :=
  match (s.fab m).reconfig, (s.fab m).newCopy with
  | some slot, some b =>
    if s.dieNamed m || !buildOk b.desc b.ports || !s.levelOk (fld b.desc 3 0) then
      s.modFab m fun f => { f with reconfig := none, newCopy := none, result := 5 }
    else (s.abortPorts m).modFab m fun f =>
      { f.hold with die := .configuring, copy := some b, copySlot := slot, reconfig := none, newCopy := none }
  | _, _ => s

/-- R334 at GUARD: resets asserted, write enables withdrawn; stages 2 and 3 run again from the next tick. -/
def Fab.restart (f : Fab) : Fab :=
  if f.restartDue ∧ f.bs.isSome = true then
    let init := match f.bs with | some b => b.ffInit | none => []
    { f with restartDue := false, restarting := true, restartGo := false, resetsOn := true, enables := false,
             rel := min f.rel 1, ffs := init }
  else { f with restartDue := false }

/-! ### Global release (R330, R331) -/

def stage1Ready (s : State) (m : Nat) : Bool :=
  decide (m < 4) && (s.fab m).releaseDue && decide ((s.fab m).die = .held) && s.frame.ticking &&
    decide (s.frame.phase = .sample) && decide (s.boot.dev = .ready ∨ s.boot.dev = .waived)

/-- The lanes of banks in serial mode start to train where pads drive (R323, log 100). -/
def Fab.training (f : Fab) : Tab Lane :=
  match f.bs with
  | some b => tofList {} ((List.range 16).map (fun l => if bit b.serial (l / 4) then { state := 1 } else {}))
  | none => []

/-- Is a lane's bank in serial mode? -/
def State.laneSerial (s : State) (m l : Nat) : Bool :=
  match (s.fab m).bs with | some b => bit b.serial (l / 4) | none => false

def execReleaseStage1 (m : Nat) (s : State) : Out :=
  due s (stage1Ready s m)
    (s.modFab m fun f => { f with die := .releasing, rel := 1, padsOn := true, releaseDue := false, lanes := f.training })

/-- Stage 2 follows stage 1, or the tick after a RESTART. -/
def stage2Ready (s : State) (m : Nat) : Bool :=
  decide (m < 4) && decide ((s.fab m).rel = 1) && (decide ((s.fab m).die = .releasing) || (s.fab m).restartGo)

def execReleaseStage2 (m : Nat) (s : State) : Out :=
  due s (stage2Ready s m) (s.modFab m fun f => { f with rel := 2, enables := true })

def execReleaseStage3 (m : Nat) (s : State) : Out :=
  due s (decide (m < 4) && decide ((s.fab m).rel = 2))
    (s.modFab m fun f => { f with rel := 3, resetsOn := false, die := .running, restarting := false, restartGo := false })

/-! ### Scrubbing (R332 to R334) -/

def stripeCount : Nat := 36864

/-- The scan goes on; a demanded pass that ends gives the stripe back to the scan it interrupted. -/
def Fab.nextStripe (f : Fab) (frame : BitVec 32) : Fab :=
  if f.stripe + 1 < stripeCount then { f with stripe := f.stripe + 1 }
  else { f with stripe := if f.demanded then f.resumeStripe else 0, demanded := false, lastScrub := frame }

def scrubReady (s : State) (m : Nat) : Bool := decide (m < 4) && (s.fab m).bs.isSome

def configScrub (s : State) (m : Nat) (e : Ecc) : State :=
  let fr : BitVec 32 := s.frame.counter.setWidth 32
  match e with
  | .clean => s.modFab m fun f => f.nextStripe fr
  | .corrected => s.modFab m fun f => { f.nextStripe fr with corrected := satInc 32 f.corrected }
  | .uncorrectable =>
    (s.modFab m fun f =>
      { f.nextStripe fr with
        rewritten := satInc 32 f.rewritten
        restartDue := f.restartDue || decide (s.val (0x6001 + m) 6 = 1) }).send (.fabricUpset m)

def execConfigurationScrub (m : Nat) (e : Ecc) (s : State) : Out :=
  due s (scrubReady s m) (configScrub s m e)

/-! ### Wells (R312 to R314, R126) -/

/-- Width in bytes of a port aspect: code 0 to 3 for 8,192 × 9, 4,096 × 18, 2,048 × 36, 1,024 × 72. -/
def aspectBytes (k : Nat) : Nat := 2 ^ min k 3

/-- Does the hard well bus reach a well: configured, BUS set, no FIFO, not internal to the build? -/
def State.busWell (s : State) (m w : Nat) : Bool :=
  match (s.fab m).bs with
  | some b => decide (w ∈ b.bus) && !decide (w ∈ b.fifo) &&
      !(decide ((s.fab m).desc ≠ 0) && decide (w < buildInternal (s.fab m).desc))
  | none => false

/-- Port A writes a word: 9-bit bytes, data then ninth bit, from the lowest. -/
def State.portAWrite (s : State) (m w idx : Nat) (v : BitVec 72) : State :=
  match (s.fab m).bs with
  | none => s
  | some b =>
    let n := aspectBytes (tget 0 b.aspectA w)
    (List.range n).foldl (fun s i =>
      let off := w * 8192 + (idx * n + i) % 8192
      let byte : Byte := BitVec.ofNat 8 (fld v (9 * i + 7) (9 * i))
      let even := decide (((List.range 8).filter (fun j => bit byte j)).length % 2 = 1)
      let bad := if w ∈ b.parity then bit v (9 * i + 8) != even else bit v (9 * i + 8)
      (s.wr (wellBaseOf m + off) [byte]).modFab m fun f => { f with wellPar := tset false f.wellPar off bad }) s

/-- Does port A's word hold byte a of the well? -/
def State.portAHits (s : State) (m w a idx : Nat) : Bool :=
  match (s.fab m).bs with
  | none => false
  | some b =>
    let n := aspectBytes (tget 0 b.aspectA w)
    decide ((idx * n) % 8192 ≤ a ∧ a < (idx * n) % 8192 + n)

/-- A bus access, with the port A write of the same cycle: a read returns the old contents, a bus write wins over a port A
write of the same word (R314). A parity error in the read poisons the word. -/
def wellBus (s : State) (m w a : Nat) (write : Bool) (v : Byte) (portA : Option (Nat × BitVec 72)) (parityErr : Bool) : State :=
  let addr := wellBaseOf m + w * 8192 + a
  let open_ := s.busWell m w
  let par := match (s.fab m).bs with | some b => decide (w ∈ b.parity) | none => false
  let bad := par && (parityErr || s.poisoned addr 1)
  let old := s.rd addr
  let s := match portA with
    | some (i, x) => if open_ && write && s.portAHits m w a i then s else s.portAWrite m w i x
    | none => s
  if !open_ then s.send (.wellBus m w a true false 0)
  else if write then (s.wr addr [v]).send (.wellBus m w a false false v)
  else if bad then
    (s.modFab m fun f => { f with wellPar := tset false f.wellPar (w * 8192 + a) true }).send (.wellBus m w a false true 0)
  else s.send (.wellBus m w a false false old)

def execWellBusAccess (m w a : Nat) (write : Bool) (v : Byte) (portA : Option (Nat × BitVec 72)) (parityErr : Bool)
    (s : State) : Out :=
  due s (decide (m < 4) && decide (w < 1024) && decide (a < 8192)) (wellBus s m w a write v portA parityErr)

/-! ### Collars (R315, R316). `lag`: reads (or writes) of the other side fewer than three cycles old. -/

def State.collar (s : State) (m w : Nat) : Collar := tget {} (s.fab m).collars w
def State.modCollar (s : State) (m w : Nat) (f : Collar → Collar) : State :=
  s.modFab m fun x => { x with collars := tmod {} x.collars w f }

def State.isFifo (s : State) (m w : Nat) : Bool :=
  match (s.fab m).bs with | some b => decide (w ∈ b.fifo) | none => false
def State.fifoDepth (s : State) (m w : Nat) : Nat :=
  match (s.fab m).bs with | some b => 8192 / aspectBytes (tget 0 b.aspectA w) | none => 0
def State.collarSet (s : State) (m w : Nat) (f : Bitstream → Tab Nat) : Nat :=
  match (s.fab m).bs with | some b => tget 0 (f b) w | none => 0

/-- The credit of the write side (R316): the depth less every write whose read has not come back to it. -/
def Collar.credit (x : Collar) (depth lag : Nat) : Nat := depth - (x.words.length + lag)

/-- A write while FULL, which is also credit 0, is discarded. -/
def Collar.push (x : Collar) (v : BitVec 72) (depth lag almost : Nat) : Collar :=
  if x.credit depth lag = 0 then { x with overflow := true, full := true }
  else
    let n := x.words.length + 1 + lag
    { x with words := x.words ++ [v], full := decide (depth ≤ n), almostFull := decide (almost ≤ n) }

/-- A read while EMPTY returns the last word again. -/
def Collar.pop (x : Collar) (lag almost : Nat) : Collar :=
  match x.words with
  | [] => { x with underflow := true, empty := true }
  | v :: rest =>
    if x.words.length ≤ lag then { x with underflow := true, empty := true }
    else { x with words := rest, lastWord := v, empty := decide (rest.length ≤ lag),
                  almostEmpty := decide (rest.length - lag ≤ almost), returned := x.returned + 1 }

def execFifoWrite (m w : Nat) (v : BitVec 72) (lag : Nat) (s : State) : Out :=
  due s (decide (m < 4) && s.isFifo m w)
    (s.modCollar m w fun x => x.push v (s.fifoDepth m w) lag (s.collarSet m w (·.almostFull)))

/-- Credit mode: CREDIT_RETURN after every c reads. -/
def fifoRead (s : State) (m w lag : Nat) : State :=
  let s := s.modCollar m w fun x => x.pop lag (s.collarSet m w (·.almostEmpty))
  let c := s.collarSet m w (·.credit)
  if c ≠ 0 ∧ c ≤ (s.collar m w).returned then
    (s.modCollar m w fun x => { x with returned := 0 }).send (.creditReturn m w)
  else s

def execFifoRead (m w lag : Nat) (s : State) : Out :=
  due s (decide (m < 4) && s.isFifo m w) (fifoRead s m w lag)

def execCollarClear (m w : Nat) (s : State) : Out :=
  due s (decide (m < 4) && s.isFifo m w)
    (s.modCollar m w fun x => { x with overflow := false, underflow := false })

/-! ### Pads and lanes (R324, R325) -/

def execTapLoad (m pad : Nat) (input : Bool) (taps : BitVec 7) (s : State) : Out :=
  due s (decide (m < 4) && decide (pad < 96) && (s.fab m).bs.isSome)
    (s.modFab m fun f => if input then { f with tapIn := tset 0 f.tapIn pad taps } else { f with tapOut := tset 0 f.tapOut pad taps })

def State.lane (s : State) (m l : Nat) : Lane := tget {} (s.fab m).lanes l

def execSerialLaneLocked (m l rate : Nat) (s : State) : Out :=
  due s (decide (m < 4) && decide (l < 16) && s.laneSerial m l && decide ((s.lane m l).state ≠ 2))
    (s.modFab m fun f => { f with lanes := tmod {} f.lanes l fun x => { x with state := 2, rate := rate } })

def execSerialLaneUnlocked (m l : Nat) (s : State) : Out :=
  due s (decide (m < 4) && decide (l < 16) && decide ((s.lane m l).state = 2))
    (s.modFab m fun f => { f with lanes := tmod {} f.lanes l fun x => { x with state := 1 } })

end Sys2Proof.Machine
end

