-- ==== Sys2Proof/Machine/Power.lean ====
section
/-!
DEFINITION. The Volt die (ch. 14): rails, droop, B0's steps, the cut ladder, over-temperature.
-/

namespace Sys2Proof.Machine

/-! ### Warm resets from the next tick (R341, R355) -/

/-- G0 drives every output to its safe value at the next tick and performs a warm reset from it: through this frame's GUARD
where it has not begun, at the tick itself otherwise; at once where no tick runs (log 32). -/
def State.urgentWarm (s : State) (cause : Nat) : State :=
  if !s.frame.ticking then s.modBoot fun b => { b with warmReq := some (b.warmReq.getD cause), warmDue := true }
  else if s.frame.phase = .guardPhase then s.modPower fun p => { p with warmDue := some (p.warmDue.getD cause) }
  else s.requestWarm cause

/-! ### Rails (R339 to R341) -/

def State.rail (s : State) (r : Nat) : Rail := tget {} s.power.rails r
def State.modRail (s : State) (r : Nat) (f : Rail → Rail) : State :=
  s.modPower fun p => { p with rails := tmod {} p.rails r f }

/-- The provisioned limit of a rail: 0 means the fused absolute limit; rails 0x10 to 0x13 have none. -/
def State.railLimit (s : State) (r : Nat) : Option Nat :=
  if 15 < r then none
  else if s.atTick 0x4001 r = 0 then some (Config.fusedAbsolute r) else some (s.atTick 0x4001 r)

/-- R340: hold above the limit, lift below 95 % of it. -/
def Rail.measure (x : Rail) (figure : Nat) (limit : Option Nat) (absolute : Nat) : Rail :=
  { figure := figure, overOnce := decide (absolute < figure),
    held := match limit with
      | some l => if l < figure then true else if 100 * figure < 95 * l then false else x.held
      | none => false }

def railUpdate (s : State) (r figure : Nat) (lost : Bool) : State :=
  let x := s.rail r
  let over2 := x.overOnce && decide (Config.fusedAbsolute r < figure)
  let s := s.modRail r fun x => x.measure figure (s.railLimit r) (Config.fusedAbsolute r)
  if over2 || lost then (s.modPower fun p => { p with outside := true }).urgentWarm 6 else s

def execRailMeasurementUpdate (r figure : Nat) (lost : Bool) (s : State) : Out :=
  due s (decide (1 ≤ r ∧ r ≤ 19) && s.boot.started) (railUpdate s r figure lost)

/-! ### Droop (R343, R349) -/

/-- Dies that stretch: F0 to F3, K0, K1, B0. -/
def stretches (die : Nat) : Bool := decide (die < 4 ∨ (12 ≤ die ∧ die ≤ 14))

/-- A droop on B0 between the start of GUARD and the switch counts against a raise due there. -/
def droopDetect (s : State) (die : Nat) : State :=
  s.modPower fun p => { p with
    stretched := tset false p.stretched die true
    droopInGuard := p.droopInGuard || (decide (die = 14 ∧ s.frame.phase = .guardPhase) && !s.frame.freqDone) }

def execDroopDetect (die : Nat) (s : State) : Out :=
  due s (stretches die && s.boot.started) (droopDetect s die)

def execDroopRecover (die : Nat) (s : State) : Out :=
  due s (tget false s.power.stretched die)
    (s.modPower fun p => { p with stretched := tset false p.stretched die false })

/-! ### B0's steps (R346 to R350, R355) -/

def State.freeMode (s : State) : Bool := decide (s.atReset 0x4000 3 = 1)

/-- B0's highest step: step 6 where its table gives a voltage for it; at most the step limit. -/
def State.topStep (s : State) : Nat := min (s.atReset 0x4000 4) (if fld (Config.voltageTable 14) 47 32 = 0 then 5 else 6)

/-- The start of GUARD: what was planned falls due, and the next change is planned. -/
def State.planStep (s : State) (b0Temp : Int) : State :=
  s.modPower fun p =>
    let due_ := p.planned
    let hot := decide (100 ≤ b0Temp)
    let next := if due_ = .raise then p.step + 1 else if due_ = .lower then p.step - 1 else p.step
    let plan : Plan := if !s.freeMode then .none
      else if (15 ≤ p.posNext ∨ hot = true) ∧ 4 < next then .lower
      else if p.posNext = 0 ∧ hot = false ∧ next < s.topStep ∧ p.raisingStopped = false then .raise
      else .none
    { p with plan := due_, planned := plan, droopInGuard := false,
             railStep := if plan = .raise then next + 1 else p.railStep }

/-- A raise that is not made stays planned, where no lowering is. -/
def Power.keepRaise (p : Power) : Power :=
  if p.planned = .lower then p else { p with planned := .raise, railStep := p.step + 1 }

/-- The switch (R348 to R350). A raise that a ladder position has overtaken is not made, and the rail returns (Table 14-5). -/
def Power.switch (p : Power) (ready : Bool) : Power :=
  match p.plan with
  | .none => p
  | .lower => { p with plan := .none, step := max 4 (p.step - 1), railStep := max 4 (p.step - 1) }
  | .raise =>
    let p := { p with plan := .none }
    if p.position ≠ 0 then { p with railStep := if p.planned = .raise then p.railStep else p.step }
    else if !ready then p.keepRaise
    else if p.droopInGuard then
      if 8 ≤ p.cancels + 1 then
        { p with cancels := p.cancels + 1, raisingStopped := true, railStep := p.step,
                 planned := if p.planned = .raise then .none else p.planned }
      else { p.keepRaise with cancels := p.cancels + 1 }
    else { p with step := p.step + 1, cancels := 0 }

def switchReady (s : State) : Bool :=
  decide (s.frame.phase = .guardPhase) && s.frame.prepared && !s.frame.freqDone && !s.frame.isSealed &&
    decide (s.power.plan ≠ .none)

def execFrequencySwitch (ready : Bool) (s : State) : Out :=
  due s (switchReady s)
    ((s.modPower fun p => p.switch ready).modFrame fun f => { f with freqDone := true })

/-- R349: where raising had stopped it may begin again, the count from 0. -/
def execAveragingWindowBoundary (s : State) : Out :=
  due s (s.frame.ticking && s.power.raisingStopped)
    (s.modPower fun p => { p with raisingStopped := false, cancels := 0 })

/-! ### The cut ladder (R351, R353, R354) -/

/-- One move at most, from the energy spent over T_avg and predicted, in mJ. -/
def ladder (pos energy budget : Nat) : Nat :=
  if budget < energy then min (pos + 1) 35
  else if 100 * energy < 98 * budget then pos - 1
  else pos

def State.moveLadder (s : State) (energy : Nat) : State :=
  s.modPower fun p => { p with posNext := ladder p.position energy (s.atTick 0x4000 1 * s.atTick 0x4000 2) }

/-! ### Temperature (R355) -/

def execOverTemperature (die : Nat) (s : State) : Out :=
  due s (decide (die < 20) && s.boot.started)
    (((s.modBoot fun b => { b with heldHot := true }).modPower fun p => { p with outside := true }).urgentWarm 7)

def execOverTemperatureClear (s : State) : Out :=
  due s s.boot.heldHot (s.modBoot fun b => { b with heldHot := false })

end Sys2Proof.Machine
end

