-- ==== Sys2Proof/Machine/Views.lean ====
section
/-!
DEFINITION. What each view of the dictionary shows (R259, R260, Table 11-3, R366, R376), and what an object reads as.
-/

namespace Sys2Proof.Machine

/-! ### Debug levels (R366, R368) -/

/-- The level in force at an endpoint: its grant's; OWNER without unlock in BLANK (Table 15-2). -/
def State.levelOf (s : State) (via : Via) : Level :=
  match s.sec.grants.find? (fun g => decide (g.endpoint = via)) with
  | some g => g.level
  | none => if s.sec.otp.life = .blank then .owner else .sealedLevel

/-- The level a debug object needs, none for any other object. -/
def debugNeed (i : Nat) : Option Nat :=
  if i = 0x7001 then some 2 else if 0x7002 ≤ i ∧ i ≤ 0x7004 then some 1 else none

/-! ### What a view shows -/

/-- The sub-index that names the tenant of a Gauge channel, none where the index is no channel. -/
def channelSub (i : Nat) : Option Nat :=
  let o := i % 0x800
  if 0x10 ≤ o ∧ o < 0x20 then some 3 else if 0x30 ≤ o ∧ o < 0x34 then some 2 else if 0x40 ≤ o then some 1 else none

/-- The tenant a Gauge channel object is bound to; 0xFF for none. -/
def State.channelTenant (s : State) (i : Nat) : Nat :=
  match channelSub i with
  | some k => s.atReset i k
  | none => 0xFF

/-- Indices whose sub-index s stands for tenant s - 1. -/
def bySub (i : Nat) : Bool :=
  decide (i = 0x2108) || decide (0x3100 ≤ i ∧ i ≤ 0x3104) || decide (0x3402 ≤ i ∧ i ≤ 0x3404) ||
    decide (i = 0x3500 ∨ i = 0x3501) || decide (0x3503 ≤ i ∧ i ≤ 0x3505) || decide (i = 0x3550)

/-- Indices base + t of tenant t; base + 8 is the supervisor's. -/
def byIndex (i : Nat) : Option Nat :=
  if 0x3510 ≤ i ∧ i ≤ 0x3518 then some (i - 0x3510) else if 0x3520 ≤ i ∧ i < 0x3528 then some (i - 0x3520) else none

/-- R376: what every view reads of Table 15-9. -/
def openToAll (i sub : Nat) : Bool := decide (i = 0x2200 ∧ sub = 1) || decide (i = 0x2240 ∧ sub = 1) || decide (i = 0x2230)

/-- Does a tenant's view show an entry (Table 11-3)? `chan` gives the tenant of a channel object. Device-wide objects of
0x3400 to 0x37FF are shown (DEDUCED, log 33). -/
def tenantSees (chan : Nat → Nat) (t i sub : Nat) : Bool :=
  if bySub i then decide (sub = t + 1)
  else match byIndex i with
  | some k => decide (k = t)
  | none =>
    if 0x5000 ≤ i ∧ i < 0x6000 then decide (chan i = t)
    else decide (i < 0x2200) || openToAll i sub || decide (0x3000 ≤ i ∧ i < 0x3800) || decide (0x4400 ≤ i ∧ i < 0x4900) ||
      decide (0x7010 ≤ i ∧ i ≤ 0x7014)

/-- Does a view with a debug level show an entry? -/
def viewSees (chan : Nat → Nat) (w : View) (level i sub : Nat) : Bool :=
  match debugNeed i with
  | some n => decide (n ≤ level)
  | none => match w with
    | .supervisor => true
    | .unbound => decide (0x1000 ≤ i ∧ i < 0x2100) || openToAll i sub
    | .tenant t => tenantSees chan t i sub

/-- The object a view shows, or the abort (R259, R261). An index that no table lists has no sub-index. -/
def viewLookup (chan : Nat → Nat) (w : View) (level i sub : Nat) : Except Nat ObjRow :=
  let any := (indexRows i).any (fun r => (List.range (r.s1 - r.s0 + 1)).any (fun k => viewSees chan w level i (r.s0 + k)))
  if indexRows i = [] then .error (if inBlock i then abSub else abObject)
  else if !any then .error abObject
  else match objRow i sub with
  | some r => if viewSees chan w level i sub then .ok r else .error abSub
  | none => match objInfo i sub with
    | some r => .ok r
    | none => .error abSub

def State.lookup (s : State) (via : Via) (i sub : Nat) : Except Nat ObjRow :=
  viewLookup s.channelTenant (s.viewOf via) (s.levelOf via).code i sub

/-! ### Values of read-only objects -/

/-- The ASCII digits of a number. -/
def asciiNat (n : Nat) : List Byte := (Nat.toDigits 10 n).map (fun c => BitVec.ofNat 8 c.toNat)

/-- A version as text: major, minor and build (R184) with full stops between (DEDUCED, log 34). -/
def versionText (v : BitVec 32) : List Byte :=
  asciiNat (fld v 31 24) ++ [0x2E#8] ++ asciiNat (fld v 23 16) ++ [0x2E#8] ++ asciiNat (fld v 15 0)

def State.commRead (s : State) (port i sub : Nat) : Nat :=
  if i = 0x1001 then (s.can port).errReg.toNat
  else if i = 0x1008 then 0x3032484C43
  else if i = 0x100A then leNat (versionText (s.imageVersion 1))
  else if i = 0x1018 then
    (if sub = 1 then Config.vendorId else if sub = 2 then Config.partNumber else if sub = 3 then Config.stepping
     else fld s.sec.otp.uid 31 0)
  else 0

/-- An endpoint's own part of the session objects (R282). -/
def State.sessionRead (s : State) (via : Via) (sub : Nat) : Nat :=
  let mine := match s.net.session with
    | some x => if x.endpoint = via then some x else none
    | none => none
  if sub = 2 then (match mine with | some x => x.nonce.toNat | none => 0)
  else if sub = 3 then (match mine with | some x => x.digest.toNat | none => 0)
  else if sub = 6 then (if s.net.session.isSome then 1 else 0)
  else if sub = 7 then s.net.lastCommit.toNat
  else s.net.failObj.toNat

def State.netRead (s : State) (via : Via) (i sub : Nat) : Nat :=
  if i = 0x1E01 then (s.eth (sub - 1)).speed
  else if i = 0x1E02 then
    (if sub ≤ 2 then (if (s.eth (sub - 1)).synced then 1 else 0) else unsigned 32 (s.eth (sub - 3)).offset)
  else if 0x1E20 ≤ i ∧ i < 0x1E30 then (s.map (i - 0x1E20)).sent
  else if 0x1E30 ≤ i ∧ i < 0x1E40 then (if sub = 0x0A then (s.map (i - 0x1E20)).accepted else (s.map (i - 0x1E20)).missed)
  else if i = 0x1E40 then
    (if sub = 1 then s.net.xferAccepted else if sub = 2 then s.net.xferRefused else s.net.aborts)
  else if i = 0x1E41 then s.sessionRead via sub
  else if sub = 1 then Config.partNumber else if sub = 2 then Config.stepping
  else if sub = 3 then s.sec.otp.uid.toNat else s.boot.dev.code

/-- The capability table (Table 9-11). -/
def State.capability (s : State) (w : Nat) : Nat :=
  if w = 0 then 0x0001 + Config.partNumber * 2 ^ 16 + Config.stepping * 2 ^ 32
  else if w = 1 then fld s.sec.otp.uid 63 0
  else if w = 2 then fld s.sec.otp.uid 127 64
  else if w = 3 then 0xFFFFF + 24 * 2 ^ 24
  else if w = 4 then 4096 + 48 * 2 ^ 16 + 4 * 2 ^ 24 + 4 * 2 ^ 32 + 4 * 2 ^ 36 + 4096 * 2 ^ 40
  else if w = 5 then
    16 + 48 * 2 ^ 8 + 44 * 2 ^ 16 + 16 * 2 ^ 24 + 32 * 2 ^ 32 + 16 * 2 ^ 40 + 64 * 2 ^ 48 + 64 * 2 ^ 56
  else if w = 6 then s.memStat.capacity + 12 * 2 ^ 8 + s.memStat.rate * 2 ^ 16
  else if w = 7 then 32 + 4 * 2 ^ 16 + 1024 * 2 ^ 32
  else if w = 8 then 32 + 1024 * 2 ^ 8 + 1024 * 2 ^ 24 + 16 * 2 ^ 40
  else if w = 9 then 1000 + 100000 * 2 ^ 32
  else if w = 10 then 8 + 2 * 2 ^ 4 + 15 * 2 ^ 8 + 4 * 2 ^ 12 + 2 * 2 ^ 16
  else if 11 ≤ w ∧ w ≤ 14 then (s.fab (w - 11)).desc.toNat
  else if w = 15 then 2 ^ Config.level
  else if w = 16 then 4096 + 256 * 2 ^ 16 + 8 * 2 ^ 32
  else 0

/-- A slot's state as 0x2210 shows it (R361). -/
def State.slotState (s : State) (k : Nat) : Nat :=
  let x := tget {} s.sec.otp.slots k
  if x.state = .active ∧ (s.ownerKey k).isNone = true then 2 else x.state.code

def State.idRead (s : State) (via : Via) (i sub : Nat) : Nat :=
  if i = 0x2010 then s.capability (sub - 1)
  else if i = 0x2100 then (s.imageVersion sub).toNat
  else if i = 0x2101 then fld (s.fab (sub - 1)).desc 3 0
  else if i = 0x2102 then
    (if sub = 1 then s.boot.compat else if sub = 2 then s.boot.failPair.toNat else if sub = 3 then s.boot.failA.toNat
     else if sub = 4 then s.boot.failB.toNat else s.boot.untested)
  else if i = 0x2103 then tget 0 s.sec.waiverBoots (sub - 5)
  else if i = 0x2108 then (s.ten (sub - 1)).lastRejection.toNat
  else if i = 0x2200 then s.sec.otp.life.code
  else if i = 0x2210 then s.slotState (sub - 4)
  else if i = 0x2230 then
    (if sub = 1 then (match s.sec.challenges.find? (fun c => decide (c.endpoint = via)) with
      | some c => c.value.toNat
      | none => 0)
     else if sub = 4 then (s.levelOf via).code else s.sec.fails)
  else if i = 0x2240 then (if sub = 1 then s.sec.power.code else s.sec.wakeCause)
  else if i = 0x2241 then (if s.sec.rtcSet then 1 else 0)
  else if sub = 1 then s.sec.boots else s.sec.wakes

/-- Contexts of tenants that hold a slot. -/
def State.residentCount (s : State) : Nat := (s.liveCtxs.filter (fun c => (s.ctx c).slot.isSome)).length

/-- The slot that 0x3403 reports: 0xFF for a saved context (Table 9-12), 0 for one that was never admitted. -/
def Ctx.slotByte (x : Ctx) : Nat :=
  match x.slot with
  | some k => k
  | none => if x.state = .admitted ∨ x.state = .orphaned then 0xFF else 0

/-- 0x3403: the selected context, of tenant t only, bit 3 while it is poisoned (R248); any other number reads FREE (R221). -/
def State.ctxState (s : State) (c t : Nat) : Nat :=
  let x := s.ctx c
  if x.tenant = t then x.state.code + (if x.poisoned then 8 else 0) + x.slotByte * 2 ^ 8 + x.gen.toNat * 2 ^ 16 else 0

/-- The bytes of Table 10-7. -/
def Late.value (l : Late) : Nat :=
  (if l.valid then 1 else 0) + (if l.more then 2 else 0) + l.cause % 16 * 2 ^ 4 + l.q % 8 * 2 ^ 8 + l.epoch.toNat * 2 ^ 16
    + l.caddr % 2 ^ 48 * 2 ^ 32 + l.daddr % 2 ^ 44 * 2 ^ 80 + l.frame.toNat * 2 ^ 128 + l.count % 2 ^ 32 * 2 ^ 160

/-- A context that a view may look at: its own tenant's; every one from the supervisor's view. -/
def State.mayLook (s : State) (w : View) (c : Nat) : Bool :=
  match w with
  | .supervisor => true
  | .tenant t => decide ((s.ctx c).tenant = t)
  | .unbound => false

def State.frameRead (s : State) (w : View) (i sub : Nat) : Nat :=
  let f := s.frame
  let sel := (s.viewSel w).ctxSel
  let x := s.ctx sel
  let t := sub - 1
  if i = 0x3001 then
    (if sub = 1 then f.tickState.code else if sub = 2 then f.counter.toNat else if sub = 3 then unsigned 32 f.lastErr
     else if sub = 4 then f.holdTotal else if sub = 5 then f.badEvents else if sub = 6 then f.losses else if s.atReset 0x3000 2 = 0 then TickState.locked.code else f.lock.code)
  else if i = 0x3102 then (s.ten t).overruns
  else if i = 0x3103 then (s.ten t).lateFinishes
  else if i = 0x3104 then (if (s.ten t).latch then 1 else 0)
  else if i = 0x3400 then (if sub = 1 then s.residentCount else s.slotOpsTotal)
  else if i = 0x3402 then (s.ten t).ignored
  else if i = 0x3403 then s.ctxState sel t
  else if i = 0x3404 then (s.ten t).dropped
  else if i = 0x3410 then (s.viewSel w).created.toNat
  else if i = 0x3413 then (if s.mayLook w sel then x.keep.toNat else 0)
  else if i = 0x3503 then (s.ten t).resetsTaken
  else if i = 0x3504 then (s.ten t).lateFails
  else if i = 0x3540 then (if s.mayLook w sel then x.late.value else 0)
  else 0

/-- 0x4801+m:03: READY once the release has reached stage 3, as links and their downs leave it (Table 5-8). -/
def State.instanceState (s : State) (m : Nat) : Nat :=
  if (s.fab m).die ≠ .running then 0
  else
    let d0 := s.linkDown (fieldLink m 0)
    let d1 := s.linkDown (fieldLink m 1)
    if d0 && d1 then 3 else if d0 || d1 then 2 else 1

/-- Bank states as 0x4402 shows them: EMPTY where a bank was lost with its link (log 91). -/
def Bank.shown (b : Bank) : Nat := if b.lost then 0 else b.state.code
def Plate.banks (p : Plate) : Nat := p.bankA.shown + 8 * p.bankB.shown

def State.plateRead (s : State) (w : View) (i sub : Nat) : Nat :=
  let p := s.plate (sub - 1)
  if i = 0x4002 then (if sub ≤ 15 then Config.fusedReserved sub else 0)
  else if i = 0x4003 then Config.fusedAbsolute sub
  else if i = 0x4004 then (Config.voltageTable (sub - 1)).toNat
  else if i = 0x4400 then 32
  else if i = 0x4401 then p.state.code
  else if i = 0x4402 then p.banks
  else if i = 0x4403 then p.owner.getD 0xFFFF
  else if i = 0x4405 then unsigned 16 p.temp
  else if i = 0x4406 then unsigned 16 p.lastTemp
  else if i = 0x4407 then min ((s.frame.now - p.lastAt) / 100000) (2 ^ 32 - 1)
  else if i = 0x4408 then p.worstOff
  else if i = 0x4409 then p.worstGain
  else if i = 0x440A then p.burnishes
  else if i = 0x440B then p.overdues
  else if i = 0x440C then p.upsets
  else if 0x4600 ≤ i ∧ i < 0x4620 then leNat (s.plate (i - 0x4600)).ledger.bytes
  else if i = 0x4640 then
    (if s.mayLook w (s.viewSel w).ledgerSel then leNat (s.ctx (s.viewSel w).ledgerSel).ledger.bytes else 0)
  else if i = 0x4800 then 4
  else
    let m := i - 0x4801
    let f := s.fab m
    if sub = 1 then f.desc.toNat else if sub = 2 then fld f.desc 3 0 else if sub = 3 then s.instanceState m
    else if sub = 4 then f.mismX else if sub = 5 then f.mismS else if sub = 6 then f.disabled.toNat
    else if sub < 0x18 then fld (tget 0 f.ports (sub - 0x10)) 15 0 else portLimit (tget 0 f.ports (sub - 0x18))

/-- The bits of Table 12-3. -/
def LoadCh.status (x : LoadCh) : Nat :=
  x.last.code + x.period.code * 2 ^ 3 + (if x.starved then 2 ^ 6 else 0) + (if x.latched then 2 ^ 7 else 0)
    + x.age % 2 ^ 16 * 2 ^ 16

def State.gaugeRead (s : State) (i sub : Nat) : Nat :=
  let d := (i - 0x5000) / 0x800
  let o := i % 0x800
  if o = 0 then (s.gauge d).unreadable
  else if o < 0x20 then
    let x := s.sd d (o - 0x10)
    if sub = 4 then (if x.valid then 1 else 0) + (if x.overrange then 2 else 0) else x.overranges
  else if o < 0x34 then
    let x := s.pos d (o - 0x30)
    if sub = 6 then (if s.posMode d (o - 0x30) ≠ 0 ∧ x.error = false then 1 else 0) + (if x.error then 2 else 0)
        + (if x.index then 4 else 0)
    else unsigned 32 x.indexPos
  else if o < 0x4C then unsigned 32 (s.output d (o - 0x40)).act
  else if sub = 0x0D then (s.load d (o - 0x60)).status
  else if sub = 0x0E then (s.load d (o - 0x60)).senseAvg
  else unsigned 32 (s.output d (12 + (o - 0x60))).act

/-- A die that reruns its release under RESTART shows RELEASING (R334). -/
def Fab.shown (f : Fab) : Nat := if f.restarting then DieState.releasing.code else f.die.code

/-- A register of the link and memory monitors (Table 1-11). -/
def State.linkRead (s : State) (i sub : Nat) : Nat :=
  let m := s.memStat
  if i = 0x7010 then (if sub = 0 then 24 else (s.link (sub - 1)).state.code)
  else if i = 0x7011 then (s.link (sub - 1)).replays
  else if i = 0x7012 then (s.link (sub - 1)).retrains
  else if i = 0x7013 then
    (if sub = 1 then m.lpCorr else if sub = 2 then m.lpUncorr else if sub = 3 then m.stCorr else if sub = 4 then m.stUncorr
     else m.lastBad)
  else if sub = 1 then m.trained.toNat else if sub = 2 then m.capacity else m.rate

/-- The contexts whose registers a debug level reaches: those of its own tenant, or every one from OWNER on (R224, R366). -/
def State.mayDebug (s : State) (w : View) (via : Via) (c : Nat) : Bool :=
  decide (2 ≤ (s.levelOf via).code) || s.mayLook w c

def State.fabricRead (s : State) (w : View) (via : Via) (i sub : Nat) : Nat :=
  if i = 0x6000 then 4
  else if i < 0x6005 then
    let f := s.fab (i - 0x6001)
    if sub = 3 then f.shown else if sub = 7 then f.corrected else if sub = 8 then f.rewritten
    else if sub = 9 then f.lastScrub.toNat else f.result
  else if i < 0x7000 then
    let x := s.lane ((i - 0x6100) / 16) ((i - 0x6100) % 16)
    if sub = 1 then x.state else if sub = 2 then x.rate else x.prbs
  else if i = 0x7003 then
    (if s.mayDebug w via (s.viewSel w).ctxSel then
      (tget 0 (s.queue (s.viewSel w).ctxSel (s.viewSel w).queueSel).prm (sub - 1)).toNat else 0)
  else if i = 0x7004 then
    (if s.mayDebug w via (s.viewSel w).ctxSel then (tget 0 (s.ctx (s.viewSel w).ctxSel).counters (sub - 1)).toNat else 0)
  else s.linkRead i sub

/-- What a ro or const object reads as. -/
def State.roRead (s : State) (w : View) (via : Via) (port i sub : Nat) : Nat :=
  if i < 0x1E00 then s.commRead port i sub
  else if i < 0x2010 then s.netRead via i sub
  else if i < 0x3000 then s.idRead via i sub
  else if i < 0x4000 then s.frameRead w i sub
  else if i < 0x5000 then s.plateRead w i sub
  else if i < 0x6000 then s.gaugeRead i sub
  else s.fabricRead w via i sub

/-- The real-time clock: 1/32,768 s steps since it was set, as far as frames have run (R374, log 39). -/
def State.clock (s : State) : BitVec 64 :=
  if s.sec.emberSupply then s.sec.rtc + BitVec.ofNat 64 ((s.frame.now - s.sec.rtcAt) * 32768 / 100000000) else 0

/-- The value in force of an rw, rwp or rwt object; selectors and the RTC stand elsewhere. -/
def State.rwRead (s : State) (w : View) (port i sub : Nat) : Nat :=
  let v := s.viewSel w
  if i = 0x3401 then v.ctxSel
  else if i = 0x4640 then v.ledgerSel
  else if i = 0x7002 then v.queueSel
  else if i = 0x2241 then s.clock.toNat
  else if i = 0x3550 then (s.ten (sub - 1)).notify.toNat
  else if i = 0x3104 then (if (s.ten (sub - 1)).latch then 1 else 0)
  else if i = 0x2210 ∧ sub ≤ 3 then (tget 0 s.sec.keys (sub - 1)).toNat
  else if i = 0x1014 ∧ s.val i sub port = 0 then 0x80 + s.atReset 0x1E10 (port + 1)
  else s.val i sub port

/-! ### The window (R366, R375) -/

/-- What a window access meets. -/
inductive WinHit where
  | mem
  | regs (die : Nat)
  | unmapped
deriving DecidableEq, Repr

/-- Dies that G0 serves in DOZE. -/
def g0Services (die : Nat) : Bool := decide (15 ≤ die)

/-- Where the window address lies. In DOZE only the register blocks of G0, H0, X0, X1 and V0 answer (R375). -/
def State.window (s : State) (via : Via) : WinHit :=
  let a := match s.sec.window.find? (fun e => decide (e.1 = via)) with
    | some e => e.2.toNat
    | none => 0
  match s.region a with
  | .unmapped => .unmapped
  | .regs die _ =>
    if s.sec.power = .doze ∧ g0Services die = false then .unmapped
    else .regs die
  | _ => if s.sec.power = .doze then .unmapped else .mem

def State.windowAddr (s : State) (via : Via) : Nat :=
  match s.sec.window.find? (fun e => decide (e.1 = via)) with
  | some e => e.2.toNat
  | none => 0

/-- A read through the window: the bytes there, a free value for a register block, or the refusal of an access that
completes UNMAPPED or meets poison, whose unit is recorded (R27, log 35). -/
def State.windowRead (s : State) (via : Via) : Except Nat Nat × State :=
  let a := s.windowAddr via
  match s.window via with
  | .unmapped => (.error abGeneral, s)
  | .regs _ =>
    let (k, s) := s.takeFree
    (.ok (Config.freeWord k).toNat, s)
  | .mem => match s.badUnits [] a 8 with
    | p :: _ => (.error abGeneral, s.noteBad p)
    | [] => if s.parityBad a 8 then (.error abGeneral, s) else (.ok (leNat (s.rdN a 8)), s)

/-! ### Reads and descriptions -/

/-- The value of a readable object as a view has it. -/
def State.value (s : State) (w : View) (via : Via) (port i sub : Nat) (r : ObjRow) : Nat :=
  match r.acc with
  | .ro | .const => if sub = 0 ∧ objRow i sub = none then highSub i else s.roRead w via port i sub
  | _ => s.rwRead w port i sub

/-- The answer to a read: length and value. -/
def State.readObj (s : State) (via : Via) (port i sub : Nat) : Except Nat (Nat × Nat) × State :=
  match s.lookup via i sub with
  | .error a => (.error a, s)
  | .ok r =>
    if i = 0x7001 ∧ sub = 2 then
      match s.windowRead via with
      | (.ok v, s) => (.ok (8, v), s)
      | (.error a, s) => (.error a, s)
    else if r.acc = .wo then (.error abWriteOnly, s)
    else (.ok (r.size, s.value (s.viewOf via) via port i sub r), s)

/-- DESCRIBE (Table 11-9). -/
def State.describe (s : State) (via : Via) (i sub : Nat) : Except Nat Nat :=
  match s.lookup via i sub with
  | .error a => .error a
  | .ok r => .ok (r.ty + r.acc.code * 2 ^ 16 + highSub i * 2 ^ 24 + r.size * 2 ^ 32)

end Sys2Proof.Machine
end

