-- ==== Sys2Proof/Machine/Debug.lean ====
section
/-!
DEFINITION. Transfers as every transport performs them (R257, R258, R381), and debug (R366 to R370): requests, responses,
halts, the window.
-/

namespace Sys2Proof.Machine

/-! ### Transfers (R257, R258, R381, R389) -/

/-- What a transfer answers: the length and value, or the abort. -/
abbrev Ans := Except Nat (Nat × Nat)

/-- A write's answer. -/
def wrote (r : Nat × State) : Ans × State := (if r.1 = 0 then .ok (0, 0) else .error r.1, r.2)

/-- Does the dictionary server run: the G-image has started and no ROM recovery is on (R389)? -/
def State.served (s : State) : Bool := s.boot.gDone && decide (s.boot.recovery ≠ .rom)

/-- Admission, then the request. `early`: answered before READY. A refused request counts no acceptance. -/
def State.perform (s : State) (outstanding : Nat) (early : Bool) (f : State → Ans × State) : Ans × State :=
  if Config.transferLimit ≤ outstanding then
    (.error abState, (s.modNet fun n => { n with xferRefused := satInc 32 n.xferRefused }).countAbort)
  else if !s.up && !early then (.error abState, s.countAbort)
  else match f s.accepted with
    | (.ok v, s) => (.ok v, s)
    | (.error a, s) => (.error a, s.countAbort)

/-- Table 16-3 and R389: reads answered before READY. -/
def State.earlyRead (s : State) (i sub : Nat) : Bool :=
  decide (0x1000 ≤ i ∧ i < 0x1A10) || decide (0x1E00 ≤ i ∧ i ≤ 0x1E02) || decide (i = 0x2000 ∨ i = 0x2010) ||
    decide (0x2100 ≤ i ∧ i ≤ 0x2102) || decide (i = 0x2200 ∧ sub = 1) || decide (i = 0x2240 ∧ sub = 1) ||
    decide (i = 0x2242) || (decide (s.boot.dev = .recovery) && decide (i = 0x7014))

/-- A request with a row of its own: performed, then answered to its sender. -/
def State.request (s : State) (via : Via) (outstanding : Nat) (early : Bool) (f : State → Ans × State) : State :=
  if !s.served then s else
  match s.perform outstanding early f with
  | (.ok (n, v), s) => s.answer via 0 n v
  | (.error a, s) => s.answer via a 0 0

/-! ### Debug grants (R366 to R369, Tables 15-2, 15-7) -/

def Level.ofCode (n : Nat) : Level :=
  if n = 1 then .tenant else if n = 2 then .owner else if n = 3 then .vendor else .sealedLevel

/-- Does the present state offer a level? -/
def State.offers (s : State) (l : Level) : Bool :=
  let life := s.sec.otp.life
  match l with
  | .sealedLevel => true
  | .tenant => decide (life = .provisioned ∨ life = .fielded) && decide (s.sec.power ≠ .doze)
  | .owner => decide (life = .blank ∨ life = .provisioned ∨ life = .recalled) ||
      (decide (life = .fielded) && decide (s.val 0x2200 3 = 1))
  | .vendor => decide (life = .recalled)

/-- Would a grant to this endpoint be the ninth? -/
def State.grantsFull (s : State) (via : Via) : Bool :=
  decide (Config.grantLimit ≤ (s.sec.grants.filter (fun g => decide (g.endpoint ≠ via))).length)

/-- A fresh challenge takes the place of the endpoint's earlier one. -/
def Sec.challenge (x : Sec) (c : Challenge) : Sec :=
  { x with challenges := x.challenges.filter (fun d => decide (d.endpoint ≠ c.endpoint)) ++ [c] }

/-- Step 1 of R367: abort 0 and a fresh challenge, or the refusal; R369 refuses every request while the lockout lasts. SEALED
is no level to request (log 36). -/
def State.debugRequest (s : State) (via : Via) (v : Nat) (fresh : BitVec 384) : Nat × State :=
  let l := Level.ofCode (v % 4)
  if s.sec.lockout then (abState, s)
  else if l = .sealedLevel then (abRange, s)
  else if !s.offers l || s.grantsFull via then (abState, s)
  else (0, s.modSec fun x => x.challenge ⟨via, fresh, l, v / 4 % 8, v / 32 % 4⟩)

/-- The message a response signs. -/
def Challenge.message (c : Challenge) (uid : BitVec 128) : List Byte :=
  leBytes 48 c.value.toNat ++ leBytes 16 uid.toNat ++
    [BitVec.ofNat 8 c.level.code, BitVec.ofNat 8 c.tenant, BitVec.ofNat 8 c.slot]

/-- The key a response must verify against, if there is one. `vendor` is the vendor debug public key presented. -/
def State.debugKey (s : State) (c : Challenge) (vendor : BitVec 776) : Option (BitVec 776) :=
  match c.level with
  | .sealedLevel => none
  | .tenant =>
    let k := BitVec.ofNat 776 (s.val 0x2220 (c.tenant + 1))
    if k ≠ 0 ∧ s.viewOf c.endpoint = .tenant c.tenant then some k else none
  | .owner => s.ownerKey c.slot
  | .vendor => if digestVal (leBytes 97 vendor.toNat) = s.sec.otp.vendorDebug then some vendor else none

/-- A failed response is counted; the eighth in a row locks debug out (R369). -/
def Sec.failed (x : Sec) : Sec :=
  { x with fails := min Config.failLimit (x.fails + 1), lockout := x.lockout || decide (Config.failLimit ≤ x.fails + 1) }

/-- A verified response: the count clears and the grant replaces the endpoint's earlier one. -/
def State.granted1 (s : State) (c : Challenge) : State :=
  (s.endGrants (fun g => decide (g.endpoint = c.endpoint))).modSec fun x =>
    { x with fails := 0, grants := x.grants ++ [⟨c.endpoint, c.level, c.tenant, c.slot⟩] }

/-- Step 3 of R367. -/
def State.debugResponse (s : State) (via : Via) (sig : BitVec 768) (vendor : BitVec 776) : Nat × State :=
  if s.sec.lockout then (abState, s) else
  match s.sec.challenges.find? (fun c => decide (c.endpoint = via)) with
  | none => (abSignature, s.modSec Sec.failed)
  | some c =>
    match s.debugKey c vendor with
    | none => (abSignature, s.modSec Sec.failed)
    | some k =>
      if !sigVerify k (c.message s.sec.otp.uid) sig then (abSignature, s.modSec Sec.failed)
      else if !s.offers c.level || s.grantsFull via then (abState, s)
      else (0, s.granted1 c)

def execDebugRequest (via : Via) (v : BitVec 8) (challenge : BitVec 384) (s : State) : Out :=
  .next (s.request via 0 false fun s => wrote (s.debugRequest via v.toNat challenge))

def execDebugResponse (via : Via) (sig : BitVec 768) (key : BitVec 776) (s : State) : Out :=
  .next (s.request via 0 false fun s => wrote (s.debugResponse via sig key))

def execChallengeExpiry (via : Via) (s : State) : Out :=
  due s (s.sec.challenges.any (fun c => decide (c.endpoint = via)))
    (s.modSec fun x => { x with challenges := x.challenges.filter (fun c => decide (c.endpoint ≠ via)) })

def execLockoutExpiry (s : State) : Out :=
  due s s.sec.lockout (s.modSec fun x => { x with lockout := false })

/-- A write of 1 ends the endpoint's grant; any other value does nothing. -/
def State.relock (s : State) (via : Via) (v : Nat) : Nat × State :=
  (0, if v = 1 then s.endGrants (fun g => decide (g.endpoint = via)) else s)

def execRelock (via : Via) (v : Nat) (s : State) : Out :=
  .next (s.request via 0 false fun s => wrote (if v < 256 then s.relock via v else (abRange, s)))

/-! ### Halt and resume (R370) -/

/-- May the endpoint's level reach a context: its own tenant's for TENANT, every one above? -/
def State.debugReach (s : State) (via : Via) (c : Nat) : Bool :=
  decide ((s.ctx c).state ≠ .free) && (decide (2 ≤ (s.levelOf via).code) ||
    (match s.viewOf via with
     | .tenant t => decide ((s.ctx c).tenant = t)
     | _ => false))

/-- 0x7002:01 and :02, behind the level check of R366. -/
def State.haltQueue (s : State) (via : Via) (v : Nat) : Nat × State :=
  let c := v % 4096
  if !s.debugReach via c then (abRange, s)
  else (0, s.modQueue c (v / 4096 % 8) fun x => { x with haltAt := some (v / 65536 % 4096), haltBy := some via })

def State.resumeQueue (s : State) (via : Via) (v : Nat) : Nat × State :=
  let c := v % 4096
  if !s.debugReach via c then (abRange, s)
  else (0, s.modQueue c (v / 4096 % 8) fun x => { x with haltAt := none, haltBy := none })

/-- A debug object without a sufficient grant does not exist (R366). -/
def State.debugOnly (s : State) (via : Via) (need : Nat) (f : State → Nat × State) : Nat × State :=
  if (s.levelOf via).code < need then (abObject, s) else f s

def execHalt (via : Via) (v : BitVec 32) (s : State) : Out :=
  .next (s.request via 0 false fun s => wrote (s.debugOnly via 1 fun s => s.haltQueue via v.toNat))

def execResume (via : Via) (v : BitVec 16) (s : State) : Out :=
  .next (s.request via 0 false fun s => wrote (s.debugOnly via 1 fun s => s.resumeQueue via v.toNat))

/-! ### The window (R366) -/

def Sec.aim (x : Sec) (via : Via) (a : BitVec 64) : Sec :=
  { x with window := x.window.filter (fun e => decide (e.1 ≠ via)) ++ [(via, a)] }

def State.setWindow (s : State) (via : Via) (v : Nat) : Nat × State :=
  if v % 8 ≠ 0 then (abRange, s)
  else (0, s.modSec fun x => x.aim via (BitVec.ofNat 64 v))

/-- A keep-table entry written through the window. -/
def Ctx.setKeep (x : Ctx) (v : BitVec 64) : Ctx :=
  { x with count := BitVec.ofNat 32 (fld v 31 0), gen := BitVec.ofNat 16 (fld v 47 32), tenant := fld v 50 48,
           devref := bit v 51, dying := bit v 52 }

/-- A write through the window to memory. R22: where it covers a poisoned block or word only in part, the read it needs
fails, and nothing is written (log 35). -/
def State.writeMem (s : State) (a : Nat) (v : BitVec 64) : Nat × State :=
  if inKeep a then (0, s.modCtx ((a - keepBase) / 8) fun x => x.setKeep v)
  else match (partialUnits a 8).find? (fun u => decide (u ∈ s.poison)) with
    | some u => (abGeneral, s.noteBad u)
    | none => (0, s.wr a (leBytes 8 v.toNat))

/-- A write through the window: no block's registers are described, so a write to one is no step of this model. -/
def State.windowWrite (s : State) (via : Via) (v : BitVec 64) : Nat × State :=
  match s.window via with
  | .mem => s.writeMem (s.windowAddr via) v
  | _ => (abGeneral, s)

/-- Does a write through the window reach a register block? -/
def State.windowRegs (s : State) (via : Via) : Bool :=
  decide (2 ≤ (s.levelOf via).code) && (match s.window via with
    | .regs _ => true
    | _ => false)

def execWindowAddress (via : Via) (v : BitVec 64) (s : State) : Out :=
  .next (s.request via 0 false fun s => wrote (s.debugOnly via 2 fun s => s.setWindow via v.toNat))

def execWindowDataRead (via : Via) (s : State) : Out :=
  .next (s.request via 0 false fun s => s.readObj via 0 0x7001 2)

def execWindowDataWrite (via : Via) (v : BitVec 64) (s : State) : Out :=
  if s.up && s.windowRegs via then .refused .registerBlock
  else .next (s.request via 0 false fun s => wrote (s.debugOnly via 2 fun s => s.windowWrite via v))

end Sys2Proof.Machine
end

