-- ==== Sys2Proof/Machine/Commit.lean ====
section
/-!
DEFINITION. Provisioning sessions (R282 to R286, R365): staging with its digest, the constraints a commit checks (R284 and
the rules it names), and what a commit does.
-/

namespace Sys2Proof.Machine

/-! ### The values in force overlaid with the staged ones -/

/-- Port, index and sub-index to value. -/
abbrev Ov := Nat → Nat → Nat → Nat

/-- The staged value of a key: the later one counts (R283). -/
def stagedVal (st : List (Nat × Nat)) (k : Nat) : Option Nat := (st.reverse.find? (fun e => decide (e.1 = k))).map (·.2)

def State.overlay (s : State) (st : List (Nat × Nat)) : Ov := fun port i sub =>
  (stagedVal st (objKey port i sub)).getD (s.val i sub port)

/-- An object that breaks a constraint: index and sub-index (0x1E41:08). -/
abbrev Bad := Option (Nat × Nat)

/-- The first number of a list that a test finds bad. -/
def firstBad (l : List Nat) (f : Nat → Bad) : Bad := l.findSome? f

/-- A conditional failure. -/
def badIf (b : Bool) (i sub : Nat) : Bad := if b then some (i, sub) else none

/-- The value with which a running sum passes its limit. -/
def overAt (limit : Nat) : Nat → List ((Nat × Nat) × Nat) → Bad
  | _, [] => none
  | acc, (k, v) :: r => if limit < acc + v then some k else overAt limit (acc + v) r

/-- The sum of one sub-index over indices `base` to `base + n - 1`. -/
def sumBad (o : Ov) (limit base n sub : Nat) : Bad :=
  overAt limit 0 ((List.range n).map (fun t => ((base + t, sub), o 0 (base + t) sub)))

/-! ### The frame (R44, R60, R108) -/

def frameBad (o : Ov) : Bad :=
  let p := o 0 0x3000 1
  let w := o 0 0x3000 9
  let g := o 0 0x3000 0x0A
  badIf (decide (p < w + g + 132)) 0x3000 9 <|> badIf (decide (p ≤ o 0 0x3000 4)) 0x3000 4 <|>
    firstBad (List.range 8) (fun t => badIf (decide (w < o 0 0x3100 (t + 1))) 0x3100 (t + 1)) <|>
    firstBad (List.range 16) (fun c => badIf (decide (w < o 0 (0x4500 + c) 4)) (0x4500 + c) 4) <|>
    firstBad (List.range 32) (fun n => badIf (decide (p ≤ o 0 (0x1E20 + n) 6)) (0x1E20 + n) 6)

/-! ### Bindings (R222, R263) -/

def bindOf (o : Ov) (t : Nat) : BitVec 64 := BitVec.ofNat 64 (o 0 0x3500 (t + 1))

/-- A binding that fails by itself. -/
def bindBad (b : BitVec 64) : Bool :=
  let kind := fld b 1 0
  (decide (kind = 1) && decide (fld b 33 2 = 0)) ||
    (decide (kind = 2) && (decide (6 ≤ fld b 39 37) || (decide (fld b 39 37 < 4) && decide (fld b 46 40 = 0))))

/-- Do two bindings name the same function, partition or SDO channel? -/
def bindClash (a b : BitVec 64) : Bool :=
  let ka := fld a 1 0
  let kb := fld b 1 0
  decide (ka ≠ 0) && decide (kb ≠ 0) &&
    (decide (Nat.land (fld a 33 2) (fld b 33 2) ≠ 0) ||
      (decide (ka = 3) && decide (kb = 3) && decide (fld a 36 34 = fld b 36 34)) ||
      (decide (ka = 2) && decide (kb = 2) && decide (fld a 39 37 < 4) && decide (fld a 39 37 = fld b 39 37) &&
        decide (fld a 46 40 = fld b 46 40)))

/-- Is the tenant reached by source address? -/
def bindEth (b : BitVec 64) : Bool := decide (fld b 1 0 = 2) && decide (fld b 39 37 = 4 ∨ fld b 39 37 = 5)

def bindingsBad (o : Ov) : Bad :=
  firstBad (List.range 8) (fun t =>
    badIf (bindBad (bindOf o t) || (List.range t).any (fun u => bindClash (bindOf o u) (bindOf o t))) 0x3500 (t + 1) <|>
      badIf (bindEth (bindOf o t) && (List.range t).any (fun u => bindEth (bindOf o u) &&
        decide (o 0 0x3505 (u + 1) = o 0 0x3505 (t + 1)))) 0x3505 (t + 1))

/-! ### Floors and shares (R230, R232, R235) -/

def floorsBad (o : Ov) : Bad :=
  firstBad (List.range 24) (fun l => sumBad o 58 0x3510 9 (l + 1)) <|>
    firstBad [0x19, 0x1A] (fun l => sumBad o 60 0x3510 9 l)

/-- A page range of a tenant (first at `sub`, count at `sub + 1`) beyond its limit, or over a range of a lower tenant; an
empty range lies over none. -/
def rangeBad (o : Ov) (t sub limit : Nat) : Bad :=
  let a := o 0 (0x3520 + t) sub
  let n := o 0 (0x3520 + t) (sub + 1)
  if n = 0 then none
  else badIf (decide (limit < a + n)) (0x3520 + t) (sub + 1) <|>
    badIf ((List.range t).any (fun u =>
      decide (o 0 (0x3520 + u) (sub + 1) ≠ 0) && decide (a < o 0 (0x3520 + u) sub + o 0 (0x3520 + u) (sub + 1) ∧ o 0 (0x3520 + u) sub < a + n))) (0x3520 + t) sub

def State.sharesBad (s : State) (o : Ov) : Bad :=
  let pages := s.usable / 65536
  firstBad (List.range 8) (fun t =>
    rangeBad o t 1 pages <|> rangeBad o t 3 pages <|> rangeBad o t 5 496 <|> rangeBad o t 7 496 <|>
      badIf (decide (o 0 (0x3520 + t) 6 < o 0 (0x3520 + t) 0x18)) (0x3520 + t) 0x18 <|>
      badIf (decide (o 0 (0x3520 + t) 8 < o 0 (0x3520 + t) 0x19)) (0x3520 + t) 0x19) <|>
    firstBad (List.range 8) (fun p => sumBad o 64 0x3520 8 (9 + p)) <|>
    firstBad (List.range 4) (fun m =>
      if (s.fab m).desc = 0 then none else sumBad o (buildPanel (s.fab m).desc) 0x3520 8 (0x11 + m)) <|>
    sumBad o 44 0x3520 8 0x15 <|> sumBad o 4096 0x3520 8 0x16

/-! ### Cyclic maps and PDOs (R265, R273 to R275) -/

/-- The view of a map or PDO: a tenant's, or the owner's. -/
def ownerView (t : Nat) : View := if t = 0xFF then .supervisor else .tenant t

def ovChan (o : Ov) (i : Nat) : Nat :=
  match channelSub i with
  | some k => o 0 i k
  | none => 0xFF

/-- What carries entries: a TX map (any readable object), a TPDO (ro, rw, rwt or const), a receiver (rw or rwt, 8 bytes). -/
inductive Carrier where
  | txMap | tpdo | receiver
deriving DecidableEq, Repr

def Carrier.takes (k : Carrier) (r : ObjRow) : Bool :=
  match k with
  | .txMap => decide (r.acc ≠ .wo)
  | .tpdo => decide (r.acc ≠ .wo ∧ r.acc ≠ .rwp)
  | .receiver => decide (r.acc = .rw ∨ r.acc = .rwt) && decide (r.size ≤ 8)

/-- May an entry of a view stand in a map or PDO, at the object's whole size? -/
def entryOk (o : Ov) (w : View) (k : Carrier) (i sub bytes : Nat) : Bool :=
  match viewLookup (ovChan o) w 0 i sub with
  | .error _ => false
  | .ok r => decide (r.size = bytes) && k.takes r

/-- A map entry of Table 11-6. -/
def mapEntryBad (o : Ov) (n k : Nat) : Bad :=
  let i := 0x1E20 + n
  let e := o 0 i (0x10 + k)
  badIf (!entryOk o (ownerView (o 0 i 8)) (if n < 16 then .txMap else .receiver) (e / 65536) (e / 256 % 256) (e % 256)) i (0x10 + k)

def mapBytes (o : Ov) (n : Nat) : Nat := ((List.range (o 0 (0x1E20 + n) 9)).map (fun k => o 0 (0x1E20 + n) (0x10 + k) % 256)).sum

def mapsBad (o : Ov) : Bad :=
  firstBad (List.range 32) (fun n =>
    firstBad (List.range (o 0 (0x1E20 + n) 9)) (mapEntryBad o n) <|>
      badIf (decide (1024 < mapBytes o n)) (0x1E20 + n) 9)

/-- Frame time of a TX map in 10 ns, from preamble to gap (R274): 32 header bytes, UDP, IPv4, Ethernet and FCS, the tag, and
20 byte times. A port whose link is down counts at 1000 Mb/s (DEDUCED, log 37). -/
def State.mapTime (s : State) (o : Ov) (n : Nat) : Nat :=
  let bytes := mapBytes o n + 32 + 8 + 20 + 14 + 4 + (if o 0 (0x1E20 + n) 7 = 0 then 0 else 4) + 20
  let ns := if (s.eth (o 0 (0x1E20 + n) 2)).speed = 100 then 80 else 8
  (bytes * ns + 9) / 10

def State.windowsBad (s : State) (o : Ov) : Bad :=
  let on (n : Nat) := decide (o 0 (0x1E20 + n) 1 = 1)
  let a (n : Nat) := o 0 (0x1E20 + n) 6
  let z (n : Nat) := a n + s.mapTime o n
  firstBad (List.range 16) (fun n =>
    badIf (on n && (decide (o 0 0x3000 1 < z n) ||
      (List.range n).any (fun m => on m && decide (o 0 (0x1E20 + m) 2 = o 0 (0x1E20 + n) 2) &&
        decide (a n < z m ∧ a m < z n)))) (0x1E20 + n) 6)

/-- Keys that may hold a value other than the default. -/
def State.listed (s : State) (st : List (Nat × Nat)) : List Nat := s.obj.map (·.1) ++ st.map (·.1)

/-- One PDO mapping entry: index, sub-index, bits. -/
def pdoEntryBad (o : Ov) (port i sub : Nat) : Bad :=
  let e := o port i sub
  let kind : Carrier := if 0x1A00 ≤ i then .tpdo else .receiver
  let t := o port (i - 0x200) 7
  if e = 0 then none
  else badIf (decide (e % 8 ≠ 0) || !entryOk o (ownerView t) kind (e / 65536) (e / 256 % 256) (e % 256 / 8)) i sub

/-- Bytes that a PDO maps. -/
def pdoBytes (o : Ov) (port i : Nat) : Nat := ((List.range 64).map (fun k => o port i (k + 1) % 256 / 8)).sum

/-- A TPDO of type 254 needs a frame divider from 1 to 255 (R265). -/
def dividerBad (o : Ov) (port i : Nat) : Bad :=
  badIf (decide (o port i 1 < 2 ^ 31 ∧ o port i 2 = 254) && !decide (1 ≤ o port i 5 ∧ o port i 5 ≤ 255)) i 5

def State.pdosBad (s : State) (st : List (Nat × Nat)) (o : Ov) : Bad :=
  firstBad (s.listed st) (fun k =>
    let i := k / 2 ^ 8 % 2 ^ 16
    if 0x1800 ≤ i ∧ i < 0x1810 then dividerBad o (k / 2 ^ 24) i
    else if (0x1600 ≤ i ∧ i < 0x1610) ∨ (0x1A00 ≤ i ∧ i < 0x1A10) then
      pdoEntryBad o (k / 2 ^ 24) i (k % 2 ^ 8) <|> badIf (decide (64 < pdoBytes o (k / 2 ^ 24) i)) i (k % 2 ^ 8)
    else none)

/-! ### Thresholds, rails, cap (R306, R340, R352) -/

def thresholdsBad (o : Ov) : Bad :=
  firstBad [0x5060, 0x5860] (fun b => firstBad (List.range 8) (fun k =>
    badIf (decide (o 0 (b + k) 0x0A ≤ o 0 (b + k) 9)) (b + k) 9))

/-- A rail limit is 0, or from the fused reserved current to the fused absolute limit (Table 14-4). -/
def railsBad (o : Ov) : Bad :=
  firstBad ((List.range 15).map (· + 1)) (fun r =>
    let v := o 0 0x4001 r
    badIf (decide (v ≠ 0) && (decide (v < Config.fusedReserved r) || decide (Config.fusedAbsolute r < v))) 0x4001 r)

/-- P_R of R352 against the cap, both times 8 P, in 10 ns steps. -/
def capBad (o : Ov) : Bad :=
  let p := o 0 0x3000 1
  let w := o 0 0x3000 9
  let g := o 0 0x3000 0x0A
  badIf (decide (8 * p * o 0 0x4000 1 < 240 * p + 95 * (8 * (w + 128) + (p - w - g - 68)))) 0x4000 1

/-! ### What the staged values themselves may ask (R360, R362, R363, R372) -/

/-- May the device go from one lifecycle state to a target (Table 15-3)? -/
def lifeStep (a : Life) (target : Nat) : Bool :=
  match a with
  | .provisioned => decide (target = 2 ∨ target = 3 ∨ target = 4)
  | .fielded => decide (target = 3 ∨ target = 4)
  | .recalled => decide (target = 4)
  | .blank | .scrapped => false

/-- Slots that would be ACTIVE after the commit. -/
def State.activeAfter (s : State) (st : List (Nat × Nat)) : List Nat :=
  (List.range 3).filter (fun k =>
    ((s.ownerKey k).isSome || (stagedVal st (objKey 0 0x2210 (k + 1))).isSome) &&
      decide (stagedVal st (objKey 0 0x2210 7) ≠ some k))

def State.keysBad (s : State) (slot : Nat) (st : List (Nat × Nat)) : Bad :=
  firstBad (List.range 3) (fun k =>
    badIf ((stagedVal st (objKey 0 0x2210 (k + 1))).isSome && decide ((tget {} s.sec.otp.slots k).state ≠ .empty)) 0x2210
      (k + 1)) <|>
    (match stagedVal st (objKey 0 0x2210 7) with
     | some k => badIf (decide (k ≠ 0xFF) && (decide (k = slot) ||
        (decide (s.activeAfter st = []) && decide (stagedVal st (objKey 0 0x2200 2) ≠ some 4)))) 0x2210 7
     | none => none)

def Otp.min (x : Otp) (i : Nat) : Nat := if i = 1 then x.minG else if i = 2 then x.minB else x.minN

def State.minimaBad (s : State) (st : List (Nat × Nat)) : Bad :=
  firstBad [1, 2, 3] (fun i => match stagedVal st (objKey 0 0x2211 i) with
    | some v => badIf (decide (fld (s.imageVersion i) 31 24 < v) || decide (v < s.sec.otp.min i)) 0x2211 i
    | none => none)

def State.lifeBad (s : State) (st : List (Nat × Nat)) : Bad :=
  (match stagedVal st (objKey 0 0x2200 2) with
   | some v => badIf (decide (v ≠ 0xFF) && !lifeStep s.sec.otp.life v) 0x2200 2
   | none => none) <|>
    (match stagedVal st (objKey 0 0x2240 2) with
     | some v => badIf (decide (v = 0) && decide (s.frame.tickState = .fallbackHold)) 0x2240 2
     | none => none)

/-- Step 2 of R284: the first constraint that fails, those that R284 names first. -/
def State.commitBad (s : State) (slot : Nat) (st : List (Nat × Nat)) : Bad :=
  let o := s.overlay st
  frameBad o <|> bindingsBad o <|> floorsBad o <|> s.sharesBad o <|> s.windowsBad o <|> s.pdosBad st o <|> mapsBad o <|>
    thresholdsBad o <|> railsBad o <|> capBad o <|> s.minimaBad st <|> s.keysBad slot st <|> s.lifeBad st

/-! ### Staging (R283, R365) -/

/-- Named bits of values that have reserved ones (R6). -/
def maskValue (i sub v : Nat) : Nat :=
  if i = 0x1016 then v % 2 ^ 24
  else if 0x1E20 ≤ i ∧ i < 0x1E40 ∧ sub = 7 then v % 2 ^ 15
  else if i = 0x3500 then v % 2 ^ 47
  else if i = 0x2240 ∧ sub = 3 then v % 8
  else if i = 0x2240 ∧ (sub = 6 ∨ sub = 7) then v % 2 ^ 29 + v / 2 ^ 31 % 2 * 2 ^ 31
  else v

/-- Table 15-4: may a session stage this? -/
def State.mayStage (s : State) (i sub v : Nat) : Bool :=
  match s.sec.otp.life with
  | .provisioned => true
  | .fielded => decide (i = 0x2103) || decide (i = 0x2200 ∧ sub = 2) || decide (i = 0x2210 ∨ i = 0x2211) ||
      decide (i = 0x2240) || decide (i = 0x3502) || (decide (0x6001 ≤ i ∧ i < 0x6005) && decide (sub ≤ 2))
  | .recalled => decide (i = 0x2200 ∧ sub = 2 ∧ v = 4) || decide (i = 0x2210 ∧ sub = 7) || decide (i = 0x2240) ||
      decide (0x1E00 ≤ i ∧ i ≤ 0x1E13)
  | .blank | .scrapped => false

/-- The checks of an installed waiver (R190): abort 0 or the refusal. -/
def State.waiverCheck (s : State) (v : Nat) : Nat :=
  let w : BitVec 1024 := BitVec.ofNat 1024 v
  match s.ownerKey (fld w 81 80) with
  | none => abSignature
  | some k =>
    if !sigVerify k (leBytes 32 (fld w 255 0)) (BitVec.ofNat 768 (fld w 1023 256)) then abSignature
    else if fld w 255 128 ≠ s.sec.otp.uid.toNat then abWaiver
    else if fld w 7 6 ≠ 0 ∨ fld w 127 82 ≠ 0 then abReserved
    else if fld w 2 0 = 0 ∨ 3 < fld w 2 0 ∨ fld w 5 3 ≤ fld w 2 0 ∨ 4 < fld w 5 3 ∨ fld w 79 72 = 0 then abRange
    else 0

/-- The checks of one staging write: lifecycle, length, range, structured values. -/
def State.stageCheck (s : State) (r : ObjRow) (i sub len v : Nat) : Nat :=
  if !s.mayStage i sub v then abState
  else if len ≠ r.size then abLength
  else if !objRange r i sub (maskValue i sub v) then abRange
  else if i = 0x2103 then s.waiverCheck v
  else if i = 0x2210 ∧ sub ≤ 3 then (if keyOk (BitVec.ofNat 776 v) then 0 else abRange)
  else if i = 0x2220 then (if v = 0 ∨ keyOk (BitVec.ofNat 776 v) = true then 0 else abRange)
  else 0

/-- The digest after one more staged write; the value counts as it was written. -/
def nextDigest (d : BitVec 384) (i sub len v : Nat) : BitVec 384 :=
  digestVal (leBytes 48 d.toNat ++ leBytes 2 i ++ leBytes 1 sub ++ leBytes 2 len ++ leBytes len v)

def firstDigest (nonce : BitVec 384) (uid : BitVec 128) (slot : Nat) : BitVec 384 :=
  digestVal (leBytes 48 nonce.toNat ++ leBytes 16 uid.toNat ++ leBytes 1 slot)

def Session.stage (x : Session) (port i sub len v : Nat) : Session :=
  { x with
    digest := nextDigest x.digest i sub len v
    staged := x.staged ++ [(objKey port i sub, maskValue i sub v)] }

/-- One rwp write by the endpoint of the session. -/
def State.stage (s : State) (x : Session) (r : ObjRow) (port i sub len v : Nat) : Nat × State :=
  match s.stageCheck r i sub len v with
  | 0 => (0, s.modNet fun n => { n with session := some (x.stage port i sub len v) })
  | a => (a, s)

/-! ### Opening and closing (R282, R286, R365, R390) -/

def State.openSession (s : State) (via : Via) (slot : Nat) (nonce : BitVec 384) : Nat × State :=
  if s.net.session.isSome then (abSessionOpen, s)
  else if s.sec.otp.life = .blank ∨ s.sec.otp.life = .scrapped then (abState, s)
  else if s.boot.dev = .recovery ∧ s.boot.recoveryKey ≠ some slot then (abState, s)
  else
    let x : Session := { endpoint := via, slot := slot, nonce := nonce, digest := firstDigest nonce s.sec.otp.uid slot }
    (0, s.modNet fun n => { n with session := some x })

/-- The session of this endpoint. -/
def State.mySession (s : State) (via : Via) : Option Session :=
  match s.net.session with
  | some x => if x.endpoint = via then some x else none
  | none => none

def State.closeSession (s : State) (via : Via) (v : Nat) : Nat × State :=
  match s.mySession via with
  | none => (abState, s)
  | some _ => (0, if v = 1 then s.modNet fun n => { n with session := none } else s)

/-! ### The commit (R284, R285) -/

/-- A key fused into its slot (R362). -/
def State.fuseKey (s : State) (k v : Nat) : State :=
  let key : BitVec 776 := BitVec.ofNat 776 v
  s.modSec fun x => { x with
    keys := tset 0 x.keys k key
    otp := { x.otp with slots := tset {} x.otp.slots k ⟨digestVal (leBytes 97 v), .active⟩ } }

/-- A slot revoked: every waiver signed with it goes (R362). -/
def State.revokeSlot (s : State) (k : Nat) : State :=
  let s := s.modOtp fun o => { o with slots := tmod {} o.slots k fun x => { x with state := .revoked } }
  s.each (List.range 4) fun s n =>
    let w : BitVec 1024 := BitVec.ofNat 1024 (s.val 0x2103 (n + 1))
    if w ≠ 0 ∧ fld w 81 80 = k then
      (s.setVal (objKey 0 0x2103 (n + 1)) 0).modSec fun x => { x with waiverBoots := tset 0 x.waiverBoots n 0 }
    else s

def Otp.raise (x : Otp) (i v : Nat) : Otp :=
  if i = 1 then { x with minG := max x.minG v } else if i = 2 then { x with minB := max x.minB v }
  else { x with minN := max x.minN v }

/-- A waiver written into a slot brings its boots; the same record again raises none (R191). -/
def State.installWaiver (s : State) (n v : Nat) : State :=
  if s.val 0x2103 (n + 1) = v then s
  else s.modSec fun x => { x with waiverBoots := tset 0 x.waiverBoots n (fld (BitVec.ofNat 1024 v) 79 72) }

/-- A device reset asked for by 0x3502:00; in Ground recovery it starts at once (R391). -/
def State.deviceReset (s : State) (v : Nat) : State :=
  let s := if v = 1 then s.requestWarm 3 else s.requestCold
  if s.boot.dev = .recovery then s.modBoot fun b => { b with warmDue := true } else s

/-- A committed power state (R372, R373): RUN in DOZE is a wake of cause 1. -/
def State.powerRequest (s : State) (v : Nat) : State :=
  if s.sec.power = .doze then
    (if v = 0 then s.modSec fun x => { x with wakeWaiting := some (x.wakeWaiting.getD 1), waking := true } else s)
  else s.modSec fun x => { x with powerReq := some (PowerState.ofCode v) }

/-- What one staged value does besides standing in force. -/
def State.applyOne (s : State) (life : Bool) (k v : Nat) : State :=
  let i := k / 2 ^ 8 % 2 ^ 16
  let sub := k % 2 ^ 8
  if i = 0x2210 ∧ sub ≤ 3 then s.fuseKey (sub - 1) v
  else if i = 0x2210 ∧ v ≠ 0xFF then s.revokeSlot v
  else if i = 0x2211 then s.modOtp fun o => o.raise sub v
  else if i = 0x2103 then s.installWaiver (sub - 1) v
  else if i = 0x2200 ∧ sub = 2 ∧ v ≠ 0xFF then s.modSec fun x => { x with lifeReq := some (Life.ofCode v) }
  else if i = 0x2240 ∧ sub = 2 ∧ v ≠ 0xFF then (if life then s else s.powerRequest v)
  else if i = 0x3502 ∧ v ≠ 0 then s.deviceReset v
  else if 0x6001 ≤ i ∧ i < 0x6005 ∧ sub = 2 ∧ v ≠ 0xFF then
    s.modFab (i - 0x6001) fun f => { f with reconfig := some v, newCopy := none }
  else s

/-- Steps 3 and 4: the later value of each key, in the order of staging. -/
def State.applyAll (s : State) (st : List (Nat × Nat)) : State :=
  let life := match stagedVal st (objKey 0 0x2200 2) with
    | some v => decide (v ≠ 0xFF)
    | none => false
  let final := st.filter (fun e => decide (stagedVal st e.1 = some e.2))
  let s := final.foldl (fun s e => (s.applyOne life e.1 e.2).setVal e.1 e.2) s
  if s.boot.storeLost then s.modBoot fun b => { b with storeFresh := true } else s

/-- A commit ends the session, whatever it answers. -/
def State.endSession (s : State) (res fail : Nat) : Nat × State :=
  (res, s.modNet fun n =>
    { n with session := none, lastCommit := BitVec.ofNat 32 res, failObj := BitVec.ofNat 32 fail })

/-- The store written with the provisioned values. -/
def State.writeStore (s : State) : State := s.modBoot fun b => { b with store := b.store.write s.provisioned }

/-- Steps 1 and 2: abort 0, or the abort and the first failing object. -/
def State.commitJudge (s : State) (x : Session) (sig : BitVec 768) : Nat × Nat :=
  match s.ownerKey x.slot with
  | none => (abSignature, 0)
  | some k =>
    if !sigVerify k (leBytes 48 x.digest.toNat) sig then (abSignature, 0)
    else match s.commitBad x.slot x.staged with
      | some (i, sub) => (abConstraint, i * 2 ^ 16 + sub * 2 ^ 8)
      | none => (0, 0)

def State.commit (s : State) (via : Via) (sig : BitVec 768) : Nat × State :=
  match s.mySession via with
  | none => (abState, s)
  | some x =>
    let (res, fail) := s.commitJudge x sig
    if res = 0 then (s.applyAll x.staged).writeStore.endSession 0 0 else s.endSession res fail

/-- R286: 60 s without a request of the endpoint. -/
def execSessionTimeout (s : State) : Out :=
  due s s.net.session.isSome (s.modNet fun n => { n with session := none })

/-! ### Keys outside a session (R362, R390) -/

/-- The first owner key, in BLANK. -/
def State.blankKey (s : State) (v : Nat) : Nat × State :=
  if !keyOk (BitVec.ofNat 776 v) then (abRange, s)
  else (0, (s.fuseKey 0 v).modOtp fun o => { o with life := .provisioned })

/-- A key written again after the store was lost: it must match the OTP hash of its ACTIVE slot. -/
def State.recoveryKey (s : State) (slot v : Nat) : Nat × State :=
  let x := tget {} s.sec.otp.slots slot
  if x.state = .active ∧ x.hash = digestVal (leBytes 97 v) then
    (0, (s.modSec fun y => { y with keys := tset 0 y.keys slot (BitVec.ofNat 776 v), badKeys := y.badKeys.erase slot }).modBoot fun b =>
      { b with recoveryKey := some (b.recoveryKey.getD slot) })
  else (abState, s)

end Sys2Proof.Machine
end

