-- ==== Sys2Proof/Machine/Dictionary.lean ====
section
/-!
DEFINITION. Writes of the dictionary (R255, R256, R259, R260) and the rows that are one object's write.
-/

namespace Sys2Proof.Machine

/-! ### rwt writes (R256) -/

/-- Ticks until a write accepted now acts: the next, or the one after once GUARD has begun. -/
def State.rwtTicks (s : State) : Nat := if s.frame.ticking ∧ s.frame.phase = .guardPhase then 2 else 1

/-- R41: a resume from SAFE acts at its tick as every rwt write does; one from HOLD lets the tick restart; elsewhere there is
nothing to resume. -/
def State.resumeWrite (s : State) (v : Nat) : State :=
  match s.frame.tickState with
  | .fallbackSafe => { s with rwt := s.rwt ++ [⟨objKey 0 0x3002 0, v, s.rwtTicks⟩] }
  | .fallbackHold => s.modFrame fun f => { f with resumeHold := true }
  | _ => s

/-- Is the source's own lock LOCKED or SLEWING (0x3001:07)? -/
def State.lockHeld (s : State) : Bool :=
  decide (s.atReset 0x3000 2 = 0) || decide (s.frame.lock = .locked ∨ s.frame.lock = .slewing)

/-- An accepted rwt write: stored, and queued for its tick. 0x3104 reads its state, so its value is not stored. -/
def State.rwtWrite (s : State) (i sub v : Nat) : Nat × State :=
  let k := objKey 0 i sub
  if i = 0x3002 then
    (if s.lockHeld then (0, (s.setVal k v).resumeWrite v) else (abState, s))
  else
    let s := { s with rwt := s.rwt ++ [⟨k, v, s.rwtTicks⟩] }
    (0, if i = 0x3104 then s else s.setVal k v)

/-! ### rw and wo writes with an effect of their own -/

/-- R260, R108: may a view select a context number? A tenant's ledger selector takes own contexts only. -/
def State.maySelect (s : State) (w : View) (own : Bool) (c : Nat) : Bool :=
  match w with
  | .tenant t =>
    if (s.ctx c).state = .free then !own else decide ((s.ctx c).tenant = t)
  | _ => true

/-- A doorbell written to 0x3411:00 (Table 9-7). -/
def State.bell (s : State) (via : Via) (w : BitVec 64) : State :=
  if bellTarget w = 8 then doorbellConsumer s via w else doorbellQueue s via w

/-- 0x3412:00 acts for the tenant of the view. -/
def State.keepWrite (s : State) (via : Via) (v : Nat) : Nat × State :=
  match s.bellSender via with
  | some t => keepUpdate s t (BitVec.ofNat 192 v)
  | none => (abView, s)

/-- The views from which 0x3501:s may be written: the tenant's own, or the endpoint of a session (R238). -/
def State.tenantReset (s : State) (via : Via) (sub : Nat) : Nat × State :=
  if (s.mySession via).isSome ∨ s.viewOf via = .tenant (sub - 1) then (0, s.requestTenantReset (sub - 1)) else (abView, s)

/-- 0x3550:s: a 1 clears its bit, a 0 changes nothing (R228). -/
def State.clearNotify (s : State) (t v : Nat) : State :=
  s.modTen t fun x => { x with notify := x.notify &&& ~~~ BitVec.ofNat 64 v }

/-- The session objects. -/
def State.sessionWrite (s : State) (via : Via) (sub v : Nat) (nonce : BitVec 384) : Nat × State :=
  if sub = 1 then s.openSession via v nonce
  else if sub = 4 then s.commit via (BitVec.ofNat 768 v)
  else s.closeSession via v

/-- The debug objects of 0x2230. -/
def State.debugWrite (s : State) (via : Via) (sub v : Nat) (fresh : BitVec 384) : Nat × State :=
  if sub = 2 then s.debugRequest via v fresh
  else if sub = 3 then s.debugResponse via (BitVec.ofNat 768 v) Config.vendorDebugKey
  else s.relock via v

/-- An rw write that depends on nothing but the view: selectors, notifications, the clock. -/
def State.viewWrite (s : State) (w : View) (i sub v : Nat) : Nat × State :=
  if i = 0x2241 then (0, s.modSec fun x => { x with rtc := BitVec.ofNat 64 v, rtcSet := true, rtcAt := s.frame.now })
  else if i = 0x3401 then
    (if s.maySelect w false v then (0, s.modView w fun x => { x with ctxSel := v }) else (abRange, s))
  else if i = 0x4640 then
    (if s.maySelect w true v then (0, s.modView w fun x => { x with ledgerSel := v }) else (abRange, s))
  else if i = 0x3550 then (0, s.clearNotify (sub - 1) v)
  else if i = 0x7002 then (0, s.modView w fun x => { x with queueSel := v })
  else (abView, s)

/-- 0x7001 and 0x7002:01 and :02. -/
def State.windowHaltWrite (s : State) (via : Via) (i sub v : Nat) : Nat × State :=
  if i = 0x7001 then (if sub = 1 then s.setWindow via v else s.windowWrite via (BitVec.ofNat 64 v))
  else if sub = 1 then s.haltQueue via v
  else s.resumeQueue via v

/-- An rw or wo write whose length and range are right, applied at once. `fresh`: the value a session or challenge draws. -/
def State.applyWrite (s : State) (via : Via) (i sub v : Nat) (fresh : BitVec 384) : Nat × State :=
  if i = 0x1E41 then s.sessionWrite via sub v fresh
  else if i = 0x2230 then s.debugWrite via sub v fresh
  else if i = 0x3410 then contextCommand s via (BitVec.ofNat 128 v) (BitVec.ofNat 1024 (v / 2 ^ 128))
  else if i = 0x3411 then (0, s.bell via (BitVec.ofNat 64 v))
  else if i = 0x3412 then s.keepWrite via v
  else if i = 0x3501 then s.tenantReset via sub
  else if i = 0x7001 ∨ (i = 0x7002 ∧ sub ≤ 2) then s.windowHaltWrite via i sub v
  else s.viewWrite (s.viewOf via) i sub v

/-! ### The checks of a write (R255, R259, R282) -/

/-- Device-wide objects that only the supervisor's view writes (R259). -/
def supervisorOnly (i : Nat) : Bool := decide (i = 0x3002 ∨ i = 0x2241)

/-- May a request write a device-wide object: the supervisor's, or the endpoint's of a session (R259), but for the clock,
which only the supervisor writes (Table 15-9)? -/
def State.mayWriteWide (s : State) (via : Via) (i : Nat) : Bool :=
  decide (s.viewOf via = .supervisor) || (decide (i = 0x3002) && (s.mySession via).isSome)

/-- A write to an object that a view shows. -/
def State.writeShown (s : State) (via : Via) (r : ObjRow) (i sub len v : Nat) (fresh : BitVec 384) : Nat × State :=
  match r.acc with
  | .ro | .const => (abReadOnly, s)
  | .rwp => (abNoSession, s)
  | .rw | .wo | .rwt =>
    if supervisorOnly i && !s.mayWriteWide via i then (abView, s)
    else if len ≠ r.size then (abLength, s)
    else if !objRange r i sub v then (abRange, s)
    else if r.acc = .rwt then s.rwtWrite i sub v
    else s.applyWrite via i sub v fresh

/-- May a key be written outside a session: the first key in BLANK (R362), a lost key in Ground recovery (R390)? -/
def State.keyOutside (s : State) (via : Via) (i sub : Nat) : Bool :=
  decide (i = 0x2210 ∧ 1 ≤ sub ∧ sub ≤ 3) && (s.mySession via).isNone &&
    ((decide (s.sec.otp.life = .blank) && decide (sub = 1)) || (decide (s.boot.dev = .recovery) && s.boot.storeLost))

def State.keyWrite (s : State) (sub len v : Nat) : Nat × State :=
  if len ≠ 97 then (abLength, s)
  else if s.sec.otp.life = .blank then s.blankKey v
  else s.recoveryKey (sub - 1) v

/-- An entry that a PDO or cyclic map writes through its view (R265, R275). -/
def State.mapWrite (s : State) (w : View) (i sub v : Nat) : Nat × State :=
  match viewLookup s.channelTenant w 0 i sub with
  | .error a => (a, s)
  | .ok r =>
    if supervisorOnly i && decide (w ≠ .supervisor) then (abView, s)
    else if !objRange r i sub v then (abRange, s)
    else if r.acc = .rwt then s.rwtWrite i sub v
    else s.viewWrite w i sub v

/-- Any write: abort 0, or the refusal with nothing changed. The endpoint of a session stages any rwp object, whatever its
view shows, resumes the tick (DEDUCED, log 38), and may ask for a tenant's reset (R238). -/
def State.writeObj (s : State) (via : Via) (port i sub len v : Nat) (fresh : BitVec 384) : Nat × State :=
  if s.keyOutside via i sub then s.keyWrite sub len v
  else match objRow i sub, s.mySession via with
  | some r, some x =>
    if r.acc = .rwp then s.stage x r port i sub len v
    else if i = 0x3501 ∨ i = 0x3002 then s.writeShown via r i sub len v fresh
    else match s.lookup via i sub with
      | .ok r => s.writeShown via r i sub len v fresh
      | .error a => (a, s)
  | _, _ => match s.lookup via i sub with
    | .ok r => s.writeShown via r i sub len v fresh
    | .error a => (a, s)

/-- Writes that Ground recovery serves: keys, and the session opened against one (R390). -/
def State.earlyWrite (s : State) (via : Via) (i sub : Nat) : Bool :=
  decide (s.boot.dev = .recovery) && s.boot.storeLost &&
    (s.keyOutside via i sub || (s.boot.recoveryKey.isSome && (decide (i = 0x1E41) || (s.mySession via).isSome)))

/-- Does a write reach a register block through the window? No step of this model does that (see Refusal.registerBlock). -/
def State.regsWrite (s : State) (via : Via) (i sub : Nat) : Bool :=
  decide (i = 0x7001 ∧ sub = 2) && s.up && s.windowRegs via

/-- A write through a transport that draws its own nonce or challenge. -/
def State.writeFresh (s : State) (via : Via) (port i sub len v : Nat) : Ans × State :=
  if (i = 0x1E41 ∧ sub = 1) ∨ (i = 0x2230 ∧ sub = 2) then
    let (k, s) := s.takeFree
    wrote (s.writeObj via port i sub len v (Config.freeNonce k))
  else wrote (s.writeObj via port i sub len v 0)

/-- One object's write as a row of its own. -/
def State.rowWrite (s : State) (via : Via) (port i sub len v : Nat) (fresh : BitVec 384) : State :=
  s.request via 0 (s.earlyWrite via i sub) fun s => wrote (s.writeObj via port i sub len v fresh)

/-! ### The rows -/

def execObjectWrite (via : Via) (port idx sub len v outstanding : Nat) (s : State) : Out :=
  if s.regsWrite via idx sub then .refused .registerBlock
  else .next (s.request via outstanding (s.earlyWrite via idx sub) fun s => s.writeFresh via port idx sub len v)

def execKeepUpdate (via : Via) (v : BitVec 192) (s : State) : Out := .next (s.rowWrite via 0 0x3412 0 24 v.toNat 0)

/-- One byte written to a tenant's reset object. -/
def execTenantResetRequest (via : Via) (t v : Nat) (s : State) : Out := .next (s.rowWrite via 0 0x3501 (t + 1) 1 v 0)

def execNotificationClear (via : Via) (t : Nat) (bits : BitVec 64) (s : State) : Out :=
  .next (s.rowWrite via 0 0x3550 (t + 1) 8 bits.toNat 0)

def execOverrunLatchClear (via : Via) (t v : Nat) (s : State) : Out := .next (s.rowWrite via 0 0x3104 (t + 1) 1 v 0)

def execResumeFromFallback (via : Via) (v : Nat) (s : State) : Out := .next (s.rowWrite via 0 0x3002 0 1 v 0)

/-- `cleared`: has the interface's fault cleared by the tick at which the re-arm acts (R293)? -/
def execPositionRearm (via : Via) (d i v : Nat) (cleared : Bool) (s : State) : Out :=
  due s (decide (d < 2 ∧ i < 4))
    ((s.rowWrite via 0 (gPos d i) 7 1 v 0).modPos d i fun x => { x with cleared := x.cleared || cleared })

def execFaultClear (via : Via) (d k v : Nat) (s : State) : Out :=
  due s (decide (d < 2 ∧ k < 8)) (s.rowWrite via 0 (gLoad d k) 0x0F 1 v 0)

def execSessionOpen (via : Via) (slot : Nat) (nonce : BitVec 384) (s : State) : Out :=
  .next (s.rowWrite via 0 0x1E41 1 1 slot nonce)

def execSessionStage (via : Via) (port idx sub len v : Nat) (s : State) : Out :=
  if s.regsWrite via idx sub then .refused .registerBlock else .next (s.rowWrite via port idx sub len v 0)

def execSessionClose (via : Via) (v : Nat) (s : State) : Out := .next (s.rowWrite via 0 0x1E41 5 1 v 0)

def execWaiverInstall (via : Via) (slot : Nat) (w : BitVec 1024) (s : State) : Out :=
  .next (s.rowWrite via 0 0x2103 (slot + 1) 128 w.toNat 0)

def execOwnerKeyWrite (via : Via) (key : BitVec 776) (s : State) : Out := .next (s.rowWrite via 0 0x2210 1 97 key.toNat 0)

def execRecoveryKeyWrite (via : Via) (slot : Nat) (key : BitVec 776) (s : State) : Out :=
  .next (s.rowWrite via 0 0x2210 (slot + 1) 97 key.toNat 0)

def execRtcWrite (via : Via) (v : BitVec 64) (s : State) : Out := .next (s.rowWrite via 0 0x2241 1 8 v.toNat 0)

end Sys2Proof.Machine
end

