-- ==== Sys2Proof/Machine/Network.lean ====
section
/-!
DEFINITION. The transports (R262 to R280): Pranil datagrams and cyclic maps, the PCIe mailbox, supervisor calls, CANopen FD,
ARP, DHCP, ICMP and gPTP.
-/

namespace Sys2Proof.Machine

/-! ### Pranil headers (R270, Table 11-7) -/

def hType (h : BitVec 256) : Nat := fld h 47 40
def hSeq (h : BitVec 256) : Nat := fld h 63 48
def hIndex (h : BitVec 256) : Nat := fld h 79 64
def hSub (h : BitVec 256) : Nat := fld h 87 80
def hPort (h : BitVec 256) : Nat := fld h 89 88
def hLen (h : BitVec 256) : Nat := fld h 111 96

/-- MAGIC, VERSION and the reserved bits. -/
def hdrOk (h : BitVec 256) : Bool :=
  decide (fld h 31 0 = 0x4E415250 ∧ fld h 39 32 = 1) &&
    decide (fld h 95 90 = 0 ∧ fld h 127 112 = 0 ∧ fld h 255 192 = 0)

/-- A datagram that is not discarded. -/
def datagramOk (h : BitVec 256) (payload : List Byte) : Bool :=
  hdrOk h && decide (hLen h = payload.length) && decide (payload.length ≤ 1024)

/-- The header of an answer. -/
def State.answerHdr (s : State) (h : BitVec 256) (type len status : Nat) : BitVec 256 :=
  pranilHdr type (hSeq h) (hIndex h) (hSub h) (hPort h) len status s.frameLo

/-! ### Answers kept and given again (R271) -/

def Answer.from (a : Answer) (ip : BitVec 32) (udp : BitVec 16) : Bool := decide (a.ip = ip ∧ a.udp = udp)

/-- Does a kept answer match a request? -/
def Answer.serves (a : Answer) (ip : BitVec 32) (udp : BitVec 16) (h : BitVec 256) : Bool :=
  a.from ip udp && decide (hSeq a.req = hSeq h ∧ hType a.req = hType h ∧ hIndex a.req = hIndex h ∧ hSub a.req = hSub h)

/-- Keep an answer; of one source, the last sixteen stay. -/
def keepAnswer (l : List Answer) (a : Answer) : List Answer :=
  let mine := l.filter (fun b => b.from a.ip a.udp)
  let l := if 16 ≤ mine.length then
      (match mine.head? with
       | some b => l.erase b
       | none => l)
    else l
  l ++ [a]

/-- The device's own UDP port (R270). -/
def State.pranilPort (s : State) : BitVec 16 := BitVec.ofNat 16 (s.atReset 0x1E00 7)

/-- A datagram from the device's port. -/
def State.sendGram (s : State) (port : Nat) (tag : VlanTag) (ip : BitVec 32) (udp : BitVec 16) (h : BitVec 256)
    (payload : List Byte) : State :=
  s.send (.datagram port tag ip udp s.pranilPort h payload)

/-- An answer goes out with the tag of its request (R268). -/
def State.sendAnswer (s : State) (port : Nat) (tag : VlanTag) (a : Answer) : State :=
  s.sendGram port tag a.ip a.udp a.hdr a.payload

/-- A request that is not discarded: a matching kept answer again, or the answer of `f` (header type, status, payload), kept
and sent. -/
def State.pranil (s : State) (port : Nat) (tag : VlanTag) (ip : BitVec 32) (udp : BitVec 16) (h : BitVec 256)
    (payload : List Byte) (f : State → (Nat × Nat × List Byte) × State) : State :=
  if !datagramOk h payload then s else
  match (s.eth port).answers.find? (fun a => a.serves ip udp h) with
  | some a => s.sendAnswer port tag a
  | none =>
    let ((type, status, bs), s) := f s
    let a : Answer := ⟨ip, udp, h, s.answerHdr h type bs.length status, bs⟩
    (s.modEth port fun x => { x with answers := keepAnswer x.answers a }).sendAnswer port tag a

/-- A request of the dictionary server. -/
def State.pranilServed (s : State) (port : Nat) (tag : VlanTag) (ip : BitVec 32) (udp : BitVec 16) (h : BitVec 256)
    (payload : List Byte) (f : State → (Nat × Nat × List Byte) × State) : State :=
  if s.served then s.pranil port tag ip udp h payload f else s

/-- RESPONSE or ABORT. `n`: the bytes of a value. -/
def response (r : Ans × State) : (Nat × Nat × List Byte) × State :=
  match r with
  | (.ok (n, v), s) => ((0x10, 0, leBytes n v), s)
  | (.error a, s) => ((0x11, a, []), s)

/-- DESCRIBE as a transfer. -/
def State.describeAns (s : State) (via : Via) (h : BitVec 256) : Ans × State :=
  match s.describe via (hIndex h) (hSub h) with
  | .ok v => (.ok (8, v), s)
  | .error a => (.error a, s)

def State.readXfer (s : State) (via : Via) (h : BitVec 256) (outstanding : Nat) : Ans × State :=
  s.perform outstanding (s.earlyRead (hIndex h) (hSub h)) fun s => s.readObj via (hPort h) (hIndex h) (hSub h)

def State.writeXfer (s : State) (via : Via) (h : BitVec 256) (payload : List Byte) (outstanding : Nat) : Ans × State :=
  s.perform outstanding (s.earlyWrite via (hIndex h) (hSub h)) fun s =>
    s.writeFresh via (hPort h) (hIndex h) (hSub h) payload.length (leNat payload)

/-- DESCRIBE is answered before READY, but not in Ground recovery (R381, R389). -/
def State.describeXfer (s : State) (via : Via) (h : BitVec 256) (outstanding : Nat) : Ans × State :=
  s.perform outstanding (decide (s.boot.dev = .starting)) fun s => s.describeAns via h

/-- The port and TYPE of a datagram row; a datagram of another TYPE, a reserved one among them, is discarded (R270). -/
def rowType (port : Nat) (h : BitVec 256) (ty : Nat) : Bool := decide (port < 2) && decide (hType h = ty)

def execPranilRead (x : EthIn) (ip : BitVec 32) (udp : BitVec 16) (hdr : BitVec 256) (payload : List Byte)
    (outstanding : Nat) (s : State) : Out :=
  due s (rowType x.port hdr 1)
    (s.pranilServed x.port x.tag ip udp hdr payload fun s => response (s.readXfer (.eth x.port ip udp) hdr outstanding))

def execPranilWrite (x : EthIn) (ip : BitVec 32) (udp : BitVec 16) (hdr : BitVec 256) (payload : List Byte)
    (outstanding : Nat) (s : State) : Out :=
  if s.regsWrite (.eth x.port ip udp) (hIndex hdr) (hSub hdr) then .refused .registerBlock
  else due s (rowType x.port hdr 2)
    (s.pranilServed x.port x.tag ip udp hdr payload fun s => response (s.writeXfer (.eth x.port ip udp) hdr payload outstanding))

def execDescribe (x : EthIn) (ip : BitVec 32) (udp : BitVec 16) (hdr : BitVec 256) (payload : List Byte)
    (outstanding : Nat) (s : State) : Out :=
  due s (rowType x.port hdr 3)
    (s.pranilServed x.port x.tag ip udp hdr payload fun s => response (s.describeXfer (.eth x.port ip udp) hdr outstanding))

/-! ### CONTROL (R273, R382) -/

/-- START or STOP of a tenant. -/
def State.setStarted (s : State) (t : Nat) (on : Bool) (udp : BitVec 16) : State :=
  s.modTen t fun x => { x with started := on, startUdp := if on then udp else x.startUdp }

/-- Before READY the last CONTROL of each bound source is latched. -/
def EthPort.latch (x : EthPort) (t : Nat) (on : Bool) (udp : BitVec 16) : EthPort :=
  { x with latched := x.latched.filter (fun e => decide (e.1 ≠ t)) ++ [(t, on, udp)] }

def State.control (s : State) (port : Nat) (ip : BitVec 32) (udp : BitVec 16) (payload : List Byte) : Ans × State :=
  if payload.length ≠ 1 then (.error abLength, s)
  else if leNat payload ≠ 1 ∧ leNat payload ≠ 2 then (.error abRange, s)
  else match s.tenantOf (.eth port ip udp) with
    | none => (.ok (0, 0), s)
    | some t =>
      let on := decide (leNat payload = 1)
      (.ok (0, 0), if s.up then s.setStarted t on udp else s.modEth port fun x => x.latch t on udp)

def State.controlXfer (s : State) (port : Nat) (ip : BitVec 32) (udp : BitVec 16) (payload : List Byte) (outstanding : Nat) :
    Ans × State :=
  s.perform outstanding (decide (s.boot.dev = .starting)) fun s => s.control port ip udp payload

def execControlStart (x : EthIn) (ip : BitVec 32) (udp : BitVec 16) (hdr : BitVec 256) (payload : List Byte)
    (outstanding : Nat) (s : State) : Out :=
  due s (rowType x.port hdr 4 && decide (payload ≠ [2]))
    (s.pranilServed x.port x.tag ip udp hdr payload fun s => response (s.controlXfer x.port ip udp payload outstanding))

def execControlStop (x : EthIn) (ip : BitVec 32) (udp : BitVec 16) (hdr : BitVec 256) (payload : List Byte)
    (outstanding : Nat) (s : State) : Out :=
  due s (rowType x.port hdr 4 && decide (payload = [2]))
    (s.pranilServed x.port x.tag ip udp hdr payload fun s => response (s.controlXfer x.port ip udp payload outstanding))

/-! ### DISCOVER (R272) -/

/-- Table 11-10. -/
def State.discovery (s : State) : List Byte :=
  leBytes 32 (Config.partNumber + Config.stepping * 2 ^ 16 + s.boot.dev.code * 2 ^ 24 + s.sec.otp.uid.toNat * 2 ^ 32
    + s.frame.tickState.code * 2 ^ 160 + s.frameLo * 2 ^ 192 + (s.imageVersion 1).toNat * 2 ^ 224)

/-- DISCOVER is answered at every stage of start-up; in ROM recovery Ethernet is silent (R272, R389). -/
def State.discoverable (s : State) : Bool := s.boot.started && decide (s.boot.recovery ≠ .rom)

def execDiscover (x : EthIn) (ip : BitVec 32) (udp : BitVec 16) (hdr : BitVec 256) (payload : List Byte) (s : State) : Out :=
  due s (rowType x.port hdr 0x20 && s.discoverable) (s.pranil x.port x.tag ip udp hdr payload fun s => ((0x21, 0, s.discovery), s))

/-! ### Cyclic maps (R273, R275) -/

/-- No endpoint: what a map or PDO reads of the objects that belong to one is what every other endpoint reads. -/
def nobody : Via := .can 255 0

/-- The value of an entry in a view, as bytes. -/
def State.entryBytes (s : State) (w : View) (port i sub : Nat) : List Byte :=
  match viewLookup s.channelTenant w 0 i sub with
  | .ok r => leBytes r.size (s.value w nobody port i sub r)
  | .error _ => []

def State.mapSet (s : State) (n sub : Nat) : Nat := s.atTick (0x1E20 + n) sub

/-- Entries of a map: index, sub-index, bytes. -/
def State.mapEntries (s : State) (n : Nat) : List (Nat × Nat × Nat) :=
  (List.range (s.mapSet n 9)).map (fun k =>
    let e := s.mapSet n (0x10 + k)
    (e / 65536, e / 256 % 256, e % 256))

/-- Does a map run: enabled, READY, and its tenant STARTED? -/
def State.mapRuns (s : State) (n : Nat) : Bool :=
  decide (s.mapSet n 1 = 1) && s.up && (decide (s.mapSet n 8 = 0xFF) || (s.ten (s.mapSet n 8)).started)

def State.mapBytes (s : State) (n : Nat) : List Byte :=
  (s.mapEntries n).flatMap (fun e => s.entryBytes (ownerView (s.mapSet n 8)) 0 e.1 e.2.1)

/-- Does DIVIDER let the map run in this frame? -/
def State.mapFrame (s : State) (n : Nat) : Bool := decide (s.frame.counter.toNat % s.mapSet n 5 = 0)

/-- GUARD: every running TX map of this frame captures its entries. -/
def State.captureMaps (s : State) : State :=
  s.each (List.range 16) fun s n =>
    if s.mapRuns n && s.mapFrame n then s.modMap n fun x => { x with captured := some (s.mapBytes n) } else s

/-- GUARD: MISSED of every enabled RX map in its frames, where no datagram has arrived since the last GUARD. -/
def State.countMissed (s : State) : State :=
  s.each (List.range 16) fun s n =>
    let n := 16 + n
    let counts := decide (s.mapSet n 1 = 1) && s.mapFrame n && s.boot.ticked
    s.modMap n fun x => { x with missed := if counts && !x.arrived then satInc 32 x.missed else x.missed, arrived := false }

/-- TICK: captured maps fall due at their OFFSET. -/
def State.mapsDue (s : State) : State :=
  s.each (List.range 16) fun s n => s.modMap n fun x => { x with sendDue := x.captured.isSome }

/-- A map's tag; a VLAN of 0 is none (Table 11-6). -/
def State.mapTag (s : State) (n : Nat) : VlanTag :=
  if s.mapSet n 7 = 0 then none else some (BitVec.ofNat 15 (s.mapSet n 7))

/-- The CYCLIC datagram of TX map n. -/
def State.sendMap (s : State) (n : Nat) : State :=
  match (s.map n).captured with
  | none => s
  | some bs =>
    (s.sendGram (s.mapSet n 2) (s.mapTag n) (BitVec.ofNat 32 (s.mapSet n 3)) (BitVec.ofNat 16 (s.mapSet n 4))
      (pranilHdr 0x30 0 n 0 0 bs.length 0 s.frameLo) bs).modMap n fun x =>
        { x with captured := none, sendDue := false, sent := satInc 32 x.sent }

def execCyclicSend (n : Nat) (s : State) : Out :=
  due s (decide (n < 16) && (s.map n).sendDue && (s.map n).captured.isSome) (s.sendMap n)

/-- Write entries packed in order; a refusal of one leaves all unwritten. -/
def State.writeEntries (s : State) (w : View) : List (Nat × Nat × Nat) → List Byte → Option State
  | [], _ => some s
  | (i, sub, n) :: rest, bs =>
    match s.mapWrite w i sub (leNat (bs.take n)) with
    | (0, s) => s.writeEntries w rest (bs.drop n)
    | (_, _) => none

/-- A datagram for RX map n: from its source, its tenant STARTED, of its length, every value in range. -/
def State.receiveMap (s : State) (port : Nat) (ip : BitVec 32) (n : Nat) (payload : List Byte) : State :=
  let m := 16 + n
  let es := s.mapEntries m
  if decide (n < 16) && s.mapRuns m && decide (s.mapSet m 2 = port) && decide (s.mapSet m 3 = ip.toNat) &&
      decide ((es.map (·.2.2)).sum = payload.length) then
    match s.writeEntries (ownerView (s.mapSet m 8)) es payload with
    | some s => s.modMap m fun x => { x with accepted := satInc 32 x.accepted, arrived := true }
    | none => s
  else s

def execRxCyclicReceive (x : EthIn) (ip : BitVec 32) (_udp : BitVec 16) (hdr : BitVec 256) (payload : List Byte)
    (s : State) : Out :=
  due s (rowType x.port hdr 0x30)
    (if s.served && datagramOk hdr payload then s.receiveMap x.port ip (hIndex hdr) payload else s)

/-! ### The mailbox and the supervisor call (R277, R278, R280) -/

/-- A request in the layout of Table 11-7: READ, WRITE or DESCRIBE. -/
def State.mailRequest (s : State) (via : Via) (h : BitVec 256) (payload : List Byte) (outstanding : Nat) : Ans × State :=
  let bs := slice payload 0 (hLen h)
  if !hdrOk h || decide (hType h < 1 ∨ 3 < hType h) then (.error abCommand, s.countAbort)
  else if 1024 < hLen h then (.error abLength, s.countAbort)
  else if hType h = 1 then s.readXfer via h outstanding
  else if hType h = 2 then s.writeXfer via h bs outstanding
  else s.describeXfer via h outstanding

/-- GO on an IDLE mailbox, whose registers hold the request: the response, then the status, then the message. -/
def State.mailbox (s : State) (port func outstanding : Nat) : State :=
  let h := (s.func port func).req
  let (r, s) := s.mailRequest (.pcie port func) h (s.func port func).reqData outstanding
  let (type, status, bs) := (response (r, s)).1
  let s := s.modFunc port func fun f =>
    { f with mbx := if type = 0x10 then .done else .aborted, rspHdr := s.answerHdr h type bs.length status, rspData := bs }
  let vec := (s.func port func).vec
  if bit vec 8 && s.up then s.msix port func (fld vec 7 0) else s

/-- The host's writes of HST_MBX_VEC, HST_MBX_REQ and HST_MBX_REQDATA before it writes GO. -/
def State.mailFill (s : State) (port func : Nat) (vec : BitVec 9) (h : BitVec 256) (payload : List Byte) : State :=
  s.modFunc port func fun f => { f with vec := vec.setWidth 16, req := h, reqData := payload }

/-- Does the function answer its BARs? -/
def State.funcUp (s : State) (port func : Nat) : Bool :=
  decide (port < 2) && decide (func < 16) && (tget {} s.net.pcie port).answering

/-- GO on a mailbox that is not IDLE is ignored. -/
def execMailboxGo (port func : Nat) (vec : BitVec 9) (hdr : BitVec 256) (payload : List Byte) (outstanding : Nat)
    (s : State) : Out :=
  if decide (hType hdr = 2) && s.regsWrite (.pcie port func) (hIndex hdr) (hSub hdr) && decide ((s.func port func).mbx = .idle)
  then .refused .registerBlock
  else due s (s.funcUp port func && s.served)
    (if (s.func port func).mbx = .idle then (s.mailFill port func vec hdr payload).mailbox port func outstanding
     else s.mailFill port func vec hdr payload)

/-- A 1 in bit 31 returns DONE or ABORTED to IDLE. -/
def execMailboxStatusClear (port func : Nat) (v : BitVec 32) (s : State) : Out :=
  due s (s.funcUp port func)
    (if bit v 31 then s.modFunc port func fun f => { f with mbx := if f.mbx = .busy then .busy else .idle } else s)

/-- A call of a Burin partition or of the supervisor itself. -/
def Via.calls (v : Via) : Bool :=
  match v with
  | .supervisor => true
  | .burin p => decide (p < 8)
  | _ => false

/-- The call returns a response header and its payload (R280). -/
def State.call (s : State) (via : Via) (h : BitVec 256) (payload : List Byte) (outstanding : Nat) : State :=
  let ((type, status, bs), s) := response (s.mailRequest via h payload outstanding)
  s.send (.callReply via (s.answerHdr h type bs.length status) bs)

def execSupervisorCall (via : Via) (hdr : BitVec 256) (payload : List Byte) (outstanding : Nat) (s : State) : Out :=
  if decide (hType hdr = 2) && s.regsWrite via (hIndex hdr) (hSub hdr) then .refused .registerBlock
  else due s (Via.calls via && s.served) (s.call via hdr payload outstanding)

/-! ### CANopen FD: NMT (R264, R382) -/

/-- A port that is on the bus. -/
def State.canOn (s : State) (port : Nat) : Bool := decide (port < 4) && decide ((s.can port).nmt ≠ .off)

/-- The boot-up message; the port enters PRE-OPERATIONAL. What it had captured or counted is gone. -/
def State.bootUp (s : State) (port : Nat) : State :=
  if s.atReset 0x1E10 (port + 1) = 0 then s
  else ((s.modCan port fun x =>
    { x with nmt := .preOperational, syncCount := [], captured := [], beats := [], latched := none,
             busOff := false }).errBit port 0x8100 4 false).send (.bootUp port)

/-- Start, Stop and Enter Pre-operational: latched before READY. -/
def State.nmtSet (s : State) (port : Nat) (x : Nmt) : State :=
  if !s.canOn port then s
  else if s.up then s.modCan port fun p => { p with nmt := x }
  else s.modCan port fun p => { p with latched := some x }

def execNmtStart (port _node : Nat) (s : State) : Out :=
  due s (decide (port < 4)) (s.nmtSet port .operational)
def execNmtStop (port _node : Nat) (s : State) : Out :=
  due s (decide (port < 4)) (s.nmtSet port .stopped)
def execNmtEnterPreoperational (port _node : Nat) (s : State) : Out :=
  due s (decide (port < 4)) (s.nmtSet port .preOperational)

def execNmtResetCommunication (port _node : Nat) (s : State) : Out :=
  due s (decide (port < 4)) (if s.canOn port then s.bootUp port else s)

/-- From a bound master, a tenant reset as well; before READY it acts as Reset Communication only. -/
def State.resetNode (s : State) (port node : Nat) : State :=
  if !s.canOn port then s else
  match (if s.up then s.tenantOf (.can port node) else none) with
  | some t => (s.requestTenantReset t).bootUp port
  | none => s.bootUp port

def execNmtResetNode (port node : Nat) (s : State) : Out := due s (decide (port < 4)) (s.resetNode port node)

/-! ### USDO (R262, R263) -/

/-- USDO runs in PRE-OPERATIONAL and OPERATIONAL. -/
def State.usdoOn (s : State) (port : Nat) : Bool :=
  decide (port < 4) && decide ((s.can port).nmt = .preOperational ∨ (s.can port).nmt = .operational)

def State.usdo (s : State) (port node : Nat) (write : Bool) (idx sub : Nat) (payload : List Byte) (outstanding : Nat) : State :=
  if write then
    s.request (.can port node) outstanding (s.earlyWrite (.can port node) idx sub) fun s =>
      s.writeFresh (.can port node) port idx sub payload.length (leNat payload)
  else s.request (.can port node) outstanding (s.earlyRead idx sub) fun s => s.readObj (.can port node) port idx sub

def execUsdoTransfer (port node : Nat) (write : Bool) (idx sub : Nat) (payload : List Byte) (outstanding : Nat)
    (s : State) : Out :=
  if write && s.regsWrite (.can port node) idx sub && s.usdoOn port then .refused .registerBlock
  else due s (decide (port < 4) && decide (1 ≤ node ∧ node ≤ 127))
    (if s.usdoOn port then s.usdo port node write idx sub payload outstanding else s)

def execUsdoProtocolTimeout (port node : Nat) (s : State) : Out :=
  due s (s.usdoOn port) (s.countAbort.answer (.can port node) abTimeout 0 0)

/-! ### PDOs (R265) -/

def State.pdosRun (s : State) (port : Nat) : Bool := decide (port < 4) && decide ((s.can port).nmt = .operational) && s.up

/-- Entries of a PDO's mapping: index, sub-index, bytes. -/
def State.pdoEntries (s : State) (port i : Nat) : List (Nat × Nat × Nat) :=
  ((List.range 64).map (fun k => s.atReset i (k + 1) port)).filterMap (fun e =>
    if e = 0 then none else some (e / 65536, e / 256 % 256, e % 256 / 8))

def State.pdoOn (s : State) (port i : Nat) : Bool := decide (s.atReset i 1 port < 2 ^ 31)

/-- The values a TPDO maps now. -/
def State.tpdoBytes (s : State) (port n : Nat) : List Byte :=
  (s.pdoEntries port (0x1A00 + n)).flatMap (fun e =>
    s.entryBytes (ownerView (s.atReset (0x1800 + n) 7 port)) port e.1 e.2.1)

def State.captureTpdo (s : State) (port n : Nat) : State :=
  s.modCan port fun x => { x with captured := tset [] x.captured n (s.tpdoBytes port n) }

/-- GUARD: TPDOs of type 254 in their frames. -/
def State.capturePdos (s : State) : State :=
  s.each (List.range 4) fun s port =>
    if !s.pdosRun port then s else
    s.each (List.range 16) fun s n =>
      let k := s.atReset (0x1800 + n) 5 port
      if s.pdoOn port (0x1800 + n) && decide (s.atReset (0x1800 + n) 2 port = 254) && decide (1 ≤ k ∧ k ≤ 255) &&
          decide (s.frame.counter.toNat % k = 0) then s.captureTpdo port n
      else s

/-- SYNC: TPDOs of type 1 to 240 count it, and capture at their number. -/
def State.syncTpdo (s : State) (port n : Nat) : State :=
  let k := s.atReset (0x1800 + n) 2 port
  if !(s.pdoOn port (0x1800 + n) && decide (1 ≤ k ∧ k ≤ 240)) then s else
  let c := tget 0 (s.can port).syncCount n + 1
  let s := s.modCan port fun x => { x with syncCount := tset 0 x.syncCount n (if k ≤ c then 0 else c) }
  if k ≤ c then s.captureTpdo port n else s

def execSyncReceive (port : Nat) (s : State) : Out :=
  due s (decide (port < 4))
    (if s.pdosRun port then s.each (List.range 16) fun s n => s.syncTpdo port n else s)

/-- Is a TPDO inside its inhibit time, sub-index 3 in 100 µs (CiA 1301, log 7)? -/
def State.inhibited (s : State) (port n : Nat) : Bool :=
  let at_ := tget 0 (s.can port).sentAt n
  decide (at_ ≠ 0) && decide (s.frame.now < at_ - 1 + 10000 * s.atReset (0x1800 + n) 3 port)

/-- A captured TPDO goes out (one of type 254 not before the tick), or an event-driven one with its present values, outside
its inhibit time. -/
def State.tpdoReady (s : State) (port n : Nat) : Bool :=
  s.pdosRun port && decide (n < 16) && s.pdoOn port (0x1800 + n) &&
    (let k := s.atReset (0x1800 + n) 2 port
     if k = 255 then !s.inhibited port n
     else decide (tget [] (s.can port).captured n ≠ []) && (decide (k ≠ 254) || decide (s.frame.phase ≠ .guardPhase)))

def State.sendTpdo (s : State) (port n : Nat) : State :=
  let bs := if s.atReset (0x1800 + n) 2 port = 255 then s.tpdoBytes port n else tget [] (s.can port).captured n
  (s.send (.tpdo port n bs)).modCan port fun x =>
    { x with captured := tset [] x.captured n [], sentAt := tset 0 x.sentAt n (s.frame.now + 1) }

def execTpdoTransmit (port n : Nat) (s : State) : Out := due s (s.tpdoReady port n) (s.sendTpdo port n)

/-! ### Notifications (R228, R265, R276) -/

/-- The event-driven TPDO of a port that maps the notification object of tenant t. -/
def State.notifyTpdo (s : State) (p t : Nat) : Option Nat :=
  (List.range 16).find? (fun n =>
    s.pdoOn p (0x1800 + n) && decide (s.atReset (0x1800 + n) 2 p = 255) &&
      (List.range 64).any (fun k => decide (s.atReset (0x1A00 + n) (k + 1) p / 2 ^ 8 = 0x3550 * 256 + t + 1)))

/-- A tenant's notification in its bound PDO, which waits out its inhibit time, or in a NOTIFY datagram; at most once per
frame. What no running PDO and no START names is not sent (log 98). -/
def State.notifyTenant (s : State) (t : Nat) : State :=
  let x := s.ten t
  if !x.notifyDue || x.notifySent then s else
  let iface := fld (s.binding t) 39 37
  let done (s : State) := s.modTen t fun x => { x with notifySent := true, notifyDue := false }
  let drop (s : State) := s.modTen t fun x => { x with notifyDue := false }
  if iface < 4 then
    match (if s.pdosRun iface then s.notifyTpdo iface t else none) with
    | some n => if s.inhibited iface n then s else (done s).sendTpdo iface n
    | none => drop s
  else if x.startUdp ≠ 0 then
    (done s).sendGram (iface - 4) none (BitVec.ofNat 32 (s.atReset 0x3505 (t + 1))) x.startUdp
      (pranilHdr 0x31 0 0x3550 (t + 1) 0 8 0 s.frameLo) (leBytes 8 x.notify.toNat)
  else drop s

/-- The end of a phase: one message for each queue whose records it wrote, then the tenants' notifications (R214). -/
def State.flushNotify (s : State) : State :=
  (List.range 8).foldl State.notifyTenant ((s.liveCtxs).foldl State.notifyCtx s)

/-- A frame's data may be padded to a CAN FD length (PRESUMED, log 7); the mapped bytes come first. -/
def State.receivePdo (s : State) (port n : Nat) (payload : List Byte) : State :=
  let es := s.pdoEntries port (0x1600 + n)
  if s.pdosRun port && s.pdoOn port (0x1400 + n) && decide ((es.map (·.2.2)).sum ≤ payload.length) then
    match s.writeEntries (ownerView (s.atReset (0x1400 + n) 7 port)) es payload with
    | some s => s.modCan port fun x => { x with rxCount := x.rxCount + 1 }
    | none => s
  else s

def execRpdoReceive (port n : Nat) (payload : List Byte) (s : State) : Out :=
  due s (decide (port < 4) && decide (n < 16) && decide (payload.length ≤ 64)) (s.receivePdo port n payload)

/-! ### Heartbeats and bus errors (R262, R266, R267, R383) -/

/-- CiA codes of the NMT states (PRESUMED, log 7). -/
def Nmt.code : Nmt → Nat
  | .off => 0 | .stopped => 4 | .operational => 5 | .preOperational => 127

def execHeartbeatProduce (port : Nat) (s : State) : Out :=
  due s (s.canOn port && decide (s.atReset 0x1017 0 port ≠ 0))
    (s.send (.heartbeat port (s.can port).nmt.code))

/-- A consumed heartbeat entry: node-ID and time; 0 off. Watching starts at the first tick. -/
def State.watched (s : State) (port n : Nat) : Nat :=
  if s.canOn port && s.boot.ticked && decide (1 ≤ n ∧ n ≤ 8) && decide (s.atReset 0x1016 n port % 65536 ≠ 0) then
    s.atReset 0x1016 n port / 65536 % 256
  else 0

/-- Does a bus error or a lost heartbeat hold bit 4 of the error register up (log 40)? -/
def CanPort.bad (x : CanPort) : Bool := x.busOff || decide (x.beats ≠ [])

def State.loseBeat (s : State) (port n : Nat) : State :=
  let s := (s.modCan port fun x => { x with beats := tset 0 x.beats n 1 }).errBit port 0x8100 4 true
  if s.atReset 0x1E13 (port + 1) = 1 then
    match s.tenantOf (.can port (s.watched port n)) with
    | some t => s.requestTenantReset t
    | none => s
  else s

def execHeartbeatLoss (port n : Nat) (s : State) : Out :=
  due s (decide (s.watched port n ≠ 0) && decide (tget 0 (s.can port).beats n = 0))
    (s.loseBeat port n)

/-- A heartbeat of a watched node: it is there again. -/
def State.beat (s : State) (port n : Nat) : State :=
  let s := s.modCan port fun x => { x with beats := tset 0 x.beats n 0 }
  if (s.can port).bad then s else s.errBit port 0x8100 4 false

def execHeartbeatConsume (port n _state : Nat) (s : State) : Out :=
  due s (decide (port < 4) && decide (1 ≤ n ∧ n ≤ 8)) (if s.watched port n = 0 then s else s.beat port n)

def execBusOffRecovered (port : Nat) (s : State) : Out :=
  due s (s.canOn port)
    ((s.modCan port fun x => { x with busOff := true }).errBit port 0x8100 4 true)

/-! ### Links of endpoints (R268, R286, R368) -/

/-- Do two endpoints use the same link or bus? -/
def sameLink (a b : Via) : Bool :=
  match a, b with
  | .can p _, .can q _ => decide (p = q)
  | .eth p _ _, .eth q _ _ => decide (p = q)
  | .pcie p _, .pcie q _ => decide (p = q)
  | _, _ => false

def State.modPcie (s : State) (p : Nat) (f : PciePort → PciePort) : State :=
  s.modNet fun n => { n with pcie := tmod {} n.pcie p f }

/-- The link itself. -/
def State.linkLost (s : State) (via : Via) : State :=
  match via with
  | .eth p _ _ => s.modEth p fun x => { x with speed := 0, synced := false, grandmaster := none }
  | .pcie p _ => s.modPcie p fun x => { x with linkUp := false }
  | _ => s

def Via.hasLink (v : Via) : Bool :=
  match v with
  | .eth p _ _ => decide (p < 2)
  | .pcie p _ => decide (p < 2)
  | .can p _ => decide (p < 4)
  | _ => false

def execEndpointLinkLoss (via : Via) (s : State) : Out :=
  due s (Via.hasLink via) ((s.linkLost via).dropEndpoints (sameLink via))

/-- The Pdelay initiator's next request (R269, log 41). -/
def State.askPdelay (s : State) (port : Nat) : State :=
  let seq := (s.eth port).pdelaySeq + 1
  (s.modEth port fun x => { x with pdelaySeq := seq }).send (.pdelayReq port seq)

def State.linkUp (s : State) (via : Via) (speed : Nat) : State :=
  match via with
  | .eth p _ _ => (s.modEth p fun x => { x with speed := speed }).askPdelay p
  | .pcie p _ => s.modPcie p fun x => { x with linkUp := true }
  | _ => s

/-- Ethernet ports run at 100 or 1000 Mb/s. -/
def execPhyLinkUp (via : Via) (speed : Nat) (s : State) : Out :=
  due s (Via.hasLink via && (match via with
    | .eth _ _ _ => decide (speed = 100 ∨ speed = 1000)
    | .pcie _ _ => true
    | _ => false)) (s.linkUp via speed)

/-! ### ARP, DHCPv4, ICMP, gPTP (R268, R269) -/

/-- The address of a port: static, or the one DHCPv4 gave. -/
def State.address (s : State) (port : Nat) : Nat :=
  if s.atReset 0x1E00 (port + 1) = 0 then (s.eth port).dhcp.toNat else s.atReset 0x1E00 (port + 1)

/-- Do the Ethernet ports run: from the G-image on, and through a warm start (Table 16-2, R386)? -/
def State.ethOn (s : State) : Bool := s.discoverable && (s.boot.gDone || s.boot.warm)

def State.answersIp (s : State) (port : Nat) : Bool := s.ethOn && decide (s.address port ≠ 0)

def execArpRequest (x : EthIn) (ip target : BitVec 32) (s : State) : Out :=
  due s (decide (x.port < 2))
    (if s.answersIp x.port && decide (s.address x.port = target.toNat) then s.send (.arpReply x.port x.tag ip) else s)

/-- An acknowledged lease sets the address where none is static; a refused one takes it away. -/
def execDhcpv4Reply (port : Nat) (ip mask gateway : BitVec 32) (ack : Bool) (s : State) : Out :=
  due s (decide (port < 2))
    (if s.ethOn && decide (s.atReset 0x1E00 (port + 1) = 0) then
      s.modEth port fun x => { x with dhcp := if ack then ip else 0, dhcpMask := if ack then mask else 0,
                                      dhcpGateway := if ack then gateway else 0 }
     else s)

def execIcmpEcho (x : EthIn) (ip : BitVec 32) (payload : List Byte) (s : State) : Out :=
  due s (decide (x.port < 2)) (if s.answersIp x.port then s.send (.icmpReply x.port x.tag ip payload) else s)

/-- A gPTP message of domain 0: the offset to the grandmaster as 0x1E02 shows it, local time less the master's; the answer to
a peer's Pdelay_Req; the path delay that the peer's response to the last request gives, and the next request (log 41). -/
def State.gptp (s : State) (port : Nat) (msg : GptpMsg) : State :=
  match msg with
  | .sync origin followUp arrival synced =>
    s.modEth port fun x => { x with offset := clampS 32 (arrival - followUp.getD origin - x.pathDelay), synced := synced }
  | .pdelayReq source seq arrival => s.send (.pdelayResp port source seq arrival)
  | .pdelayResp seq t1 t2 t3 t4 =>
    if seq ≠ (s.eth port).pdelaySeq then s
    else (s.modEth port fun x => { x with pathDelay := (t4 - t1 - (t3 - t2)) / 2 }).askPdelay port

def execGptpSync (port domain : Nat) (msg : GptpMsg) (s : State) : Out :=
  due s (decide (port < 2)) (if s.ethOn && decide (domain = 0) then s.gptp port msg else s)

/-- Best-master selection: the lower priority vector wins (PRESUMED, log 41). -/
def execGptpAnnounce (port : Nat) (msg : Announce) (s : State) : Out :=
  due s (decide (port < 2))
    (if s.ethOn && decide (msg.domain = 0) then s.modEth port fun x =>
      { x with grandmaster := match x.grandmaster with
          | some g => some (if msg.grandmaster.toNat < g.toNat then msg.grandmaster else g)
          | none => some msg.grandmaster }
     else s)

end Sys2Proof.Machine
end

