-- ==== Sys2Proof/Machine/Startup.lean ====
section
/-!
DEFINITION. Resets and start-up (ch. 16, 17; Tables 8-7, 15-8): what each reset keeps, the cold and the warm start, image
checks, waivers at boot, READY, the first tick, Ground recovery and its commands.
-/

namespace Sys2Proof.Machine

/-! ### What a reset keeps (Table 15-8, R235, R386) -/

/-- The values that start-up latches. -/
def State.latchStore (s : State) : State := { s with obj := s.stored, eff := s.stored, effT := s.stored, rwt := [] }

/-- The tenant an LPDDR5X page belongs to under latched shares. -/
def pageOwner (eff : Tab Nat) (k page : Nat) : Option Nat :=
  (List.range 8).find? (fun t =>
    let a := tget 0 eff (objKey 0 (0x3520 + t) (2 * k + 1))
    decide (a ≤ page ∧ page < a + tget 0 eff (objKey 0 (0x3520 + t) (2 * k + 2))))

/-- Is an address in an LPDDR5X page whose tenant stays the same? -/
def pageKept (old new : Tab Nat) (a : Nat) : Bool :=
  let k := a / lpWindow
  let page := a % lpWindow / 65536
  decide (a < 2 * lpWindow) && decide (pageOwner old k page = pageOwner new k page)

/-- LPDDR5X stays, but for pages whose tenant changed, which read zero (R235). -/
def State.keepLp (s : State) (old : Tab Nat) : State :=
  { s with mem := s.mem.filter (fun e => pageKept old s.eff e.1), poison := s.poison.filter (pageKept old s.eff) }

/-- A link comes up again; its counters stay (R12, R32). -/
def Link.fresh (k : Link) : Link := { replays := k.replays, retrains := k.retrains }

/-- A tenant keeps its counters and its last rejection (R60, R252, R194). -/
def Tenant.counters (x : Tenant) : Tenant :=
  { overruns := x.overruns, lateFinishes := x.lateFinishes, resetsTaken := x.resetsTaken, lateFails := x.lateFails,
    ignored := x.ignored, dropped := x.dropped, lastRejection := x.lastRejection }

/-- A plate keeps its counters, its ledger and the figures of its last burnish (R90, R109). -/
def Plate.counters (p : Plate) : Plate :=
  { temp := p.temp, lastTemp := p.lastTemp, lastAt := p.lastAt, worstOff := p.worstOff, worstGain := p.worstGain,
    burnishes := p.burnishes, overdues := p.overdues, upsets := p.upsets, ledger := p.ledger }

/-- A Field die loses its configuration; its counters stay, and so does the copy of its slot (R386). -/
def Fab.counters (f : Fab) : Fab :=
  { copy := f.copy, copySlot := f.copySlot, mismX := f.mismX, mismS := f.mismS, corrected := f.corrected,
    rewritten := f.rewritten, lastScrub := f.lastScrub }

/-- A map keeps its counters. -/
def CycMap.counters (x : CycMap) : CycMap := { sent := x.sent, accepted := x.accepted, missed := x.missed }

/-- A function keeps its MSI-X table; its request is lost (R386, R279). -/
def Func.kept (f : Func) : Func :=
  { msixEnable := f.msixEnable, msixMask := f.msixMask, unmasked := f.unmasked, pendingBits := f.pendingBits,
    relaxedOrdering := f.relaxedOrdering }

/-- An Ethernet port keeps its link, its address and gPTP; kept answers and latched commands go (R271). -/
def EthPort.kept (x : EthPort) : EthPort := { x with answers := [], latched := [] }

/-- A load-control channel keeps its latch-off and its diagnosis status (R300, R304). -/
def LoadCh.kept (x : LoadCh) : LoadCh :=
  { start := x.start, onTime := x.onTime, on := x.on, latched := x.latched, last := x.last, period := x.period, age := x.age,
    starved := x.starved, starveCount := x.starveCount }

/-- A Gauge die stays at its safe values; positions count afresh. -/
def Gauge.kept (g : Gauge) : Gauge :=
  { written := g.written, hiZ := g.hiZ, unreadable := g.unreadable,
    sd := tmap {} (fun _ x => { overranges := x.overranges }) g.sd, outs := g.outs,
    load := tmap {} (fun _ x => x.kept) g.load }

def Net.kept (n : Net) : Net :=
  { eth := tmap {} (fun _ x => x.kept) n.eth, maps := tmap {} (fun _ x => x.counters) n.maps,
    func := tmap {} (fun _ x => x.kept) n.func, pcie := n.pcie, lastCommit := n.lastCommit, failObj := n.failObj,
    xferAccepted := n.xferAccepted, xferRefused := n.xferRefused, aborts := n.aborts }

/-- What every reset keeps of the security state: OTP, keys, the ember store and the clock. -/
def Sec.kept (x : Sec) : Sec :=
  { otp := x.otp, keys := x.keys, fails := x.fails, lockout := x.lockout, wakeCause := x.wakeCause, rtc := x.rtc,
    rtcSet := x.rtcSet, rtcAt := x.rtcAt, emberSupply := x.emberSupply, boots := x.boots, wakes := x.wakes,
    waiverBoots := x.waiverBoots }

/-- The flash, and what the board drives. -/
def Boot.kept (b : Boot) : Boot :=
  { store := b.store, resetLow := b.resetLow, suppliesGood := b.suppliesGood, sysclk := b.sysclk, cause := b.cause, gBank := b.gBank,
    bBank := b.bBank, nBank := b.nBank, heldHot := b.heldHot, storeLost := b.storeLost, storeFresh := b.storeFresh,
    unusedBank := b.unusedBank, touched := b.touched }

/-- Everything of the device lost but OTP, flash and ember domain: a cold reset, EMBER or OFF. -/
def State.coldHold (s : State) : State :=
  { frame := { now := s.frame.now, counter := s.frame.counter }, host := s.host, obj := s.stored, sec := s.sec.kept, boot := s.boot.kept, out := s.out,
    freeCtr := s.freeCtr, pending := s.pending }

/-- Contexts, work and plate banks, stock, etch buffers and wells, the fabric configuration and the frame lost; LPDDR5X and
verified copies kept: a warm reset, or DOZE. `old`: the shares that held before. -/
def State.warmLoss (s : State) (old : Tab Nat) : State :=
  { s.keepLp old with
    frame := { now := s.frame.now, counter := s.frame.counter, holdTotal := s.frame.holdTotal,
               badEvents := s.frame.badEvents, losses := s.frame.losses }
    tenants := tmap {} (fun _ x => x.counters) s.tenants
    links := tmap {} (fun _ k => k.fresh) s.links
    arb := [], posted := []
    plates := tmap {} (fun _ p => p.counters) s.plates
    rebites := []
    fabs := tmap {} (fun _ f => f.counters) s.fabs
    ops := [], unitHeld := []
    ctxs := tmap {} (fun _ x => x.discarded) s.ctxs
    restores := [] }

/-! ### The starts (R378, R385, R386) -/

/-- A start-up counts as a boot, and prints its cause (R385). -/
def State.begin (s : State) (warm : Bool) (cause : Nat) : State :=
  ((s.modBoot fun b => { b with started := true, warm := warm, cause := cause }).modSec fun x =>
    { x with boots := satInc 32 x.boots }).send (.console cause)

/-- The commit marker settles what a commit that lost power has left, and 0x1E41:07 reports it: 0 where the new values count,
0x0800_0000 where the old ones do (R285, log 99). -/
def State.healStore (s : State) : State :=
  let torn := s.boot.store.torn
  let s := s.modBoot fun b => { b with store := b.store.heal }
  if torn then s.modNet fun n => { n with lastCommit := BitVec.ofNat 32 abGeneral } else s

/-- The cold start, from power-good. A pending lifecycle bit without its target repeats its erasure (R364). -/
def State.coldStart (s : State) (cause : Nat) : State :=
  ((s.coldHold.latchStore.healStore.begin false cause).modBoot fun b => { b with pwrEn := true }).modSec fun x =>
    { x with erasing := x.otp.target.isSome }

/-- A cold start where the clock runs and nothing holds RESET_N or a supply (R394, R395, R398); else the device waits. -/
def State.tryCold (s : State) (cause : Nat) : State :=
  if s.boot.sysclk && s.boot.suppliesGood && !s.boot.resetLow then s.coldStart cause
  else s.modBoot fun b => { b with cause := cause }

/-- A grant that a wake from DOZE keeps (Table 15-8). -/
def Grant.survivesDoze (g : Grant) : Bool := decide (g.level = .owner ∨ g.level = .vendor)

/-- The warm start (Table 16-5): values committed before it now count; each CAN FD port performs Reset Communication. -/
def State.warmStart (s : State) (cause : Nat) : State :=
  let old := s.eff
  let grants := if cause = 8 then s.sec.grants.filter Grant.survivesDoze else []
  let window := s.sec.window.filter (fun e => decide (e.1 ∈ grants.map (·.endpoint)))
  let s := (s.latchStore).warmLoss old
  let s := { s with
    net := s.net.kept
    gauges := tmap {} (fun _ g => g.kept) s.gauges
    power := {}
    sec := { s.sec.kept with grants := grants, window := window, erasing := s.sec.otp.target.isSome }
    boot := { s.boot.kept with pwrEn := true, compat := 0 } }
  (s.begin true cause).each (List.range 4) State.bootUp

/-- WARM_START: the start-up that a reset tick, a wake from DOZE, or a reset outside the frame begins; the cold start where
the reset asked for was cold (cause 2). -/
def warmStartDue (s : State) : Bool := s.boot.warmDue || (decide (s.sec.power = .doze) && s.sec.waking)

def warmStart (s : State) : State :=
  if s.boot.coldReq then s.coldStart 2
  else if s.boot.warmDue then s.warmStart (s.boot.warmReq.getD 3)
  else
    (s.modSec fun x => { x with wakeCause := x.wakeWaiting.getD 1, wakes := satInc 32 x.wakes }).warmStart 8

def execWarmStart (s : State) : Out := due s (warmStartDue s) (warmStart s)

/-! ### Power-good, RESET_N, supplies, the clock (R394 to R396, R398) -/

/-- RESET_N rises: power-good, where every supply is within limits. -/
def execPowerGood (s : State) : Out :=
  due s (s.boot.resetLow && s.boot.suppliesGood)
    ((s.modBoot fun b => { b with resetLow := false }).tryCold s.boot.cause)

/-- A cold reset by ball or supply acts at once, and nothing is written (R239). -/
def State.held (s : State) (cause : Nat) : State := s.coldHold.modBoot fun b => { b with cause := cause }

def execResetNAssert (s : State) : Out :=
  due s (!s.boot.resetLow) ((s.modBoot fun b => { b with resetLow := true }).held 1)

/-- Monitored supplies: VIN_V, VDDQ_K0, VDDQ_K1, VPCIE, VIO_18, VIO_33, VANA_X0, VANA_X1. In EMBER nothing watches them. -/
def brownout (s : State) : State :=
  let s := s.modBoot fun b => { b with suppliesGood := false }
  if s.sec.power = .ember then s else s.held 1

def execSupplyBrownout (supply : Nat) (s : State) : Out := due s (decide (supply < 8)) (brownout s)

/-- Every monitored supply is good: the wake instant, or power-good. In EMBER without a wake nothing follows. -/
def suppliesGood (s : State) : State :=
  let s := s.modBoot fun b => { b with suppliesGood := true }
  if s.sec.power = .ember ∧ s.sec.waking = false then s
  else s.tryCold (if s.sec.power = .ember then 9 else s.boot.cause)

def execSuppliesWithinLimits (s : State) : Out := due s (!s.boot.suppliesGood) (suppliesGood s)

/-- SYSCLK becomes present; where it runs already nothing changes. -/
def sysclkStart (s : State) : State :=
  if s.boot.sysclk then s else (s.modBoot fun b => { b with sysclk := true }).tryCold s.boot.cause

def execSysclkStart (s : State) : Out := .next (sysclkStart s)

/-! ### A commit, and the loss of power in it (R284, R285) -/

/-- The session that a commit of this endpoint takes to step 3. -/
def State.commitReaches (s : State) (via : Via) (sig : BitVec 768) : Option Session :=
  if s.served && (s.up || s.earlyWrite via 0x1E41 4) then
    (s.mySession via).filter (fun x => decide (s.commitJudge x sig = (0, 0)))
  else none

/-- Power lost in step 3, before the marker has moved or after it: as on a supply's brownout. -/
def State.commitCut (s : State) (x : Session) (moved : Bool) : State :=
  let t := s.applyAll x.staged
  let done := if moved then t else s
  brownout (done.modBoot fun b => { b with store := s.boot.store.cut t.provisioned moved })

def execSessionCommit (via : Via) (x : CommitOf) (s : State) : Out :=
  .next (match x.cut, s.commitReaches via x.sig with
    | some moved, some held => s.commitCut held moved
    | _, _ => s.rowWrite via 0 0x1E41 4 96 x.sig.toNat 0)

/-! ### Ground recovery (R388, R389) -/

/-- Every Gauge pin turns high impedance; in ROM recovery the CAN FD ports leave the bus. -/
def State.recover (s : State) (k : Recovery) : State :=
  let s := s.modBoot fun b => { b with dev := .recovery, recovery := k }
  let s := s.each [0, 1] fun s d => s.modGauge d fun g => { g with written := false, hiZ := true, pwm := [], load := [] }
  if k = .rom then s.each (List.range 4) fun s p => s.modCan p fun x => { x with nmt := .off } else s

/-- Does start-up go on: begun, not in recovery, not held by a hot die (R355)? -/
def State.startingUp (s : State) : Bool :=
  s.boot.started && decide (s.boot.dev = .starting) && decide (s.boot.recovery = .none) && !s.boot.heldHot

/-! ### Image checks (R360, R377, R184 to R186) -/

/-- Does an image verify: its signature, and its major version against the fused minimum? -/
def imageOk (i : Image) (least : Nat) : Bool := i.sigOk && decide (least ≤ fld i.version 31 24)

/-- A bank's image as start-up may take it: it verifies, and it was not left unfinished by recovery (R391). -/
def State.bankImage (s : State) (code bank least : Nat) (i : Option Image) : Option Image :=
  match i with
  | some x => if imageOk x least && !tget false s.boot.touched (2 * code + bank) then some x else none
  | none => none

/-- The higher version of the two that verify, and its bank. -/
def pickBank (a b : Option Image) : Option (Image × Nat) :=
  match a, b with
  | some x, some y => if x.version.toNat < y.version.toNat then some (y, 1) else some (x, 0)
  | some x, none => some (x, 0)
  | none, some y => some (y, 1)
  | none, none => none

def State.pickImage (s : State) (code least : Nat) (a b : Option Image) : Option (Image × Nat) :=
  pickBank (s.bankImage code 0 least a) (s.bankImage code 1 least b)

/-- The G-image has started: CANopen boot-up on a cold start; SCRAPPED waits in Ground recovery. -/
def State.gStarted (s : State) (g : Image) (bank : Nat) : State :=
  let s := s.modBoot fun b => { b with gDone := true, gImg := some g, gBank := bank }
  let s := if s.boot.warm then s else s.each (List.range 4) State.bootUp
  let s := s.send (.milestone 1)
  if s.sec.otp.life = .scrapped then s.recover .image else s

/-- Step 1 of Table 8-7. -/
def gVerify (s : State) (a b : Option Image) : State :=
  match s.pickImage 1 s.sec.otp.minG a b with
  | none => s.recover .rom
  | some (g, bank) => if Config.stepping ∈ g.steppings then s.gStarted g bank else s.recover .rom

def execGImageVerify (a b : Option Image) (s : State) : Out :=
  due s (s.startingUp && !s.boot.gDone) (gVerify s a b)

/-- R305: the Gauge dies are written. -/
def gaugesWritten (s : State) : State :=
  (s.each [0, 1] State.provisionGauge).modBoot fun b => { b with gaugeDone := true }

def execGaugeDiesWritten (s : State) : Out :=
  due s (s.startingUp && s.boot.gDone && !s.boot.gaugeDone) (gaugesWritten s)

/-- R19: the trained channels whose capacity is that of channel 0. -/
def matching (trained : BitVec 16) (capacity : Tab Nat) : BitVec 16 :=
  BitVec.ofNat 16 (((List.range 12).filter (fun k => bit trained k && decide (tget 0 capacity k = tget 0 capacity 0))).map
    (2 ^ ·)).sum

/-- R19: training of the twelve channels; a failing or unequal channel leaves the device in Ground recovery. -/
def trained (s : State) (t : BitVec 16) (capacity : Tab Nat) (rate : Nat) : State :=
  let ok := matching t capacity
  let s := { s with memStat := { s.memStat with trained := ok, capacity := tget 0 capacity 0, rate := rate } }
  if ok = 0x0FFF ∧ (tget 0 capacity 0) ∈ [4, 8, 16] ∧ rate ∈ [8533, 7500, 6400] then
    (s.modBoot fun b => { b with memDone := true }).send (.milestone 2)
  else s.recover .image

def execLpddr5xTrainingComplete (t : BitVec 16) (capacity : Tab Nat) (rate : Nat) (s : State) : Out :=
  due s (s.startingUp && s.boot.gDone && !s.boot.memDone) (trained s t capacity rate)

/-! ### Pairs and waivers at boot (R185, R187, R191) -/

/-- A pair as 0x2102 names it: codes, versions, Field die. -/
structure Pair where
  a : Nat
  va : BitVec 32
  b : Nat
  vb : BitVec 32
  die : Nat
deriving DecidableEq, Repr

/-- R327 step 4 or a full configuration forms a die's pairs (R186 step 5). -/
def State.pairedDie (s : State) (m : Nat) : Bool :=
  let f := s.fab m
  f.copy.isSome && (decide (f.result = 4) || (f.bs.isSome && decide (f.result = 0)))

def State.copyLevel (s : State) (m : Nat) : Nat := match (s.fab m).copy with | some b => fld b.desc 3 0 | none => 0

/-- Every pair, in the order of R185. -/
def State.pairs (s : State) : List Pair :=
  let v (c : Nat) := s.imageVersion c
  [⟨1, v 1, 2, v 2, 0⟩, ⟨1, v 1, 3, v 3, 0⟩, ⟨2, v 2, 3, v 3, 0⟩] ++
    ((List.range 4).filter s.pairedDie).flatMap (fun m =>
      [1, 2, 3].map (fun a => ⟨a, v a, 4, BitVec.ofNat 32 (s.copyLevel m), m⟩))

def State.untestedPairs (s : State) : List Pair := s.pairs.filter (fun p => !s.tested p.a p.va p.b p.vb)

/-- The first waiver that covers a pair. -/
def State.waiverFor (s : State) (p : Pair) : Option Nat := (List.range 4).find? (fun k => s.waives k p.a p.va p.b p.vb)

/-- 0x2102:02. -/
def Pair.code (p : Pair) : BitVec 16 := BitVec.ofNat 16 (p.a + p.b * 8 + (if p.b = 4 then p.die * 64 else 0))

/-- 0x2102: the first failing pair and their count. -/
def State.recordPairs (s : State) : State :=
  let l := s.untestedPairs
  s.modBoot fun b =>
    { b with untested := l.length, failPair := (l.head?.map Pair.code).getD 0, failA := (l.head?.map (·.va)).getD 0,
             failB := (l.head?.map (·.vb)).getD 0 }

/-- Kept copies load again; the others are read from flash (R386, R327). -/
def Fab.reload (f : Fab) (slot : Nat) : Fab :=
  if f.copy.isSome ∧ f.copySlot = slot ∧ slot < 8 then { f with die := .configuring }
  else { f with copy := none, copySlot := 0xFF }

/-- Both copies of the store are lost: keys and provisioning at their defaults (R359, R390). -/
def State.loseStore (s : State) : State :=
  (({ s with obj := [], eff := [], effT := [] }).modSec fun x => { x with keys := [] }).modBoot fun b => { b with store := {} }

/-- R361: every ACTIVE slot's key checked against its hash, at every boot. -/
def Sec.checkKeys (x : Sec) : Sec :=
  { x with badKeys := [0, 1, 2].filter (fun k =>
      let slot := tget {} x.otp.slots k
      let key := tget 0 x.keys k
      decide (slot.state = .active ∧ key ≠ 0) && decide (digestVal (leBytes 97 key.toNat) ≠ slot.hash)) }

/-- Step 2 and step 3 of Table 8-7. -/
def imagesChecked (s : State) (b n : Option (Image × Nat)) (lost : Bool) : State :=
  let s := s.modBoot fun x => { x with storeLost := lost, storeFresh := false }
  let s := (if lost then s.loseStore else s).modSec Sec.checkKeys
  match b, n with
  | some (bi, bb), some (ni, nb) =>
    let s := s.modBoot fun x => { x with bImg := some bi, bBank := bb, nImg := some ni, nBank := nb }
    if lost then s.recover .image else
    let s := s.recordPairs.modBoot fun x => { x with imagesDone := true }
    (s.each (List.range 4) fun s m => s.modFab m fun f => f.reload (s.atReset (0x6001 + m) 1)).send (.milestone 3)
  | _, _ =>
    (s.modBoot fun x => { x with bImg := b.map (·.1), nImg := n.map (·.1) }).recover .image

/-- The store is still lost where no commit has written a fresh one. -/
def imageCheck (s : State) (bA bB nA nB : Option Image) (lost : Bool) : State :=
  imagesChecked s (s.pickImage 2 s.sec.otp.minB bA bB) (s.pickImage 3 s.sec.otp.minN nA nB)
    (lost || (s.boot.storeLost && !s.boot.storeFresh))

def execImageCheck (bA bB nA nB : Option Image) (storeLost : Bool) (s : State) : Out :=
  due s (s.startingUp && s.boot.gDone && (s.boot.warm || s.boot.memDone) && !s.boot.imagesDone && !s.sec.erasing)
    (imageCheck s bA bB nA nB storeLost)

/-! ### The start-up burnish (R380) -/

/-- One plate: its temperature, the burnish, its trims at once. -/
def startBurnish (s : State) (g : Nat) (res : BurnishSums) (temp : Int) : State :=
  let s := s.modPlate g fun p => { p with temp := temp }
  (burnishDone s g res).modPlate g fun p => { p.guardTrim temp with failDue := false }

def burnished (s : State) (res : Tab BurnishSums) (temps : Tab Int) : State :=
  ((s.each (List.range 32) fun s g => startBurnish s g (tget {} res g) (tget 0 temps g)).modBoot fun b =>
    { b with burnishDone := true }).send (.milestone 4)

def execStartUpBurnishComplete (res : Tab BurnishSums) (temps : Tab Int) (s : State) : Out :=
  due s (s.startingUp && s.boot.imagesDone && s.boot.memDone && !s.boot.burnishDone)
    (burnished s res temps)

/-! ### READY (R379, R382, R191) -/

/-- A Field die with a boot slot is configured, or has failed. -/
def State.dieSettled (s : State) (m : Nat) : Bool :=
  decide (8 ≤ s.atReset (0x6001 + m) 1) || (s.fab m).bs.isSome || decide ((s.fab m).result ≠ 0)

def readyDue (s : State) : Bool :=
  s.startingUp && s.boot.gDone && s.boot.gaugeDone && s.boot.memDone && s.boot.imagesDone && s.boot.burnishDone &&
    (List.range 4).all s.dieSettled && !s.sec.erasing

/-- Latched NMT and CONTROL commands, in port order. -/
def State.applyLatched (s : State) : State :=
  let s := s.each (List.range 4) fun s p => match (s.can p).latched with
    | some x => s.modCan p fun c => { c with nmt := x, latched := none }
    | none => s
  s.each [0, 1] fun s p =>
    let l := (s.eth p).latched
    (l.foldl (fun s e => s.setStarted e.1 e.2.1 e.2.2) s).modEth p fun x => { x with latched := [] }

/-- Step 6 of Table 8-7: TESTED, LIMP or WAIVED; the waivers that cover lose one boot each. -/
def State.settle (s : State) : State :=
  let l := s.untestedPairs
  let s := s.recordPairs
  if l = [] then s.modBoot fun b => { b with dev := .ready, compat := 0 }
  else if l.all (fun p => (s.waiverFor p).isSome) then
    let used := (l.filterMap s.waiverFor).dedup
    ((s.modBoot fun b => { b with dev := .waived, compat := 2 }).modSec fun x =>
      { x with waiverBoots := used.foldl (fun t k => tmod 0 t k (· - 1)) x.waiverBoots }).errAll 0xFF02 7 true
  else (s.modBoot fun b => { b with dev := .limp, compat := 1 }).errAll 0xFF02 7 true

def execDictionaryReady (s : State) : Out :=
  due s (readyDue s) (s.settle.applyLatched.send (.milestone 5))

/-! ### The first tick (R33, R42, R379) -/

/-- Holdover-count frames for ACQUIRING count from here. -/
def firstTick (s : State) (x0 x1 : GaugeIn) : State :=
  let st : TickState := if s.atReset 0x3000 2 = 0 then .locked else .acquiring
  let s := { s with effT := s.obj }
  let s := s.modFrame fun f =>
    { f with tickState := st, lock := st, ticking := true, counter := 0, phase := .sample, elapsed := 0, len := s.P,
             holdUsed := 0 }
  let s := s.modBoot fun b => { b with ticked := true }
  ((s.each [0, 1] State.activate).latchGauge 0 x0 (s.P / 5)).latchGauge 1 x1 (s.P / 5)

def execFirstTick (x0 x1 : GaugeIn) (s : State) : Out :=
  due s (s.up && !s.boot.ticked && !s.frame.ticking && decide (s.sec.power = .run))
    (firstTick s x0 x1).mapsDue

/-! ### PCIe configuration (R384, R389) -/

def execPcieConfigurationReady (s : State) : Out :=
  due s (s.boot.started && [0, 1].any (fun p => !(tget {} s.net.pcie p).answering))
    (s.each [0, 1] fun s p => s.modPcie p fun x => { x with answering := true })

/-- Retry Status until configuration is answered; in ROM recovery only physical functions answer. -/
def execPcieConfigurationRequest (port func : Nat) (s : State) : Out :=
  due s (decide (port < 2) && decide (func < 16) && s.boot.started)
    (s.send (.config port func ((tget {} s.net.pcie port).answering &&
      (decide (s.boot.recovery ≠ .rom) || decide (func = 0)))))

/-! ### Recovery commands (R391, Table 16-7) -/

def rcOp (h : RecoveryHeader) : Nat := fld h 7 0
def rcImage (h : RecoveryHeader) : Nat := fld h 10 8
def rcOffset (h : RecoveryHeader) : Nat := fld h 63 32
def rcLength (h : RecoveryHeader) : Nat := fld h 95 64
def rcCrc (h : RecoveryHeader) : Nat := fld h 127 96
def bankSize : Nat := 0x800000

/-- The bank that G0 did not take, A to 0 and B to 1. -/
def Boot.unused (b : Boot) (image : Nat) : Nat := 1 - (if image = 1 then b.gBank else if image = 2 then b.bBank else b.nBank)

/-- A command is performed and its result shown; a busy one changes nothing but its answer. -/
def State.recDone (s : State) (res : Nat) : State :=
  (s.modBoot fun b => { b with recStatus := 2, recResult := res }).send (.recovery res)

/-- Refused outright: a reserved bit or OP, an image that does not exist, SCRAPPED. `image`: does the OP name an image? -/
def State.recRefused (s : State) (h : RecoveryHeader) (image : Bool) : Bool :=
  decide (fld h 31 11 ≠ 0) || decide (rcOp h = 0 ∨ 5 < rcOp h) ||
    (image && !decide (1 ≤ rcImage h ∧ rcImage h ≤ 3)) ||
    (decide (s.sec.otp.life = .scrapped) && decide (rcOp h ≠ 4))

/-- Outside recovery a command is ignored. -/
def State.recCommand (s : State) (h : RecoveryHeader) (busy image : Bool) (f : State → State) : State :=
  if s.boot.dev ≠ .recovery then s
  else if busy then s.send (.recovery 6)
  else if s.recRefused h image then s.recDone 7
  else f s

def State.touch (s : State) (i : Nat) (on : Bool) : State :=
  s.modBoot fun b => { b with touched := tset false b.touched (2 * i + b.unused i) on }

def recErase (h : RecoveryHeader) (s : State) : State :=
  ((s.touch (rcImage h) true).modBoot fun b => { b with unusedBank := tset [] b.unusedBank (rcImage h) [] }).recDone 0

def recWrite (h : RecoveryHeader) (payload : List Byte) (s : State) : State :=
  if rcLength h = 0 ∨ 4096 < rcLength h ∨ rcOffset h % 4096 ≠ 0 ∨ bankSize < rcOffset h + rcLength h ∨
      payload.length ≠ rcLength h then s.recDone 2
  else if (crc32c payload).toNat ≠ rcCrc h then s.recDone 1
  else
    ((s.touch (rcImage h) true).modBoot fun b =>
      { b with unusedBank := tmod [] b.unusedBank (rcImage h) fun t => tsetRun 0xFF t (rcOffset h) payload }).recDone 0

/-- COMMIT verifies under R360; the fused minimum of the image. -/
def recCommit (h : RecoveryHeader) (img : Option Image) (s : State) : State :=
  match img with
  | none => s.recDone 3
  | some i =>
    if !i.sigOk then s.recDone 3
    else if fld i.version 31 24 < s.sec.otp.min (rcImage h) then s.recDone 4
    else if rcImage h = 1 ∧ ¬ Config.stepping ∈ i.steppings then s.recDone 5
    else (s.touch (rcImage h) false).recDone 0

/-- Headers of a row: its own OP; a reserved OP comes by STATUS. -/
def rcRow (op : Nat) (h : RecoveryHeader) : Bool :=
  decide (rcOp h = op) || (decide (op = 4) && decide (rcOp h = 0 ∨ 5 < rcOp h))

def execRecoveryErase (hdr : RecoveryHeader) (busy : Bool) (s : State) : Out :=
  due s (rcRow 1 hdr) (s.recCommand hdr busy true (recErase hdr))
def execRecoveryWrite (hdr : RecoveryHeader) (payload : List Byte) (busy : Bool) (s : State) : Out :=
  due s (rcRow 2 hdr) (s.recCommand hdr busy true (recWrite hdr payload))
def execRecoveryCommit (hdr : RecoveryHeader) (img : Option Image) (busy : Bool) (s : State) : Out :=
  due s (rcRow 3 hdr) (s.recCommand hdr busy true (recCommit hdr img))
def execRecoveryStatus (hdr : RecoveryHeader) (busy : Bool) (s : State) : Out :=
  due s (rcRow 4 hdr) (s.recCommand hdr busy false fun s => s.recDone 0)
def execRecoveryRestart (hdr : RecoveryHeader) (busy : Bool) (s : State) : Out :=
  due s (rcRow 5 hdr) (s.recCommand hdr busy false fun s => (s.recDone 0).coldStart 1)

end Sys2Proof.Machine
end

