-- ==== Sys2Proof/Machine/Security.lean ====
section
/-!
DEFINITION. Lifecycle erasure (R363, R364, Table 15-3), power states (R371 to R375, R396), the ember domain and its wakes (R374).
-/

namespace Sys2Proof.Machine

/-! ### Lifecycle (R364) -/

/-- Keys of the provisioning store that RECALLED keeps: the owner public keys and 0x1E00 to 0x1E13. -/
def recalledKeeps (k : Nat) : Bool :=
  let i := k / 2 ^ 8 % 2 ^ 16
  decide (0x1E00 ≤ i ∧ i ≤ 0x1E13) || (decide (i = 0x2210) && decide (k % 2 ^ 8 ≤ 3))

/-- Waivers erased. -/
def State.eraseWaivers (s : State) : State :=
  { s.modSec (fun x => { x with waiverBoots := [] }) with
    obj := s.obj.filter (fun e => decide (e.1 / 2 ^ 8 % 2 ^ 16 ≠ 0x2103)) }

/-- OTP bits of the key epoch, fused one by one (log 44). -/
def epochBits : Nat := 4

/-- The RECALLED erasure: every memory, the verified copies, the copies of bitstreams, the store but for what it keeps. -/
def State.eraseRecalled (s : State) : State :=
  let s := { s.eraseWaivers with
    mem := [], poison := [], bundles := [], obj := s.obj.filter (fun e => recalledKeeps e.1)
    plates := tmap {} (fun _ p => p.counters) s.plates
    fabs := tmap {} (fun _ f => { f.counters with copy := none, copySlot := 0xFF }) s.fabs }
  s.modOtp fun o => { o with epoch := min epochBits (o.epoch + 1) }

def Otp.revokeAll (o : Otp) : Tab KeySlot :=
  [0, 1, 2].foldl (fun t k => tmod {} t k fun x => { x with state := .revoked }) o.slots

/-- The SCRAPPED erasure: every slot REVOKED, every epoch fused, every sealed store gone. -/
def State.eraseScrapped (s : State) : State :=
  let s := { s.eraseRecalled with obj := [] }
  s.modSec fun x => { x with
    keys := []
    otp := { x.otp with epoch := epochBits, slots := x.otp.revokeAll } }

/-- Table 15-3 by target. -/
def State.erase (s : State) (target : Life) : State :=
  match target with
  | .blank | .provisioned => s
  | .fielded => s.eraseWaivers
  | .recalled => s.eraseRecalled
  | .scrapped => s.eraseScrapped

/-- The target is fused after the erasure. A start-up that repeated it goes on; else a warm start follows, cause 10. -/
def erasureComplete (s : State) (target : Life) : State :=
  let s := (s.erase target).writeStore.modSec fun x =>
    { x with erasing := false, otp := { x.otp with life := target, target := none } }
  if s.boot.started then { s with eff := s.stored, effT := s.stored }
  else s.modBoot fun b => { b with warmDue := true, warmReq := some 10 }

def erasureEffect (s : State) : State :=
  match s.sec.otp.target with
  | some t => erasureComplete s t
  | none => s

def execLifecycleErasureComplete (s : State) : Out :=
  due s (s.sec.erasing && s.sec.otp.target.isSome) (erasureEffect s)

/-! ### Power states (R371 to R373) -/

/-- The gated dies are down in DOZE: TENANT grants end, the session is gone. -/
def State.enterDoze (s : State) : State :=
  let s := ((s.warmLoss s.eff).endGrants fun g => !g.survivesDoze).modNet fun n => { n with session := none }
  let s := s.modSec fun x => { x with
    power := .doze, entering := none, powerReq := none, challenges := []
    wakeWaiting := if x.powerReq = some .run then some (x.wakeWaiting.getD 1) else x.wakeWaiting }
  if s.sec.wakeWaiting.isSome then s.modSec fun x => { x with waking := true } else s

/-- A wake from EMBER: PWR_EN rises, and the cold start begins once every supply is good (R396). -/
def State.wakeEmber (s : State) (cause : Nat) : State :=
  let s := (s.modSec fun x => { x with wakeCause := cause, wakes := satInc 32 x.wakes, waking := true, wakeWaiting := none }).modBoot
    fun b => { b with pwrEn := true }
  if s.boot.suppliesGood then s.tryCold 9 else s

/-- Only the ember domain is left. -/
def State.enterEmber (s : State) : State :=
  let wake := s.sec.wakeWaiting
  let s := s.coldHold.modSec fun x => { x with power := .ember }
  match wake with
  | some k => s.wakeEmber k
  | none => s

def powerDown (s : State) : State := if s.sec.entering = some .doze then s.enterDoze else s.enterEmber

def execPowerDownComplete (s : State) : Out := due s s.sec.entering.isSome (powerDown s)

/-- A wake source fires: once entry completes where it is in progress, nothing in RUN or HOLD. -/
def State.wake (s : State) (cause : Nat) : State :=
  if s.sec.entering.isSome then s.modSec fun x => { x with wakeWaiting := some (x.wakeWaiting.getD cause) }
  else if s.sec.power = .doze then
    s.modSec fun x => { x with wakeWaiting := some (x.wakeWaiting.getD cause), waking := true }
  else if s.sec.power = .ember ∧ s.sec.waking = false then s.wakeEmber cause
  else s

/-! ### The ember domain (R374) -/

def State.wakeOn (s : State) (k : Nat) : Bool := decide (s.val 0x2240 3 / 2 ^ k % 2 = 1)

/-- The ball after its debounce, at its level. -/
def execWakeBall (level : Bool) (s : State) : Out :=
  .next (if s.sec.emberSupply && s.wakeOn 0 && decide (level = decide (s.val 0x2240 5 = 1)) then s.wake 2 else s)

/-- A classical frame at 500 kbit/s or less with a valid CRC whose identifier and data match under the masks. -/
def State.canMatches (s : State) (f : CanFrame) : Bool :=
  f.crcOk && !f.fd && decide (f.rate ≤ 500) && decide (Nat.land (s.val 0x2240 6) (s.val 0x2240 7) = Nat.land f.ident.toNat (s.val 0x2240 7)) &&
    decide (Nat.land (s.val 0x2240 8) (s.val 0x2240 9) = Nat.land f.data.toNat (s.val 0x2240 9))

def execCanWakeFrame (f : CanFrame) (s : State) : Out :=
  .next (if s.sec.emberSupply && s.wakeOn 1 && s.canMatches f then s.wake 3 else s)

/-- The clock reaches the alarm; an alarm of 0 is off. -/
def rtcAlarm (s : State) : State :=
  let s := s.modSec fun x => { x with rtc := BitVec.ofNat 64 (s.val 0x2240 0x0A), rtcAt := s.frame.now }
  if s.wakeOn 2 then s.wake 4 else s

def execRtcAlarm (s : State) : Out :=
  due s (s.sec.emberSupply && decide (s.val 0x2240 0x0A ≠ 0)) (rtcAlarm s)

/-- The clock stands at 0 and is not set; the ember store stays. -/
def Sec.clockLost (x : Sec) (now : Nat) (supply : Bool) : Sec :=
  { x with rtc := 0, rtcSet := false, rtcAt := now, emberSupply := supply }

/-- In EMBER nothing is left on: OFF, from which power-good is the way (Table 15-6). -/
def emberLoss (s : State) : State :=
  let s := s.modSec fun x => x.clockLost s.frame.now false
  if s.sec.power = .ember then
    (s.modSec fun x => { x with power := .off, wakeCause := 0, waking := false }).modBoot fun b =>
      { b with resetLow := true, cause := 0, pwrEn := false }
  else s

def execEmberSupplyLoss (s : State) : Out := due s s.sec.emberSupply (emberLoss s)

def execEmberSupplyRestore (s : State) : Out :=
  due s (!s.sec.emberSupply) (s.modSec fun x => x.clockLost s.frame.now true)

end Sys2Proof.Machine
end

