-- ==== Sys2Proof/Machine/Frame.lean ====
section
/-!
DEFINITION. The frame (ch. 02): the tick generator and its source, the five phases, combs, reservations, overruns, and the
order of GUARD (Table 2-6). Times are in 10 ns from the tick.
-/

namespace Sys2Proof.Machine

/-! ### The tick source (R35 to R42) -/

/-- The lock window A, and the source as latched at the last reset. -/
def State.lockWindow (s : State) : Nat := s.atReset 0x3000 5
def State.external (s : State) : Bool := decide (s.atReset 0x3000 2 ≠ 0)

/-- Does the generator hold a source? -/
def Frame.holding (f : Frame) : Bool := decide (f.lock = .locked ∨ f.lock = .slewing)

/-- Is a fallback in force? -/
def TickState.isFallback (t : TickState) : Bool :=
  decide (t = .fallbackFree ∨ t = .fallbackSafe ∨ t = .fallbackHold)

/-- R36, R37: a bad event; while a source is held, the third in a row declares it lost. -/
def Frame.bad (f : Frame) : Frame :=
  let f := { f with badEvents := satInc 32 f.badEvents }
  if f.lossDue ∨ f.returnDue then f
  else if f.holding then
    let n := f.badRun + 1
    { f with badRun := n, lossDue := decide (n = 3), losses := if n = 3 then satInc 16 f.losses else f.losses }
  else { f with agree := [] }

/-- Do phase errors agree with each other within A (in 10 ns)? -/
def agreeing (A : Nat) (l : List Int) : Bool := l.all (fun x => l.all (fun y => decide (x - y ≤ 10 * A)))

/-- The latest events that agree, with one more; the oldest fall out until all agree. -/
def agreeTail (A : Nat) : List Int → List Int
  | [] => []
  | e :: rest => if agreeing A (e :: rest) then e :: rest else agreeTail A rest

/-- R39, R41, R42: an event while no source is held; the eighth that agrees takes its phase. -/
def Frame.acquire (f : Frame) (A : Nat) (err : Int) : Frame :=
  let l := agreeTail A (f.agree ++ [err])
  if 8 ≤ l.length then { f with agree := [], returnDue := true, slew := err } else { f with agree := l }

/-- R36: is the event bad? While SLEWING it is judged against the phase being slewed to (DEDUCED, log 45). -/
def Frame.isBad (f : Frame) (A : Nat) (err : Int) (unsync : Bool) : Bool :=
  unsync || decide (10 * A < (if f.lock = .slewing then err - f.slew else err).natAbs)

/-- One reference event: while a source is held it is good or bad; while none is, every event of the source counts
towards the eight that agree, good or bad (R39, R42). -/
def Frame.observe (f : Frame) (A : Nat) (err : Int) (unsync : Bool) : Frame :=
  let bad := f.isBad A err unsync
  let f := { f with lastErr := clampS 32 err }
  if f.lossDue ∨ f.returnDue then (if bad then f.bad else f)
  else if f.holding then (if bad then f.bad else { f with badRun := 0, slew := err })
  else if unsync then f.bad
  else { f.acquire A err with badEvents := if bad then satInc 32 f.badEvents else f.badEvents }

/-- What the events since the last tick decided: loss, return, or the latest phase error within A (R39, Table 2-3). -/
def Frame.lockStep (f : Frame) (A : Nat) : Frame :=
  let within := decide (f.lastErr.natAbs ≤ 10 * A)
  if f.lossDue then { f with lock := .holdover, lossDue := false, holdUsed := 0, badRun := 0, slew := 0, agree := [] }
  else if f.returnDue then
    { f with lock := if f.lock = .acquiring ∧ f.tickState.isFallback = false ∧ within = true then .locked else .slewing,
             returnDue := false, fallbackDue := false, badRun := 0 }
  else if f.lock = .slewing ∧ f.badRun = 0 ∧ within = true then { f with lock := .locked }
  else f

/-- Does that step lose the source, or end a holdover (R43)? A return under FREE fallback resumes. -/
def Frame.lockEvent (f : Frame) : Bool :=
  f.lossDue || (f.returnDue && (decide (f.lock = .holdover) || decide (f.tickState = .fallbackFree)))

/-- The correction of one frame towards the source, in 10 ns steps: within the slew limit, MARGIN never below 640 ns
(R38). `slew` is what is left to correct, in ns. In holdover the generator runs on at the last rate it held while locked
(R39). -/
def State.frameDelta (s : State) : Int :=
  let lim : Int := s.atReset 0x3000 6
  let short : Int := (s.P : Int) - s.W - s.G - 68 - 64
  if s.frame.holding then max (-(max short 0)) (max (-lim) (min lim (s.frame.slew.tdiv 10)))
  else if s.frame.lock = .holdover ∧ s.frame.tickState.isFallback = false then s.frame.rate
  else 0

/-- Frames between two reference events (R35): one with 802.1AS, else the divider k. -/
def State.gptpSource (s : State) : Bool := decide (s.atReset 0x3000 2 = 2 ∨ s.atReset 0x3000 2 = 3)
def State.refEvery (s : State) : Nat := if s.gptpSource then 1 else max 1 (s.atReset 0x3000 3)

/-- A tick of the generator's grid, `j` frames after the last one, in ns from it. -/
def State.gridTick (s : State) (j : Int) : Int :=
  if j ≤ 0 then 10 * (s.P : Int) * j else 10 * (s.frame.len : Int) + 10 * (s.P : Int) * (j - 1)

/-- The nearer of two ticks to an instant. -/
def nearer (s : State) (e : Int) (a b : Int) : Int :=
  if (e - s.gridTick b).natAbs < (e - s.gridTick a).natAbs then b else a

/-- R35, R36: the tick an event that comes `time` ns after the last tick belongs to, counted from it, and its phase error:
the instant observed, with the offset added that places the tick after the event (with 802.1AS the offset is in the
instants themselves), less that tick. While a source is held its events are expected every k frames; without one, at any
frame. -/
def State.refTick (s : State) (time : Nat) : Int × Int :=
  let e : Int := (time : Int) + (if s.gptpSource then 0 else 10 * (s.atReset 0x3000 4 : Int))
  let k : Int := s.refEvery
  let last : Int := -(s.frame.refPhase : Int)
  let j := if s.frame.holding then nearer s e (nearer s e last (last + k)) (last + 2 * k) else nearer s e (nearer s e 0 1) 2
  (j, e - s.gridTick j)

/-- R36: an 802.1AS reference is bad while its port is not synchronised or its offset exceeds A. -/
def State.gptpBad (s : State) : Bool :=
  let p := s.eth (s.atReset 0x3000 2 - 2)
  s.gptpSource && (!p.synced || decide (10 * s.lockWindow < p.offset.natAbs))

/-- A reference event `time` ns after the last tick; without a source held, its tick becomes the one events are counted
from. `noSync`: three consecutive Sync messages were not received. -/
def State.refEvent (s : State) (time : Nat) (noSync : Bool) : State :=
  let (j, err) := s.refTick time
  s.modFrame fun f =>
    let g := f.observe s.lockWindow err (noSync || s.gptpBad)
    if f.holding then g else { g with refPhase := ((-j) % (s.refEvery : Int)).toNat }

/-- In HOLD the generator walks its grid without ticks; between two events it slews k frames' worth (R41; log 46). -/
def State.walkGrid (s : State) : State :=
  if s.frame.ticking then s else
  let lim : Int := (s.atReset 0x3000 6 * s.refEvery : Nat)
  s.modFrame fun f => if f.holding then { f with slew := f.slew - 10 * max (-lim) (min lim (f.slew.tdiv 10)) } else f

/-- In HOLD what an event decides acts at once, and is told (R41, R43). -/
def State.settleHeld (s : State) : State :=
  if s.frame.ticking then s else
  let ev := s.frame.lockEvent
  let s := s.modFrame fun f => f.lockStep s.lockWindow
  if ev then s.tickEvent else s

/-- Does the generator follow a source: since the first tick, in RUN or HOLD? -/
def State.tracks (s : State) : Bool :=
  s.external && s.boot.ticked && (s.frame.ticking || decide (s.sec.power = .hold))

/-- `time`: ns since the last tick, in HOLD since the last instant of the tracked grid. -/
def execReferenceEvent (time : Nat) (noSync : Bool) (s : State) : Out :=
  due s s.tracks (s.walkGrid.refEvent time noSync).settleHeld

/-- R36: an event that has not come by its time plus A counts as bad. -/
def execMissingEvent (s : State) : Out :=
  due s s.tracks ((s.walkGrid.modFrame Frame.bad).settleHeld)

/-- The holdover frames pass with the frame in progress; a count of 0 passes at the loss (R39, R42). -/
def expiryReady (s : State) : Bool :=
  let f := s.frame
  let limit := s.atReset 0x3000 7
  s.external && f.ticking && !f.tickState.isFallback && !f.returnDue && !f.fallbackDue &&
    ((decide (f.lock = .holdover ∨ f.lock = .acquiring) && decide (limit ≤ f.holdUsed + 1)) ||
      (f.lossDue && decide (limit = 0)))

def execHoldoverExpiry (s : State) : Out :=
  due s (expiryReady s) (s.modFrame fun f => { f with fallbackDue := true })

/-- Table 2-2. -/
def Fallback.tick : Fallback → TickState
  | .free => .fallbackFree
  | .safe => .fallbackSafe
  | .hold => .fallbackHold

/-- The tick state at a tick, from the source's lock, a fallback that applies and a resume that acts. -/
def Frame.nextState (f : Frame) (mode : Fallback) (resume returned : Bool) : TickState :=
  if f.fallbackDue ∧ f.holding = false then mode.tick
  else if resume then f.lock
  else if f.tickState = .fallbackFree then (if returned then f.lock else f.tickState)
  else if f.tickState.isFallback then f.tickState
  else f.lock

/-- R39 to R43 at a tick. `restart`: the tick of a fallback HOLD restarts. Frames of holdover, and of the wait for a first
lock, are counted until a fallback applies. -/
def State.lockTick (s : State) (restart : Bool) : State :=
  let f := s.frame
  let counts := s.external && !f.holding && !f.tickState.isFallback
  let g := { f with holdUsed := if counts then f.holdUsed + 1 else f.holdUsed,
                    holdTotal := if counts then satInc 32 f.holdTotal else f.holdTotal,
                    refPhase := (f.refPhase + 1) % s.refEvery }.lockStep s.lockWindow
  let resume := restart || f.resumeNow
  let st := g.nextState (Fallback.ofCode (s.atReset 0x3000 8)) resume f.returnDue
  let s := s.modFrame fun _ =>
    { g with tickState := st, fallbackDue := false, resumeNow := false, resumeHold := false,
             holdUsed := if resume then 0 else g.holdUsed }
  if f.lockEvent || resume || (st.isFallback && !f.tickState.isFallback) then s.tickEvent else s

/-- EMCY 0xFF01 while in holdover or fallback; LIMP and WAIVED keep the bit (R266). -/
def State.tickEmcy (s : State) : State :=
  if s.frame.tickState = .holdover ∨ s.frame.tickState.isFallback = true then s.errAll 0xFF01 7 true
  else if s.boot.dev = .limp ∨ s.boot.dev = .waived then s
  else s.errAll 0xFF01 7 false

/-- The length of the frame that begins. -/
def State.frameLen (s : State) : State :=
  let d := s.frameDelta
  s.modFrame fun f => { f with len := (s.P + d).toNat, slew := if f.holding then f.slew - 10 * d else f.slew,
                               rate := if f.lock = .locked then d else f.rate }

/-! ### The tick (R33, R46, R55, R256) -/

/-- An rwt write acts: the overrun latch, a position re-arm, a latch-off. -/
def State.actRwt (s : State) (e : Rwt) : State :=
  let i := e.key / 2 ^ 8 % 2 ^ 16
  let sub := e.key % 2 ^ 8
  let d := if i < 0x5800 then 0 else 1
  let o := i % 0x800
  if e.v ≠ 1 then s
  else if i = 0x3002 then s.modFrame fun f => { f with resumeNow := f.tickState.isFallback }
  else if i = 0x3104 then s.modTen (sub - 1) fun x => { x with latch := false, consec := 0 }
  else if sub = 7 then s.modPos d (o - 0x30) fun x => { x with rearm := true }
  else if sub = 0x0F then s.modLoad d (o - 0x60) fun x => { x with latched := false }
  else s

/-- Of the writes to one object that act at one tick, the later accepted one acts. -/
def lastPerKey : List Rwt → List Rwt
  | [] => []
  | e :: rest => if rest.any (fun x => decide (x.key = e.key)) then lastPerKey rest else e :: lastPerKey rest

def State.actRwts (s : State) : State :=
  let l := lastPerKey (s.rwt.filter (fun e => decide (e.ticks ≤ 1)))
  l.foldl State.actRwt
    { s with rwt := (s.rwt.filter (fun e => decide (1 < e.ticks))).map (fun e => { e with ticks := e.ticks - 1 }) }

/-- Is a function reset of a tenant still to take effect? -/
def State.flrPending (s : State) (t : Nat) : Bool :=
  [0, 1].any (fun p => (List.range 16).any (fun f => (s.func p f).resetReq && decide (s.tenantOf (.pcie p f) = some t)))

/-- The tenants' own state at a tick; floors held for a reset that has taken effect are released (R231). -/
def State.tenantsTick (s : State) : State :=
  s.each (List.range 8) fun s t =>
    let pend := s.flrPending t
    s.modTen t fun x => { x with overran := false, notifySent := false, floorsHeld := x.floorsHeld && (x.resetReq || pend) }

/-- A function sends again once its reset is through and no context created through it is left (R239, R242). -/
def State.releaseFuncs (s : State) : State :=
  s.each [0, 1] fun s p => s.each (List.range 16) fun s f =>
    if (s.func p f).blocked && !(s.func p f).resetReq &&
        !s.liveCtxs.any (fun c => decide ((s.ctx c).via = .pcie p f)) then
      s.modFunc p f fun x => { x with blocked := false }
    else s

/-- The fabric's tick pulse; a RESTART goes on; tenant resets of the frame before are over (R334 to R336). -/
def Fab.tick (f : Fab) : Fab := { f with fabTick := true, trst := 0, restartGo := f.restarting }

/-- The frame's own fields where a frame begins. -/
def Frame.begin (f : Frame) : Frame :=
  { f with phase := .sample, comb := .none, resetCtxs := [], resetTenants := [], allSafe := false, ctxReset := false,
           ending := .runs, ticking := true }

/-- SAMPLE begins: everything a tick does where a frame follows it. `bits`: modulator bits since the last tick. -/
def State.beginFrame (s : State) (x0 x1 : GaugeIn) (bits : Nat) (restart : Bool) : State :=
  let s := ({ s with effT := s.obj }.modFrame Frame.begin).actRwts
  let s := (s.lockTick restart).frameLen.tickEmcy
  let s := s.modPower fun p => { p with position := p.posNext }
  let s := s.tenantsTick.releaseFuncs
  let s := (s.each (List.range 4) fun s m => s.modFab m Fab.tick).mapsDue
  (s.latchGauge 0 x0 bits).latchGauge 1 x1 bits

/-- The tick stops; `st` shows why. -/
def State.stopTick (s : State) (st : TickState) : State :=
  s.modFrame fun f => { f with ticking := false, tickState := st, phase := .sample, comb := .none, ending := .runs }

/-- Start-up is to begin again. -/
def State.unready (s : State) : State :=
  s.modBoot fun b => { b with dev := .starting, started := false, gDone := false }

/-- What the tick that ends a frame begins in place of SAMPLE. -/
def State.endFrame (s : State) (e : FrameEnd) : State :=
  match e with
  | .runs => s
  | .reset =>
    ((s.stopTick .stopped).unready).modBoot fun b =>
      { b with warmDue := true, warmReq := if b.coldReq then b.warmReq else some (b.warmReq.getD (s.power.warmDue.getD 3)) }
  | .erase =>
    ((s.stopTick .stopped).unready).modSec fun x =>
      { x with lifeReq := none, powerReq := none, erasing := true, otp := { x.otp with target := x.lifeReq } }
  | .hold =>
    (s.stopTick (if s.frame.tickState = .fallbackHold then .fallbackHold else .stopped)).modSec fun x =>
      { x with power := .hold, powerReq := none }
  | .doze => (s.stopTick .stopped).modSec fun x => { x with entering := some .doze, powerReq := none }
  | .ember =>
    ((s.stopTick .stopped).modSec fun x => { x with entering := some .ember, powerReq := none }).modBoot fun b =>
      { b with pwrEn := false }

/-- How this frame ends: an urgent warm reset first (R341), then what GUARD found, then a fallback HOLD (R40). -/
def State.frameEnd (s : State) : FrameEnd :=
  if s.power.warmDue.isSome then .reset
  else if s.frame.ending ≠ .runs then s.frame.ending
  else if s.frame.tickState = .fallbackHold then .hold
  else .runs

/-- An urgent warm reset that came in GUARD: every output safe, every context reset with its records (log 32). -/
def State.urgentEnd (s : State) : State :=
  if s.power.warmDue = none then s else
  let s := s.each [0, 1] fun s d => s.each (List.range 20) fun s o =>
    let v := s.safeValue d o
    s.modOutput d o fun x => x.safe v
  s.each s.liveCtxs fun s c => s.resetCtx c .warm

/-- The frame is over: no pass of it is in flight. -/
def State.land (s : State) : State := { s with plates := tmap {} (fun _ p => { p with flight := none }) s.plates }

/-- The tick: time and counter, the outputs, then the next frame or what ends the run of frames. -/
def tickEffect (s : State) (x0 x1 : GaugeIn) : State :=
  let e := s.frameEnd
  let bits := s.frame.len / 5
  let s := s.urgentEnd.flushNotify.land
  let s := s.modFrame fun f => { f with now := f.now - f.elapsed + f.len, elapsed := 0, counter := f.counter + 1 }
  let s := s.each [0, 1] State.activate
  if e = .runs then s.beginFrame x0 x1 bits false else s.endFrame e

/-- Is the frame in this phase? -/
def State.inPhase (s : State) (p : Phase) : Bool := s.frame.ticking && decide (s.frame.phase = p)

def execTick (x0 x1 : GaugeIn) (s : State) : Out :=
  due s (s.inPhase .guardPhase && s.frame.isSealed) (tickEffect s x0 x1)

/-- HOLD ends: by a resume from fallback, or by a commit requesting RUN (R41, R373). -/
def holdRestartReady (s : State) : Bool :=
  decide (s.sec.power = .hold) && !s.frame.ticking &&
    (if s.frame.tickState = .fallbackHold then s.frame.resumeHold else decide (s.sec.powerReq = some .run))

def holdRestart (s : State) (x0 x1 : GaugeIn) : State :=
  let fb := decide (s.frame.tickState = .fallbackHold)
  let s := s.modSec fun x => { x with power := .run, powerReq := none }
  let s := s.modFrame fun f => { f with elapsed := 0, counter := f.counter + 1 }
  (s.each [0, 1] State.activate).beginFrame x0 x1 (s.P / 5) fb

def execHoldTickRestart (x0 x1 : GaugeIn) (s : State) : Out :=
  due s (holdRestartReady s) (holdRestart s x0 x1)

/-! ### COMB and IMPRESS (R45 to R52, R154, R101) -/

/-- The frame stands at an offset from its tick. -/
def Frame.goTo (f : Frame) (off : Nat) : Frame := { f with now := f.now - f.elapsed + off, elapsed := off }

/-- A halt whose grant has ended is lifted where its queue's class begins (R370). -/
def Queue.lift (x : Queue) : Queue := if x.haltBy = none then { x with haltAt := none } else x

/-- Counters S0 to S7 cleared (R154), the impression allowance full again. -/
def State.combCtx (s : State) (c : Nat) : State :=
  let s := s.each [0, 1, 2, 3] fun s q => s.modQueue c q Queue.lift
  (s.advanceCtx c).modCtx c fun x =>
    { x with counters := x.counters.filter (fun e => decide (8 ≤ e.1)), impAllow := s.pcls c 4 }

def openingComb (s : State) : State :=
  let s := s.flushNotify.modFrame fun f =>
    { f.goTo 4 with phase := .comb, comb := .opening, tooth := 0, resEnded := 0, late := 0 }
  let s := s.each (List.range 4) fun s m => s.modFab m fun f => { f with fabTick := false }
  { s.each s.liveCtxs State.combCtx with unitHeld := [] }

def execOpeningComb (s : State) : Out := due s (s.inPhase .sample) (openingComb s)

/-- The dies whose engines a comb moves: Field and Plate dies (Table 2-5). -/
def computeDies : List Nat := List.range 12

/-- Has a die engines at work? -/
def State.dieWorks (s : State) (die : Nat) : Bool :=
  s.ops.any fun o => decide (o.fin = none) && !o.suspended && decide (engineDie o.word = some die)

/-- Does margin work wait to start on engines of a die, or to resume there? -/
def State.dieWanted (s : State) (die : Nat) : Bool :=
  (s.ops.any fun o => decide (o.fin = none) && o.suspended && decide (engineDie o.word = some die)) ||
    s.liveCtxs.any fun c => [4, 5, 6, 7].any fun q => s.canIssue c q && decide (engineDie (s.nextMacro c q) = some die)

/-- Does group `tooth` of a die stand at operating level after the tooth (R47)? The opening comb brings every group up, a
margin comb those that margin work waits for; the closing comb lets down those without work, the quiescing comb all. -/
def State.groupAfter (s : State) (die : Nat) : Bool :=
  let up := bit (tget 0 s.frame.level die) s.frame.tooth
  match s.frame.comb with
  | .opening => true
  | .marginComb => up || s.dieWanted die
  | .closing => up && s.dieWorks die
  | .quiescing => false
  | .none => up

/-- One tooth. -/
def State.combStep (s : State) : State :=
  let b : BitVec 16 := BitVec.ofNat 16 (2 ^ s.frame.tooth)
  let lv := computeDies.foldl (fun t d => tmod 0 t d fun x => if s.groupAfter d then x ||| b else x &&& ~~~ b) s.frame.level
  s.modFrame fun f => { f with tooth := f.tooth + 1, level := lv }

def execCombTooth (s : State) : Out :=
  due s (s.frame.ticking && decide (s.frame.comb ≠ .none) && decide (s.frame.tooth < 16)) s.combStep

def impressStart (s : State) : State :=
  s.flushNotify.modFrame fun f => { f.goTo 68 with phase := .impress, comb := .none, level := tofList 0 (computeDies.map fun _ => 0xFFFF) }

def execImpressStart (s : State) : Out := due s (s.inPhase .comb) (impressStart s)

/-- Reserved work of the frame that has not reached END (R49, R56). -/
def Queue.unfinished (x : Queue) : Bool := x.eligible || x.run.isSome || (x.headRan && !x.headEnded)

/-- The impression queues of a tenant with unfinished reserved work, of the contexts not in `out`. -/
def State.unfinishedOf (s : State) (t : Nat) (out : List Nat) : List (Nat × Nat) :=
  (s.liveCtxs.filter (fun c => decide ((s.ctx c).tenant = t) && !decide (c ∈ out))).flatMap (fun c =>
    ([0, 1, 2, 3].filter (fun q => (s.queue c q).unfinished)).map (fun q => (c, q)))

def reservationReady (s : State) (t : Nat) : Bool :=
  decide (t < 8) && (s.inPhase .impress || s.inPhase .margin) && !bit s.frame.resEnded t &&
    decide (0 < s.atTick 0x3100 (t + 1))

/-- R52: work still unfinished makes the frame a late one, counted at GUARD where it is no overrun. -/
def reservationEnd (s : State) (t : Nat) : State :=
  let m : BitVec 8 := BitVec.ofNat 8 (2 ^ t)
  let late := s.unfinishedOf t [] ≠ []
  s.modFrame fun f => { f with resEnded := f.resEnded ||| m, late := if late then f.late ||| m else f.late }

def execReservationEnd (t : Nat) (s : State) : Out :=
  due s (reservationReady s t) (reservationEnd s t)

/-! ### MARGIN (R47, R53, R83, R129, R353) -/

/-- The die of a macro-instruction that margin may suspend. -/
def Op.die (o : Op) : Option Nat :=
  match o.prog with
  | .etch h => some (4 + h.pdie)
  | .hatch _ | .stip _ => some (hatchDie o.word)
  | .ext m _ => some m
  | .load r => some (4 + r.g / 4)
  | _ => none

/-- The next pass restores the group from its slot, and its input is fetched again. -/
def State.restoreEtch (s : State) (o : Op) (h : EtchRun) : State :=
  let a := s.saveSlot o.c o.q h.pdie
  let word (j : Nat) : Int := signed 32 (leNat (s.rdN (a + 4 * j) 4)) - tget 0 h.lo j
  let acc := if s.poisoned a 4096 then h.acc
    else (List.range h.n).foldl (fun t j => tset 0 t (1024 * h.groupAt + j) (word j)) h.acc
  s.modOp o.c o.q o.idx fun p =>
    { p with suspended := false, prog := .etch ({ h with saved := false, acc := acc, latch := [] }.fetch s o) }

/-- An aborted EXT is issued again from its start; its port may be gone meanwhile. -/
def State.reissueExt (s : State) (o : Op) (m p : Nat) : State :=
  if !s.extThere m p then s.endOp o.c o.q o.idx (some (.extAbsent, 0)) 0
  else if (s.ext m p).cmd ≠ none ∨ (s.ext m p).aborting = true then s
  else extStart (s.modOp o.c o.q o.idx fun x => { x with suspended := false }) o m p []

def State.resumeOp (s : State) (o : Op) : State :=
  match o.prog with
  | .ext m p => s.reissueExt o m p
  | .etch h => if h.saved then s.restoreEtch o h else s.modOp o.c o.q o.idx fun x => { x with suspended := false }
  | _ => s.modOp o.c o.q o.idx fun x => { x with suspended := false }

/-- Margin macro-instructions still running on Plate and Field dies. -/
def State.marginOps (s : State) : List Op :=
  s.ops.filter (fun o => decide (4 ≤ o.q) && decide (o.fin = none) && o.die.isSome)

/-- The unit of an operation, the plates of its die for an ETCH. -/
def Op.engineUnit (o : Op) : Nat := match o.prog with | .etch h => 0x10 + h.pdie | _ => o.unit

/-- Does a running operation hold what a suspended one needs: its unit, or for an ETCH one of its plates? -/
def Op.clashes (p o : Op) : Bool :=
  decide (p.fin = none) && !p.suspended && !decide (p.c = o.c ∧ p.q = o.q ∧ p.idx = o.idx) &&
    (match p.prog, o.prog with
     | .etch h, .etch k => h.plates.any (fun g => decide (g ∈ k.plates))
     | .etch _, _ | _, .etch _ => false
     | _, _ => decide (p.unit = o.unit))

/-- May a suspended macro-instruction go on: no reserved work has or waits for its unit or its plates, and its engines stand
at operating level (R45, R47, R53)? -/
def State.mayResume (s : State) (o : Op) : Bool :=
  !s.reservedWaits o.engineUnit && !s.ops.any (fun p => p.clashes o) &&
    (match o.prog with | .etch h => !h.saved || decide (s.groupsHeld h.pdie < 4) | _ => true) &&
    (match engineDie o.word with | some d => s.engineUp d | none => true)

/-- A slot opens or closes: where margin work may run, suspended work resumes; elsewhere it stops at its next boundary. An
EXT runs on to its end. -/
def State.marginSlot (s : State) : State :=
  s.marginOps.foldl (fun s o =>
    if s.marginOpen (o.die.getD 0) then (if o.suspended && s.mayResume o then s.resumeOp o else s)
    else match o.prog with
      | .ext _ _ => s
      | _ => s.modOp o.c o.q o.idx fun x => { x with suspended := true }) s

/-- MARGIN of one context: its allowance, the lifted halts of its margin queues. -/
def State.marginCtx (s : State) (c : Nat) : State :=
  let s := s.each [4, 5, 6, 7] fun s q => s.modQueue c q Queue.lift
  s.modCtx c fun x => { x with marAllow := s.pcls c 5 }

def marginStart (s : State) : State :=
  let s := s.flushNotify.modFrame fun f =>
    { f.goTo (68 + s.W) with phase := .margin, comb := .closing, tooth := 0, slotOpen := true }
  (s.each s.liveCtxs State.marginCtx).marginSlot

def execMarginStart (s : State) : Out := due s (s.inPhase .impress) (marginStart s)

/-- Where the next margin comb begins. -/
def State.nextComb (s : State) : Nat := if s.frame.comb = .closing then 68 + s.W + 64 else s.frame.elapsed + 64

def marginComb (s : State) : State :=
  (s.modFrame fun f =>
    { f.goTo s.nextComb with comb := .marginComb, tooth := 0, slot := f.slot + 1,
                             slotOpen := slotOpenAt s.power.position f.slot }).marginSlot

def execMarginComb (s : State) : Out :=
  due s (s.inPhase .margin && decide (s.nextComb < s.frame.len - s.G)) (marginComb s)

/-! ### GUARD: links (R31) -/

/-- Is a context on the path that a link carries (Table 1-10)? -/
def State.onPath (s : State) (c l : Nat) : Bool :=
  let x := s.ctx c
  let b := s.bundleOf c
  if l < 8 then (List.range 4).any (fun i => decide ((s.plate (4 * l + i)).owner = some c)) || decide (b.epieces l ≠ 0)
  else if l < 16 then b.used ((l - 8) % 4)
  else if l < 18 then (match x.via with | .burin _ => true | _ => false)
  else if l < 20 then (match x.via with | .pcie _ _ => true | _ => false)
  else false

/-- The tenants a link's loss is told to. -/
def State.linkTenants (s : State) (l : Nat) : List Nat :=
  (List.range 8).filter (fun t =>
    s.liveCtxs.any (fun c => decide ((s.ctx c).tenant = t) && s.onPath c l) ||
      (decide (22 ≤ l) && (List.range 20).any (fun o =>
        decide (s.outputTenant (l - 22) o = t) || decide (s.inputTenant (l - 22) o = t))))

/-- A bank lost with its link: what is left says what an ETCH on it computes, and where a rebite finds the weights. -/
def Bank.lose (b : Bank) : Bank :=
  if b.state = .empty then b else { state := b.state, k := b.k, n := b.n, src := b.src, mirror := b.mirror, lost := true }

/-- The plates of a Plate die leave service, their banks are lost (R31; log 91); a LOAD in progress faults. -/
def State.loseBanks (s : State) (pdie : Nat) : State :=
  let s := s.each [0, 1, 2, 3] fun s i => s.modPlate (4 * pdie + i) fun p =>
    { p with bankA := p.bankA.lose, bankB := p.bankB.lose, state := if p.state = .failed then .failed else .linkDown }
  (s.ops.filter (fun o => match o.prog with | .load r => decide (o.fin = none ∧ r.g / 4 = pdie) | _ => false)).foldl
    (fun s o => s.endOp o.c o.q o.idx (some (.linkDown, 0)) 0) s

/-- One link declared down since the last GUARD. -/
def State.linkEffect (s : State) (l : Nat) : State :=
  if !(s.link l).downDue then s else
  let s := s.modLink l fun k => { k with downDue := false }
  let ts := s.linkTenants l
  let r := { s.mkRec 0x07 with die := 0x0F, detail := BitVec.ofNat 64 l }
  let s := ts.foldl (fun s t => s.postTenant t r) (s.postSup r)
  let s := if l < 8 then s.loseBanks l else s
  if (s.linkDown 16 && s.linkDown 17) || (s.linkDown 20 && s.linkDown 21) then s.requestWarm 5 else s

def State.linkEffects (s : State) : State := s.each (List.range 24) State.linkEffect

/-! ### GUARD: resets, power states and lifecycle fixed (R239, R240, R364, R372) -/

def State.endingDue (s : State) : FrameEnd :=
  if s.sec.lifeReq.isSome then .erase
  else if s.boot.coldReq ∨ s.boot.warmReq.isSome = true then .reset
  else match s.sec.powerReq with
    | some .hold => .hold
    | some .doze => .doze
    | some .ember => .ember
    | _ => .runs

/-- The contexts a reset of this GUARD covers. -/
def State.covered (s : State) : List Nat := s.liveCtxs.filter (fun c => (s.scopeDue c).isSome)

/-- The scope of this GUARD's resets is fixed; a request for RUN in RUN is met. -/
def State.fixScope (s : State) : State :=
  let e := s.endingDue
  let s := s.modFrame fun f =>
    { f with ending := e, allSafe := decide (e ≠ .runs),
             ctxReset := decide (e = .erase ∨ e = .doze ∨ e = .ember) }
  let s := s.modSec fun x => { x with powerReq := if x.powerReq = some .run then none else x.powerReq }
  s.modFrame fun f => { f with resetCtxs := s.covered, resetTenants := (List.range 8).filter (fun t => (s.ten t).resetReq) }

/-! ### GUARD: overruns (R52, R56 to R58) -/

/-- What a queue has on engines is given up: what its macro-instructions have written stands, an EXT is aborted, a loading
bank is EMPTY again. -/
def State.dropQueue (s : State) (c q : Nat) : State :=
  let s := (s.opsOf c q).foldl (fun s o => let s := s.release o; match o.prog with
    | .ext m p => if o.fin = none ∧ (s.ext m p).cmd = some (c, q, o.idx) then s.abortExt m p o else s
    | .load r => if o.fin = none then s.modPlate r.g fun p => p.setBank r.toB {} else s
    | _ => s) s
  { s with ops := s.ops.filter (fun o => !decide (o.c = c ∧ o.q = q)) }

/-- An entry that holds no unit overran: not started, rejected or faulted. Its result area is written before its record
(R212). -/
def State.overrunIdle (s : State) (n c q : Nat) : State :=
  let x := s.queue c q
  let (i, s) := s.headInfo c q
  let (a, cookie) := match i with
    | some (_, a, k) => (a, k)
    | none => (1, 0)
  ((s.resultArea c q a).post { s.mkRec 0x04 with
    c := c, q := q, status := Status.overrun.code, cookie := cookie, index := x.lastIdx, detail := BitVec.ofNat 64 n }).modQueue
      c q fun x => { x with headRan := true, headEnded := false, headDone := x.headDone && !x.eligible }

/-- One queue whose reserved work is unfinished: its entry completes with OVERRUN; `n` is the tenant's count. -/
def State.overrunQueue (s : State) (n c q : Nat) : State :=
  (match (s.queue c q).run with
    | some r => (s.dropQueue c q).endRun c q .overrun r.lastDone n
    | none => s.overrunIdle n c q).modQueue c q fun x => { x with eligible := false }

/-- A tenant at GUARD: no overrun ends its run of overruns; an overrun is counted, told and, at the limit, latched. -/
def Tenant.overrun (x : Tenant) (limit : Nat) : Tenant :=
  { x with overran := true, overruns := satInc 32 x.overruns, consec := x.consec + 1,
           latch := x.latch || (decide (limit ≠ 0) && decide (limit ≤ x.consec + 1)) }

def State.judgeTenant (s : State) (t : Nat) : State :=
  match s.unfinishedOf t s.frame.resetCtxs with
  | [] =>
    let late := bit s.frame.late t
    s.modTen t fun x => { x with consec := 0, lateFinishes := if late then satInc 32 x.lateFinishes else x.lateFinishes }
  | l =>
    let limit := s.atTick 0x3101 (t + 1)
    let s := s.modTen t fun x => x.overrun limit
    l.foldl (fun s e => s.overrunQueue (s.ten t).overruns e.1 e.2) s

/-! ### GUARD: margin work, rebites, ledgers (R53, R83, R105, R109, R129) -/

/-- One margin macro-instruction stops at its next boundary. -/
def State.stopOp (s : State) (o : Op) : State :=
  match o.prog with
  | .etch h => if h.saved then s else s.saveEtch o h
  | .ext m p =>
    let s := if (s.ext m p).cmd = some (o.c, o.q, o.idx) then s.abortExt m p o else s
    s.modOp o.c o.q o.idx fun x => { x with suspended := true }
  | _ => s.modOp o.c o.q o.idx fun x => { x with suspended := true }

def State.stopMargin (s : State) : State := s.marginOps.foldl State.stopOp s

/-- R83, R240: the passes in flight, with what their proofs need: the next pass of each plate of a running ETCH. -/
def State.launch (s : State) : State :=
  s.ops.foldl (fun s o => match o.etchRun with
    | some h => if o.fin ≠ none ∨ o.suspended = true then s else
        s.each (h.plates.filter fun g => (h.passOf g).isSome) fun s g =>
          s.modPlate g fun p => { p with flight := some ⟨o, p.active, s.clsOf o.c⟩ }
    | none => s) s

def State.abandonRebites (s : State) : State :=
  { s with
    rebites := []
    ops := s.ops.map (fun o => match o.prog with
      | .etch h => if o.fin = none then { o with prog := .etch h.abandon } else o
      | _ => o) }

/-- BURR_SPENT under FLAG, once per frame (R102), and the ledger area where the ledger changed. -/
def State.ledgerCtx (s : State) (c : Nat) : State :=
  let x := s.ctx c
  let s := if 0 < x.refused ∧ s.pcls c 6 = 0 then
      s.post { s.mkRec 0x0C with c := c, q := 15, detail := BitVec.ofNat 64 x.refused }
    else s
  let s := if x.ledger.changed then s.wrCtx c 0 x.ledgerAddr x.ledger.bytes else s
  s.modCtx c fun x => { x with refused := 0, ledger := { x.ledger with changed := false } }

/-! ### GUARD: resets and requests of contexts (Tables 10-5, 10-6, 9-14) -/

/-- Does a reset of this GUARD cover the tenant, and is it as wide as the tenant or wider? -/
def State.tenantHit (s : State) (t : Nat) : Bool :=
  decide (t ∈ s.frame.resetTenants) || s.boot.warmReq.isSome || s.boot.coldReq || s.frame.ctxReset
def State.tenantCovered (s : State) (t : Nat) : Bool :=
  s.tenantHit t || s.flrPending t || s.frame.resetCtxs.any (fun c => decide ((s.ctx c).tenant = t))

/-- Counts, TENANT grants, CONTROL and the latch of one tenant. -/
def State.resetTenant (s : State) (t : Nat) : State :=
  if !s.tenantCovered t then s else
  let s := s.modTen t fun x => { x with resetsTaken := satInc 32 x.resetsTaken }
  if !s.tenantHit t then s else
  let device := s.boot.warmReq.isSome || s.boot.coldReq || s.frame.ctxReset
  (s.endGrants fun g => decide (g.level = .tenant) && decide (g.tenant = t)).modTen t fun x =>
    { x with started := false, latch := x.latch && !device, consec := if device then 0 else x.consec }

/-- Every reset due, by the widest scope; the requests are met. -/
def State.doResets (s : State) : State :=
  let s := s.each (List.range 8) State.resetTenant
  let s := s.each s.frame.resetCtxs fun s c => match s.scopeDue c with
    | some sc => s.resetCtx c sc
    | none => s
  s.each s.liveCtxs State.ackLate

/-- The requests taken up in this GUARD are over. -/
def State.clearRequests (s : State) : State :=
  let s := s.each (List.range 8) fun s t => s.modTen t fun x => { x with resetReq := false }
  s.each [0, 1] fun s p => s.each (List.range 16) fun s f => s.modFunc p f fun x => { x with resetReq := false }

/-- Orphans, plate releases, teardowns, admissions, in the order of Table 9-14. -/
def State.contextsGuard (s : State) : State :=
  let s := s.each s.liveCtxs State.orphanCheck
  let s := s.each s.liveCtxs State.releasePlates
  let s := s.each s.liveCtxs State.teardownCtx
  let s := s.clearRequests
  s.each s.liveCtxs fun s c => if (s.ctx c).admitDue then s.admitCtx c else s

/-! ### GUARD: plates, power, the fabric, captures -/

def Plate.guardFrame (p : Plate) (temp : Int) : Plate :=
  { p.guardTrim temp with stepped := false, failDue := false, frames := if p.dueTemp then p.frames + 1 else p.frames }

def State.platesGuard (s : State) (temps : Tab Int) : State :=
  s.each (List.range 32) fun s g => s.modPlate g fun p => p.guardFrame (tget p.temp temps g)

def State.fabricGuard (s : State) : State :=
  s.each (List.range 4) fun s m => (s.reconfigure m).modFab m Fab.restart

/-- GUARD begins (Table 2-6 at 0, Table 10-5). -/
def Frame.openGuard (f : Frame) (off : Nat) : Frame :=
  { f.goTo off with phase := .guardPhase, comb := .quiescing, tooth := 0, slotOpen := false, prepared := false,
                    isSealed := false, freqDone := false, slotOps := 0 }

/-- The temperatures of the plates (a plate not listed has not changed), the energy of the ladder in mJ, B0's temperature. -/
def guardStart (s : State) (temps : Tab Int) (energy : Nat) (b0Temp : Int) : State :=
  let s := s.flushNotify.modFrame fun f => f.openGuard (s.frame.len - s.G)
  let s := s.linkEffects.fixScope.launch
  let s := s.each (List.range 8) State.judgeTenant
  let s := s.abandonRebites.stopMargin
  let s := s.each s.liveCtxs State.ledgerCtx
  let s := (s.each s.liveCtxs State.invalidates).doResets.contextsGuard
  let s := ((s.platesGuard temps).moveLadder energy).planStep b0Temp
  let s := s.captureMaps.capturePdos.countMissed
  s.fabricGuard.diagnoseAll

def execGuardStart (temps : Tab Int) (energy : Nat) (b0Temp : Int) (s : State) : Out :=
  due s (s.inPhase .margin) (guardStart s temps energy b0Temp)

/-! ### GUARD: outputs, slots, seal (R54, R199, R295) -/

/-- FAB_TRST of the tenants in reset reaches every Field die (R336). -/
def trstBits (l : List Nat) : BitVec 8 := BitVec.ofNat 8 ((l.map (2 ^ ·)).sum)

def outputPreparation (s : State) : State :=
  let s := (s.prepareGauge 0).prepareGauge 1
  let s := s.each (List.range 4) fun s m => s.modFab m fun f => { f with trst := trstBits s.frame.resetTenants }
  s.modFrame fun f => { f.goTo (f.len - s.G + 64) with prepared := true }

def execOutputPreparation (s : State) : Out :=
  due s (s.inPhase .guardPhase && !s.frame.prepared) (outputPreparation s)

/-- The time for GUARD work: after output preparation, any frequency change made, before the seal. -/
def State.guardWork (s : State) : Bool :=
  s.inPhase .guardPhase && s.frame.prepared && !s.frame.isSealed && (decide (s.power.plan = .none) || s.frame.freqDone)

def slotOpReady (s : State) : Bool :=
  s.guardWork && decide (s.frame.slotOps < s.slotLimit) && s.nextSlotOp.isSome

def slotOpEffect (s : State) : State :=
  match s.nextSlotOp with
  | some o => s.doSlotOp o
  | none => s

def execSlotOperation (s : State) : Out := due s (slotOpReady s) (slotOpEffect s)

def execOutputSeal (s : State) : Out :=
  due s s.guardWork
    (s.modFrame fun f => { f.goTo (f.len - 25) with isSealed := true })

end Sys2Proof.Machine
end

