-- ==== Sys2Proof/Machine/Dispatch.lean ====
section
/-!
DEFINITION. Dispatch: one arm per command, each one direct call of its meaning.
-/

namespace Sys2Proof.Machine

open Sys2Proof

def exec (i : Instr) (s : State) : Host.Outcome State Fault Refusal :=
  match i with
  | .tick x0 x1 => Sys2Proof.Machine.execTick x0 x1 s
  | .openingComb => Sys2Proof.Machine.execOpeningComb s
  | .combTooth => Sys2Proof.Machine.execCombTooth s
  | .impressStart => Sys2Proof.Machine.execImpressStart s
  | .reservationEnd t => Sys2Proof.Machine.execReservationEnd t s
  | .marginStart => Sys2Proof.Machine.execMarginStart s
  | .marginComb => Sys2Proof.Machine.execMarginComb s
  | .guardStart temps energy b0Temp => Sys2Proof.Machine.execGuardStart temps energy b0Temp s
  | .outputPreparation => Sys2Proof.Machine.execOutputPreparation s
  | .slotOperation => Sys2Proof.Machine.execSlotOperation s
  | .frequencySwitch ready => Sys2Proof.Machine.execFrequencySwitch ready s
  | .outputSeal => Sys2Proof.Machine.execOutputSeal s
  | .referenceEvent time noSync => Sys2Proof.Machine.execReferenceEvent time noSync s
  | .missingEvent => Sys2Proof.Machine.execMissingEvent s
  | .holdoverExpiry => Sys2Proof.Machine.execHoldoverExpiry s
  | .resumeFromFallback via v => Sys2Proof.Machine.execResumeFromFallback via v s
  | .holdTickRestart x0 x1 => Sys2Proof.Machine.execHoldTickRestart x0 x1 s
  | .flitReceive l dir f time => Sys2Proof.Machine.execFlitReceive l dir f time s
  | .retrainComplete l fail0 fail1 ok time => Sys2Proof.Machine.execRetrainComplete l fail0 fail1 ok time s
  | .arbitrationWindow d w => Sys2Proof.Machine.execArbitrationWindow d w s
  | .stockScrub k off e recovers => Sys2Proof.Machine.execStockScrub k off e recovers s
  | .lpddr5xPatrol a e => Sys2Proof.Machine.execLpddr5xPatrol a e s
  | .postedWriteComplete j e => Sys2Proof.Machine.execPostedWriteComplete j e s
  | .bankScrub g bank row mismatch => Sys2Proof.Machine.execBankScrub g bank row mismatch s
  | .passComplete c q idx p codes cP1 cP2 => Sys2Proof.Machine.execPassComplete c q idx p codes cP1 cP2 s
  | .rebiteComplete m bad ecc => Sys2Proof.Machine.execRebiteComplete m bad ecc s
  | .etchWriteOut c q idx => Sys2Proof.Machine.execEtchWriteOut c q idx s
  | .loadComplete c q idx ecc => Sys2Proof.Machine.execLoadComplete c q idx ecc s
  | .swapTakeEffect c q idx => Sys2Proof.Machine.execSwapTakeEffect c q idx s
  | .burnishDue g timed => Sys2Proof.Machine.execBurnishDue g timed s
  | .burnishStep g passes => Sys2Proof.Machine.execBurnishStep g passes s
  | .plateOverdue g => Sys2Proof.Machine.execPlateOverdue g s
  | .hatch c q ecc => Sys2Proof.Machine.execHatch c q ecc s
  | .operandFetchComplete c q x ecc => Sys2Proof.Machine.execOperandFetchComplete c q x ecc s
  | .claimGranted c q idx => Sys2Proof.Machine.execClaimGranted c q idx s
  | .tileDrain c q idx chk => Sys2Proof.Machine.execTileDrain c q idx chk s
  | .stipple c q ecc => Sys2Proof.Machine.execStipple c q ecc s
  | .stippleComplete c q idx chk ecc => Sys2Proof.Machine.execStippleComplete c q idx chk ecc s
  | .etch c q ecc => Sys2Proof.Machine.execEtch c q ecc s
  | .load c q ecc => Sys2Proof.Machine.execLoad c q ecc s
  | .swap c q => Sys2Proof.Machine.execSwap c q s
  | .moveInk c q ecc => Sys2Proof.Machine.execMoveInk c q ecc s
  | .moveDataMover c q ecc => Sys2Proof.Machine.execMoveDataMover c q ecc s
  | .toneDrain c q ecc residue => Sys2Proof.Machine.execToneDrain c q ecc residue s
  | .toneScale c q ecc residue => Sys2Proof.Machine.execToneScale c q ecc residue s
  | .toneAdd c q ecc residue => Sys2Proof.Machine.execToneAdd c q ecc residue s
  | .toneSub c q ecc residue => Sys2Proof.Machine.execToneSub c q ecc residue s
  | .toneClamp c q ecc residue => Sys2Proof.Machine.execToneClamp c q ecc residue s
  | .toneCmp c q ecc residue => Sys2Proof.Machine.execToneCmp c q ecc residue s
  | .toneTable c q ecc residue => Sys2Proof.Machine.execToneTable c q ecc residue s
  | .toneConvert c q ecc residue => Sys2Proof.Machine.execToneConvert c q ecc residue s
  | .reduceColumnSum c q ecc residue => Sys2Proof.Machine.execReduceColumnSum c q ecc residue s
  | .reduceRowSum c q ecc residue => Sys2Proof.Machine.execReduceRowSum c q ecc residue s
  | .reduceColumnMax c q ecc residue => Sys2Proof.Machine.execReduceColumnMax c q ecc residue s
  | .reduceRowMax c q ecc residue => Sys2Proof.Machine.execReduceRowMax c q ecc residue s
  | .reduceSumlist c q ecc residue => Sys2Proof.Machine.execReduceSumlist c q ecc residue s
  | .sample c q ecc => Sys2Proof.Machine.execSample c q ecc s
  | .actuate c q time ecc => Sys2Proof.Machine.execActuate c q time ecc s
  | .waitCount c q => Sys2Proof.Machine.execWaitCount c q s
  | .waitDrain c q => Sys2Proof.Machine.execWaitDrain c q s
  | .waitBoth c q => Sys2Proof.Machine.execWaitBoth c q s
  | .waitSatisfied c q => Sys2Proof.Machine.execWaitSatisfied c q s
  | .signalCounter c q => Sys2Proof.Machine.execSignalCounter c q s
  | .signalEvent c q => Sys2Proof.Machine.execSignalEvent c q s
  | .signalFence c q => Sys2Proof.Machine.execSignalFence c q s
  | .signalFlush c q => Sys2Proof.Machine.execSignalFlush c q s
  | .patchSet c q => Sys2Proof.Machine.execPatchSet c q s
  | .patchAdd c q => Sys2Proof.Machine.execPatchAdd c q s
  | .patchCopy c q => Sys2Proof.Machine.execPatchCopy c q s
  | .patchAddreg c q => Sys2Proof.Machine.execPatchAddreg c q s
  | .patchLoad c q ecc => Sys2Proof.Machine.execPatchLoad c q ecc s
  | .patchStore c q => Sys2Proof.Machine.execPatchStore c q s
  | .endEntry c q => Sys2Proof.Machine.execEndEntry c q s
  | .ext c q ecc => Sys2Proof.Machine.execExt c q ecc s
  | .extDone m p status beats => Sys2Proof.Machine.execExtDone m p status beats s
  | .extTimeout m p => Sys2Proof.Machine.execExtTimeout m p s
  | .extAbortAck m ack => Sys2Proof.Machine.execExtAbortAck m ack s
  | .extHung m p => Sys2Proof.Machine.execExtHung m p s
  | .macroComplete c q idx => Sys2Proof.Machine.execMacroComplete c q idx s
  | .doorbellQueue via w => Sys2Proof.Machine.execDoorbellQueue via w s
  | .doorbellConsumer via w => Sys2Proof.Machine.execDoorbellConsumer via w s
  | .entryStart c q => Sys2Proof.Machine.execEntryStart c q s
  | .marginEntryStart c q => Sys2Proof.Machine.execMarginEntryStart c q s
  | .heldRecordWrite c => Sys2Proof.Machine.execHeldRecordWrite c s
  | .fenceComplete c q => Sys2Proof.Machine.execFenceComplete c q s
  | .flushReadCompletion c q ok => Sys2Proof.Machine.execFlushReadCompletion c q ok s
  | .keepCas via c cmp new => Sys2Proof.Machine.execKeepCas via c cmp new s
  | .keepUpdate via v => Sys2Proof.Machine.execKeepUpdate via v s
  | .create via hdr record => Sys2Proof.Machine.execCreate via hdr record s
  | .admitCtx via hdr => Sys2Proof.Machine.execAdmit via hdr s
  | .invalidate via hdr body => Sys2Proof.Machine.execInvalidate via hdr body s
  | .releasePlate via hdr g => Sys2Proof.Machine.execReleasePlate via hdr g s
  | .teardown via hdr => Sys2Proof.Machine.execTeardown via hdr s
  | .contextReset via hdr => Sys2Proof.Machine.execContextReset via hdr s
  | .ackLate via hdr => Sys2Proof.Machine.execAckLate via hdr s
  | .bundleSubmit via bytes => Sys2Proof.Machine.execBundleSubmit via bytes s
  | .tenantResetRequest via t v => Sys2Proof.Machine.execTenantResetRequest via t v s
  | .warmResetRequest cause => Sys2Proof.Machine.execWarmResetRequest cause s
  | .coldResetRequest => Sys2Proof.Machine.execColdResetRequest s
  | .functionLevelReset port func vfEnableCleared => Sys2Proof.Machine.execFunctionLevelReset port func vfEnableCleared s
  | .partitionRestart part => Sys2Proof.Machine.execPartitionRestart part s
  | .msixUnmask port func w => Sys2Proof.Machine.execMsixUnmask port func w s
  | .burinPendingClear part => Sys2Proof.Machine.execBurinPendingClear part s
  | .notificationClear via t bits => Sys2Proof.Machine.execNotificationClear via t bits s
  | .overrunLatchClear via t v => Sys2Proof.Machine.execOverrunLatchClear via t v s
  | .objectWrite via port idx sub len v outstanding => Sys2Proof.Machine.execObjectWrite via port idx sub len v outstanding s
  | .pranilRead x ip udp hdr payload outstanding => Sys2Proof.Machine.execPranilRead x ip udp hdr payload outstanding s
  | .pranilWrite x ip udp hdr payload outstanding => Sys2Proof.Machine.execPranilWrite x ip udp hdr payload outstanding s
  | .describe x ip udp hdr payload outstanding => Sys2Proof.Machine.execDescribe x ip udp hdr payload outstanding s
  | .controlStart x ip udp hdr payload outstanding => Sys2Proof.Machine.execControlStart x ip udp hdr payload outstanding s
  | .controlStop x ip udp hdr payload outstanding => Sys2Proof.Machine.execControlStop x ip udp hdr payload outstanding s
  | .discover x ip udp hdr payload => Sys2Proof.Machine.execDiscover x ip udp hdr payload s
  | .rxCyclicReceive x ip udp hdr payload => Sys2Proof.Machine.execRxCyclicReceive x ip udp hdr payload s
  | .cyclicSend n => Sys2Proof.Machine.execCyclicSend n s
  | .icmpEcho x ip payload => Sys2Proof.Machine.execIcmpEcho x ip payload s
  | .gptpSync port domain msg => Sys2Proof.Machine.execGptpSync port domain msg s
  | .mailboxGo port func vec hdr payload outstanding => Sys2Proof.Machine.execMailboxGo port func vec hdr payload outstanding s
  | .mailboxStatusClear port func v => Sys2Proof.Machine.execMailboxStatusClear port func v s
  | .supervisorCall via hdr payload outstanding => Sys2Proof.Machine.execSupervisorCall via hdr payload outstanding s
  | .usdoTransfer port node write idx sub payload outstanding => Sys2Proof.Machine.execUsdoTransfer port node write idx sub payload outstanding s
  | .nmtStart port node => Sys2Proof.Machine.execNmtStart port node s
  | .nmtStop port node => Sys2Proof.Machine.execNmtStop port node s
  | .nmtEnterPreoperational port node => Sys2Proof.Machine.execNmtEnterPreoperational port node s
  | .nmtResetCommunication port node => Sys2Proof.Machine.execNmtResetCommunication port node s
  | .nmtResetNode port node => Sys2Proof.Machine.execNmtResetNode port node s
  | .rpdoReceive port n payload => Sys2Proof.Machine.execRpdoReceive port n payload s
  | .syncReceive port => Sys2Proof.Machine.execSyncReceive port s
  | .tpdoTransmit port n => Sys2Proof.Machine.execTpdoTransmit port n s
  | .heartbeatProduce port => Sys2Proof.Machine.execHeartbeatProduce port s
  | .heartbeatLoss port n => Sys2Proof.Machine.execHeartbeatLoss port n s
  | .sessionOpen via slot nonce => Sys2Proof.Machine.execSessionOpen via slot nonce s
  | .sessionStage via port idx sub len v => Sys2Proof.Machine.execSessionStage via port idx sub len v s
  | .sessionCommit via x => Sys2Proof.Machine.execSessionCommit via x s
  | .sessionClose via v => Sys2Proof.Machine.execSessionClose via v s
  | .sessionTimeout => Sys2Proof.Machine.execSessionTimeout s
  | .waiverInstall via slot w => Sys2Proof.Machine.execWaiverInstall via slot w s
  | .encoderEdge d j up => Sys2Proof.Machine.execEncoderEdge d j up s
  | .encoderIndex d j => Sys2Proof.Machine.execEncoderIndex d j s
  | .positionError d j => Sys2Proof.Machine.execPositionError d j s
  | .positionRearm via d j v cleared => Sys2Proof.Machine.execPositionRearm via d j v cleared s
  | .carrierPeriodStart d c => Sys2Proof.Machine.execCarrierPeriodStart d c s
  | .loadPeriodStart d k => Sys2Proof.Machine.execLoadPeriodStart d k s
  | .loadTurnOff d k => Sys2Proof.Machine.execLoadTurnOff d k s
  | .overcurrentDetect d k mv => Sys2Proof.Machine.execOvercurrentDetect d k mv s
  | .onStateDiagnosis d k mv => Sys2Proof.Machine.execOnStateDiagnosis d k mv s
  | .probeDiagnosis d k mv => Sys2Proof.Machine.execProbeDiagnosis d k mv s
  | .faultClear via d k v => Sys2Proof.Machine.execFaultClear via d k v s
  | .configurationLoadComplete m stripesOk => Sys2Proof.Machine.execConfigurationLoadComplete m stripesOk s
  | .releaseStage1 m => Sys2Proof.Machine.execReleaseStage1 m s
  | .releaseStage2 m => Sys2Proof.Machine.execReleaseStage2 m s
  | .releaseStage3 m => Sys2Proof.Machine.execReleaseStage3 m s
  | .configurationScrub m e => Sys2Proof.Machine.execConfigurationScrub m e s
  | .wellBusAccess m w a write v portA parityErr => Sys2Proof.Machine.execWellBusAccess m w a write v portA parityErr s
  | .fifoWrite m w v lag => Sys2Proof.Machine.execFifoWrite m w v lag s
  | .fifoRead m w lag => Sys2Proof.Machine.execFifoRead m w lag s
  | .collarClear m w => Sys2Proof.Machine.execCollarClear m w s
  | .tapLoad m pad input taps => Sys2Proof.Machine.execTapLoad m pad input taps s
  | .railMeasurementUpdate r figure lost => Sys2Proof.Machine.execRailMeasurementUpdate r figure lost s
  | .droopDetect die => Sys2Proof.Machine.execDroopDetect die s
  | .droopRecover die => Sys2Proof.Machine.execDroopRecover die s
  | .averagingWindowBoundary => Sys2Proof.Machine.execAveragingWindowBoundary s
  | .overTemperature die => Sys2Proof.Machine.execOverTemperature die s
  | .ownerKeyWrite via key => Sys2Proof.Machine.execOwnerKeyWrite via key s
  | .lifecycleErasureComplete => Sys2Proof.Machine.execLifecycleErasureComplete s
  | .debugRequest via v challenge => Sys2Proof.Machine.execDebugRequest via v challenge s
  | .debugResponse via sig key => Sys2Proof.Machine.execDebugResponse via sig key s
  | .challengeExpiry via => Sys2Proof.Machine.execChallengeExpiry via s
  | .lockoutExpiry => Sys2Proof.Machine.execLockoutExpiry s
  | .relock via v => Sys2Proof.Machine.execRelock via v s
  | .halt via v => Sys2Proof.Machine.execHalt via v s
  | .resume via v => Sys2Proof.Machine.execResume via v s
  | .windowAddress via v => Sys2Proof.Machine.execWindowAddress via v s
  | .windowDataRead via => Sys2Proof.Machine.execWindowDataRead via s
  | .windowDataWrite via v => Sys2Proof.Machine.execWindowDataWrite via v s
  | .powerDownComplete => Sys2Proof.Machine.execPowerDownComplete s
  | .wakeBall level => Sys2Proof.Machine.execWakeBall level s
  | .canWakeFrame f => Sys2Proof.Machine.execCanWakeFrame f s
  | .rtcAlarm => Sys2Proof.Machine.execRtcAlarm s
  | .rtcWrite via v => Sys2Proof.Machine.execRtcWrite via v s
  | .emberSupplyLoss => Sys2Proof.Machine.execEmberSupplyLoss s
  | .powerGood => Sys2Proof.Machine.execPowerGood s
  | .resetNAssert => Sys2Proof.Machine.execResetNAssert s
  | .supplyBrownout supply => Sys2Proof.Machine.execSupplyBrownout supply s
  | .gImageVerify a b => Sys2Proof.Machine.execGImageVerify a b s
  | .lpddr5xTrainingComplete trained capacity rate => Sys2Proof.Machine.execLpddr5xTrainingComplete trained capacity rate s
  | .imageCheck bA bB nA nB storeLost => Sys2Proof.Machine.execImageCheck bA bB nA nB storeLost s
  | .startUpBurnishComplete res temps => Sys2Proof.Machine.execStartUpBurnishComplete res temps s
  | .dictionaryReady => Sys2Proof.Machine.execDictionaryReady s
  | .firstTick x0 x1 => Sys2Proof.Machine.execFirstTick x0 x1 s
  | .warmStart => Sys2Proof.Machine.execWarmStart s
  | .recoveryKeyWrite via slot key => Sys2Proof.Machine.execRecoveryKeyWrite via slot key s
  | .recoveryErase hdr busy => Sys2Proof.Machine.execRecoveryErase hdr busy s
  | .recoveryWrite hdr payload busy => Sys2Proof.Machine.execRecoveryWrite hdr payload busy s
  | .recoveryCommit hdr img busy => Sys2Proof.Machine.execRecoveryCommit hdr img busy s
  | .recoveryStatus hdr busy => Sys2Proof.Machine.execRecoveryStatus hdr busy s
  | .recoveryRestart hdr busy => Sys2Proof.Machine.execRecoveryRestart hdr busy s
  | .pcieConfigurationRequest port func => Sys2Proof.Machine.execPcieConfigurationRequest port func s
  | .completionTimeout c q => Sys2Proof.Machine.execCompletionTimeout c q s
  | .usdoProtocolTimeout port node => Sys2Proof.Machine.execUsdoProtocolTimeout port node s
  | .busOffRecovered port => Sys2Proof.Machine.execBusOffRecovered port s
  | .endpointLinkLoss via => Sys2Proof.Machine.execEndpointLinkLoss via s
  | .phyLinkUp via speed => Sys2Proof.Machine.execPhyLinkUp via speed s
  | .arpRequest x ip target => Sys2Proof.Machine.execArpRequest x ip target s
  | .dhcpv4Reply port ip mask gateway ack => Sys2Proof.Machine.execDhcpv4Reply port ip mask gateway ack s
  | .gptpAnnounce port msg => Sys2Proof.Machine.execGptpAnnounce port msg s
  | .heartbeatConsume port n state => Sys2Proof.Machine.execHeartbeatConsume port n state s
  | .pwmPulseEdge d c => Sys2Proof.Machine.execPwmPulseEdge d c s
  | .serialLaneLocked m l rate => Sys2Proof.Machine.execSerialLaneLocked m l rate s
  | .serialLaneUnlocked m l => Sys2Proof.Machine.execSerialLaneUnlocked m l s
  | .bitstreamCopyComplete m slot b => Sys2Proof.Machine.execBitstreamCopyComplete m slot b s
  | .gaugeDiesWritten => Sys2Proof.Machine.execGaugeDiesWritten s
  | .pcieConfigurationReady => Sys2Proof.Machine.execPcieConfigurationReady s
  | .overTemperatureClear => Sys2Proof.Machine.execOverTemperatureClear s
  | .suppliesWithinLimits => Sys2Proof.Machine.execSuppliesWithinLimits s
  | .emberSupplyRestore => Sys2Proof.Machine.execEmberSupplyRestore s
  | .sysclkStart => Sys2Proof.Machine.execSysclkStart s

end Sys2Proof.Machine
end

