-- ==== Sys2Proof/Safety.lean ====
section
/-!
DEFINITION. What a safe step and a safe run are, and what a command leaves unchanged, in the terms claims use.
-/

namespace Sys2Proof.Machine

open Sys2Proof

/-- The step answers a next state. -/
def Completes (s : State) : Prop := ∃ t, step s = .next t

/-- A run of `k` steps that never stops. -/
def RunsTo : Nat → State → State → Prop
  | 0, s, t => s = t
  | k + 1, s, t => ∃ u, step s = .next u ∧ RunsTo k u t

/-- The command answers a next state, and it satisfies `P`. -/
def Answers (c : Instr) (s : State) (P : State → Prop) : Prop := ∃ t, exec c s = .next t ∧ P t

/-! ### Frames: at most the named part of State differs -/

def OnlyFrame (s t : State) : Prop := ∃ x, t = { s with frame := x }
def OnlyCtx (c : Nat) (s t : State) : Prop := ∃ x, t = s.setCtx c x
def OnlyQueue (c q : Nat) (s t : State) : Prop := ∃ x, t = s.modQueue c q fun _ => x
def OnlyTenant (k : Nat) (s t : State) : Prop := ∃ x, t = s.modTen k fun _ => x
def OnlyLink (l : Nat) (s t : State) : Prop := ∃ x, t = s.modLink l fun _ => x
def OnlyPlate (g : Nat) (s t : State) : Prop := ∃ x, t = s.modPlate g fun _ => x
def OnlyFab (m : Nat) (s t : State) : Prop := ∃ x, t = s.modFab m fun _ => x
def OnlyGauge (d : Nat) (s t : State) : Prop := ∃ x, t = s.modGauge d fun _ => x
def OnlyPower (s t : State) : Prop := ∃ x, t = { s with power := x }
def OnlyNet (s t : State) : Prop := ∃ x, t = { s with net := x }
def OnlySec (s t : State) : Prop := ∃ x, t = { s with sec := x }
def OnlyBoot (s t : State) : Prop := ∃ x, t = { s with boot := x }

/-- Every byte of device memory reads as before. -/
def SameMemory (s t : State) : Prop := ∀ a, t.rd a = s.rd a

/-- Every plant output keeps its pending and its active value. -/
def SameOutputs (s t : State) : Prop := ∀ d o, tget {} (t.gauge d).outs o = tget {} (s.gauge d).outs o

/-- The parts of State that no queue work touches: the frame, the plates' links, the Gauge dies, power, security,
start-up, the network, the objects. -/
structure SameSystem (s t : State) : Prop where
  frame : t.frame = s.frame
  links : t.links = s.links
  gauges : t.gauges = s.gauges
  power : t.power = s.power
  sec : t.sec = s.sec
  boot : t.boot = s.boot
  net : t.net = s.net
  obj : t.obj = s.obj
  eff : t.eff = s.eff
  effT : t.effT = s.effT

/-- At most this queue of this context differs, and when the context last ran (R199). -/
def OnlyRan (c q : Nat) (s t : State) : Prop :=
  ∃ x n, t = (s.modQueue c q fun _ => x).modCtx c fun y => { y with lastRun := n }

/-- A macro-instruction of a queue that ran at its issue, `v` the state its run left: the queue moves on; on success it is
finished with its status word and what it wrote stands; with a fault nothing it wrote does (R140). -/
def RanAtIssue (s : State) (c q : Nat) (f : Option Flt) (word : BitVec 64) (v t : State) : Prop :=
  t.nextIdx c q = s.nextIdx c q + 1 ∧ t.plates = s.plates ∧ SameSystem s t ∧
  ∃ x, v.op c q (s.nextIdx c q) = some x ∧ match f with
    | none => t.ops = s.ops ++ [{ x with fin := some .success, sword := word, held := [] }] ∧
        t.mem = (v.release x).mem ∧ t.host = (v.release x).host ∧ t.posted = (v.release x).posted
    | some e => t.ops = s.ops ++ [{ x with fin := some e.1, detail := BitVec.ofNat 64 e.2, held := [] }] ∧
        t.mem = s.mem ∧ t.host = s.host ∧ t.posted = s.posted

/-- R147: the success of a macro-instruction without a status word zeroes this register. -/
def statusZero (w : Word256) (r : Nat) : Prop := stEn w = true ∧ stReg w = r

/-- The queue stands at the next macro-instruction: it may issue again, nothing else of the running entry differs. -/
def movedOn (s t : State) (c q : Nat) : Prop :=
  ∀ r, (s.queue c q).run = some r →
    (t.queue c q).run = some { r with pc := r.pc + 1, lastDone := r.pc, waiting := false } ∧
    (t.queue c q).head = (s.queue c q).head ∧ (t.queue c q).tail = (s.queue c q).tail ∧
    (t.queue c q).seq = (s.queue c q).seq

end Sys2Proof.Machine
end

