-- ==== Sys2Proof/Certificates/Slice0/Obligations.lean ====
section
/-!
DEFINITION. The statements for the provers. Each docstring names the rules of the spec a statement formalises; a clause that
rests on the model's own choice names the log entry. A statement that has several parts is the conjunction of the claims
that state them.
-/

open Sys2Proof Sys2Proof.Machine

/-- A step runs the command at the front of the queue, with the rest of the queue. On an empty queue only the clocks of user
logic in the Field dies run, one edge as log 20 chose: no other part of the state changes, and nothing at all where no Field
die runs cells of a bitstream. -/
def Obligations.StepTakesFront : Prop :=
  (∀ (c : Instr) (rest : List Instr) (s : State),
    step { s with pending := c :: rest } = exec c { s with pending := rest }) ∧
  (∀ s : State, ∃ f n, step { s with pending := [] } = .next { s with pending := [], fabs := f, freeCtr := n }) ∧
  ∀ s : State, (∀ m, (s.fab m).enables = false ∨ (s.fab m).resetsOn = true ∨ (s.fab m).bs = none) →
    step { s with pending := [] } = .next { s with pending := [] }

/-- Tables 2-7, 3-7, 7-2 and 9-3, R10, R33, R55, R207: what a machine right after power has come up shows of the tick, the
frame counter, the links, the plates, the outputs, the contexts and the objects; and no command waits. Log 1 names the
values that no rule gives. -/
def Claims.ResetState : Prop :=
  State.reset.frame.tickState = .stopped ∧ State.reset.frame.ticking = false ∧ State.reset.frame.counter = 0 ∧
  State.reset.boot.dev = .starting ∧ State.reset.pending = [] ∧ State.reset.ops = [] ∧ State.reset.posted = [] ∧
  (∀ l, (State.reset.link l).state = .up ∧ (State.reset.link l).d0.expSeq = 0) ∧
  (∀ g, (State.reset.plate g).bankA.state = .empty ∧ (State.reset.plate g).bankB.state = .empty ∧
    (State.reset.plate g).owner = none) ∧
  (∀ c, (State.reset.ctx c).state = .free ∧ (State.reset.ctx c).gen = 0) ∧
  (∀ m, (State.reset.fab m).die = .unconfigured) ∧
  (∀ d o, (tget {} (State.reset.gauge d).outs o).actSafe = true) ∧
  (∀ i sub port, State.reset.val i sub port = keyDefault (objKey port i sub)) ∧
  State.reset.val 0x3000 1 = 5000 ∧ State.reset.val 0x3000 8 = 1 ∧ State.reset.val 0x3000 9 = 2500

/-- The memory of the reset state has the canonical form and lists nothing; so has the host's. -/
def Claims.ResetMemoryCanonical : Prop :=
  Memory.wf State.reset.mem = true ∧ Memory.wf State.reset.host = true ∧
  State.reset.mem = [] ∧ State.reset.host = []

/-- The state right after reset: tick, counter, links, plates, outputs, contexts, objects, memory: the parts ResetState,
ResetMemoryCanonical. -/
def Obligations.ResetStateAsStated : Prop :=
  Claims.ResetState ∧ Claims.ResetMemoryCanonical

/-- Every step keeps the canonical form of device memory and of host memory. -/
def Obligations.MemoryStaysCanonical : Prop :=
  ∀ s t : State, Memory.wf s.mem = true → Memory.wf s.host = true → step s = .next t →
    Memory.wf t.mem = true ∧ Memory.wf t.host = true

/-- R33 on the frame counter: a tick that is due adds 1, the first tick after a reset clears it, nothing else changes it. An
event of the device that is not due changes nothing (log 49). -/
def Obligations.CounterChangesOnlyAtTicks : Prop :=
  ∀ (c : Instr) (s t : State), exec c s = .next t →
    t.frame.counter =
      match c with
      | .tick _ _ => if s.inPhase .guardPhase = true ∧ s.frame.isSealed = true then s.frame.counter + 1 else s.frame.counter
      | .holdTickRestart _ _ => if holdRestartReady s = true then s.frame.counter + 1 else s.frame.counter
      | .firstTick _ _ =>
        if s.up = true ∧ s.boot.ticked = false ∧ s.frame.ticking = false ∧ s.sec.power = .run then 0 else s.frame.counter
      | _ => s.frame.counter

/-- No command's own effect touches the queue of waiting commands: what waits is run in the order it came. -/
def Obligations.EffectsLeaveTheQueue : Prop :=
  ∀ (c : Instr) (s t : State), exec c s = .next t → t.pending = s.pending

/-- Table 2-4, R46, R47: the phases follow each other at their offsets; the combs they open; outputs and the frame
counter stay, and memory too but for the records that the start of COMB writes (R212). -/
def Claims.PhasesFollow : Prop := ∀ s : State,
  (s.inPhase .sample = true → Answers .openingComb s fun t =>
    t.frame.phase = .comb ∧ t.frame.comb = .opening ∧ t.frame.tooth = 0 ∧ t.frame.elapsed = 4 ∧
    t.frame.counter = s.frame.counter ∧ SameOutputs s t) ∧
  (s.inPhase .comb = true → Answers .impressStart s fun t =>
    t.frame.phase = .impress ∧ t.frame.comb = .none ∧ t.frame.elapsed = 68 ∧
    t.frame.counter = s.frame.counter ∧ SameMemory s t ∧ SameOutputs s t) ∧
  (s.inPhase .impress = true → Answers .marginStart s fun t =>
    t.frame.phase = .margin ∧ t.frame.comb = .closing ∧ t.frame.tooth = 0 ∧ t.frame.elapsed = 68 + s.W ∧
    t.frame.counter = s.frame.counter ∧ t.mem = s.mem ∧ SameOutputs s t) ∧
  (s.inPhase .margin = true → s.nextComb < s.frame.len - s.G → Answers .marginComb s fun t =>
    t.frame.phase = .margin ∧ t.frame.comb = .marginComb ∧ t.frame.tooth = 0 ∧ t.frame.slot = s.frame.slot + 1 ∧
    t.frame.elapsed = (if s.frame.comb = .closing then 132 + s.W else s.frame.elapsed + 64) ∧
    t.frame.counter = s.frame.counter ∧ t.mem = s.mem ∧ SameOutputs s t)

/-- R154: counters S0 to S7 of every context are clear once COMB has started, S8 to S15 stay. -/
def Claims.FrameCountersClearAtComb : Prop := ∀ s : State, s.inPhase .sample = true →
  Answers .openingComb s fun t => ∀ c, (s.ctx c).state ≠ .free →
    (∀ k, k < 8 → t.counter c k = 0) ∧ ∀ k, 8 ≤ k → t.counter c k = s.counter c k

/-- R47, R82, Table 2-5: one tooth of a comb moves its own group of engines on every compute die and nothing else. An opening
comb brings the group to operating level; a margin comb the groups of the dies that margin work waits for; a closing comb
lets down the group of a die without work, a quiescing comb every one. R54: the seal stands 250 ns before the tick. -/
def Claims.TeethAndSeal : Prop := ∀ s : State,
  (s.frame.ticking = true → s.frame.comb ≠ .none → s.frame.tooth < 16 → Answers .combTooth s fun t =>
    let up (u : State) (d k : Nat) : Bool := (tget 0 u.frame.level d).getLsbD k
    OnlyFrame s t ∧ t.frame.tooth = s.frame.tooth + 1 ∧
    (∀ d k, (12 ≤ d ∨ k ≠ s.frame.tooth) → up t d k = up s d k) ∧
    (∀ d, d < 12 →
      (s.frame.comb = .opening → up t d s.frame.tooth = true) ∧
      (s.frame.comb = .marginComb → up t d s.frame.tooth = (up s d s.frame.tooth || s.dieWanted d)) ∧
      (s.frame.comb = .closing → up t d s.frame.tooth = (up s d s.frame.tooth && s.dieWorks d)) ∧
      (s.frame.comb = .quiescing → up t d s.frame.tooth = false)) ∧
    t.frame.phase = s.frame.phase ∧ t.frame.comb = s.frame.comb ∧ t.frame.elapsed = s.frame.elapsed) ∧
  (s.guardWork = true → Answers .outputSeal s fun t =>
    OnlyFrame s t ∧ t.frame.isSealed = true ∧ t.frame.elapsed = s.frame.len - 25 ∧
    t.frame.phase = s.frame.phase ∧ t.frame.counter = s.frame.counter)

/-- R52, R49: a reservation's end marks the tenant's work unfinished at it as late, which is no overrun: no tenant's counts
change here, nor anything else. -/
def Claims.ReservationEnds : Prop := ∀ (s : State) (k : Nat), reservationReady s k = true →
  Answers (.reservationEnd k) s fun t =>
    OnlyFrame s t ∧ t.frame.resEnded.getLsbD k = true ∧
    (∀ j, j ≠ k → t.frame.resEnded.getLsbD j = s.frame.resEnded.getLsbD j ∧
      t.frame.late.getLsbD j = s.frame.late.getLsbD j) ∧
    t.frame.late.getLsbD k = (s.frame.late.getLsbD k || decide (s.unfinishedOf k [] ≠ [])) ∧
    t.frame.phase = s.frame.phase ∧ t.frame.counter = s.frame.counter

/-- Phases, combs, teeth, the seal and the end of a reservation: the parts PhasesFollow, FrameCountersClearAtComb,
TeethAndSeal, ReservationEnds. -/
def Obligations.PhasesFollowWithTheirCombs : Prop :=
  Claims.PhasesFollow ∧ Claims.FrameCountersClearAtComb ∧ Claims.TeethAndSeal ∧ Claims.ReservationEnds

/-- R54, Table 2-6: GUARD begins at P − G of a frame of nominal length, nothing prepared or sealed yet, and decides the
overruns of its tenants; the counter and every active value stay. -/
def Obligations.GuardBegins : Prop := ∀ (s : State) (temps : Tab Int) (energy : Nat) (b0 : Int),
  s.inPhase .margin = true → Answers (.guardStart temps energy b0) s fun t =>
    t.frame.phase = .guardPhase ∧ t.frame.comb = .quiescing ∧ t.frame.elapsed = s.frame.len - s.G ∧
    t.frame.prepared = false ∧ t.frame.isSealed = false ∧ t.frame.slotOps = 0 ∧ t.rebites = [] ∧
    t.frame.counter = s.frame.counter ∧
    (∀ d o, (tget {} (t.gauge d).outs o).act = (tget {} (s.gauge d).outs o).act ∧
      (tget {} (t.gauge d).outs o).actSafe = (tget {} (s.gauge d).outs o).actSafe) ∧
    ∀ k, k < 8 →
      (t.ten k).overruns = (s.ten k).overruns ∨ (t.ten k).overruns = satInc 32 (s.ten k).overruns

/-- R55, R33, R46: at a tick that a frame follows, every pending value of a provisioned Gauge die is active, the counter has gone up by one,
and SAMPLE begins. -/
def Claims.TickActivates : Prop := ∀ (s : State) (x0 x1 : GaugeIn),
  s.inPhase .guardPhase = true → s.frame.isSealed = true → s.frameEnd = .runs →
  Answers (.tick x0 x1) s fun t =>
    t.frame.phase = .sample ∧ t.frame.ticking = true ∧ t.frame.elapsed = 0 ∧
    t.frame.counter = s.frame.counter + 1 ∧ t.effT = s.obj ∧
    ∀ d o, d < 2 → o < 20 → (s.gauge d).written = true →
      (tget {} (t.gauge d).outs o).act = (tget {} (s.gauge d).outs o).pend ∧
      (tget {} (t.gauge d).outs o).actSafe = (tget {} (s.gauge d).outs o).pendSafe

/-- R33, R42, R379, Tables 2-3 and 2-7: the first tick after start-up begins frame 0: the counter is cleared, SAMPLE begins, and
the tick state is LOCKED with the internal source and ACQUIRING with any other; every pending value is active. -/
def Claims.FirstTickBegins : Prop := ∀ (s : State) (x0 x1 : GaugeIn),
  s.up = true → s.boot.ticked = false → s.frame.ticking = false → s.sec.power = .run →
  Answers (.firstTick x0 x1) s fun t =>
    t.frame.counter = 0 ∧ t.frame.phase = .sample ∧ t.frame.elapsed = 0 ∧ t.frame.ticking = true ∧ t.boot.ticked = true ∧
    t.frame.tickState = (if s.atReset 0x3000 2 = 0 then .locked else .acquiring) ∧ t.frame.lock = t.frame.tickState ∧
    t.effT = s.obj ∧ t.ctxs = s.ctxs ∧ t.out = s.out ∧
    ∀ d o : Nat, d < 2 → o < 20 → (s.gauge d).written = true →
      (t.output d o).act = (s.output d o).pend ∧ (t.output d o).actSafe = (s.output d o).pendSafe

/-- A tick makes every pending output value active, counts, and begins SAMPLE; the first tick begins frame 0: the parts
TickActivates, FirstTickBegins. -/
def Obligations.TickActivates : Prop :=
  Claims.TickActivates ∧ Claims.FirstTickBegins

/-- R35 to R39, R41, R42: one reference event while the tick runs, at its time after the last tick; its phase error is its
distance, with the offset of 0x3000:04, from the tick it is expected at (R35, Table 2-1). It is bad with an error beyond the
lock window, and with 802.1AS where its port is not synchronised (R36). A source held: a good event clears the run of bad
ones and sets the correction; a bad one is counted, and the third in a row loses the source. No source held: a bad one is
counted too, and eight events that agree take their phase. Only the frame's fields change. While SLEWING the event is judged
against the phase slewed to, which is log 45's reading. -/
def Claims.ReferenceJudged : Prop := ∀ (s : State) (time : Nat) (noSync : Bool),
  s.tracks = true → s.frame.ticking = true → s.frame.lossDue = false → s.frame.returnDue = false →
  let err := (s.refTick time).2
  let unsync := noSync || s.gptpBad
  err < 2 ^ 31 → -(2 ^ 31) ≤ err →
  Answers (.referenceEvent time noSync) s fun t =>
    OnlyFrame s t ∧ t.frame.lastErr = err ∧ t.frame.lock = s.frame.lock ∧ t.frame.tickState = s.frame.tickState ∧
    (s.frame.lock = .locked → unsync = false → err.natAbs ≤ 10 * s.lockWindow →
      t.frame.badRun = 0 ∧ t.frame.slew = err ∧ t.frame.badEvents = s.frame.badEvents ∧ t.frame.lossDue = false) ∧
    (s.frame.lock = .locked → (unsync = true ∨ 10 * s.lockWindow < err.natAbs) →
      t.frame.badEvents = satInc 32 s.frame.badEvents ∧ t.frame.badRun = s.frame.badRun + 1 ∧
      t.frame.lossDue = decide (s.frame.badRun = 2) ∧ t.frame.slew = s.frame.slew ∧
      t.frame.losses = (if s.frame.badRun = 2 then satInc 16 s.frame.losses else s.frame.losses)) ∧
    (s.frame.holding = false → unsync = true →
      t.frame.badEvents = satInc 32 s.frame.badEvents ∧ t.frame.agree = [] ∧ t.frame.returnDue = false) ∧
    (s.frame.holding = false → unsync = false → s.frame.agree.length = 7 →
      agreeing s.lockWindow (s.frame.agree ++ [err]) = true → t.frame.returnDue = true ∧ t.frame.slew = err) ∧
    (s.frame.holding = false → s.frame.agree.length < 7 → t.frame.returnDue = false) ∧
    (s.frame.holding = false → unsync = false → t.frame.badEvents =
      (if 10 * s.lockWindow < err.natAbs then satInc 32 s.frame.badEvents else s.frame.badEvents))

/-- R36, R37, R60: a missing event counts as a bad one, whether or not a source is held. -/
def Claims.MissingEventIsBad : Prop := ∀ s : State,
  s.tracks = true → s.frame.ticking = true → s.frame.lossDue = false → s.frame.returnDue = false →
  Answers .missingEvent s fun t =>
    OnlyFrame s t ∧ t.frame.lastErr = s.frame.lastErr ∧ t.frame.badEvents = satInc 32 s.frame.badEvents ∧
    (s.frame.holding = true →
      t.frame.badRun = s.frame.badRun + 1 ∧ t.frame.lossDue = decide (s.frame.badRun = 2)) ∧
    (s.frame.holding = false → t.frame.agree = [] ∧ t.frame.lossDue = false)

/-- R39, R42: holdover frames spent without the source make the fallback apply at the next tick, and change nothing else.
R41, R373: HOLD ends at a tick that counts, in SAMPLE, in power state RUN; a resume shows the source's own lock. -/
def Claims.HoldoverAndResume : Prop := ∀ s : State,
  (expiryReady s = true → Answers .holdoverExpiry s fun t =>
    OnlyFrame s t ∧ t.frame.fallbackDue = true ∧ t.frame.lock = s.frame.lock ∧ t.frame.tickState = s.frame.tickState) ∧
  (holdRestartReady s = true → ∀ x0 x1, Answers (.holdTickRestart x0 x1) s fun t =>
    t.frame.phase = .sample ∧ t.frame.ticking = true ∧ t.frame.counter = s.frame.counter + 1 ∧ t.sec.power = .run ∧
    (s.frame.tickState = .fallbackHold → s.frame.fallbackDue = false → s.frame.lossDue = false →
      s.frame.returnDue = false → s.frame.lock = .locked → t.frame.tickState = .locked))

/-- Good, bad and missing reference events, holdover expiry, the restart from HOLD: the parts ReferenceJudged,
MissingEventIsBad, HoldoverAndResume. -/
def Obligations.ReferenceEventsJudged : Prop :=
  Claims.ReferenceJudged ∧ Claims.MissingEventIsBad ∧ Claims.HoldoverAndResume

/-- R56 to R58: the overrun decision for one tenant. Without unfinished reserved work its run of overruns ends and a late
frame is counted; with it the overrun is counted, the run goes up, and at the limit the latch is set. No other tenant's
record, no object, no output and no other tenant's context changes. -/
def Obligations.OverrunDecision : Prop := ∀ (s : State) (k : Nat),
  (s.unfinishedOf k s.frame.resetCtxs = [] →
    OnlyTenant k s (s.judgeTenant k) ∧ ((s.judgeTenant k).ten k).consec = 0 ∧
    ((s.judgeTenant k).ten k).overruns = (s.ten k).overruns ∧
    ((s.judgeTenant k).ten k).latch = (s.ten k).latch ∧
    ((s.judgeTenant k).ten k).lateFinishes =
      if s.frame.late.getLsbD k = true then satInc 32 (s.ten k).lateFinishes else (s.ten k).lateFinishes) ∧
  (s.unfinishedOf k s.frame.resetCtxs ≠ [] →
    ((s.judgeTenant k).ten k).overran = true ∧
    ((s.judgeTenant k).ten k).overruns = satInc 32 (s.ten k).overruns ∧
    ((s.judgeTenant k).ten k).consec = (s.ten k).consec + 1 ∧
    ((s.judgeTenant k).ten k).lateFinishes = (s.ten k).lateFinishes ∧
    ((s.judgeTenant k).ten k).latch =
      ((s.ten k).latch || decide (s.atTick 0x3101 (k + 1) ≠ 0 ∧ s.atTick 0x3101 (k + 1) ≤ (s.ten k).consec + 1))) ∧
  (s.judgeTenant k).obj = s.obj ∧ (s.judgeTenant k).gauges = s.gauges ∧
  (∀ j, j ≠ k → (s.judgeTenant k).ten j = s.ten j) ∧
  ∀ c, (s.ctx c).tenant ≠ k → (s.judgeTenant k).ctx c = s.ctx c

/-- R157: SET, ADD, COPY and ADDREG give DST the value of the rule, modulo 2^64; every other register stays, but the status
register, which the success of a PATCH zeroes (R147). Nothing changes but the queue and the frame its context last ran in
(R199). -/
def Claims.PatchRegisters : Prop := ∀ (s : State) (c q : Nat),
  let w := s.nextMacro c q
  let want (t : State) (v : BitVec 64) : Prop :=
    OnlyRan c q s t ∧ movedOn s t c q ∧
    (¬ statusZero w (patchDst w) → t.prm c q (patchDst w) = v) ∧
    ∀ r, (statusZero w r → t.prm c q r = 0) ∧
      (¬ statusZero w r → r ≠ patchDst w → t.prm c q r = s.prm c q r)
  (patchReady s c q 0 = true → Answers (.patchSet c q) s fun t => want t (patchImm w)) ∧
  (patchReady s c q 1 = true → Answers (.patchAdd c q) s fun t => want t (s.prm c q (patchDst w) + patchImm w)) ∧
  (patchReady s c q 2 = true → Answers (.patchCopy c q) s fun t => want t (s.prm c q (patchSrc w))) ∧
  (patchReady s c q 3 = true →
    Answers (.patchAddreg c q) s fun t => want t (s.prm c q (patchDst w) + s.prm c q (patchSrc w)))

/-- R157: a PATCH LOAD or STORE with an address that is not aligned to 8 bytes, or with IMM [63:48] not 0, faults with
MISALIGNED: the entry ends and no byte is written there. A LOAD that reads gives DST the 8 bytes, little-endian; a STORE
posts the 8 bytes of SRC (R22). -/
def Claims.PatchMemory : Prop := ∀ (s : State) (c q : Nat) (ecc : Found),
  let w := s.nextMacro c q
  let a := fld w 111 64
  (patchReady s c q 4 = true → patchAligned w = true → ∀ bs u, s.readCtx c ecc a 8 = (.ok bs, u) →
    Answers (.patchLoad c q ecc) s fun t =>
      (¬ statusZero w (patchDst w) → t.prm c q (patchDst w) = BitVec.ofNat 64 (leNat bs)) ∧
      (∀ r, ¬ statusZero w r → r ≠ patchDst w → t.prm c q r = s.prm c q r) ∧
      movedOn s t c q ∧ t.mem = s.mem ∧ t.host = s.host ∧ t.posted = s.posted ∧ t.ops = s.ops) ∧
  (patchReady s c q 5 = true → patchAligned w = true →
    ∀ l u, s.writeTargets c a (leBytes 8 (s.prm c q (patchSrc w)).toNat) = (.ok l, u) →
    Answers (.patchStore c q) s fun t =>
      (∃ ps : List Posted, t.posted = s.posted ++ ps ∧
        ps.map (fun p => (p.c, p.q, p.caddr, p.target, p.bytes)) = l.map (fun e => (c, q, e.1, e.2.1, e.2.2))) ∧
      (∀ r, ¬ statusZero w r → t.prm c q r = s.prm c q r) ∧
      movedOn s t c q ∧ t.mem = s.mem ∧ t.host = s.host ∧ t.ops = s.ops) ∧
  (patchAligned w = false →
    (patchReady s c q 4 = true → Answers (.patchLoad c q ecc) s fun t => (t.queue c q).run = none) ∧
    (patchReady s c q 5 = true → Answers (.patchStore c q) s fun t =>
      (t.queue c q).run = none ∧ t.posted = s.posted))

/-- PATCH: the six operations, their alignment fault and their frame: the parts PatchRegisters, PatchMemory. -/
def Obligations.PatchesChangeRegistersAndMemory : Prop :=
  Claims.PatchRegisters ∧ Claims.PatchMemory

/-- R155: a WAIT completes at once where its condition holds (COUNT: counter less value, as a signed 32-bit number, is at
least 0; DRAIN: nothing of the entry is outstanding; BOTH) and holds its queue otherwise; WAIT_SATISFIED completes it then.
Only the queue changes, and the frame its context last ran in (R199). -/
def Obligations.WaitsHoldTheQueue : Prop := ∀ (s : State) (c q : Nat),
  let w := s.nextMacro c q
  let count : Prop := 0 ≤ (s.counter c (ctrOf w) - s.ctrValue c q w).toInt
  let drain : Prop := s.opsOf c q = []
  let done (t : State) : Prop := OnlyRan c q s t ∧ movedOn s t c q
  let held (t : State) : Prop := OnlyQueue c q s t ∧
    (t.queue c q).run = (s.queue c q).run.map (fun r => { r with waiting := true }) ∧
    (t.queue c q).prm = (s.queue c q).prm
  (waitReady s c q 0 = true →
    (count → Answers (.waitCount c q) s done) ∧ (¬ count → Answers (.waitCount c q) s held)) ∧
  (waitReady s c q 1 = true →
    (drain → Answers (.waitDrain c q) s done) ∧ (¬ drain → Answers (.waitDrain c q) s held)) ∧
  (waitReady s c q 2 = true →
    (count ∧ drain → Answers (.waitBoth c q) s done) ∧ (¬ (count ∧ drain) → Answers (.waitBoth c q) s held)) ∧
  (s.isWaiting c q = true → s.phaseOpen q = true → s.waitMet c q = true → Answers (.waitSatisfied c q) s done)

/-- R154, R156: a SIGNAL updates its counter at once for COUNTER and EVENT, and EVENT posts a record that carries COOKIE and
the counter after the update. FENCE and FLUSH leave the counter to a pending fence over the writes issued so far (R215,
R245); the queue's fence sequence goes up by one and the queue is not held. -/
def Obligations.SignalsUpdateOrFence : Prop := ∀ (s : State) (c q : Nat),
  let w := s.nextMacro c q
  let k := ctrOf w
  let v := if bit w 36 = true then s.ctrValue c q w else s.counter c k + s.ctrValue c q w
  let cookie := BitVec.ofNat 64 (fld w 191 128)
  let fenced (flush : Bool) (t : State) : Prop :=
    OnlyCtx c s t ∧ (∀ j, t.counter c j = s.counter c j) ∧ (t.queue c q).seq = (s.queue c q).seq + 1 ∧
    ∃ f : Fence, (t.ctx c).fences = (s.ctx c).fences ++ [f] ∧ f.q = q ∧ f.seq = (s.queue c q).seq ∧ f.ctr = k ∧
      f.set = bit w 36 ∧ f.value = s.ctrValue c q w ∧ f.flush = flush ∧ f.cookie = cookie ∧
      (∀ r, (s.queue c q).run = some r → f.idx = r.pc ∧
        (t.queue c q).run = some { r with pc := r.pc + 1, lastDone := r.pc, waiting := false })
  (signalReady s c q 0 = true → Answers (.signalCounter c q) s fun t =>
    OnlyCtx c s t ∧ t.counter c k = v ∧ (∀ j, j ≠ k → t.counter c j = s.counter c j) ∧ movedOn s t c q) ∧
  (signalReady s c q 1 = true → Answers (.signalEvent c q) s fun t =>
    t.counter c k = v ∧ (∀ j, j ≠ k → t.counter c j = s.counter c j) ∧ movedOn s t c q ∧
    t = ((s.bump c k (bit w 36) (s.ctrValue c q w)).post
      { s.mkRec 2 with c := c, q := q, cookie := cookie, index := s.nextIdx c q, detail := v.setWidth 64 }).finishNow c q) ∧
  (fenceReady s c q 2 = true → Answers (.signalFence c q) s (fenced false)) ∧
  (fenceReady s c q 3 = true → Answers (.signalFlush c q) s (fenced true))

/-- R158, R147, R140, R212: END completes its entry: nothing runs, a REPLAY entry without NOTIFY writes no record, any other
writes one ENTRY record with status success; an impression head has ended and stays until COMB (R208), a margin head
retires (R209). The other queues stay. -/
def Claims.EndCompletesTheEntry : Prop := ∀ (s : State) (c q : Nat), endReady s c q = true →
  Answers (.endEntry c q) s fun t =>
    (t.queue c q).run = none ∧ (t.queue c q).tail = (s.queue c q).tail ∧
    (q < 4 → (t.queue c q).headDone = true ∧ (t.queue c q).headEnded = true ∧ (t.queue c q).head = (s.queue c q).head) ∧
    (4 ≤ q → (t.queue c q).head = (s.queue c q).head + 1) ∧
    (∀ j, j ≠ q → t.queue c j = s.queue c j) ∧
    (∀ r, (s.queue c q).run = some r →
      (t.ctx c).ringWritten + (t.ctx c).hold.length =
        (s.ctx c).ringWritten + (s.ctx c).hold.length + (if r.replay = true ∧ r.notify = false then 0 else 1)) ∧
    (∀ d, d ≠ c → t.ctx d = s.ctx d) ∧ SameSystem s t

/-- R147, R140: MACRO_COMPLETE retires a finished macro-instruction. Success writes its status word where ST_EN asks for it
and the entry goes on; any other status ends the entry, its code and bit 63 in the status register before the result area
is written. -/
def Claims.MacroRetires : Prop := ∀ (s : State) (c q i : Nat) (o : Op),
  s.op c q i = some o →
  (o.fin = some .success → Answers (.macroComplete c q i) s fun t =>
    t.ops = s.ops.filter (fun p => !decide (p.c = c ∧ p.q = q ∧ p.idx = i)) ∧
    (stEn o.word = true → t.prm c q (stReg o.word) = o.sword) ∧
    (∀ r, ¬ statusZero o.word r → t.prm c q r = s.prm c q r) ∧
    (t.queue c q).run = (s.queue c q).run.map (fun r => { r with lastDone := i }) ∧
    t.mem = s.mem ∧ t.host = s.host ∧ SameSystem s t) ∧
  (∀ st, o.fin = some st → st ≠ .success → Answers (.macroComplete c q i) s fun t =>
    t.ops = s.ops.filter (fun p => !decide (p.c = c ∧ p.q = q ∧ p.idx = i)) ∧
    (t.queue c q).run = none ∧
    ((s.queue c q).run ≠ none → stEn o.word = true →
      t.prm c q (stReg o.word) = BitVec.ofNat 64 (st.code + 2 ^ 63)) ∧
    SameSystem s t)

/-- END completes an entry; a finished macro-instruction retires with its status: the parts EndCompletesTheEntry,
MacroRetires. -/
def Obligations.EntriesComplete : Prop :=
  Claims.EndCompletesTheEntry ∧ Claims.MacroRetires

/-- R206, R210, R146: an entry that its checks accept starts at macro-instruction 0 with what its fields say, its patch
records applied in order; one they reject halts its queue and runs nothing. -/
def Claims.EntriesStart : Prop := ∀ (s : State) (c q : Nat),
  let begun (t : State) : Prop :=
    (∀ e ps u, s.checkHead c q = (.ok (e, ps), u) →
      (t.queue c q).run = some { prog := entProg e, replay := entReplay e, notify := entNotify e, result := entResult e,
                                 cookie := entCookie e } ∧
      (t.queue c q).prm = ((ps.foldl (fun x p => x.applyPatch c q p) s).queue c q).prm ∧
      (t.queue c q).eligible = false ∧ (t.queue c q).head = (s.queue c q).head) ∧
    (∀ r u, s.checkHead c q = (.error r, u) →
      (t.queue c q).run = none ∧ (t.queue c q).halted = true ∧ (t.queue c q).head = (s.queue c q).head) ∧
    SameSystem s t
  (entryReady s c q = true → Answers (.entryStart c q) s begun) ∧
  (marginEntryReady s c q = true → Answers (.marginEntryStart c q) s begun)

/-- R146, Table 6-5: the four operations of a patch record. -/
def Claims.PatchRecords : Prop := ∀ (old : BitVec 64) (p : BitVec 128),
  let v := BitVec.ofNat 64 (fld p 127 64)
  (fld p 7 6 = 0 → patchRecord old p = v) ∧ (fld p 7 6 = 1 → patchRecord old p = old + v) ∧
  (fld p 7 6 = 2 → (patchRecord old p).extractLsb' 32 32 = old.extractLsb' 32 32 ∧
    (patchRecord old p).extractLsb' 0 32 = v.extractLsb' 0 32) ∧
  (fld p 7 6 = 3 → (patchRecord old p).extractLsb' 32 32 = v.extractLsb' 0 32 ∧
    (patchRecord old p).extractLsb' 0 32 = old.extractLsb' 0 32)

/-- An entry starts at macro-instruction 0 with its patch records applied, or halts its queue: the parts EntriesStart,
PatchRecords. -/
def Obligations.EntriesStartWithTheirPatches : Prop :=
  Claims.EntriesStart ∧ Claims.PatchRecords

/-- R207, R195, R213: an accepted queue doorbell moves the tail to its index; a consumer doorbell moves the consumer index
on. A stale, foreign or senseless one changes nothing but the sender's count in 0x3402. -/
def Claims.Doorbells : Prop := ∀ (s : State) (via : Via) (w : BitVec 64) (k : Nat),
  s.bellSender via = some k →
  let c := bellCtx w
  let q := bellTarget w
  let n := (bellIndex w - BitVec.ofNat 16 (s.ctx c).ringRead).toNat
  (q < 8 → s.bellOpen k w = true → (s.queue c q).takes (2 ^ (s.ctx c).qlog q) (bellIndex w) = true →
    Answers (.doorbellQueue via w) s fun t =>
      (t.queue c q).tail = bellIndex w ∧ (t.queue c q).head = (s.queue c q).head ∧
      (∀ j, j ≠ q → t.queue c j = s.queue c j) ∧ (∀ d, d ≠ c → t.ctx d = s.ctx d) ∧
      ((t.ten k).ignored = (s.ten k).ignored) ∧ SameSystem s t) ∧
  (q ≠ 8 → (8 < q ∨ s.bellOpen k w = false ∨ (s.queue c q).takes (2 ^ (s.ctx c).qlog q) (bellIndex w) = false) →
    Answers (.doorbellQueue via w) s fun t =>
      OnlyTenant k s t ∧ t.ten k = { s.ten k with ignored := satInc 32 (s.ten k).ignored }) ∧
  (q = 8 → s.bellOpen k w = true → n ≤ (s.ctx c).used → Answers (.doorbellConsumer via w) s fun t =>
    OnlyCtx c s t ∧ t.ctx c = { s.ctx c with ringRead := (s.ctx c).ringRead + n }) ∧
  (q = 8 → (s.bellOpen k w = false ∨ (s.ctx c).used < n) → Answers (.doorbellConsumer via w) s fun t =>
    OnlyTenant k s t ∧ t.ten k = { s.ten k with ignored := satInc 32 (s.ten k).ignored })

/-- R213: the oldest held record goes into the ring as soon as there is room, in order. -/
def Claims.HeldRecordsFollow : Prop := ∀ (s : State) (c : Nat) (r : Rec) (rest : List Rec),
  (s.ctx c).state ≠ .free → (s.ctx c).used < (s.ctx c).ringSize → (s.ctx c).hold = r :: rest → r.c = c →
  Answers (.heldRecordWrite c) s fun t =>
    (t.ctx c).hold = rest ∧ (t.ctx c).ringWritten = (s.ctx c).ringWritten + 1 ∧ (t.ctx c).lost = false ∧
    (t.ctx c).ringRead = (s.ctx c).ringRead ∧
    (∀ j, (t.queue c j).head = (s.queue c j).head ∧ (t.queue c j).tail = (s.queue c j).tail ∧
      (t.queue c j).run = (s.queue c j).run ∧ (t.queue c j).prm = (s.queue c j).prm) ∧
    (∀ d, d ≠ c → t.ctx d = s.ctx d) ∧ SameSystem s t

/-- R213: a droppable record finds the reserved slots and is lost, marked and counted; any other record is written or held,
never lost. -/
def Claims.RecordsAreNotLost : Prop := ∀ (s : State) (r : Rec), (s.ctx r.c).state ≠ .free →
  (droppable r.kind = false →
    ((s.post r).ctx r.c).ringWritten + ((s.post r).ctx r.c).hold.length =
      (s.ctx r.c).ringWritten + (s.ctx r.c).hold.length + 1 ∧ ∀ k, ((s.post r).ten k).dropped = (s.ten k).dropped) ∧
  (droppable r.kind = true →
    (s.ctx r.c).ringSize ≤ (s.ctx r.c).used + (s.ctx r.c).hold.length + Config.ringReserve →
    ((s.post r).ctx r.c).lost = true ∧
    ((s.post r).ten (s.ctx r.c).tenant).dropped = satInc 32 (s.ten (s.ctx r.c).tenant).dropped ∧
    (s.post r).mem = s.mem ∧ (s.post r).host = s.host) ∧
  ∀ c, c ≠ r.c → (s.post r).ctx c = s.ctx c

/-- Doorbells move tail and consumer index; records are written, held, or dropped as R213 says: the parts Doorbells,
HeldRecordsFollow, RecordsAreNotLost. -/
def Obligations.DoorbellsAndRecords : Prop :=
  Claims.Doorbells ∧ Claims.HeldRecordsFollow ∧ Claims.RecordsAreNotLost

/-- R156, R215, R247, R248: a fence completes when every write it covers has been performed: it leaves the list and updates
its counter; with a late failure of one of its writes its context is poisoned. -/
def Claims.FencesComplete : Prop := ∀ (s : State) (c q : Nat) (a b : List Fence) (f : Fence),
  splitFence q (s.ctx c).fences = some (a, f, b) → s.fencePerformed c f = true →
  Answers (.fenceComplete c q) s fun t =>
    ((t.ctx c).fences.map fun x => (x.q, x.seq, x.ctr, x.set, x.value, x.flush)) =
      ((a ++ b).map fun x => (x.q, x.seq, x.ctr, x.set, x.value, x.flush)) ∧
    t.counter c f.ctr = (if f.set = true then f.value else s.counter c f.ctr + f.value) ∧
    (∀ j, j ≠ f.ctr → t.counter c j = s.counter c j) ∧
    (t.ctx c).poisoned = ((s.ctx c).poisoned || f.late.isSome) ∧
    (∀ d, d ≠ c → t.ctx d = s.ctx d) ∧ SameSystem s t

/-- R250, R246: the reads of a FLUSH, one through each function that carried writes it covers, answer it one by one behind
those writes. A read that completes without error is no longer waited for; an error or a completion timeout makes a late
failure of cause 4 for the last host write covered, and that FLUSH reports it. -/
def Claims.FlushReads : Prop := ∀ (s : State) (c q : Nat) (f : Fence) (l : List Fence),
  flushed q (s.ctx c).fences = some (f, l) → s.writesLeft c f (f.reads.headD (0, 0)) = false →
  Answers (.flushReadCompletion c q true) s (fun t => OnlyCtx c s t ∧ t.ctx c = { s.ctx c with fences := l }) ∧
  (∀ ca ep, f.host = some (ca, ep) → (s.ctx c).late.valid = false →
    let failed (t : State) : Prop :=
      (t.ctx c).late.valid = true ∧ (t.ctx c).late.cause = 4 ∧ (t.ctx c).late.q = q ∧ (t.ctx c).late.epoch = ep ∧
      (t.ctx c).late.caddr = ca ∧ (t.ctx c).late.count = 1 ∧
      (∃ x ∈ (t.ctx c).fences, x.q = q ∧ x.seq = f.seq ∧ x.late.isSome = true ∧ x.reads = f.reads.drop 1) ∧
      (t.ten (s.ctx c).tenant).lateFails = satInc 32 (s.ten (s.ctx c).tenant).lateFails ∧ SameSystem s t
    Answers (.flushReadCompletion c q false) s failed ∧ Answers (.completionTimeout c q) s failed)

/-- Fences complete after their writes; a failed FLUSH read is a late failure of cause 4: the parts FencesComplete,
FlushReads. -/
def Obligations.FencesAndFlushes : Prop :=
  Claims.FencesComplete ∧ Claims.FlushReads

/-- R216, R217: a compare of all 64 bits of the tenant's own entry that succeeds sets the count; at 0 the context ends and
the host owns its teardown. A compare that fails changes no context. Every answer is the old entry. -/
def Obligations.KeepCompareAndSwap : Prop := ∀ (s : State) (via : Via) (c k : Nat) (cmp new : BitVec 64),
  c < 4096 → s.bellSender via = some k →
  (s.keepMatch k c cmp = true → new.setWidth 32 ≠ (0 : BitVec 32) → Answers (.keepCas via c cmp new) s fun t =>
    t.ctx c = { s.ctx c with count := new.setWidth 32 } ∧ (∀ d, d ≠ c → t.ctx d = s.ctx d) ∧
    t.out = s.out ++ [.reply via 0 8 (s.ctx c).keep.toNat] ∧ t.mem = s.mem ∧ SameSystem s t) ∧
  (s.keepMatch k c cmp = true → new.setWidth 32 = (0 : BitVec 32) → Answers (.keepCas via c cmp new) s fun t =>
    (t.ctx c).count = 0 ∧ (t.ctx c).dying = true ∧ (t.ctx c).state = .ending ∧ (t.ctx c).deviceOwns = false ∧
    (∀ d, d ≠ c → t.ctx d = s.ctx d) ∧ SameSystem s t) ∧
  (s.keepMatch k c cmp = false → Answers (.keepCas via c cmp new) s fun t =>
    t.ctxs = s.ctxs ∧ t.mem = s.mem ∧
    t.out = s.out ++ [.reply via 0 8 (if (s.ctx c).tenant = k then (s.ctx c).keep.toNat else 0)])

/-- R148 to R150, R159, Tables 5-2 and 7-7: HATCH, STIPPLE, ETCH, LOAD, SWAP and EXT, once their checks pass, are outstanding on
their unit and the queue moves to the next macro-instruction: the walk, the Stipple operations, the pass slots, the bank that
LOADs, the plates to swap or the port's command stand in State; a HATCH whose output is no wider than 8 runs on Stipple
(R120), and the port takes the command with its operand stream. No byte of memory changes. -/
def Claims.EnginesAccept : Prop := ∀ (s : State) (c q : Nat) (ecc : Found),
  let w := s.nextMacro c q
  let i := s.nextIdx c q
  let taken (o : Op) (t : State) : Prop :=
    t.ops = s.ops ++ [o] ∧ o.c = c ∧ o.q = q ∧ o.idx = i ∧ o.word = w ∧ o.reserved = decide (q < 4) ∧ o.fin = none ∧
    t.nextIdx c q = i + 1 ∧ t.mem = s.mem ∧ t.host = s.host ∧ t.posted = s.posted ∧ SameSystem s t
  (hatchReady s c q false = true → ∀ a b d u, hatchPrepare s c q false ecc = (.ok (a, b, d), u) → 8 < d.cols →
    let m := hatchDie w
    let v := planVariant ((u.progOf c q).plans.getD (hatchPlan w) 0) a.bucket ((u.bundleOf c).rp m) ((u.bundleOf c).cp m)
    let sheet := decide (v.sheet ≠ 0) && (decide (u.lpInk c a ≠ none) || decide (u.lpInk c b ≠ none))
    let panel := decide (a.space ≠ 2 ∨ b.space ≠ 2)
    (u.bundleOf c).rp m ≤ buildRows (u.fab m).desc → (u.bundleOf c).cp m ≤ buildCols (u.fab m).desc →
    firstClaimFault u c m v a b sheet = none →
    Answers (.hatch c q ecc) s fun t => ∃ o h, taken o t ∧ o.prog = .hatch h ∧ o.da = a ∧ o.db = b ∧ o.dd = d ∧
      h.walk = (List.range (walks [a, b, d])).flatMap (fun e => hatchWalk v sheet panel e a.rows a.cols b.cols) ∧
      h.tileAt = nextItem WalkItem.isTile h.walk 0 ∧ h.bufs = [] ∧ h.sats = 0 ∧ h.reruns = 0 ∧ t.plates = s.plates) ∧
  (∀ stip, hatchReady s c q stip = true → ∀ a b d u, hatchPrepare s c q stip ecc = (.ok (a, b, d), u) →
    (stip = true ∨ d.cols ≤ 8) → d.cols ≤ 1024 →
    let n := walks [a, b, d] * ceilDiv a.rows 64
    let bytes := if a.space = 2 then 0 else (if 1 < n then 2 else 1) * eltBytes a.ty (min 64 a.rows * a.cols)
    wellFault u c (hatchDie w) bytes = none →
    Answers (if stip then .stipple c q ecc else .hatch c q ecc) s fun t =>
      ∃ o h, taken o t ∧ o.prog = .stip h ∧ o.da = a ∧ o.db = b ∧ o.dd = d ∧ h.ops = n ∧ h.opAt = 0 ∧
        h.claim = ceilDiv bytes 8192 ∧ h.fetched = decide (a.space = 2) ∧ t.plates = s.plates) ∧
  (etchReady s c q = true → ∀ x dc y u, etchCheck s c q ecc = (.ok (x, dc, y), u) →
    Answers (.etch c q ecc) s fun t => ∃ o h, taken o t ∧ o.prog = .etch h ∧ o.da = x ∧ o.dd = y ∧
      h.plates = etchPlates w ∧ h.rounds = x.rows * walks [x, y] ∧ h.round = 0 ∧ h.acc = [] ∧ h.fails = [] ∧
      t.plates = s.plates) ∧
  (loadReady s c q = true → ∀ src mir u, loadCheck s c q ecc = (.ok (src, mir), u) →
    Answers (.load c q ecc) s fun t => ∃ o, taken o t ∧ o.da = src ∧
      (let g := loadPlate w
       let b := (s.plate g).targetB
       let kn := s.actual c q ((s.progOf c q).desc (fld w 39 32)).2
       o.prog = .load { g := g, toB := b, k := kn.1, n := kn.2 } ∧
       ((t.plate g).bank b).state = .loading ∧ ((t.plate g).bank b).k = kn.1 ∧ ((t.plate g).bank b).n = kn.2 ∧
       (t.plate g).bank (!b) = (s.plate g).bank (!b) ∧ ∀ j, j ≠ g → t.plate j = s.plate j)) ∧
  (swapReady s c q = true → swapCheck s c (swapPlates w) = none →
    Answers (.swap c q) s fun t => ∃ o, taken o t ∧ o.prog = .swap (swapPlates w) ∧ t.plates = s.plates) ∧
  (extReady s c q = true → ∀ ms d u, extCheck s c q ecc = (.ok (ms, d), u) →
    let m := extDie w
    let p := extPort w
    let o := { s.newOp c q (extUnit m p) with prog := .ext m p, dd := d, da := ms.headD {}, db := ms.getLastD {} }
    ∀ bs v, extStream (u.issue o) o m ecc = (.ok bs, v) →
    Answers (.ext c q ecc) s fun t => taken o t ∧ (t.ext m p).cmd = some (c, q, i) ∧ (t.ext m p).aborting = false ∧
      t.out = s.out ++ [.extCommand m p c (s.ctx c).tenant w bs] ∧ t.plates = s.plates)

/-- R140: a macro-instruction whose check fails is outstanding with that fault and writes nothing. -/
def Claims.ChecksFaultWithoutEffect : Prop := ∀ (s : State) (c q : Nat) (ecc : Found) (f : Flt),
  let stopped (t : State) : Prop := ∃ o, t.ops = s.ops ++ [o] ∧ o.idx = s.nextIdx c q ∧ o.fin = some f.1 ∧
    o.detail = BitVec.ofNat 64 f.2 ∧ t.mem = s.mem ∧ t.host = s.host ∧ t.posted = s.posted ∧ t.plates = s.plates ∧
    SameSystem s t
  (hatchReady s c q false = true → (∃ u, hatchPrepare s c q false ecc = (.error f, u)) → Answers (.hatch c q ecc) s stopped) ∧
  (hatchReady s c q true = true → (∃ u, hatchPrepare s c q true ecc = (.error f, u)) → Answers (.stipple c q ecc) s stopped) ∧
  (etchReady s c q = true → (∃ u, etchCheck s c q ecc = (.error f, u)) → Answers (.etch c q ecc) s stopped) ∧
  (loadReady s c q = true → (∃ u, loadCheck s c q ecc = (.error f, u)) → Answers (.load c q ecc) s stopped) ∧
  (swapReady s c q = true → swapCheck s c (swapPlates (s.nextMacro c q)) = some f → Answers (.swap c q) s stopped) ∧
  (extReady s c q = true → (∃ u, extCheck s c q ecc = (.error f, u)) → Answers (.ext c q ecc) s stopped) ∧
  (∀ stip, hatchReady s c q stip = true → (∃ a b d u, hatchPrepare s c q stip ecc = (.ok (a, b, d), u) ∧
    (stip = true ∨ d.cols ≤ 8) ∧ 1024 < d.cols) → f = (.buildMismatch, 0) →
    Answers (if stip then .stipple c q ecc else .hatch c q ecc) s stopped)

/-- HATCH, STIPPLE, ETCH, LOAD, SWAP and EXT are accepted by their unit, or fault without effect: the parts EnginesAccept,
ChecksFaultWithoutEffect. -/
def Obligations.EnginesAcceptOrFault : Prop :=
  Claims.EnginesAccept ∧ Claims.ChecksFaultWithoutEffect

/-- R151, R153, R140: MOVE by an Ink die or a data mover, SAMPLE, ACTUATE: where no check fails they are finished with
success at issue, what they write is theirs, and the queue moves on; a MOVE that faults on the way writes nothing. Plates and
the rest of the system stay. -/
def Claims.TransfersComplete : Prop := ∀ (s : State) (c q time : Nat) (ecc : Found),
  let finished (u : State) (t : State) : Prop :=
    (∃ o, t.ops = s.ops ++ [o] ∧ o.c = c ∧ o.q = q ∧ o.idx = s.nextIdx c q ∧ o.word = s.nextMacro c q ∧
      o.fin = some .success ∧ o.sword = 0) ∧
    t.nextIdx c q = s.nextIdx c q + 1 ∧ t.posted = u.posted ∧ t.mem = u.mem ∧ t.host = u.host ∧
    t.plates = s.plates ∧ SameSystem s t
  let moved (cmd : Instr) : Prop := ∀ e a b n u, moveCheck s c q ecc = (.ok (e, a, b, n), u) →
    let o := { s.newOp c q (s.moveUnit c q) with da := a, dd := b }
    (∀ v, moveRun (u.issue o) o e ecc n = (none, v) → Answers cmd s (RanAtIssue s c q none 0 v)) ∧
    (∀ f v, moveRun (u.issue o) o e ecc n = (some f, v) → Answers cmd s (RanAtIssue s c q (some f) 0 v))
  (moveReady s c q false = true → moved (.moveInk c q ecc)) ∧
  (moveReady s c q true = true → moved (.moveDataMover c q ecc)) ∧
  (sampleReady s c q = true → ∀ u, sampleRun s c q ecc = (none, u) → Answers (.sample c q ecc) s (finished u)) ∧
  (actuateReady s c q = true → ∀ u, actuateRun s c q time ecc = (none, u) →
    Answers (.actuate c q time ecc) s (finished u))

/-- R153, R294: one staged output: its 16-byte entry (Table 12-2) holds the value, the time, the context and VALID; no other
byte of memory changes. -/
def Claims.StagingEntryWritten : Prop := ∀ (s u : State) (c q k d o time a : Nat) (ecc : Found) (bs : List Byte),
  k < 2 → d < 2 → o < 20 → s.readCtx c ecc a 4 = (.ok bs, u) →
  let e := stagingEntry (signed 32 (leNat bs)) time c false
  let base := stagingAddr k d + 16 * o
  (stageOne s c q k d o time a ecc).1 = none ∧
  (∀ i, i < 16 → (stageOne s c q k d o time a ecc).2.rd (base + i) = e.getD i 0) ∧
  (∀ b, b < base ∨ base + 16 ≤ b → (stageOne s c q k d o time a ecc).2.rd b = s.rd b) ∧
  e.length = 16 ∧ leNat (e.take 4) = (signed 32 (leNat bs) % 2 ^ 32).toNat ∧ leNat ((e.drop 4).take 4) = time % 2 ^ 32

/-- MOVE, SAMPLE and ACTUATE complete; a staged output is one 16-byte entry: the parts TransfersComplete,
StagingEntryWritten. -/
def Obligations.TransfersAndStaging : Prop :=
  Claims.TransfersComplete ∧ Claims.StagingEntryWritten

/-- R124, R125, R152, R140: the thirteen Tone operations: where no check fails each is finished with success at issue, its
status word counts saturations and reruns, and nothing outside memory, the context's queue and the Field die's counts changes;
one that faults on the way writes nothing. -/
def Claims.ToneOperationsComplete : Prop := ∀ (s : State) (c q : Nat) (ecc : Found) (residue : Nat),
  let ran (red : Bool) (cmd : Instr) : Prop := ∀ ms u, toneCheck s c q red ecc = (.ok ms, u) →
    let o := { s.newOp c q (8 + toneDie (s.nextMacro c q)) with da := ms.headD {}, dd := ms.getLastD {} }
    let mB := if !red && toneBen (s.nextMacro c q) then some (ms.getD 1 {}) else none
    (∀ word v, toneRun (u.issue o) o red mB ecc residue (walks ms) = (none, word, v) →
      Answers cmd s (RanAtIssue s c q none word v)) ∧
    (∀ f word v, toneRun (u.issue o) o red mB ecc residue (walks ms) = (some f, word, v) →
      Answers cmd s (RanAtIssue s c q (some f) word v))
  (toneReady s c q 7 0 = true → ran false (.toneDrain c q ecc residue)) ∧
  (toneReady s c q 7 1 = true → ran false (.toneScale c q ecc residue)) ∧
  (toneReady s c q 7 2 = true → ran false (.toneAdd c q ecc residue)) ∧
  (toneReady s c q 7 3 = true → ran false (.toneSub c q ecc residue)) ∧
  (toneReady s c q 7 4 = true → ran false (.toneClamp c q ecc residue)) ∧
  (toneReady s c q 7 5 = true → ran false (.toneCmp c q ecc residue)) ∧
  (toneReady s c q 7 6 = true → ran false (.toneTable c q ecc residue)) ∧
  (toneReady s c q 7 7 = true → ran false (.toneConvert c q ecc residue)) ∧
  (toneReady s c q 8 0 = true → ran true (.reduceColumnSum c q ecc residue)) ∧
  (toneReady s c q 8 1 = true → ran true (.reduceRowSum c q ecc residue)) ∧
  (toneReady s c q 8 2 = true → ran true (.reduceColumnMax c q ecc residue)) ∧
  (toneReady s c q 8 3 = true → ran true (.reduceRowMax c q ecc residue)) ∧
  (toneReady s c q 8 4 = true → ran true (.reduceSumlist c q ecc residue))

/-- R124, Tables 5-5 and 5-6 on the integer types: what each elementwise function makes of one element, before the clamp to
DD's type; and the table's exact values at its own points. -/
def Claims.ToneArithmetic : Prop := ∀ (w : Word256) (tyA tyB : Nat) (a b free : Int) (tab : List Int),
  let elt (fn tyD : Nat) (second : Option (Nat × Int)) := (toneElt fn w tyA tyD a second tab free).1
  isFloat tyA = false → isFloat tyB = false → ∀ tyD, isFloat tyD = false →
  elt 0 tyD none = clampTy tyD (rndDiv a (2 ^ toneU w)) ∧
  elt 1 tyD none = clampTy tyD (rndDiv (a * toneM w) (2 ^ toneU w)) ∧
  elt 2 tyD (some (tyB, b)) = clampTy tyD (a + b) ∧
  elt 3 tyD (some (tyB, b)) = clampTy tyD (a - b) ∧
  (signed 32 (fld w 127 96) ≤ signed 32 (fld w 159 128) →
    elt 4 tyD none = clampTy tyD (max (signed 32 (fld w 127 96)) (min a (signed 32 (fld w 159 128))))) ∧
  elt 5 3 none = (if signed 32 (fld w 127 96) < a then 1 else 0) ∧
  elt 7 tyD none = clampTy tyD a ∧
  (∀ i : Nat, i < 1024 → tab.length = 1025 → tableAt tab (64 * (i : Int) - 32768) = clampS 16 (tab.getD i 0))

/-- The thirteen Tone operations complete; their arithmetic on the integer types: the parts ToneOperationsComplete,
ToneArithmetic. -/
def Obligations.ToneOperations : Prop :=
  Claims.ToneOperationsComplete ∧ Claims.ToneArithmetic

/-- R95, R96: a pass from a plate in service with an ACTIVE bank and no clipped code is proven exactly where its burr is
within the limit of its proof class `k`; a clipped one, one from an upset bank and one from a plate out of service are failed
by class. The codes proven are those of the converters, held in 10 bits (R74). -/
def Claims.ProofsJudge : Prop := ∀ (s : State) (k : Nat) (b : Bank) (h : EtchRun) (g : Nat) (x : List Nat) (raw : Tab Int)
    (p1 p2 : Int),
  let v := judge s k b h g x raw p1 p2
  (s.plateOut g = true → v.cls = 6) ∧
  (s.plateOut g = false → b.state = .activeUpset → v.cls = 5) ∧
  (s.plateOut g = false → b.state ≠ .activeUpset →
    ((∃ j, j < h.n ∧ clampS 10 (tget 0 raw j) ≠ tget 0 raw j) → v.cls = 4) ∧
    ((∀ j, j < h.n → clampS 10 (tget 0 raw j) = tget 0 raw j) →
      (v.beta ≤ s.burrLimit k h.n → v.cls = 0) ∧
      (s.burrLimit k h.n < v.beta → v.cls = 1 ∨ v.cls = 2 ∨ v.cls = 3))) ∧
  ∀ j, j < h.n → tget 0 v.codes j = clampS 10 (tget 0 raw j)

/-- R73, R124: the rounding of every drain and pass: to the nearest, ties away from zero. -/
def Claims.RoundsToNearest : Prop := ∀ (a : Int) (b : Nat), 0 < b →
  2 * (b * rndDiv a b - a).natAbs ≤ b ∧
  (2 * (b * rndDiv a b - a).natAbs = b → a.natAbs < (b * rndDiv a b).natAbs) ∧
  rndDiv (-a) b = -rndDiv a b

/-- R147, R79: a store into an integer type is the nearest representable value, and counts a saturation exactly where it
differs; a 24-bit accumulator register does the same. -/
def Claims.StoresSaturate : Prop := ∀ (ty : Nat) (v : Int), isFloat ty = false →
  (storeInt ty v).1 = clampTy ty v ∧ ((storeInt ty v).2 = 0 ↔ clampTy ty v = v) ∧ (storeInt ty v).2 ≤ 1 ∧
  -(2 ^ 23) ≤ (acc24 v).1 ∧ (acc24 v).1 < 2 ^ 23 ∧ ((acc24 v).2 = 0 ↔ -(2 ^ 23) ≤ v ∧ v < 2 ^ 23)

/-- The proof of a pass, rounding to nearest and saturation: the parts ProofsJudge, RoundsToNearest, StoresSaturate. -/
def Obligations.ProofsAndRounding : Prop :=
  Claims.ProofsJudge ∧ Claims.RoundsToNearest ∧ Claims.StoresSaturate

/-- R163, R164, R165, R175: a fetch that the double buffering allows ends with its operands in their buffer; a claim that is
free is held. The operation under (c, q, i) alone differs, and no byte of memory and nothing of the system does. -/
def Claims.FetchesAndClaims : Prop := ∀ (s : State) (c q i item : Nat) (ecc : Found) (o : Op),
  s.op c q i = some o →
  let still (t : State) : Prop := t.mem = s.mem ∧ t.host = s.host ∧ t.posted = s.posted ∧ t.plates = s.plates ∧ SameSystem s t
  (fetchReady s c q i item = true →
    (∀ h x b u, o.prog = .hatch h → h.walk[item]? = some x →
      (x.kind = .sheet ∨ wellFault s c (hatchDie o.word) (h.claim * 8192) = none) →
      fetchItem s o h (hatchDie o.word) item x ecc = (.ok b, u) →
      Answers (.operandFetchComplete c q ⟨i, item⟩ ecc) s fun t => still t ∧ x.isTile = false ∧
        t.op c q i = some { o with prog := .hatch { h with bufs := h.bufs ++ [b] } }) ∧
    (∀ h v u, o.prog = .stip h →
      s.readBlock c (.field (hatchDie o.word)) ⟨s.etchDie c, hatchDie o.word⟩ ecc o.da (stipBatch o h).1
        (stipBatch o h).2.1 (stipBatch o h).2.2 0 o.da.cols = (.ok v, u) →
      Answers (.operandFetchComplete c q ⟨i, item⟩ ecc) s fun t => still t ∧
        t.op c q i = some { o with prog := .stip { h with fetched := true, bufX := v } })) ∧
  (claimReady s c q i = true →
    Answers (.claimGranted c q i) s fun t => still t ∧
      (∀ h, o.prog = .hatch h →
        t.op c q i = some { o with prog := .hatch { h with
          sheetWait := h.sheetWait && !sheetFree s o.c h.pages (s.earlier c q i)
          waiting := h.waiting && !claimFree s o.c (hatchDie o.word) h.claim (s.earlier c q i) } }) ∧
      (∀ h, o.prog = .stip h → t.op c q i = some { o with prog := .stip { h with waiting := false } }))

/-- R106, R107, R119, R163: the rows, columns and corner of a tile are compared with its check lines. A tile that agrees is
drained into DD: its writes are made, and they stand once the macro-instruction succeeds (R140). One that does not is
counted, demands a scrub of the die from stripe 0 and runs once more, fetched afresh, where the allowance covers it; a second
mismatch is HATCH_CHECK. -/
def Claims.TilesDrain : Prop := ∀ (s : State) (c q i : Nat) (chk : TileCheck) (o : Op) (h : HatchRun) (x : WalkItem),
  tileReady s c q i = true → s.op c q i = some o → o.prog = .hatch h → h.walk[h.tileAt]? = some x →
  let m := hatchDie o.word
  let good (a b : List Int) : Prop :=
    let t := tileSums o.da.ty x.rn x.kn x.cn a b chk
    t.rows = [] ∧ t.cols = [] ∧ t.corner = false ∧ chk.parity = false
  let bad : Prop := (∃ u, tileOperands s o h m x = (.ok none, u)) ∨
    ∃ a b u, tileOperands s o h m x = (.ok (some (a, b)), u) ∧ ¬ good a b
  let next := nextItem WalkItem.isTile h.walk (h.tileAt + 1)
  let ns := xclkNs (s.fab m).desc (tileCycles o.da.ty x.kn h.ch)
  (∀ a b u n v o1, tileOperands s o h m x = (.ok (some (a, b)), u) → good a b →
    drainBlock u o m x.entry x.r0 x.rn x.c0 x.cn (tileSums o.da.ty x.rn x.kn x.cn a b chk).acc = (.ok n, v) →
    v.op c q i = some o1 →
    (next < h.walk.length → Answers (.tileDrain c q i chk) s fun t =>
      ∃ h', t.op c q i = some { o1 with prog := .hatch h' } ∧ h'.tileAt = next ∧ h'.rerun = false ∧ h'.sats = h.sats + n ∧
        o.held.length ≤ o1.held.length ∧ t.mem = s.mem ∧ t.host = s.host ∧ t.posted = s.posted ∧ SameSystem s t) ∧
    (h.walk.length ≤ next → Answers (.tileDrain c q i chk) s fun t =>
      t.op c q i = some { o1 with fin := some .success, sword := countWord (h.sats + n) h.reruns, held := [] } ∧
        t.mem = (v.release o1).mem ∧ t.host = (v.release o1).host ∧ t.posted = (v.release o1).posted ∧ SameSystem s t)) ∧
  (bad → h.rerun = true → Answers (.tileDrain c q i chk) s fun t =>
    t.op c q i = some { o with fin := some .hatchCheck, detail := 0, held := [] } ∧
    (t.fab m).mismX = satInc 32 (s.fab m).mismX ∧ (t.fab m).stripe = 0 ∧ (t.fab m).demanded = true ∧
    t.mem = s.mem ∧ t.posted = s.posted ∧ SameSystem s t) ∧
  (bad → h.rerun = false → ceilDiv ns 10 ≤ s.allowance c q → Answers (.tileDrain c q i chk) s fun t =>
    (∃ h', t.op c q i = some { o with prog := .hatch h' } ∧ h'.rerun = true ∧ h'.reruns = h.reruns + 1 ∧
      h'.tileAt = h.tileAt ∧ ∀ b ∈ h'.bufs, b.item ∉ h.feeds h.tileAt) ∧
    t.allowance c q = s.allowance c q - ceilDiv ns 10 ∧
    (t.fab m).mismX = satInc 32 (s.fab m).mismX ∧ (t.fab m).demanded = true ∧ t.mem = s.mem ∧ SameSystem s t)

/-- R120, R123, R165: a Stipple operation whose checksum lanes agree makes way for the next, and the last one ends the
macro-instruction with what it wrote; a second mismatch of one is HATCH_CHECK. -/
def Claims.StippleOperationsEnd : Prop := ∀ (s : State) (c q i : Nat) (chk : TileCheck) (ecc : Found) (o : Op)
    (h : StipRun) (outs : List (Nat × List Nat)) (rho : List (List Int)) (n : Nat) (u : State) (o1 : Op),
  stipReady s c q i = true → s.op c q i = some o → o.prog = .stip h → o.da.space ≠ 2 →
  let m := hatchDie o.word
  let b := stipBatch o h
  stipGroups s o m b.1 b.2.1 b.2.2 h.bufX chk ecc = (.ok (outs, rho, n), u) → u.op c q i = some o1 →
  let bad := laneBad o.da.ty b.2.2 o.da.cols h.bufX rho (fun k => outs.flatMap (fun g => (g.2.drop (k * g.1)).take g.1)) chk
  (bad = [] → chk.parity = false → h.opAt + 1 < h.ops → Answers (.stippleComplete c q i chk ecc) s fun t =>
    ∃ h', t.op c q i = some { o1 with prog := .stip h' } ∧ h'.opAt = h.opAt + 1 ∧ h'.fetched = false ∧ h'.rerun = false ∧
      h'.sats = h.sats + n ∧ t.mem = s.mem ∧ t.posted = s.posted ∧ SameSystem s t) ∧
  (bad = [] → chk.parity = false → h.ops ≤ h.opAt + 1 → Answers (.stippleComplete c q i chk ecc) s fun t =>
    t.op c q i = some { o1 with fin := some .success, sword := countWord (h.sats + n) h.reruns, held := [] } ∧
    t.mem = (u.release o1).mem ∧ t.host = (u.release o1).host ∧ t.posted = (u.release o1).posted ∧ SameSystem s t) ∧
  ((bad ≠ [] ∨ chk.parity = true) → h.rerun = true → Answers (.stippleComplete c q i chk ecc) s fun t =>
    t.op c q i = some { o1 with fin := some .hatchCheck, detail := 0, held := [] } ∧
    (t.fab m).mismS = satInc 32 (s.fab m).mismS ∧ (t.fab m).demanded = true ∧ t.mem = s.mem ∧ t.posted = s.posted ∧
    SameSystem s t)

/-- Operand fetches, well claims, tiles and Stipple operations of a running macro-instruction: the parts FetchesAndClaims,
TilesDrain, StippleOperationsEnd. -/
def Obligations.ArrayOperationsAdvance : Prop :=
  Claims.FetchesAndClaims ∧ Claims.TilesDrain ∧ Claims.StippleOperationsEnd

/-- R64, R28, R172: the last flit of a LOAD makes its bank SHADOW with the K by N weights read from the padded source; data
that cannot be read leaves the bank EMPTY and faults. The other bank, the other plates and memory stay. -/
def Claims.LoadsComplete : Prop := ∀ (s u : State) (c q i : Nat) (ecc : Found) (o : Op) (r : LoadRun),
  loadCompleteReady s c q i = true → s.loadOp c q i = some (o, r) →
  let kept (t : State) : Prop :=
    (t.plate r.g).bank (!r.toB) = (s.plate r.g).bank (!r.toB) ∧ (∀ j, j ≠ r.g → t.plate j = s.plate j) ∧
    t.mem = s.mem ∧ t.posted = s.posted ∧ SameSystem s t
  (∀ w, s.readMat c .plate ⟨0, 0⟩ ecc o.da 0 = (.ok w, u) → Answers (.loadComplete c q i ecc) s fun t =>
    (t.plate r.g).bank r.toB = mkBank ((s.plate r.g).bank r.toB)
      ((List.range r.k).flatMap (fun i => (w.drop (i * o.da.cols)).take r.n)) ∧
    ((t.plate r.g).bank r.toB).state = .shadow ∧
    t.op c q i = some { o with fin := some .success, sword := 0, held := [] } ∧ kept t) ∧
  (∀ f, s.readMat c .plate ⟨0, 0⟩ ecc o.da 0 = (.error f, u) → Answers (.loadComplete c q i ecc) s fun t =>
    (t.plate r.g).bank r.toB = {} ∧
    t.op c q i = some { o with fin := some f.1, detail := BitVec.ofNat 64 f.2, held := [] } ∧ kept t)

/-- R66, Table 3-2: a SWAP takes effect on every plate it names together: the other bank becomes ACTIVE, an ACTIVE bank
SHADOW, an ACTIVE_UPSET one EMPTY; a plate it does not name stays. R68: a mismatch that the bank scrubber finds is counted,
whatever bank it lies in; it makes an ACTIVE bank ACTIVE_UPSET and a SHADOW bank EMPTY. That a LOADING and an ACTIVE_UPSET
bank stay and that no event tells of them is log 55's choice. -/
def Claims.SwapsAndBankScrubs : Prop := ∀ s : State,
  (∀ c q i gs, swapDue s c q i = true → s.swapOp c q i = some gs → gs.Nodup →
    (∀ g ∈ gs, (s.plate g).other.state ≠ .empty) → Answers (.swapTakeEffect c q i) s fun t =>
    (∀ g ∈ gs, ((t.plate g).bank (s.plate g).targetB).state = .active ∧
      ((t.plate g).bank (s.plate g).targetB).w = (s.plate g).other.w ∧
      (((s.plate g).bank (!(s.plate g).targetB)).state = .active →
        ((t.plate g).bank (!(s.plate g).targetB)).state = .shadow) ∧
      (((s.plate g).bank (!(s.plate g).targetB)).state = .activeUpset →
        (t.plate g).bank (!(s.plate g).targetB) = {})) ∧
    (∀ g, g ∉ gs → t.plate g = s.plate g) ∧ t.mem = s.mem ∧ SameSystem s t) ∧
  (∀ g bank row mismatch, bankScrubReady s g bank row = true →
    let isB := decide (bank = 1)
    (mismatch = false → exec (.bankScrub g bank row mismatch) s = .next s) ∧
    (mismatch = true → Answers (.bankScrub g bank row mismatch) s fun t =>
      (((s.plate g).bank isB).state = .active → ((t.plate g).bank isB).state = .activeUpset ∧
        ((t.plate g).bank isB).w = ((s.plate g).bank isB).w) ∧
      (((s.plate g).bank isB).state = .shadow → (t.plate g).bank isB = {}) ∧
      (((s.plate g).bank isB).state = .loading ∨ ((s.plate g).bank isB).state = .activeUpset →
        (t.plate g).bank isB = (s.plate g).bank isB ∧ t.out = s.out ∧ t.ctxs = s.ctxs) ∧
      (t.plate g).bank (!isB) = (s.plate g).bank (!isB) ∧ (t.plate g).upsets = satInc 32 (s.plate g).upsets ∧
      (∀ j, j ≠ g → t.plate j = s.plate j) ∧ SameSystem s t))

/-- LOAD, SWAP and the bank scrubber change exactly the banks they name: the parts LoadsComplete, SwapsAndBankScrubs. -/
def Obligations.BanksLoadSwapAndScrub : Prop :=
  Claims.LoadsComplete ∧ Claims.SwapsAndBankScrubs

/-- R109, R240: a pass that arrives is counted once in its plate's ledger and once in its context's: a proven one as PROVEN,
any other as FAILED; a proven pass asks for no rebite, and no bank changes. The pass that was in flight when GUARD began
completes and is counted too, and no rebite follows it. -/
def Claims.PassesArrive : Prop := ∀ (s : State) (c q i g : Nat) (raw : Tab Int) (p1 p2 : Int),
  (∀ o h round hi, passReady s c q i g = true → s.flightOf c q i g = none → s.etchOp c q i = some (o, h) →
    h.passOf g = some (round, hi, false) →
    let h' := h.carryIn s o round
    let v := judge s (s.clsOf c) (s.plate g).active h' g (h'.codes (g, round, hi)) raw p1 p2
    Answers (.passComplete c q i g raw p1 p2) s fun t =>
      (v.cls = 0 → (t.plate g).ledger.proven = satInc 32 (s.plate g).ledger.proven ∧
        (t.ctx c).ledger.proven = satInc 32 (s.ctx c).ledger.proven ∧
        (t.plate g).ledger.failed = (s.plate g).ledger.failed ∧ t.rebites = s.rebites) ∧
      (v.cls ≠ 0 → (t.plate g).ledger.failed = satInc 32 (s.plate g).ledger.failed ∧
        (t.ctx c).ledger.failed = satInc 32 (s.ctx c).ledger.failed ∧
        (t.plate g).ledger.proven = (s.plate g).ledger.proven) ∧
      (t.plate g).ledger.lastBurr = v.beta ∧ (t.plate g).bankA = (s.plate g).bankA ∧
      (t.plate g).bankB = (s.plate g).bankB ∧ (∀ j, j ≠ g → (t.plate j).ledger.proven = (s.plate j).ledger.proven)) ∧
  (∀ x h p, s.flightOf c q i g = some x → x.op.etchRun = some h → h.passOf g = some p →
    Answers (.passComplete c q i g raw p1 p2) s fun t =>
      (t.plate g).flight = none ∧ t.rebites = s.rebites ∧ (t.plate g).bankA = (s.plate g).bankA ∧
      (t.plate g).bankB = (s.plate g).bankB ∧
      (((t.plate g).ledger.proven = satInc 32 (s.plate g).ledger.proven ∧
          (t.plate g).ledger.failed = (s.plate g).ledger.failed) ∨
        ((t.plate g).ledger.failed = satInc 32 (s.plate g).ledger.failed ∧
          (t.plate g).ledger.proven = (s.plate g).ledger.proven)))

/-- R99 to R103: a rebite whose own sums, taken over the input in the etch buffer, agree with E and E2 gives the withheld codes
and the pass no longer waits; any difference rejects it: the supervisor is told (REBITE_CHECK) and the pass is refused. -/
def Claims.RebitesAreChecked : Prop := ∀ (s u : State) (m : Nat) (bad : Bool) (ecc : Found) (r : Rebite) (o : Op)
    (h : EtchRun) (f : FailedPass) (w : List Int),
  tget [] s.rebites m = [r] → s.etchOp r.c r.q r.idx = some (o, h) → o.fin = none →
  h.fails.find? (fun x => x.is r.g r.round r.hi) = some f →
  rebiteWeights s r.c m ecc (s.plate r.g).active = (.ok w, u) →
  let sums := exactSums (s.plate r.g).active (dacCodes u o h (r.g, r.round, r.hi)) w
  (bad = false → sumCheck f sums = true → Answers (.rebiteComplete m bad ecc) s fun t =>
    (∃ o' h', t.etchOp r.c r.q r.idx = some (o', h') ∧ h'.rebitten = h.rebitten + 1 ∧
      h'.fails = h.fails.filter (fun x => !x.is r.g r.round r.hi)) ∧
    (t.ctx r.c).ledger.rebitten = satInc 32 (s.ctx r.c).ledger.rebitten ∧
    tget [] t.rebites m = [] ∧ t.mem = s.mem ∧ t.out = s.out) ∧
  ((bad = true ∨ sumCheck f sums = false) → Answers (.rebiteComplete m bad ecc) s fun t =>
    (∃ e : Rec, t.out = s.out ++ [.superEvent e] ∧ e.kind = 0x0D) ∧
    (t.ctx r.c).refused = satInc 32 (s.ctx r.c).refused ∧
    (t.ctx r.c).ledger.rebitten = (s.ctx r.c).ledger.rebitten ∧ tget [] t.rebites m = [])

/-- R79, R80, R104, Table 3-4: an ETCH whose passes are settled writes its rows where DY stands in the etch share and ends
with its status word; every byte outside those rows stays. -/
def Claims.EtchWritesOut : Prop := ∀ (s : State) (c q i : Nat) (o : Op) (h : EtchRun),
  writeOutReady s c q i = true → s.etchOp c q i = some (o, h) →
  let row (r : Nat) := encodeRow o.dd.ty ((h.outRow o.dd.ty r).map (·.1))
  let base (r : Nat) := s.etchAddr c h.pdie (roundRow o.dd o.dd.rows r)
  Answers (.etchWriteOut c q i) s fun t =>
    (∀ a, (∀ r, r < h.rounds → a < base r ∨ base r + (row r).length ≤ a) → t.rd a = s.rd a) ∧
    (h.rounds = 1 → ∀ k, k < (row 0).length → t.rd (base 0 + k) = (row 0).getD k 0) ∧
    (∃ o', t.op c q i = some o' ∧ o'.fin = some .success) ∧ t.host = s.host ∧ t.posted = s.posted ∧ SameSystem s t

/-- A pass arrives, a rebite is checked, an ETCH writes its rows out: the parts PassesArrive, RebitesAreChecked,
EtchWritesOut. -/
def Obligations.PassesRebitesAndWriteOut : Prop :=
  Claims.PassesArrive ∧ Claims.RebitesAreChecked ∧ Claims.EtchWritesOut

/-- R84, R86, R87, R88: a burnish falls due by time or temperature; one step runs in a margin comb, at most once a frame, and
adds what its passes measured; the last one sets the trims that wait for GUARD, or finds one beyond its range and the plate
FAILED, which the supervisor is told. A plate whose due burnish comes too late is OVERDUE, counted and told to the
supervisor. Only that plate's own figures change. -/
def Obligations.BurnishesRun : Prop := ∀ (s : State) (g : Nat),
  (∀ timed, burnishDueReady s g timed = true → Answers (.burnishDue g timed) s fun t => OnlyPlate g s t ∧
    (t.plate g).dueTimed = ((s.plate g).dueTimed || timed) ∧ (t.plate g).dueTemp = ((s.plate g).dueTemp || !timed) ∧
    ((s.plate g).due = false → (t.plate g).steps = 0 ∧ (t.plate g).measured = {}) ∧
    ((s.plate g).due = true → (t.plate g).steps = (s.plate g).steps ∧ (t.plate g).measured = (s.plate g).measured) ∧
    (t.plate g).bankA = (s.plate g).bankA ∧ (t.plate g).bankB = (s.plate g).bankB ∧
    (t.plate g).state = (s.plate g).state ∧ (t.plate g).ledger = (s.plate g).ledger) ∧
  (∀ passes, burnishStepReady s g = true → (s.plate g).steps + 1 < 8 → Answers (.burnishStep g passes) s fun t =>
    OnlyPlate g s t ∧ t.plate g = (s.plate g).measure passes ∧ (t.plate g).steps = (s.plate g).steps + 1 ∧
      (t.plate g).stepped = true) ∧
  (∀ passes, burnishStepReady s g = true → (s.plate g).steps = 7 →
    let p := (s.plate g).measure passes
    (p.beyond p.measured = false → Answers (.burnishStep g passes) s fun t => OnlyPlate g s t ∧
      (t.plate g).due = false ∧ (t.plate g).steps = 0 ∧ (t.plate g).pendingTrim = some (p.trims p.measured) ∧
      (t.plate g).burnishes = satInc 32 (s.plate g).burnishes ∧ (t.plate g).lastAt = s.frame.now ∧
      (t.plate g).lastTemp = (s.plate g).temp ∧ (t.plate g).offTrim = (s.plate g).offTrim ∧
      (t.plate g).bankA = (s.plate g).bankA ∧ (t.plate g).bankB = (s.plate g).bankB ∧
      (t.plate g).state = (if (s.plate g).state = .overdue then .inService else (s.plate g).state)) ∧
    (p.beyond p.measured = true → Answers (.burnishStep g passes) s fun t =>
      (t.plate g).state = .failed ∧ (t.plate g).failDue = true ∧
      (∃ e : Rec, t.out = s.out ++ [.superEvent e] ∧ e.kind = 0x0B) ∧ ∀ j, j ≠ g → t.plate j = s.plate j)) ∧
  (overdueReady s g = true → Answers (.plateOverdue g) s fun t =>
    (t.plate g).overdues = satInc 32 (s.plate g).overdues ∧
    ((s.plate g).state = .inService → (t.plate g).state = .overdue) ∧
    (∃ e : Rec, t.out = s.out ++ [.superEvent e] ∧ e.kind = 0x0A) ∧ ∀ j, j ≠ g → t.plate j = s.plate j)

/-- R127: DONE with status 0 writes its result beats to the destination, finishes the command of its port with success and
frees the port; any other status, or a result that cannot be written, is a fault, and nothing is written (R140). R128: a port
that lets its time pass is aborted. R129: its acknowledgement faults EXT_TIMEOUT and frees the port; an aborted command leaves
the beats it has written; without an acknowledgement the port is disabled and its command faults EXT_HUNG. -/
def Obligations.ExtensionPortsEnd : Prop := ∀ (s : State) (m p c q i : Nat) (o : Op),
  (s.ext m p).cmd = some (c, q, i) → s.op c q i = some o →
  (∀ beats u, extDoneReady s m p = true → extWrite (s.modExt m p fun x => { x with cmd := none }) o m beats = (none, u) →
    Answers (.extDone m p 0 beats) s fun t =>
      t.op c q i = some { o with fin := some .success, sword := 0, held := [] } ∧ (t.ext m p).cmd = none ∧
      t.mem = u.mem ∧ t.host = u.host ∧ t.posted = u.posted ∧ SameSystem s t) ∧
  (∀ status beats f, extDoneReady s m p = true →
    ((status ≠ 0 ∧ f = (.extFail status.toNat, 0)) ∨ (status = 0 ∧
      ∃ u, extWrite (s.modExt m p fun x => { x with cmd := none }) o m beats = (some f, u))) →
    Answers (.extDone m p status beats) s fun t =>
      t.op c q i = some { o with fin := some f.1, detail := BitVec.ofNat 64 f.2, held := [] } ∧ (t.ext m p).cmd = none ∧
      t.mem = s.mem ∧ t.host = s.host ∧ t.posted = s.posted ∧ SameSystem s t) ∧
  (extDoneReady s m p = true → Answers (.extTimeout m p) s fun t => OnlyFab m s t ∧
    (t.ext m p).aborting = true ∧ (t.ext m p).timedOut = true ∧ (t.ext m p).cmd = some (c, q, i)) ∧
  (∀ beats, (s.ext m p).aborting = true → (s.ext m p).timedOut = true → Answers (.extAbortAck m ⟨p, beats⟩) s fun t =>
    t.op c q i = some { o with fin := some .extTimeout, detail := 0, held := [] } ∧ t.ext m p = {} ∧ t.mem = s.mem ∧
    t.posted = s.posted ∧ SameSystem s t) ∧
  (∀ beats, (s.ext m p).aborting = true → (s.ext m p).timedOut = false → Answers (.extAbortAck m ⟨p, beats⟩) s fun t =>
    t.ops = s.ops ∧ t.ext m p = {} ∧ SameSystem s t ∧
    ((s.ext m p).job = none → OnlyFab m s t) ∧
    (∀ j, (s.ext m p).job = some j → t.mem = (extWrite s j m beats).2.mem ∧ t.posted = (extWrite s j m beats).2.posted)) ∧
  ((s.ext m p).aborting = true → p < 8 → Answers (.extHung m p) s fun t =>
    t.op c q i = some { o with fin := some .extHung, detail := 0, held := [] } ∧ t.ext m p = {} ∧
    (t.fab m).disabled.getLsbD p = true ∧ t.extThere m p = false ∧ t.mem = s.mem ∧ SameSystem s t)

/-- R10, R6: one flit crosses a link: one of the replay buffer that is to go again, else the oldest that waits, else the one
offered; with 128 flits unacknowledged nothing new goes out. It is accepted only with a right CRC, the expected SEQ and a
legal TYPE and CLASS; then SEQ moves on and ACK is taken. Any other is discarded: the next outgoing flit carries NAK. A NAK
makes the other direction send again all that ACK does not cover, which is counted. No other link's counts change. -/
def Claims.FlitsAcceptedInOrder : Prop := ∀ (s : State) (l dir : Nat) (sent : Flit) (damaged : Option Flit) (time : Nat),
  l < 24 → dir < 2 → (s.link l).carries = true → s.mayCross l dir sent = true →
  let d := (s.link l).dir dir
  let back := (s.link l).dir (1 - dir)
  let next := d.sendNext sent
  (d.toReplay = 0 → bufferDepth ≤ d.buffer.length → next.1 = none) ∧
  (0 < d.toReplay → d.toReplay ≤ d.buffer.length →
    next.1.map (·.1) = (d.buffer[d.buffer.length - d.toReplay]?).map (·.1) ∧ next.2.toReplay = d.toReplay - 1) ∧
  (next.1 = none → Answers (.flitReceive l dir ⟨sent, damaged⟩ time) s fun t =>
    OnlyLink l s t ∧ ((t.link l).dir dir).expSeq = d.expSeq ∧ (t.link l).dir (1 - dir) = back) ∧
  ∀ g seq, next.1 = some (g, seq) →
    let f := damaged.getD (stamp g seq (back.expSeq - 1) back.nak)
    (flitOk d f = true ↔ (crc32c (flitBytes f)).toNat = Flit.crc f ∧ Flit.seq f = d.expSeq ∧ Flit.ty f < 8 ∧
      Flit.cls f < 4 ∧ bit f.trailer 15 = false) ∧
    Answers (.flitReceive l dir ⟨sent, damaged⟩ time) s fun t =>
      t.mem = s.mem ∧ t.ctxs = s.ctxs ∧ t.obj = s.obj ∧ t.posted = s.posted ∧
      (∀ j, j ≠ l → (t.link j).state = (s.link j).state ∧ (t.link j).replays = (s.link j).replays) ∧
      (flitOk d f = false → OnlyLink l s t ∧ (t.link l).dir dir = { next.2 with nak := true } ∧
        (t.link l).dir (1 - dir) = { back with nak := false } ∧ (t.link l).state = (s.link l).state ∧
        (t.link l).replays = (s.link l).replays) ∧
      (flitOk d f = true → ((t.link l).dir dir).expSeq = d.expSeq + 1 ∧ ((t.link l).dir dir).nak = false ∧
        ((t.link l).dir dir).accepted = d.accepted ++ [f] ∧ ((t.link l).dir (1 - dir)).acked = Flit.ack f) ∧
      (flitOk d f = true → Flit.nak f = false → (t.link l).replays = (s.link l).replays ∧
        (t.link l).state = (s.link l).state) ∧
      (flitOk d f = true → Flit.nak f = true → (t.link l).replays = satInc 32 (s.link l).replays ∧
        ((t.link l).dir (1 - dir)).toReplay = ((t.link l).dir (1 - dir)).buffer.length)

/-- R11, R12: retraining ends with the lanes replaced by spares, or with the link down for good; a ninth retraining within
1 s, a failed one, or a lane without a spare declares it down. -/
def Claims.RetrainingEnds : Prop := ∀ (s : State) (l fail0 fail1 : Nat) (ok : Bool) (time : Nat),
  l < 24 → (s.link l).state = .retraining →
  let short := decide (Config.spareLanes < (s.link l).d0.sparesUsed + fail0 ∨
    Config.spareLanes < (s.link l).d1.sparesUsed + fail1)
  let often := decide (8 < ((s.link l).retrainTimes.filter (fun t => decide (time < t + 1000000000))).length)
  ((ok = true ∧ short = false ∧ often = false) → Answers (.retrainComplete l fail0 fail1 ok time) s fun t => OnlyLink l s t ∧
    (t.link l).d0.sparesUsed = (s.link l).d0.sparesUsed + fail0 ∧
    (t.link l).d1.sparesUsed = (s.link l).d1.sparesUsed + fail1 ∧
    (t.link l).d0.expSeq = (s.link l).d0.expSeq ∧ (t.link l).d1.expSeq = (s.link l).d1.expSeq ∧
    (t.link l).state = if (t.link l).d0.sparesUsed = 0 ∧ (t.link l).d1.sparesUsed = 0 then .up else .spared) ∧
  ((ok = false ∨ short = true ∨ often = true) → Answers (.retrainComplete l fail0 fail1 ok time) s fun t =>
    (t.link l).state = .down ∧ (t.link l).downDue = true ∧ (∀ j, j ≠ l → t.link j = s.link j) ∧
    (∀ p ∈ t.posted, l ∉ p.way) ∧ t.mem = s.mem)

/-- Flits are accepted in order; retraining ends in spares or a link that is down: the parts FlitsAcceptedInOrder,
RetrainingEnds. -/
def Obligations.LinksAcceptAndRetrain : Prop :=
  Claims.FlitsAcceptedInOrder ∧ Claims.RetrainingEnds

/-- R230 to R232: a window hands out exactly 64 slots; plant I/O has its own first, at most 4, and management 2 before the
floors; where the floors fit, every master gets the smaller of its floor and its demand; only an LPDDR5X port gives slots to a
scrubber. Only that arbiter changes. -/
def Claims.ArbitrationHandsOutEverySlot : Prop := ∀ (s : State) (d : Nat) (w : Demand), d < 50 →
  Answers (.arbitrationWindow d w) s fun t =>
    let a := tget {} t.arb d
    a.plant + a.mgmt + (a.floor.map (·.2)).sum + (a.imp.map (·.2)).sum + (a.mar.map (·.2)).sum + a.scrub + a.idle = 64 ∧
    (d < 48 → a.scrub = 0) ∧ a.plant = min w.plant 4 ∧ min w.mgmt 2 ≤ a.mgmt ∧ a.mgmt ≤ w.mgmt ∧
    (((List.range 9).map (s.floor d)).sum ≤ 58 →
      ∀ m, m < 9 → tget 0 a.floor m = min (s.floor d m) (tget 0 w.imp m + tget 0 w.mar m)) ∧
    (∀ j, j ≠ d → tget {} t.arb j = tget {} s.arb j) ∧ t = { s with arb := t.arb }

/-- R18, R23, R29, R30, R232: a scrubber takes a slot of its Ink die's LPDDR5X port. A corrected error is counted for its
memory; an uncorrectable one poisons its unit and is told to the supervisor; in the supervisor region of a stock it is a
machine check too. No byte changes. -/
def Claims.ScrubbersReport : Prop := ∀ s : State,
  (∀ k off recovers, s.scrubOpen k = true → k < 2 → off < 0x2000000 → off % 8 = 0 →
    let u := s.takeScrub k
    (tget {} u.arb (48 + k)).scrub + 1 = (tget {} s.arb (48 + k)).scrub ∧
    exec (.stockScrub k off .clean recovers) s = .next u ∧
    exec (.stockScrub k off .corrected recovers) s =
      .next { u with memStat := { s.memStat with stCorr := satInc 32 s.memStat.stCorr } } ∧
    (stockBase k + off ∉ s.poison → Answers (.stockScrub k off .uncorrectable recovers) s fun t =>
      t.poison = s.poison ++ [stockBase k + off] ∧ t.memStat.stUncorr = satInc 32 s.memStat.stUncorr ∧
      t.memStat.lastBad = stockBase k + off ∧ t.mem = s.mem ∧ t.arb = u.arb ∧
      (∃ e : Rec, e.kind = 0x08 ∧ t.out = s.out ++ [.superEvent e] ++ (if off < 0x80000 then [.machineCheck k] else [])))) ∧
  (∀ a, s.scrubOpen (a / lpWindow) = true → s.isLp a = true → a % 64 = 0 →
    let u := s.takeScrub (a / lpWindow)
    exec (.lpddr5xPatrol a .clean) s = .next u ∧
    exec (.lpddr5xPatrol a .corrected) s =
      .next { u with memStat := { s.memStat with lpCorr := satInc 32 s.memStat.lpCorr } } ∧
    (a ∉ s.poison → Answers (.lpddr5xPatrol a .uncorrectable) s fun t =>
      t.poison = s.poison ++ [a] ∧ t.memStat.lpUncorr = satInc 32 s.memStat.lpUncorr ∧ t.mem = s.mem ∧ t.arb = u.arb ∧
      ∃ e : Rec, e.kind = 0x08 ∧ t.out = s.out ++ [.superEvent e]))

/-- R22, R26, R27: a posted write of whole units lands: its bytes read back, every other byte stays, the units it covers are
clean. A shorter one that meets a poisoned unit changes no byte and is a late failure of cause 1 (R246). -/
def Claims.PostedWritesLand : Prop := ∀ (s : State) (i a : Nat) (p : Posted) (e : Ecc),
  s.posted[i]? = some p → postedReady s i = true → p.target = .dev a →
  (∀ l ∈ p.way, (s.link l).state ≠ .down) →
  (partialUnits a p.bytes.length = [] → Answers (.postedWriteComplete i e) s fun t =>
    t.posted = s.posted.eraseIdx i ∧
    (∀ k, k < p.bytes.length → inKeep (a + k) = false → t.rd (a + k) = p.bytes.getD k 0) ∧
    (∀ b, b < a ∨ a + p.bytes.length ≤ b → t.rd b = s.rd b) ∧
    (∀ u ∈ t.poison, ¬ (a ≤ u ∧ u + eccUnit u ≤ a + p.bytes.length)) ∧ t.host = s.host ∧ SameSystem s t) ∧
  (p.gone = none → (s.ctx p.c).late.valid = false → (∃ u ∈ partialUnits a p.bytes.length, u ∈ s.poison) →
    Answers (.postedWriteComplete i e) s fun t =>
      t.posted = s.posted.eraseIdx i ∧ t.mem = s.mem ∧ (t.ctx p.c).late.valid = true ∧
      (t.ctx p.c).late.cause = 1 ∧ (t.ctx p.c).late.q = p.q ∧ (t.ctx p.c).late.caddr = p.caddr ∧
      (t.ctx p.c).late.daddr = a ∧ SameSystem s t)

/-- Arbitration windows, memory scrubbers and posted writes: the parts ArbitrationHandsOutEverySlot, ScrubbersReport,
PostedWritesLand. -/
def Obligations.ArbitrationScrubbersAndWrites : Prop :=
  Claims.ArbitrationHandsOutEverySlot ∧ Claims.ScrubbersReport ∧ Claims.PostedWritesLand

/-- R55: no command but a tick changes an output's active value, from the first tick to the next reset. G0's writing of the
Gauge dies stands before the first tick (R378). -/
def Obligations.OutputsChangeOnlyAtTicks : Prop := ∀ (c : Instr) (s t : State), exec c s = .next t →
  s.boot.ticked = true → t.boot.ticked = true →
  match c with
  | .tick _ _ => True
  | .holdTickRestart _ _ => True
  | .firstTick _ _ => True
  | .gaugeDiesWritten => True
  | _ => ∀ d o, (t.output d o).act = (s.output d o).act ∧ (t.output d o).actSafe = (s.output d o).actSafe

/-- R54, R56, R58, R59, R294, R295, R298: the pending value of every output of a provisioned Gauge die, the odd channel of a
pair taking the even one's. A rule that asks for the safe value wins; then an overrun, an unreadable staging block or a poisoned entry gives the output's own overrun action; then
the staged value counts; an output that nothing stages keeps its active value. No active value changes; no byte outside the
staging blocks changes. -/
def Claims.SafeWinsAtPreparation : Prop := ∀ s : State, s.inPhase .guardPhase = true → s.frame.prepared = false →
  Answers .outputPreparation s fun t =>
    t.frame.prepared = true ∧ t.frame.phase = .guardPhase ∧ t.frame.counter = s.frame.counter ∧
    (∀ d o, (t.output d o).act = (s.output d o).act ∧ (t.output d o).actSafe = (s.output d o).actSafe) ∧
    (∀ a, (∀ k d, k < 2 → d < 2 → a < stagingAddr k d ∨ stagingAddr k d + 320 ≤ a) → t.rd a = s.rd a) ∧
    ∀ d o, d < 2 → o < 20 → (s.gauge d).written = true →
      let p := s.valueFrom d o
      let safe : Prop := (t.output d o).pend = s.safeValue d p ∧ (t.output d o).pendSafe = true
      let kept : Prop := (t.output d o).pend = (s.output d o).act ∧ (t.output d o).pendSafe = false
      let ovr := (s.ten (s.outputTenant d p)).overran
      let bad := s.blockBad d 0 || s.blockBad d 1
      let poison := match s.stagedFor d p with | some e => e.poison | none => false
      (s.forcedSafe d p = true → safe) ∧
      (s.forcedSafe d p = false → (ovr = true ∨ bad = true ∨ poison = true) →
        (s.actionSafe d p = true → safe) ∧ (s.actionSafe d p = false → kept)) ∧
      (s.forcedSafe d p = false → ovr = false → bad = false → poison = false →
        (s.stagedFor d p = none → kept) ∧
        (∀ e, s.stagedFor d p = some e → (t.output d o).pend = e.v ∧ (t.output d o).pendSafe = false))

/-- R59, R40, R58, R186, R288: what puts an output at its safe value whatever was staged. -/
def Claims.WhatForcesSafe : Prop := ∀ (s : State) (d o : Nat),
  (s.frame.tickState = .fallbackSafe ∨ s.frame.tickState = .fallbackHold ∨ s.boot.dev = .limp ∨
    (s.ten (s.outputTenant d o)).latch = true ∨ s.outputTenant d o = 0xFF ∨
    s.outputTenant d o ∈ s.frame.resetTenants ∨ s.frame.allSafe = true ∨ s.linkDown (22 + d) = true) →
  s.forcedSafe d o = true

/-- The pending value of every output, the safe value first: the parts SafeWinsAtPreparation, WhatForcesSafe. -/
def Obligations.SafeWinsAtPreparation : Prop :=
  Claims.SafeWinsAtPreparation ∧ Claims.WhatForcesSafe

/-- R291, R293: an encoder edge counts by one modulo 2^31, an index pulse stores the count and sets INDEX, an error sets
ERROR. Only that interface changes. -/
def Claims.EncodersCount : Prop := ∀ (s : State) (d i : Nat), posThere s d i = true →
  let only (t : State) : Prop := OnlyGauge d s t ∧ (∀ j, j ≠ i → t.pos d j = s.pos d j) ∧
    (∀ o, t.output d o = s.output d o) ∧ (∀ c, t.sd d c = s.sd d c)
  (s.posMode d i = 1 → Answers (.encoderEdge d i true) s fun t => only t ∧
    t.pos d i = { s.pos d i with count := (s.pos d i).count + 1 }) ∧
  (s.posMode d i = 1 → Answers (.encoderEdge d i false) s fun t => only t ∧
    t.pos d i = { s.pos d i with count := (s.pos d i).count - 1 }) ∧
  (s.posMode d i = 1 → Answers (.encoderIndex d i) s fun t => only t ∧
    t.pos d i = { s.pos d i with indexPos := ((s.pos d i).count.toNat : Int), index := true }) ∧
  (s.posMode d i ≠ 0 → Answers (.positionError d i) s fun t => only t ∧
    (t.pos d i).error = true ∧ (t.pos d i).count = (s.pos d i).count)

/-- R290, R293, R46: what a channel latches at a tick: a full filter's clamped code with OVERRANGE where it was clamped, no
sample while the filter fills or the channel is disabled; no position while ERROR stands, and counting from 0 at the tick
where a re-arm acts. -/
def Claims.ChannelsLatch : Prop :=
  (∀ (x : SdCh) (ratio bits : Nat) (v : Int), x.ratio = ratio → 3 * ratio ≤ x.bits + bits →
    (x.latch true ratio bits v).latched = clampS 24 v ∧ (x.latch true ratio bits v).valid = true ∧
    ((x.latch true ratio bits v).overrange = true ↔ clampS 24 v ≠ v)) ∧
  (∀ (x : SdCh) (ratio bits : Nat) (v : Int), x.ratio = ratio → x.bits + bits < 3 * ratio →
    (x.latch true ratio bits v).latched = noSample ∧ (x.latch true ratio bits v).valid = false) ∧
  (∀ (x : SdCh) (ratio bits : Nat) (v : Int), (x.latch false ratio bits v).latched = noSample ∧
    (x.latch false ratio bits v).valid = false) ∧
  (∀ (x : PosIf) (res : Nat), x.error = false → (x.latch 1 res).latched = (x.count.toNat : Int) ∧ 0 ≤ (x.latch 1 res).latched ∧
    (x.latch 1 res).latched < 2 ^ 31) ∧
  (∀ (x : PosIf) (mode res : Nat), x.error = true → (x.rearm && x.cleared) = false → (x.latch mode res).latched = noSample) ∧
  ∀ (x : PosIf) (res : Nat), x.error = true → x.rearm = true → x.cleared = true →
    (x.latch 1 res).latched = 0 ∧ (x.latch 1 res).error = false ∧ (x.latch 1 res).count = 0

/-- Encoders count; sigma-delta and position channels latch at the tick: the parts EncodersCount, ChannelsLatch. -/
def Obligations.ChannelsCountAndLatch : Prop :=
  Claims.EncodersCount ∧ Claims.ChannelsLatch

/-- R296, R297: a carrier period applies the channel's active value: below 0 counts as 0, above the period as the period, a
too short pulse becomes 0 and a too short gap full on; its edges then come one by one. Only that channel changes. -/
def Claims.PwmCarriers : Prop := ∀ (s : State) (d c : Nat),
  let only (t : State) : Prop := OnlyGauge d s t ∧ (∀ j, j ≠ c → t.pwm d j = s.pwm d j) ∧
    (∀ o, t.output d o = s.output d o) ∧ (∀ k, t.load d k = s.load d k)
  let v := (s.output d c).act
  let period := s.carrierPeriod d c
  let least := s.atReset (gPwm d c) 7
  (carrierReady s d c = true → Answers (.carrierPeriodStart d c) s fun t => only t ∧
    (t.pwm d c).carrier = (s.pwm d c).carrier + 1 ∧ (t.pwm d c).onTime ≤ period ∧
    (v ≤ 0 → (t.pwm d c).onTime = 0) ∧ ((period : Int) ≤ v → least ≤ period → (t.pwm d c).onTime = period) ∧
    (0 < v → v < least → v < period → (t.pwm d c).onTime = 0) ∧
    ((least : Int) ≤ v → v ≤ period → least ≤ period - v → (t.pwm d c).onTime = v.toNat) ∧
    ((least : Int) ≤ v → v < period → period - v < least → (t.pwm d c).onTime = period)) ∧
  (∀ e rest, d < 2 → c < 12 → (s.pwm d c).plan = e :: rest → Answers (.pwmPulseEdge d c) s fun t => only t ∧
    t.pwm d c = { s.pwm d c with on := e.2.1, lowOn := e.2.2, plan := rest })

/-- R299 to R302: a period takes the active value as its on-time; a turn-off ends the pulse; a sample at a threshold is a
fault, and latch-off turns the channel off for good; the on-state and the probe windows give their results. Only that channel
changes. -/
def Claims.LoadControl : Prop := ∀ (s : State) (d k mv : Nat),
  let only (t : State) : Prop := OnlyGauge d s t ∧ (∀ j, j ≠ k → t.load d j = s.load d j) ∧
    (∀ o, t.output d o = s.output d o) ∧ (∀ c, t.pwm d c = s.pwm d c)
  let x := s.load d k
  (loadPeriodReady s d k = true → s.lowDuty d k ≠ 2 → Answers (.loadPeriodStart d k) s fun t => only t ∧
    (t.load d k).onTime = (s.output d (12 + k)).act.toNat ∧ (t.load d k).start = s.tickTime ∧
    (t.load d k).running = true ∧ (t.load d k).result = .notDiagnosed ∧
    (t.load d k).on = (decide (0 < (s.output d (12 + k)).act) && !x.latched)) ∧
  (loadOffReady s d k = true → Answers (.loadTurnOff d k) s fun t => only t ∧
    (t.load d k).on = false ∧ (t.load d k).onTime = x.onTime ∧ (t.load d k).result = x.result) ∧
  (loadReadyD s d k = true → x.on = true → x.result = .notDiagnosed →
    (s.faultTh d k ≤ mv → Answers (.overcurrentDetect d k mv) s fun t => only t ∧ (t.load d k).result = .switchFault ∧
      (s.atReset (gLoad d k) 0x0B = 1 → (t.load d k).latched = true ∧ (t.load d k).on = false) ∧
      (s.atReset (gLoad d k) 0x0B ≠ 1 → (t.load d k).latched = x.latched ∧ (t.load d k).on = true)) ∧
    (mv < s.faultTh d k → s.overTh d k ≤ mv → Answers (.overcurrentDetect d k mv) s fun t => only t ∧
      (t.load d k).result = .overcurrent)) ∧
  (loadReadyD s d k = true → x.running = true → x.on = true → diagTime ≤ x.onTime → x.windowDone = false →
    Answers (.onStateDiagnosis d k mv) s fun t => only t ∧ (t.load d k).windowDone = true ∧
      (x.result.isFault = true → (t.load d k).result = x.result) ∧
      (x.result.isFault = false →
        (t.load d k).result = if mv < s.atTick (gLoad d k) 8 then .open else .goodOn)) ∧
  (loadReadyD s d k = true → x.probing = true → Answers (.probeDiagnosis d k mv) s fun t => only t ∧
    (t.load d k).probing = false ∧
    (t.load d k).result = if s.atTick (gLoad d k) 0x0C ≤ mv then .open else .goodOff)

/-- PWM carriers and load-control channels apply the active value: the parts PwmCarriers, LoadControl. -/
def Obligations.PwmAndLoadControl : Prop :=
  Claims.PwmCarriers ∧ Claims.LoadControl

/-- R326 to R328, R309: a configuration that every check accepts leaves the die HELD with its bitstream, its flip-flops at their
initial values, and waiting for release; one
that fails leaves it UNCONFIGURED with the number of the check. Either way every well holds its initial contents, or zero, and
no byte outside the die's wells changes. -/
def Obligations.ConfigurationLoads : Prop := ∀ (s : State) (m : Nat) (ok : Bool) (b : Bitstream),
  m < 4 → (s.fab m).die = .configuring → (s.fab m).copy = some b →
  Answers (.configurationLoadComplete m ok) s fun t =>
    (s.loadResult b ok = 0 → (t.fab m).die = .held ∧ (t.fab m).result = 0 ∧ (t.fab m).bs = some b ∧
      (t.fab m).releaseDue = true ∧ (t.fab m).rel = 0 ∧ (t.fab m).ffs = b.ffInit ∧ (t.fab m).cellMem = b.memInit ∧
      (tsorted b.wells = true → ∀ a, a < 0x800000 → t.rd (wellBaseOf m + a) = tget 0 b.wells a)) ∧
    (s.loadResult b ok ≠ 0 → (t.fab m).die = .unconfigured ∧ (t.fab m).result = s.loadResult b ok ∧ (t.fab m).bs = none ∧
      (t.fab m).desc = 0 ∧ ∀ a, a < 0x800000 → t.rd (wellBaseOf m + a) = 0) ∧
    (t.fab m).resetsOn = true ∧ (t.fab m).enables = false ∧ (t.fab m).padsOn = false ∧
    (∀ a, a < wellBaseOf m ∨ wellBaseOf m + 0x800000 ≤ a → t.rd a = s.rd a) ∧
    (∀ j, j ≠ m → t.fab j = s.fab j) ∧ SameSystem s t

/-- R330, R334: the release of a HELD die goes in three stages from a tick: pads, then write enables, then resets released and
the die RUNNING. R329: a copy that is read starts the load of a boot slot, and waits for GUARD where it was asked for later.
Only that die changes. -/
def Obligations.ReleaseStages : Prop := ∀ (s : State) (m : Nat),
  (stage1Ready s m = true → Answers (.releaseStage1 m) s fun t => OnlyFab m s t ∧
    (t.fab m).die = .releasing ∧ (t.fab m).rel = 1 ∧ (t.fab m).padsOn = true ∧
    (t.fab m).enables = (s.fab m).enables ∧ (t.fab m).resetsOn = (s.fab m).resetsOn) ∧
  (stage2Ready s m = true → Answers (.releaseStage2 m) s fun t => OnlyFab m s t ∧
    (t.fab m).rel = 2 ∧ (t.fab m).enables = true ∧ (t.fab m).resetsOn = (s.fab m).resetsOn) ∧
  (m < 4 → (s.fab m).rel = 2 → Answers (.releaseStage3 m) s fun t => OnlyFab m s t ∧
    (t.fab m).rel = 3 ∧ (t.fab m).die = .running ∧ (t.fab m).resetsOn = false ∧ (t.fab m).restarting = false) ∧
  (∀ slot b, copyReady s m slot = true → Answers (.bitstreamCopyComplete m slot b) s fun t => OnlyFab m s t ∧
    (s.bootCopyDue m slot = true → (t.fab m).die = .configuring ∧ (t.fab m).copy = some b) ∧
    (s.bootCopyDue m slot = false → (t.fab m).newCopy = some b ∧ (t.fab m).die = (s.fab m).die ∧
      (t.fab m).bs = (s.fab m).bs))

/-- R332 to R334: the scan goes stripe by stripe and starts again after the last; a corrected and an uncorrectable stripe are
counted; the latter is told to the supervisor, and RESTART asks for the resets of the next GUARD. The configuration itself and
the wells stay. -/
def Obligations.ConfigurationScrubs : Prop := ∀ (s : State) (m : Nat), scrubReady s m = true →
  let next (t : State) : Prop :=
    ((s.fab m).stripe + 1 < stripeCount → (t.fab m).stripe = (s.fab m).stripe + 1 ∧
      (t.fab m).demanded = (s.fab m).demanded) ∧
    (stripeCount ≤ (s.fab m).stripe + 1 → (t.fab m).demanded = false ∧
      (t.fab m).stripe = (if (s.fab m).demanded = true then (s.fab m).resumeStripe else 0)) ∧
    (t.fab m).bs = (s.fab m).bs ∧ (t.fab m).die = (s.fab m).die ∧ t.mem = s.mem ∧ ∀ j, j ≠ m → t.fab j = s.fab j
  Answers (.configurationScrub m .clean) s (fun t => next t ∧ (t.fab m).corrected = (s.fab m).corrected ∧
    (t.fab m).rewritten = (s.fab m).rewritten ∧ t.out = s.out) ∧
  Answers (.configurationScrub m .corrected) s (fun t => next t ∧
    (t.fab m).corrected = satInc 32 (s.fab m).corrected ∧ (t.fab m).rewritten = (s.fab m).rewritten ∧ t.out = s.out) ∧
  Answers (.configurationScrub m .uncorrectable) s fun t => next t ∧
    (t.fab m).rewritten = satInc 32 (s.fab m).rewritten ∧ (t.fab m).corrected = (s.fab m).corrected ∧
    (t.fab m).restartDue = ((s.fab m).restartDue || decide (s.val (0x6001 + m) 6 = 1)) ∧ t.out = s.out ++ [.fabricUpset m]

/-- R312, R314: the hard well bus. A bus write wins over a port A write of the same word in the same cycle; a bus read
returns the contents before that write; a well that the bus does not reach answers UNMAPPED and is not written by it. -/
def Claims.WellBusAndPortA : Prop := ∀ (s : State) (m w a : Nat) (v : Byte) (portA : Option (Nat × BitVec 72)),
  m < 4 → w < 1024 → a < 8192 →
  let addr := wellBaseOf m + w * 8192 + a
  (s.busWell m w = true → (∀ e, portA = some e → s.portAHits m w a e.1 = true) →
    Answers (.wellBusAccess m w a true v portA false) s fun t => t.rd addr = v ∧
      (∀ b, b ≠ addr → t.rd b = s.rd b) ∧ t.out = s.out ++ [.wellBus m w a false false v] ∧ SameSystem s t) ∧
  (s.busWell m w = true → (∀ b, (s.fab m).bs = some b → w ∉ b.parity) →
    Answers (.wellBusAccess m w a false v portA false) s fun t =>
      t.out = s.out ++ [.wellBus m w a false false (s.rd addr)] ∧ (portA = none → t.mem = s.mem) ∧ SameSystem s t) ∧
  (s.busWell m w = false → ∀ write, Answers (.wellBusAccess m w a write v portA false) s fun t =>
    t.out = s.out ++ [.wellBus m w a true false 0] ∧ (portA = none → t.mem = s.mem) ∧ SameSystem s t)

/-- R315, R316: a FIFO takes words while it is not full and gives them back in order; a write while FULL is discarded with
OVERFLOW; a read while EMPTY answers the last word again with UNDERFLOW; a clear lowers both flags. `lag` 0: the flags have
caught up. -/
def Claims.CollarsKeepOrder : Prop := ∀ (s : State) (m w : Nat) (v : BitVec 72), m < 4 → s.isFifo m w = true →
  let x := s.collar m w
  (x.words.length < s.fifoDepth m w → Answers (.fifoWrite m w v 0) s fun t => OnlyFab m s t ∧
    (t.collar m w).words = x.words ++ [v] ∧ (t.collar m w).overflow = x.overflow ∧
    (t.collar m w).full = decide (s.fifoDepth m w ≤ x.words.length + 1)) ∧
  (s.fifoDepth m w ≤ x.words.length → Answers (.fifoWrite m w v 0) s fun t => OnlyFab m s t ∧
    (t.collar m w).words = x.words ∧ (t.collar m w).overflow = true ∧ (t.collar m w).full = true) ∧
  (∀ u rest, x.words = u :: rest → Answers (.fifoRead m w 0) s fun t =>
    (t.collar m w).words = rest ∧ (t.collar m w).lastWord = u ∧ (t.collar m w).underflow = x.underflow ∧
    (∀ j, j ≠ w → t.collar m j = s.collar m j) ∧ t.mem = s.mem ∧ SameSystem s t) ∧
  (x.words = [] → s.collarSet m w (·.credit) = 0 → Answers (.fifoRead m w 0) s fun t => OnlyFab m s t ∧
    (t.collar m w).words = [] ∧ (t.collar m w).lastWord = x.lastWord ∧ (t.collar m w).underflow = true) ∧
  Answers (.collarClear m w) s fun t => OnlyFab m s t ∧
    t.collar m w = { x with overflow := false, underflow := false }

/-- R324, R325: taps and lanes hold what their events say; nothing but the die changes. -/
def Claims.TapsAndLanes : Prop := ∀ (s : State) (m : Nat), m < 4 →
  (∀ pad taps, pad < 96 → (s.fab m).bs.isSome = true →
    Answers (.tapLoad m pad true taps) s (fun t => OnlyFab m s t ∧ tget 0 (t.fab m).tapIn pad = taps ∧
      (t.fab m).tapOut = (s.fab m).tapOut ∧ ∀ j, j ≠ pad → tget 0 (t.fab m).tapIn j = tget 0 (s.fab m).tapIn j) ∧
    Answers (.tapLoad m pad false taps) s fun t => OnlyFab m s t ∧ tget 0 (t.fab m).tapOut pad = taps ∧
      (t.fab m).tapIn = (s.fab m).tapIn ∧ ∀ j, j ≠ pad → tget 0 (t.fab m).tapOut j = tget 0 (s.fab m).tapOut j) ∧
  (∀ l rate, l < 16 → s.laneSerial m l = true → (s.lane m l).state ≠ 2 →
    Answers (.serialLaneLocked m l rate) s fun t => OnlyFab m s t ∧ (t.lane m l).state = 2 ∧ (t.lane m l).rate = rate ∧
      ∀ j, j ≠ l → t.lane m j = s.lane m j) ∧
  (∀ l, l < 16 → (s.lane m l).state = 2 → Answers (.serialLaneUnlocked m l) s fun t => OnlyFab m s t ∧
    (t.lane m l).state = 1 ∧ (t.lane m l).rate = (s.lane m l).rate ∧ ∀ j, j ≠ l → t.lane m j = s.lane m j)

/-- R309: a flip-flop keeps its value but at an edge of its clock; there it takes its initial value under reset, and its input
where its clock enable is high; an asynchronous reset acts without an edge. A six-input table answers the bit its inputs
address; a cell used as RAM writes the bit they address, a shift register moves its bits up. That a reset goes before an enable
is log 100's choice. -/
def Claims.UserLogicClocks : Prop :=
  (∀ (x : FlipFlop) (v : Wire → Bool) (rise q : Bool),
    (x.async = true → v x.reset = true → x.next v rise q = x.init) ∧
    ((x.async = false ∨ v x.reset = false) → rise = false → x.next v rise q = q) ∧
    (v x.reset = true → rise = true → x.next v rise q = x.init) ∧
    (v x.reset = false → rise = true → x.next v rise q = if v x.enable = true then v x.d else q)) ∧
  (∀ (x : Cell) (t mem : BitVec 64) (ins : List Bool) (carry second : Bool), x.kind = .lut6 t → ins.length = 6 →
    inIndex ins < 64 ∧ x.output mem ins carry second = t.getLsbD (inIndex ins)) ∧
  ∀ (x : Cell) (v : Wire → Bool) (mem : BitVec 64), x.ins.length ≤ 6 →
    ((v x.write = false → x.nextMem v true mem = mem) ∧ x.nextMem v false mem = mem) ∧
    (∀ i0 k, x.kind = .ram i0 → v x.write = true → k < 64 →
      (x.nextMem v true mem).getLsbD k = if k = inIndex (x.ins.map v) then v x.data else mem.getLsbD k) ∧
    ∀ i0 k, x.kind = .shift i0 → v x.write = true → k < 32 →
      (x.nextMem v true mem).getLsbD k = if k = 0 then v x.data else mem.getLsbD (k - 1)

/-- The well bus, collars in FIFO mode, taps and serial lanes, the cells of user logic: the parts WellBusAndPortA,
CollarsKeepOrder, TapsAndLanes, UserLogicClocks. -/
def Obligations.WellsCollarsAndLanes : Prop :=
  Claims.WellBusAndPortA ∧ Claims.CollarsKeepOrder ∧ Claims.TapsAndLanes ∧ Claims.UserLogicClocks

/-- R339, R340: a rail's figure above its limit holds its margin work and one below 95 % of the limit lifts the hold; a single
figure above the absolute limit asks for nothing. R341: the second in a row, or a lost regulation, puts the device outside its
operating conditions and asks for a warm reset with cause 6. -/
def Claims.RailsMeasured : Prop := ∀ (s : State) (r figure : Nat) (lost : Bool),
  1 ≤ r → r ≤ 19 → s.boot.started = true →
  let x := s.rail r
  let common (t : State) : Prop := (t.rail r).figure = figure ∧
    (∀ l, s.railLimit r = some l → (l < figure → (t.rail r).held = true) ∧
      (100 * figure < 95 * l → (t.rail r).held = false) ∧
      (figure ≤ l → 95 * l ≤ 100 * figure → (t.rail r).held = x.held)) ∧
    (s.railLimit r = none → (t.rail r).held = false) ∧ ∀ j, j ≠ r → t.rail j = s.rail j
  (lost = false → (x.overOnce = false ∨ figure ≤ Config.fusedAbsolute r) →
    Answers (.railMeasurementUpdate r figure lost) s fun t => OnlyPower s t ∧ common t ∧
      t.power.outside = s.power.outside ∧ t.power.warmDue = s.power.warmDue) ∧
  ((lost = true ∨ (x.overOnce = true ∧ Config.fusedAbsolute r < figure)) →
    Answers (.railMeasurementUpdate r figure lost) s fun t => common t ∧ t.power.outside = true ∧
      (s.frame.ticking = true → s.frame.phase ≠ .guardPhase → t.boot.warmReq = some (s.boot.warmReq.getD 6)) ∧
      (s.frame.ticking = true → s.frame.phase = .guardPhase → t.power.warmDue = some (s.power.warmDue.getD 6)))

/-- R355: a die over its temperature puts the device outside its conditions, holds the start-up until it has cooled, and asks
for a warm reset with cause 7. R343: a die stretches and recovers; R349: where raising has stopped, a window's boundary lets it
begin again with the count at 0. -/
def Claims.HeatAndDroop : Prop := ∀ (s : State) (die : Nat),
  (die < 20 → s.boot.started = true → Answers (.overTemperature die) s fun t => t.boot.heldHot = true ∧
    t.power.outside = true ∧ (s.frame.ticking = true → s.frame.phase ≠ .guardPhase →
      t.boot.warmReq = some (s.boot.warmReq.getD 7)) ∧ t.frame = s.frame ∧ t.mem = s.mem) ∧
  (s.boot.heldHot = true → Answers .overTemperatureClear s fun t => OnlyBoot s t ∧ t.boot.heldHot = false) ∧
  (stretches die = true → s.boot.started = true → Answers (.droopDetect die) s fun t => OnlyPower s t ∧
    tget false t.power.stretched die = true ∧ t.power.step = s.power.step ∧
    (∀ j, j ≠ die → tget false t.power.stretched j = tget false s.power.stretched j) ∧
    (die = 14 → s.frame.phase = .guardPhase → s.frame.freqDone = false → t.power.droopInGuard = true)) ∧
  (tget false s.power.stretched die = true → Answers (.droopRecover die) s fun t => OnlyPower s t ∧
    tget false t.power.stretched die = false ∧ t.power.droopInGuard = s.power.droopInGuard) ∧
  (s.frame.ticking = true → s.power.raisingStopped = true → Answers .averagingWindowBoundary s fun t => OnlyPower s t ∧
    t.power.raisingStopped = false ∧ t.power.cancels = 0 ∧ t.power.step = s.power.step) ∧
  (s.power.raisingStopped = false → exec .averagingWindowBoundary s = .next s)

/-- Rail measurements, over-temperature, droop and the averaging window: the parts RailsMeasured, HeatAndDroop. -/
def Obligations.RailsHeatAndDroop : Prop :=
  Claims.RailsMeasured ∧ Claims.HeatAndDroop

/-- R346, R348 to R350: the switch. A lowering proceeds whatever the droop detectors report; a raise that a droop met is
cancelled and counted, the eighth stops raising; a raise on a settled rail goes one step up. -/
def Claims.FrequencySwitches : Prop := ∀ (s : State) (ready : Bool), switchReady s = true →
  Answers (.frequencySwitch ready) s fun t => t.frame.freqDone = true ∧ t.power.plan = .none ∧ t.boot = s.boot ∧
    t.power.position = s.power.position ∧ t.mem = s.mem ∧
    (s.power.plan = .lower → t.power.step = max 4 (s.power.step - 1) ∧ t.power.cancels = s.power.cancels) ∧
    (s.power.plan = .raise → s.power.position = 0 → ready = true → s.power.droopInGuard = false →
      t.power.step = s.power.step + 1 ∧ t.power.cancels = 0) ∧
    (s.power.plan = .raise → s.power.position = 0 → ready = true → s.power.droopInGuard = true →
      t.power.step = s.power.step ∧ t.power.cancels = s.power.cancels + 1 ∧
      (8 ≤ s.power.cancels + 1 → t.power.raisingStopped = true)) ∧
    (s.power.plan = .raise → s.power.position ≠ 0 → t.power.step = s.power.step ∧ t.power.cancels = s.power.cancels) ∧
    (s.power.plan = .raise → s.power.planned ≠ .lower → s.power.position = 0 → ready = false →
      t.power.step = s.power.step ∧ t.power.planned = .raise ∧ t.power.cancels = s.power.cancels)

/-- R351, R353: the cut ladder moves at most one place a frame: down a place where the average exceeds the cap, back where it
falls below 98 % of it; at position p, 16 − p of every 16 margin slots are open. -/
def Claims.LadderMovesOneStep : Prop :=
  (∀ pos energy budget, pos ≤ 35 →
    (budget < energy → ladder pos energy budget = min (pos + 1) 35) ∧
    (energy ≤ budget → 98 * budget ≤ 100 * energy → ladder pos energy budget = pos) ∧
    (100 * energy < 98 * budget → ladder pos energy budget = pos - 1) ∧ ladder pos energy budget ≤ 35) ∧
  ∀ p n, p ≤ 14 → ((List.range 16).filter (fun i => slotOpenAt p (16 * n + i))).length = 16 - p

/-- The frequency switch and the cut ladder: the parts FrequencySwitches, LadderMovesOneStep. -/
def Obligations.FrequencyAndCutLadder : Prop :=
  Claims.FrequencySwitches ∧ Claims.LadderMovesOneStep

/-- R195, R196, R216, R237: CREATE with a good record, a verified copy of its bundle and room in the tenant's share makes the
lowest FREE number a CREATED context with COUNT 1 and the next generation, and answers number and generation; a reserved bit
is refused with nothing created. Nothing else changes. -/
def Claims.ContextsAreCreated : Prop :=
  ∀ (s : State) (via : Via) (h : BitVec 128) (r : BitVec 1024) (t copy c : Nat),
  s.viewOf via = .tenant t → s.awake = true → hdrCmd h = 1 → hdrReserved h = false →
  let x : Ctx := { record := r, via := via, tenant := t }
  let gen := (s.ctx c).gen + 1
  let word := c + gen.toNat * 2 ^ 16
  (recordReserved r = true →
    exec (.create via h r) s = .next (s.accepted.countAbort.answer via abReserved 0 0)) ∧
  (recordReserved r = false → recordOk x = true → (∀ q : Nat, q < 9 → x.qvec q < State.vecLimit via) →
    s.copyFor t x.bundleId = some copy → s.ctxCount t < s.share t 0x16 → s.freeCtx = some c →
    exec (.create via h r) s = .next ((((s.setCtx c
      { x with state := .created, gen := gen, count := 1, copy := copy, admitDue := bit r 181 }).modView (.tenant t)
        fun v => { v with created := BitVec.ofNat 32 word }).accepted).answer via 0 4 word))

/-- Tables 9-1 and 10-4, R195, R217, R219, R249: each command on an existing context is recorded for the next GUARD where the
state admits it, and answered; elsewhere it is aborted with 0x08000022 and nothing is recorded. A command on another tenant's
context is refused; one with a stale generation changes no context and is counted as ignored. -/
def Claims.ContextCommandsRecorded : Prop :=
  ∀ (s : State) (via : Via) (h : BitVec 128) (body : BitVec 96) (g : BitVec 8) (t : Nat),
  s.viewOf via = .tenant t → s.awake = true → hdrReserved h = false →
  let c := hdrCtx h
  let x := s.ctx c
  let ok (f : Ctx → Ctx) : Host.Outcome State Fault Refusal := .next ((s.modCtx c f).accepted.answer via 0 0 0)
  let no (a : Nat) : Host.Outcome State Fault Refusal := .next (s.accepted.countAbort.answer via a 0 0)
  let rows : List (Nat × Instr) := [(2, .admitCtx via h), (3, .invalidate via h body), (4, .releasePlate via h g),
    (5, .teardown via h), (6, .contextReset via h), (7, .ackLate via h)]
  (∀ e ∈ rows, hdrCmd h = e.1 →
    (x.state ≠ .free → x.tenant ≠ t → exec e.2 s = no abForeign) ∧
    ((x.state = .free ∨ (x.tenant = t ∧ x.gen ≠ hdrGen h)) →
      exec e.2 s = .next ((s.ignored t).accepted.answer via 0 0 0))) ∧
  (x.state ≠ .free → x.tenant = t → x.gen = hdrGen h →
    (hdrCmd h = 2 →
      (x.state = .created → exec (.admitCtx via h) s = ok fun y => { y with admitDue := true }) ∧
      (x.state ≠ .created → exec (.admitCtx via h) s = no abState)) ∧
    (hdrCmd h = 3 →
      (x.state ≠ .ending → fld body 15 0 = 0 → fld body 63 48 = 0 → exec (.invalidate via h body) s =
        ok fun y => { y with invalidates := y.invalidates ++ [(fld body 63 16 * 65536, fld body 95 64)] }) ∧
      (x.state = .ending → exec (.invalidate via h body) s = no abState)) ∧
    (hdrCmd h = 4 →
      (x.state = .admitted → g.toNat < 32 → (s.plate g.toNat).owner = some c → exec (.releasePlate via h g) s =
        ok fun y => { y with plateReleases := y.plateReleases ++ [g.toNat] }) ∧
      (x.state = .admitted → (s.plate g.toNat).owner ≠ some c → exec (.releasePlate via h g) s = no abRange) ∧
      (x.state ≠ .admitted → exec (.releasePlate via h g) s = no abState)) ∧
    (hdrCmd h = 5 →
      (x.state = .created ∨ x.state = .admitted ∨ (x.state = .ending ∧ x.deviceOwns = false) →
        exec (.teardown via h) s = ok fun y => { y with teardownDue := true }) ∧
      (x.state = .orphaned ∨ (x.state = .ending ∧ x.deviceOwns = true) → exec (.teardown via h) s = no abState)) ∧
    (hdrCmd h = 6 →
      (x.state = .created ∨ x.state = .admitted →
        exec (.contextReset via h) s = ok fun y => { y with resetDue := true }) ∧
      (x.state = .orphaned ∨ x.state = .ending → exec (.contextReset via h) s = no abState)) ∧
    (hdrCmd h = 7 →
      (x.state = .admitted → exec (.ackLate via h) s = ok fun y => { y with ackDue := true }) ∧
      (x.state ≠ .admitted → exec (.ackLate via h) s = no abState)))

/-- CREATE, and the commands on an existing context: the parts ContextsAreCreated, ContextCommandsRecorded. -/
def Obligations.ContextsAndTheirCommands : Prop :=
  Claims.ContextsAreCreated ∧ Claims.ContextCommandsRecorded

/-- R198, R199: a slot operation in GUARD restores an ADMITTED context into the lowest free slot, or saves a context that has
nothing running and takes its slot; either is counted. A saved context keeps its registers, counters and queues; no other
context and no memory changes. R179: a context that was evicted is admitted again by stages 5 and 6; that one which they
refuse stays saved, its tenant shown the word, is log 96's choice. -/
def Claims.SlotsSaveAndRestore : Prop := ∀ s : State, slotOpReady s = true →
  let countedFrom (u t : State) : Prop := t.slotOpsTotal = satInc 32 u.slotOpsTotal ∧
    t.frame = { u.frame with slotOps := u.frame.slotOps + 1 } ∧ t.mem = u.mem ∧
    t.ops = u.ops ∧ t.plates = u.plates ∧ t.net = u.net
  s.frame.slotOps < s.slotLimit ∧
  (∀ c n, s.nextSlotOp = some (.restore c n) → (s.ctx c).state = .admitted ∧ s.freeSlot = some n ∧
    ((s.ctx c).evicted = false → Answers .slotOperation s fun t =>
      t.ctx c = { s.ctx c with slot := some n } ∧ (∀ d, d ≠ c → t.ctx d = s.ctx d) ∧ (∀ e ∈ t.restores, e.2 ≠ c) ∧
      countedFrom s t) ∧
    ((s.ctx c).evicted = true →
      let r := ({ s with restores := s.restores.filter fun e => decide (e.2 ≠ c) } : State).admitCheck c
      (r.1 = none → Answers .slotOperation s fun t =>
        t.ctx c = { r.2.ctx c with slot := some n, evicted := false } ∧ (∀ d, d ≠ c → t.ctx d = r.2.ctx d) ∧
        t.restores = r.2.restores ∧ countedFrom r.2 t) ∧
      ∀ e, r.1 = some e → Answers .slotOperation s fun t =>
        (t.ctx c).slot = (r.2.ctx c).slot ∧ (t.ctx c).evicted = (r.2.ctx c).evicted ∧
        (t.ten (r.2.ctx c).tenant).lastRejection = e.word ∧ t.slotOpsTotal = r.2.slotOpsTotal ∧
        t.restores = r.2.restores)) ∧
  (∀ c, s.nextSlotOp = some (.save c) → Answers .slotOperation s fun t =>
    (s.ctx c).slot.isSome = true ∧ s.quiet c = true ∧ t.ctx c = { s.ctx c with slot := none, evicted := true } ∧
    (∀ d, d ≠ c → t.ctx d = s.ctx d) ∧ countedFrom s t)

/-- R238, R239, R243: a device reset is recorded for GUARD, the cause of the first one standing; a cold one beside it. A
tenant's own view, a session, or the supervisor's restart of its partition, asks for a tenant reset, which holds its floors (R231); any
other sender is refused and nothing is asked for. -/
def Claims.ResetsAreRequested : Prop := ∀ (s : State),
  (s.boot.started = true → s.frame.ticking = true →
    (∀ cause, exec (.warmResetRequest cause) s =
      .next (s.modBoot fun b => { b with warmReq := some (b.warmReq.getD cause) })) ∧
    exec .coldResetRequest s = .next (s.modBoot fun b => { b with coldReq := true })) ∧
  (∀ part t, part < 8 → s.awake = true → s.boot.dev ≠ .limp → s.tenantOf (.burin part) = some t →
    exec (.partitionRestart part) s = .next (s.modTen t fun x => { x with resetReq := true, floorsHeld := true })) ∧
  (∀ via t, t < 8 → s.served = true → s.up = true →
    (s.viewOf via = .tenant t → exec (.tenantResetRequest via t 1) s =
      .next ((s.modTen t fun x => { x with resetReq := true, floorsHeld := true }).accepted.answer via 0 0 0)) ∧
    (s.viewOf via = .supervisor → (s.mySession via).isSome = false →
      exec (.tenantResetRequest via t 1) s = .next (s.accepted.countAbort.answer via abView 0 0)) ∧
    (∀ x, s.net.session = some x → x.endpoint = via → exec (.tenantResetRequest via t 1) s =
      .next ((s.modTen t fun x => { x with resetReq := true, floorsHeld := true }).accepted.answer via 0 0 0)))

/-- Slot operations, and requests for device and tenant resets: the parts SlotsSaveAndRestore, ResetsAreRequested. -/
def Obligations.SlotsAndResetRequests : Prop :=
  Claims.SlotsSaveAndRestore ∧ Claims.ResetsAreRequested

/-- R239, R279: a Function Level Reset discards the function's request: its mailbox is IDLE with HST_MBX_VEC 0 and no
response; it sends nothing more until its GUARD. A physical function, or clearing VF Enable, covers the virtual functions as
well; every other function keeps its state. -/
def Obligations.FunctionLevelResets : Prop := ∀ (s : State) (port func : Nat) (vf : Bool),
  port < 2 → func < 16 → (vf = true → func = 0) →
  Answers (.functionLevelReset port func vf) s fun t =>
    (∀ f, f ∈ flrCovers func vf → (t.func port f).mbx = .idle ∧ (t.func port f).vec = 0 ∧ (t.func port f).rspHdr = 0 ∧
      (t.func port f).rspData = [] ∧ (t.func port f).blocked = true ∧ (t.func port f).resetReq = true ∧
      (t.func port f).unmasked = (s.func port f).unmasked ∧
      ∀ k, s.tenantOf (.pcie port f) = some k → (t.ten k).floorsHeld = true) ∧
    (∀ p f, p < 2 → f < 16 → ¬ (p = port ∧ f ∈ flrCovers func vf) → t.func p f = s.func p f) ∧
    (∀ x, s.net.session = some x → (∀ f, f ∈ flrCovers func vf → x.endpoint ≠ .pcie port f) → t.net.session = some x) ∧
    t.frame = s.frame ∧ t.mem = s.mem ∧ t.host = s.host ∧ t.obj = s.obj ∧ t.rwt = s.rwt ∧ t.out = s.out ∧
    t.boot = s.boot

/-- R177, R178, R180, R194: a bundle that passes the checks is kept as the last copy and its submitter told so; one that
fails leaves every copy as it was and its rejection word in 0x2108 of the tenant; an unbound sender changes nothing. -/
def Obligations.BundlesAreVerified : Prop := ∀ (s : State) (via : Via) (bytes : List Byte),
  (s.bellSender via = none → exec (.bundleSubmit via bytes) s = .next s) ∧
  (∀ t, s.bellSender via = some t →
    (∀ b, verify s t bytes = .ok b → Answers (.bundleSubmit via bytes) s fun u =>
      u = ({ s with bundles := s.bundles ++ [b] }).send (.bundle via 0) ∧ u.copyFor t b.id = some s.bundles.length ∧
      ∀ t' id, t' ≠ t → u.copyFor t' id = s.copyFor t' id) ∧
    (∀ e, verify s t bytes = .error e → exec (.bundleSubmit via bytes) s =
      .next ((s.modTen t fun x => { x with lastRejection := e.word }).send (.bundle via e.word)))) ∧
  (∀ t, bytes.length < 160 → ∃ e, verify s t bytes = .error e ∧ (e.code = 0x0901 ∨ e.code = 0x0902))

/-- R227: a configuration write masks or unmasks one entry, or sets Enable and Function Mask, or Enable Relaxed Ordering
(R250), and nothing else of the function; where the function is then enabled and not masked, and not under reset, the pending
messages of its unmasked entries are sent, each once and by its number, and otherwise they stay pending. R228: a 1 written
to a notification bit clears it and a 0 leaves it. R229: a partition reads its pending word and clears it. -/
def Obligations.NotificationPaths : Prop := ∀ (s : State),
  (∀ port func w, port < 2 → func < 16 → cfgFits w port func = true → Answers (.msixUnmask port func w) s fun t =>
    let f := s.func port func
    let g := t.func port func
    let goes (e : Nat) : Bool := g.msixEnable && !g.msixMask && !f.blocked && tget false g.unmasked e
    (∀ e, tget false g.unmasked e = match w with
      | .entry k masked => if e = k then !masked else tget false f.unmasked e
      | _ => tget false f.unmasked e) ∧
    (g.msixEnable, g.msixMask) = (match w with
      | .control enable mask => (enable, mask)
      | _ => (f.msixEnable, f.msixMask)) ∧
    g.relaxedOrdering = (match w with
      | .relaxed on => on
      | _ => f.relaxedOrdering) ∧
    (∀ e, e < 256 → tget false g.pendingBits e = (tget false f.pendingBits e && !goes e)) ∧
    t.out = s.out ++ ((List.range 256).filter fun e => tget false f.pendingBits e && goes e).map (.msix port func) ∧
    g.blocked = f.blocked ∧ g.mbx = f.mbx ∧ (∀ p k, ¬ (p = port ∧ k = func) → t.func p k = s.func p k) ∧
    t.mem = s.mem ∧ t.tenants = s.tenants ∧ t.frame = s.frame) ∧
  (∀ part, part < 8 → exec (.burinPendingClear part) s =
    .next ((s.modPart part fun p => { p with pendingWord := 0, irq := false }).answer (.burin part) 0 8
      (s.part part).pendingWord.toNat)) ∧
  (∀ via t bits, t < 8 → s.served = true → s.up = true → (s.viewOf via = .tenant t ∨ s.viewOf via = .supervisor) →
    exec (.notificationClear via t bits) s =
      .next ((s.modTen t fun x => { x with notify := x.notify &&& ~~~ bits }).accepted.answer via 0 0 0))

/-- R255 to R259, R281: an accepted write of an rwt object is stored and queued for its tick, once, whatever its transport; a
fifth outstanding transfer is refused and counted; before READY a write is refused; a read-only object, a wrong length, a
value out of range and an rwp object outside a session are refused, each with its code and with nothing stored. -/
def Claims.ObjectWritesAreChecked : Prop := ∀ (s : State) (via : Via) (port i sub len v out : Nat),
  s.served = true → 0x3000 ≤ i → i < 0x7000 →
  let w : Instr := .objectWrite via port i sub len v out
  let no (a : Nat) : Host.Outcome State Fault Refusal := .next (s.accepted.countAbort.answer via a 0 0)
  (4 ≤ out → exec w s = .next (((s.modNet fun n => { n with xferRefused := satInc 32 n.xferRefused }).countAbort).answer
    via abState 0 0)) ∧
  (out < 4 → s.up = false → s.boot.dev ≠ .recovery → exec w s = .next (s.countAbort.answer via abState 0 0)) ∧
  (out < 4 → s.up = true →
    (∀ a, s.mySession via = none → s.lookup via i sub = .error a → exec w s = no a) ∧
    (∀ r, s.mySession via = none → s.lookup via i sub = .ok r →
      (r.acc = .ro ∨ r.acc = .const → exec w s = no abReadOnly) ∧
      (r.acc = .rwp → exec w s = no abNoSession) ∧
      (r.acc = .rwt → i ≠ 0x3002 →
        (len ≠ r.size → exec w s = no abLength) ∧
        (len = r.size → objRange r i sub v = false → exec w s = no abRange) ∧
        (len = r.size → objRange r i sub v = true →
          let u := { s with rwt := s.rwt ++ [Rwt.mk (objKey 0 i sub) v s.rwtTicks] }
          exec w s = .next ((if i = 0x3104 then u else u.setVal (objKey 0 i sub) v).accepted.answer via 0 0 0)))))

/-- The rows that are one object's write. R41: a resume is taken while the source's lock is held and acts only in SAFE or HOLD
fallback: in SAFE it waits for its tick as every rwt write does, beside any that waits already (R256); without the lock it is
refused, and so is one that neither the supervisor nor the session's endpoint sends (log 38). R60, R293, R302: the overrun latch, a position re-arm and a fault clear wait for
their tick. R374: the clock takes the value and is set. R217: a KEEP update with a matching expected entry stores COUNT. -/
def Claims.ControlWritesAct : Prop := ∀ (s : State), s.served = true → s.up = true →
  (∀ via, s.mayWriteWide via 0x3002 = true →
    (s.lockHeld = true → Answers (.resumeFromFallback via 1) s fun t =>
      (s.frame.tickState = .fallbackSafe → t.frame = s.frame ∧
        t.rwt = s.rwt ++ [Rwt.mk (objKey 0 0x3002 0) 1 s.rwtTicks]) ∧
      (s.frame.tickState = .fallbackHold → t.frame = { s.frame with resumeHold := true } ∧ t.rwt = s.rwt) ∧
      (s.frame.tickState ≠ .fallbackSafe → s.frame.tickState ≠ .fallbackHold → t.frame = s.frame ∧ t.rwt = s.rwt) ∧
      t.out = s.out ++ [.reply via 0 0 0] ∧ t.mem = s.mem ∧ t.gauges = s.gauges ∧ t.ctxs = s.ctxs ∧
      t.tenants = s.tenants ∧ t.net = s.accepted.net) ∧
    (s.lockHeld = false →
      exec (.resumeFromFallback via 1) s = .next (s.accepted.countAbort.answer via abState 0 0))) ∧
  (∀ via, s.mayWriteWide via 0x3002 = false → ∃ a, a ≠ 0 ∧
    exec (.resumeFromFallback via 1) s = .next (s.accepted.countAbort.answer via a 0 0)) ∧
  (∀ v, exec (.rtcWrite .supervisor v) s = .next ((s.modSec fun x =>
    { x with rtc := v, rtcSet := true, rtcAt := s.frame.now }).accepted.answer .supervisor 0 0 0)) ∧
  (∀ via t v, t < 8 → v < 256 → (s.viewOf via = .tenant t ∨ s.viewOf via = .supervisor) →
    exec (.overrunLatchClear via t v) s = .next (({ s with
      rwt := s.rwt ++ [Rwt.mk (objKey 0 0x3104 (t + 1)) v s.rwtTicks] }).accepted.answer via 0 0 0)) ∧
  (∀ via d k v, d < 2 → k < 8 → v < 256 →
    (s.viewOf via = .tenant (s.channelTenant (gLoad d k)) ∨ s.viewOf via = .supervisor) →
    exec (.faultClear via d k v) s = .next ((({ s with
      rwt := s.rwt ++ [Rwt.mk (objKey 0 (gLoad d k) 0x0F) v s.rwtTicks] }).setVal (objKey 0 (gLoad d k) 0x0F) v).accepted.answer
        via 0 0 0)) ∧
  (∀ via d i v cleared, d < 2 → i < 4 → v < 256 →
    (s.viewOf via = .tenant (s.channelTenant (gPos d i)) ∨ s.viewOf via = .supervisor) →
    Answers (.positionRearm via d i v cleared) s fun t =>
      t.rwt = s.rwt ++ [Rwt.mk (objKey 0 (gPos d i) 7) v s.rwtTicks] ∧ t.out = s.out ++ [.reply via 0 0 0] ∧
      (t.pos d i) = { s.pos d i with cleared := (s.pos d i).cleared || cleared } ∧
      (∀ j, j ≠ i → t.pos d j = s.pos d j) ∧ t.frame = s.frame ∧ t.ctxs = s.ctxs ∧ t.mem = s.mem) ∧
  (∀ via v t c, s.awake = true → s.viewOf via = .tenant t → c = fld v 11 0 →
    fld v 15 12 = 0 → fld v 63 32 = 0 → fld v 191 160 = 0 → s.keepStale t c (fld v 31 16) = false →
    let want := BitVec.ofNat 64 (fld v 127 64)
    (s.keepMatch t c want = true → exec (.keepUpdate via v) s =
      .next ((s.setCount c (BitVec.ofNat 32 (fld v 159 128)) false).accepted.answer via 0 0 0)) ∧
    (s.keepMatch t c want = false → (s.ctx c).tenant = t →
      exec (.keepUpdate via v) s = .next (s.accepted.countAbort.answer via abKeep 0 0)))

/-- Object writes are checked; the rows that are one object write act: the parts ObjectWritesAreChecked, ControlWritesAct. -/
def Obligations.ObjectWritesAndControls : Prop :=
  Claims.ObjectWritesAreChecked ∧ Claims.ControlWritesAct

/-- R257, R270, R271, R268: a READ, WRITE or DESCRIBE datagram is answered to its sender's address and port, from the device's
own port and with the tag of the request, with its SEQ, INDEX and SUB, RESPONSE with the value or ABORT with the code, and
the answer is kept. A request that matches a kept answer gets it again (with the request's tag: log 98) and is not performed.
A datagram that is not in the form, or of another TYPE than its row's, is discarded. -/
def Claims.DatagramsAreAnswered : Prop :=
  ∀ (s : State) (port : Nat) (tag : VlanTag) (ip : BitVec 32) (udp : BitVec 16) (h : BitVec 256) (bs : List Byte) (out : Nat),
  port < 2 →
  let via : Via := .eth port ip udp
  let rows : List (Nat × Instr × (State → Ans × State)) :=
    [(1, .pranilRead ⟨port, tag⟩ ip udp h bs out, fun s => s.readXfer via h out),
     (2, .pranilWrite ⟨port, tag⟩ ip udp h bs out, fun s => s.writeXfer via h bs out),
     (3, .describe ⟨port, tag⟩ ip udp h bs out, fun s => s.describeXfer via h out)]
  ∀ e ∈ rows, (e.1 = 2 → s.regsWrite via (hIndex h) (hSub h) = false) →
    (s.served = false ∨ datagramOk h bs = false ∨ hType h ≠ e.1 → exec e.2.1 s = .next s) ∧
    (s.served = true → datagramOk h bs = true → hType h = e.1 →
      (∀ a, (s.eth port).answers.find? (fun a => a.serves ip udp h) = some a →
        exec e.2.1 s = .next (s.send (.datagram port tag a.ip a.udp s.pranilPort a.hdr a.payload))) ∧
      ((s.eth port).answers.find? (fun a => a.serves ip udp h) = none → Answers e.2.1 s fun t =>
        (∀ n v, (e.2.2 s).1 = .ok (n, v) → t.out.getLast? = some (.datagram port tag ip udp (e.2.2 s).2.pranilPort
          (pranilHdr 0x10 (hSeq h) (hIndex h) (hSub h) (hPort h) n 0 (e.2.2 s).2.frameLo) (leBytes n v))) ∧
        (∀ a, (e.2.2 s).1 = .error a → t.out.getLast? = some (.datagram port tag ip udp (e.2.2 s).2.pranilPort
          (pranilHdr 0x11 (hSeq h) (hIndex h) (hSub h) (hPort h) 0 a (e.2.2 s).2.frameLo) [])) ∧
        ((t.eth port).answers.find? (fun a => a.serves ip udp h)).isSome = true ∧
        t.mem = (e.2.2 s).2.mem ∧ t.ctxs = (e.2.2 s).2.ctxs ∧ t.frame = (e.2.2 s).2.frame ∧ t.sec = (e.2.2 s).2.sec))

/-- R273, R382: CONTROL START from a bound source makes its tenant STARTED and STOP ends that, at once from READY on; before
READY the last one is latched. R272: DISCOVER is answered at every stage of start-up with Table 11-10, whether or not the
dictionary is served, but in ROM recovery, where Ethernet is silent (R389). -/
def Claims.ControlAndDiscover : Prop :=
  ∀ (s : State) (port : Nat) (tag : VlanTag) (ip : BitVec 32) (udp : BitVec 16) (h : BitVec 256) (bs : List Byte) (out : Nat),
  port < 2 → datagramOk h bs = true →
  (s.eth port).answers.find? (fun a => a.serves ip udp h) = none →
  (s.served = true → hType h = 4 → out < 4 → ∀ t, s.tenantOf (.eth port ip udp) = some t →
    (bs = [1] →
      (s.up = true → Answers (.controlStart ⟨port, tag⟩ ip udp h bs out) s fun u => (u.ten t).started = true ∧
        (u.ten t).startUdp = udp ∧ (∀ k, k ≠ t → u.ten k = s.ten k) ∧ u.mem = s.mem ∧ u.frame = s.frame) ∧
      (s.boot.dev = .starting → Answers (.controlStart ⟨port, tag⟩ ip udp h bs out) s fun u =>
        u.tenants = s.tenants ∧ (t, true, udp) ∈ (u.eth port).latched)) ∧
    (bs = [2] →
      (s.up = true → Answers (.controlStop ⟨port, tag⟩ ip udp h bs out) s fun u => (u.ten t).started = false ∧
        (∀ k, k ≠ t → u.ten k = s.ten k) ∧ u.mem = s.mem ∧ u.frame = s.frame) ∧
      (s.boot.dev = .starting → Answers (.controlStop ⟨port, tag⟩ ip udp h bs out) s fun u =>
        u.tenants = s.tenants ∧ (t, false, udp) ∈ (u.eth port).latched ∧ (t, true, udp) ∉ (u.eth port).latched))) ∧
  (s.boot.started = true → s.boot.recovery ≠ .rom → hType h = 0x20 →
    Answers (.discover ⟨port, tag⟩ ip udp h bs) s fun u =>
      u.out = s.out ++ [.datagram port tag ip udp s.pranilPort
        (pranilHdr 0x21 (hSeq h) (hIndex h) (hSub h) (hPort h) 32 0 s.frameLo) s.discovery] ∧
      u.tenants = s.tenants ∧ u.frame = s.frame ∧ u.mem = s.mem ∧ u.obj = s.obj)

/-- Pranil requests are answered once each; CONTROL and DISCOVER: the parts DatagramsAreAnswered, ControlAndDiscover. -/
def Obligations.DatagramsAreAnswered : Prop :=
  Claims.DatagramsAreAnswered ∧ Claims.ControlAndDiscover

/-- R273, R275: a map that captured in GUARD sends what it captured as one CYCLIC datagram, with the map's tag, and counts it. A datagram for an RX
map that does not run, from another source or of another length changes nothing; one that fits is written whole or, where an
entry is refused, not at all, and only the accepted one counts. -/
def Claims.CyclicMapsSendAndReceive : Prop := ∀ (s : State),
  (∀ n bs, n < 16 → (s.map n).sendDue = true → (s.map n).captured = some bs → Answers (.cyclicSend n) s fun t =>
    t.out = s.out ++ [.datagram (s.mapSet n 2) (s.mapTag n) (BitVec.ofNat 32 (s.mapSet n 3)) (BitVec.ofNat 16 (s.mapSet n 4))
      s.pranilPort (pranilHdr 0x30 0 n 0 0 bs.length 0 s.frameLo) bs] ∧
    t.map n = { s.map n with captured := none, sendDue := false, sent := satInc 32 (s.map n).sent } ∧
    (∀ k, k ≠ n → t.map k = s.map k) ∧ t.frame = s.frame ∧ t.mem = s.mem ∧ t.tenants = s.tenants) ∧
  (∀ port tag ip udp h bs, port < 2 → hType h = 0x30 →
    let m := 16 + hIndex h
    let fits := hIndex h < 16 ∧ s.mapRuns m = true ∧ s.mapSet m 2 = port ∧ s.mapSet m 3 = ip.toNat ∧
      ((s.mapEntries m).map (·.2.2)).sum = bs.length
    ((s.served = false ∨ datagramOk h bs = false ∨ ¬ fits) → exec (.rxCyclicReceive ⟨port, tag⟩ ip udp h bs) s = .next s) ∧
    (s.served = true → datagramOk h bs = true → fits →
      (s.writeEntries (ownerView (s.mapSet m 8)) (s.mapEntries m) bs = none →
        exec (.rxCyclicReceive ⟨port, tag⟩ ip udp h bs) s = .next s) ∧
      (∀ u, s.writeEntries (ownerView (s.mapSet m 8)) (s.mapEntries m) bs = some u →
        Answers (.rxCyclicReceive ⟨port, tag⟩ ip udp h bs) s fun t => (t.map m).arrived = true ∧
          (t.map m).accepted = satInc 32 (s.map m).accepted ∧ (∀ k, k ≠ m → t.map k = s.map k) ∧
          t.rwt = u.rwt ∧ t.obj = u.obj ∧ t.frame = u.frame ∧ t.mem = s.mem ∧ t.out = s.out)))

/-- R262, R263, R265: an RPDO is written whole or not at all; a SYNC counts for the synchronous TPDOs, and the one whose number
is reached captures its objects; a TPDO that is due sends what it captured, or its present values for type 255, outside its
inhibit time (whose unit log 7 takes from CiA 1301). A USDO
transfer is performed as every transfer is (R257), where the port's state serves it; a protocol timeout is aborted with 0x05040000. -/
def Claims.PdosAndUsdo : Prop := ∀ (s : State) (port : Nat), port < 4 →
  (∀ n bs, n < 16 → bs.length ≤ 64 →
    let es := s.pdoEntries port (0x1600 + n)
    let fits := s.pdosRun port = true ∧ s.pdoOn port (0x1400 + n) = true ∧ (es.map (·.2.2)).sum ≤ bs.length
    (¬ fits → exec (.rpdoReceive port n bs) s = .next s) ∧
    (fits → s.writeEntries (ownerView (s.atReset (0x1400 + n) 7 port)) es bs = none →
      exec (.rpdoReceive port n bs) s = .next s) ∧
    (fits → ∀ u, s.writeEntries (ownerView (s.atReset (0x1400 + n) 7 port)) es bs = some u →
      Answers (.rpdoReceive port n bs) s fun t => t.rwt = u.rwt ∧ t.obj = u.obj ∧ t.frame = u.frame ∧ t.mem = s.mem ∧
        t.out = s.out ∧ (t.can port).rxCount = (s.can port).rxCount + 1 ∧ ∀ p, p ≠ port → t.can p = s.can p)) ∧
  (s.pdosRun port = false → exec (.syncReceive port) s = .next s) ∧
  (s.pdosRun port = true → Answers (.syncReceive port) s fun t =>
    (∀ n : Nat, n < 16 → s.pdoOn port (0x1800 + n) = true →
      let k := s.atReset (0x1800 + n) 2 port
      let c := tget 0 (s.can port).syncCount n + 1
      (1 ≤ k → k ≤ 240 → c < k → tget 0 (t.can port).syncCount n = c ∧
        tget [] (t.can port).captured n = tget [] (s.can port).captured n) ∧
      (1 ≤ k → k ≤ 240 → k ≤ c → tget 0 (t.can port).syncCount n = 0 ∧
        tget [] (t.can port).captured n = s.tpdoBytes port n)) ∧
    (t.can port).nmt = (s.can port).nmt ∧ (∀ p, p ≠ port → t.can p = s.can p) ∧ t.out = s.out ∧ t.obj = s.obj ∧
    t.frame = s.frame ∧ t.mem = s.mem) ∧
  (∀ n, s.tpdoReady port n = true →
    (s.atReset (0x1800 + n) 2 port = 255 → s.inhibited port n = false) ∧ Answers (.tpdoTransmit port n) s fun t =>
    (s.atReset (0x1800 + n) 2 port = 255 → t.out = s.out ++ [.tpdo port n (s.tpdoBytes port n)]) ∧
    (s.atReset (0x1800 + n) 2 port ≠ 255 → t.out = s.out ++ [.tpdo port n (tget [] (s.can port).captured n)]) ∧
    tget [] (t.can port).captured n = [] ∧ tget 0 (t.can port).sentAt n = s.frame.now + 1 ∧
    (∀ k, k ≠ n → tget [] (t.can port).captured k = tget [] (s.can port).captured k) ∧
    (∀ p, p ≠ port → t.can p = s.can p) ∧ t.frame = s.frame ∧ t.mem = s.mem) ∧
  (∀ node i sub bs out, 1 ≤ node → node ≤ 127 →
    let via : Via := .can port node
    (s.usdoOn port = false → ∀ w, exec (.usdoTransfer port node w i sub bs out) s = .next s) ∧
    (s.usdoOn port = true → s.served = true →
      (exec (.usdoTransfer port node false i sub bs out) s =
        .next (s.request via out (s.earlyRead i sub) fun s => s.readObj via port i sub)) ∧
      (exec (.usdoTransfer port node true i sub bs out) s = exec (.objectWrite via port i sub bs.length (leNat bs) out) s))) ∧
  (∀ node, s.usdoOn port = true →
    exec (.usdoProtocolTimeout port node) s = .next (s.countAbort.answer (.can port node) abTimeout 0 0))

/-- Cyclic maps, PDOs, SYNC and USDO: the parts CyclicMapsSendAndReceive, PdosAndUsdo. -/
def Obligations.CyclicMapsAndPdos : Prop :=
  Claims.CyclicMapsSendAndReceive ∧ Claims.PdosAndUsdo

/-- R268, R269: echo and ARP are answered, with the tag of the request, by a port that has an address; an acknowledged lease
sets the address of a port with none of its own, and a refused one takes it away; gPTP's offset and synchronisation are what
0x1E02 shows; a Pdelay_Req is answered, and the answer to the port's own last request gives the path delay and asks again; of
two grandmasters the lower priority vector stands (the two last are the model's choice, log 41). Another domain than 0
changes nothing, and nothing else changes. -/
def Claims.IpServicesAnswer : Prop := ∀ (s : State) (port : Nat), port < 2 → s.ethOn = true →
  let x := s.eth port
  (∀ tag ip bs, s.address port ≠ 0 → exec (.icmpEcho ⟨port, tag⟩ ip bs) s = .next (s.send (.icmpReply port tag ip bs))) ∧
  (∀ tag (ip target : BitVec 32), s.address port ≠ 0 →
    (s.address port = target.toNat → exec (.arpRequest ⟨port, tag⟩ ip target) s = .next (s.send (.arpReply port tag ip))) ∧
    (s.address port ≠ target.toNat → exec (.arpRequest ⟨port, tag⟩ ip target) s = .next s)) ∧
  (∀ ip mask gw ack, Answers (.dhcpv4Reply port ip mask gw ack) s fun t =>
    (s.atReset 0x1E00 (port + 1) = 0 → t.address port = (if ack = true then ip.toNat else 0) ∧
      (t.eth port).dhcpMask = (if ack = true then mask else 0) ∧ (t.eth port).dhcpGateway = (if ack = true then gw else 0) ∧
      (t.eth port).speed = x.speed ∧ (t.eth port).answers = x.answers) ∧
    (s.atReset 0x1E00 (port + 1) ≠ 0 → t = s) ∧ (∀ p, p ≠ port → t.eth p = s.eth p) ∧ t.out = s.out ∧ t.frame = s.frame) ∧
  (∀ origin followUp arrival synced, Answers (.gptpSync port 0 (.sync origin followUp arrival synced)) s fun t =>
    t.eth port = { x with offset := clampS 32 (arrival - followUp.getD origin - x.pathDelay), synced := synced } ∧
    (∀ p, p ≠ port → t.eth p = s.eth p) ∧ t.frame = s.frame ∧ t.out = s.out) ∧
  (∀ source seq arrival, exec (.gptpSync port 0 (.pdelayReq source seq arrival)) s =
    .next (s.send (.pdelayResp port source seq arrival))) ∧
  (∀ seq t1 t2 t3 t4,
    (seq ≠ x.pdelaySeq → exec (.gptpSync port 0 (.pdelayResp seq t1 t2 t3 t4)) s = .next s) ∧
    (seq = x.pdelaySeq → Answers (.gptpSync port 0 (.pdelayResp seq t1 t2 t3 t4)) s fun t =>
      t.eth port = { x with pathDelay := (t4 - t1 - (t3 - t2)) / 2, pdelaySeq := x.pdelaySeq + 1 } ∧
      (∀ p, p ≠ port → t.eth p = s.eth p) ∧ t.out = s.out ++ [.pdelayReq port (x.pdelaySeq + 1)] ∧ t.frame = s.frame)) ∧
  (∀ g : BitVec 128, Answers (.gptpAnnounce port ⟨0, g⟩) s fun t =>
    (x.grandmaster = none → (t.eth port).grandmaster = some g) ∧
    (∀ k, x.grandmaster = some k → (t.eth port).grandmaster = some (if g.toNat < k.toNat then g else k)) ∧
    (t.eth port).offset = x.offset ∧ (∀ p, p ≠ port → t.eth p = s.eth p) ∧ t.frame = s.frame ∧ t.out = s.out) ∧
  (∀ domain msg g, domain ≠ 0 → exec (.gptpSync port domain msg) s = .next s ∧ exec (.gptpAnnounce port ⟨domain, g⟩) s = .next s)

/-- R268, R286, R368, R384: the loss of a link discards the session and ends the grants and challenges of the endpoints on it,
and no others; a link that is up shows its speed, and the Pdelay initiator asks on it (R269; when it asks is log 41's choice). PCIe configuration is answered with retry status until it is answered
for good; in ROM recovery only physical functions answer. -/
def Claims.EndpointLinks : Prop := ∀ (s : State),
  (∀ via, Via.hasLink via = true → Answers (.endpointLinkLoss via) s fun t =>
    (∀ x, t.net.session = some x → s.net.session = some x ∧ sameLink via x.endpoint = false) ∧
    (∀ x, s.net.session = some x → sameLink via x.endpoint = false → t.net.session = some x) ∧
    (∀ g, g ∈ t.sec.grants ↔ g ∈ s.sec.grants ∧ sameLink via g.endpoint = false) ∧
    (∀ c, c ∈ t.sec.challenges ↔ c ∈ s.sec.challenges ∧ sameLink via c.endpoint = false) ∧
    (∀ p ip udp, via = .eth p ip udp → (t.eth p).speed = 0 ∧ (t.eth p).synced = false ∧ (t.eth p).grandmaster = none) ∧
    (∀ p f, via = .pcie p f → (tget {} t.net.pcie p).linkUp = false) ∧
    t.frame = s.frame ∧ t.mem = s.mem ∧ t.obj = s.obj ∧ t.sec.otp = s.sec.otp) ∧
  (∀ p ip udp speed, p < 2 → (speed = 100 ∨ speed = 1000) → Answers (.phyLinkUp (.eth p ip udp) speed) s fun t =>
    t.eth p = { s.eth p with speed := speed, pdelaySeq := (s.eth p).pdelaySeq + 1 } ∧ (∀ k, k ≠ p → t.eth k = s.eth k) ∧
    t.out = s.out ++ [.pdelayReq p ((s.eth p).pdelaySeq + 1)] ∧ t.net.func = s.net.func ∧ t.net.session = s.net.session ∧
    t.frame = s.frame ∧ t.mem = s.mem ∧ t.obj = s.obj ∧ t.sec = s.sec) ∧
  (∀ p f speed, p < 2 → Answers (.phyLinkUp (.pcie p f) speed) s fun t => (tget {} t.net.pcie p).linkUp = true ∧
    (∀ k, k ≠ p → tget {} t.net.pcie k = tget {} s.net.pcie k) ∧ OnlyNet s t) ∧
  (∀ p f, p < 2 → f < 16 → s.boot.started = true →
    let answers := (tget {} s.net.pcie p).answering = true ∧ (s.boot.recovery ≠ .rom ∨ f = 0)
    (answers → exec (.pcieConfigurationRequest p f) s = .next (s.send (.config p f true))) ∧
    (¬ answers → exec (.pcieConfigurationRequest p f) s = .next (s.send (.config p f false)))) ∧
  (∀ p, p < 2 → s.boot.started = true → (tget {} s.net.pcie p).answering = false →
    Answers .pcieConfigurationReady s fun t => OnlyNet s t ∧ (tget {} t.net.pcie 0).answering = true ∧
      (tget {} t.net.pcie 1).answering = true)

/-- Echo, ARP, DHCP, gPTP; endpoint links and PCIe configuration: the parts IpServicesAnswer, EndpointLinks. -/
def Obligations.IpServicesAndLinks : Prop :=
  Claims.IpServicesAnswer ∧ Claims.EndpointLinks

/-- R277, R278: the host fills HST_MBX_VEC, HST_MBX_REQ and HST_MBX_REQDATA and writes GO: on an IDLE mailbox the request in
the registers is performed, DONE with the response, or ABORTED with its code (0x05040001 for a TYPE other than READ, WRITE and
DESCRIBE); GO elsewhere is ignored. A 1 in bit 31 returns the mailbox to IDLE.
R280: a supervisor call returns to its caller a response header, with the request's SEQ, INDEX and SUB, and its payload. -/
def Obligations.MailboxAndCalls : Prop :=
  ∀ (s : State) (h : BitVec 256) (bs : List Byte) (out : Nat), s.served = true →
  (∀ port func vec, s.funcUp port func = true → s.regsWrite (.pcie port func) (hIndex h) (hSub h) = false →
    let filled := s.modFunc port func fun f => { f with vec := vec.setWidth 16, req := h, reqData := bs }
    let r := filled.mailRequest (.pcie port func) h bs out
    ((s.func port func).mbx ≠ .idle → exec (.mailboxGo port func vec h bs out) s = .next filled) ∧
    ((s.func port func).mbx = .idle → Answers (.mailboxGo port func vec h bs out) s fun t =>
      (∀ n v, r.1 = .ok (n, v) → (t.func port func).mbx = .done ∧ (t.func port func).rspData = leBytes n v) ∧
      (∀ a, r.1 = .error a → (t.func port func).mbx = .aborted ∧ (t.func port func).rspData = [] ∧
        fld (t.func port func).rspHdr 159 128 = a % 2 ^ 32) ∧
      (t.func port func).vec = vec.setWidth 16 ∧ (t.func port func).req = h ∧ (t.func port func).reqData = bs ∧
      t.mem = r.2.mem ∧ t.ctxs = r.2.ctxs ∧ t.frame = r.2.frame ∧ (bit vec 8 = false → t.out = r.2.out) ∧
      (hdrOk h = false ∨ hType h = 0 ∨ 3 < hType h → r = (.error abCommand, filled.countAbort)))) ∧
  (∀ port func v, s.funcUp port func = true → (s.func port func).mbx ≠ .busy →
    (bit v 31 = true → Answers (.mailboxStatusClear port func v) s fun t =>
      t.func port func = { s.func port func with mbx := .idle } ∧
      (∀ p f, p < 2 → f < 16 → ¬ (p = port ∧ f = func) → t.func p f = s.func p f) ∧ t.out = s.out) ∧
    (bit v 31 = false → exec (.mailboxStatusClear port func v) s = .next s)) ∧
  (∀ via, Via.calls via = true → s.regsWrite via (hIndex h) (hSub h) = false →
    let r := s.mailRequest via h bs out
    let hdr (type len status : Nat) := pranilHdr type (hSeq h) (hIndex h) (hSub h) (hPort h) len status r.2.frameLo
    (∀ n v, r.1 = .ok (n, v) →
      exec (.supervisorCall via h bs out) s = .next (r.2.send (.callReply via (hdr 0x10 n 0) (leBytes n v)))) ∧
    (∀ a, r.1 = .error a → exec (.supervisorCall via h bs out) s = .next (r.2.send (.callReply via (hdr 0x11 0 a) []))))

/-- R264, R382: NMT commands of a port that is on the bus act at once from READY on and are latched before; Reset
Communication and Reset Node send the boot-up message and leave the port PRE-OPERATIONAL; Reset Node of a bound master also
asks for its tenant's reset. A port that is off the bus changes nothing. -/
def Claims.NmtCommandsAct : Prop := ∀ (s : State) (port node : Nat), port < 4 →
  let rows : List (Instr × Nmt) := [(.nmtStart port node, .operational), (.nmtStop port node, .stopped),
    (.nmtEnterPreoperational port node, .preOperational)]
  let booted (t : State) : Prop := (t.can port).nmt = .preOperational ∧ (t.can port).captured = [] ∧
    (t.can port).latched = none ∧ (t.can port).busOff = false ∧ bit (t.can port).errReg 4 = false ∧
    t.out.getLast? = some (.bootUp port) ∧ (∀ p, p ≠ port → t.can p = s.can p) ∧ t.frame = s.frame ∧ t.mem = s.mem ∧
    t.obj = s.obj
  (s.canOn port = false → (∀ e ∈ rows, exec e.1 s = .next s) ∧ exec (.nmtResetCommunication port node) s = .next s ∧
    exec (.nmtResetNode port node) s = .next s) ∧
  (s.canOn port = true →
    (s.up = true → ∀ e ∈ rows, exec e.1 s = .next (s.modCan port fun p => { p with nmt := e.2 })) ∧
    (s.up = false → ∀ e ∈ rows, exec e.1 s = .next (s.modCan port fun p => { p with latched := some e.2 })) ∧
    (s.atReset 0x1E10 (port + 1) ≠ 0 →
      Answers (.nmtResetCommunication port node) s (fun t => booted t ∧ t.tenants = s.tenants) ∧
      (∀ k, s.up = true → s.tenantOf (.can port node) = some k → Answers (.nmtResetNode port node) s fun t => booted t ∧
        t.ten k = { s.ten k with resetReq := true, floorsHeld := true } ∧ ∀ j, j ≠ k → t.ten j = s.ten j) ∧
      (s.up = false ∨ s.tenantOf (.can port node) = none → Answers (.nmtResetNode port node) s fun t => booted t ∧
        t.tenants = s.tenants)))

/-- R262, R266, R267, R383: a heartbeat carries the port's NMT state. The loss of a watched node is held in bit 4 of the error
register and, where 0x1E13 asks for it, requests the reset of its tenant; its next heartbeat lets the bit fall once nothing else holds it. Bus-off holds
the bit as well and leaves the NMT state. -/
def Claims.HeartbeatsAreWatched : Prop := ∀ (s : State) (port : Nat),
  let x := s.can port
  let rest (t : State) : Prop := (t.can port).nmt = x.nmt ∧ (∀ p, p ≠ port → t.can p = s.can p) ∧ t.frame = s.frame ∧
    t.mem = s.mem ∧ t.obj = s.obj ∧ t.ctxs = s.ctxs
  (s.canOn port = true → s.atReset 0x1017 0 port ≠ 0 →
    exec (.heartbeatProduce port) s = .next (s.send (.heartbeat port x.nmt.code))) ∧
  (s.canOn port = true → Answers (.busOffRecovered port) s fun t => rest t ∧ (t.can port).busOff = true ∧
    bit (t.can port).errReg 4 = true ∧ t.tenants = s.tenants) ∧
  (∀ n, s.watched port n ≠ 0 → tget 0 x.beats n = 0 → Answers (.heartbeatLoss port n) s fun t => rest t ∧
    tget 0 (t.can port).beats n = 1 ∧ bit (t.can port).errReg 4 = true ∧
    (∀ k, s.atReset 0x1E13 (port + 1) = 1 → s.tenantOf (.can port (s.watched port n)) = some k →
      t.ten k = { s.ten k with resetReq := true, floorsHeld := true }) ∧
    (s.atReset 0x1E13 (port + 1) ≠ 1 → t.tenants = s.tenants)) ∧
  (∀ n st, port < 4 → 1 ≤ n → n ≤ 8 →
    (s.watched port n = 0 → exec (.heartbeatConsume port n st) s = .next s) ∧
    (s.watched port n ≠ 0 → Answers (.heartbeatConsume port n st) s fun t => rest t ∧
      tget 0 (t.can port).beats n = 0 ∧ t.tenants = s.tenants ∧
      ((t.can port).bad = true → (t.can port).errReg = x.errReg) ∧
      ((t.can port).bad = false → bit (t.can port).errReg 4 = false)))

/-- NMT commands, heartbeats and bus-off: the parts NmtCommandsAct, HeartbeatsAreWatched. -/
def Obligations.NmtAndHeartbeats : Prop :=
  Claims.NmtCommandsAct ∧ Claims.HeartbeatsAreWatched

/-- R282, R283, R286, R365: one session at a time; its digest begins with the nonce, the identifier and the slot and takes in every
staged write; a staged write that a check refuses is not staged. The endpoint closes it, or 60 s of silence does. Values
stand in no force before the commit. -/
def Obligations.SessionsStage : Prop := ∀ (s : State) (via : Via), s.served = true → s.up = true →
  let no (a : Nat) : Host.Outcome State Fault Refusal := .next (s.accepted.countAbort.answer via a 0 0)
  let open_ (x : Session) : Host.Outcome State Fault Refusal :=
    .next ((s.modNet fun n => { n with session := some x }).accepted.answer via 0 0 0)
  (∀ slot nonce, slot < 3 →
    (s.net.session.isSome = true → exec (.sessionOpen via slot nonce) s = no abSessionOpen) ∧
    (s.net.session = none → s.sec.otp.life ≠ .blank → s.sec.otp.life ≠ .scrapped → exec (.sessionOpen via slot nonce) s =
      open_ { endpoint := via, slot := slot, nonce := nonce, digest := firstDigest nonce s.sec.otp.uid slot })) ∧
  (∀ x port i sub len v r, s.net.session = some x → x.endpoint = via → objRow i sub = some r → r.acc = .rwp →
    (s.stageCheck r i sub len v = 0 → exec (.sessionStage via port i sub len v) s = open_ { x with
      digest := digestVal (leBytes 48 x.digest.toNat ++ leBytes 2 i ++ leBytes 1 sub ++ leBytes 2 len ++ leBytes len v),
      staged := x.staged ++ [(objKey port i sub, maskValue i sub v)] }) ∧
    (s.stageCheck r i sub len v ≠ 0 → exec (.sessionStage via port i sub len v) s = no (s.stageCheck r i sub len v))) ∧
  (∀ slot w, exec (.waiverInstall via slot w) s = exec (.sessionStage via 0 0x2103 (slot + 1) 128 w.toNat) s) ∧
  (∀ x w slot, slot < 4 → s.net.session = some x → x.endpoint = via → s.mayStage 0x2103 (slot + 1) w.toNat = true →
    (s.waiverCheck w.toNat = 0 → exec (.waiverInstall via slot w) s = open_ (x.stage 0 0x2103 (slot + 1) 128 w.toNat)) ∧
    (s.ownerKey (fld w 81 80) = none → exec (.waiverInstall via slot w) s = no abSignature)) ∧
  (∀ x, s.net.session = some x →
    (x.endpoint = via → exec (.sessionClose via 1) s =
      .next ((s.modNet fun n => { n with session := none }).accepted.answer via 0 0 0)) ∧
    (x.endpoint ≠ via → exec (.sessionClose via 1) s = no abState) ∧
    exec .sessionTimeout s = .next (s.modNet fun n => { n with session := none }))

/-- R286: the five ways a session is discarded: a write of 1 to 0x1E41:05 by its endpoint, 60 s without a request of it, the
loss of its endpoint's link or bus, a Function Level Reset of its function, a warm or cold reset. Nothing it staged is
applied: every provisioned value, the OTP and the keys stay, the store as well; after a reset the values in force are those
that the store holds, by its commit marker (R285). -/
def Obligations.SessionsAreDiscarded : Prop := ∀ (s : State) (x : Session), s.net.session = some x →
  let dropped (t : State) : Prop := t.net.session = none ∧ t.sec.otp = s.sec.otp ∧ t.sec.keys = s.sec.keys ∧
    t.stored = s.stored
  let gone (t : State) : Prop := dropped t ∧ t.obj = s.obj
  let restarted (t : State) : Prop := dropped t ∧ t.obj = s.stored
  (s.served = true → s.up = true → Answers (.sessionClose x.endpoint 1) s gone) ∧
  Answers .sessionTimeout s gone ∧
  (∀ via, Via.hasLink via = true → sameLink via x.endpoint = true → Answers (.endpointLinkLoss via) s gone) ∧
  (∀ port func f vf, port < 2 → func < 16 → (vf = true → func = 0) → f ∈ flrCovers func vf → x.endpoint = .pcie port f →
    Answers (.functionLevelReset port func vf) s gone) ∧
  (warmStartDue s = true → Answers .warmStart s restarted) ∧
  (s.boot.resetLow = false → Answers .resetNAssert s restarted) ∧
  (s.boot.resetLow = true → s.boot.suppliesGood = true → s.boot.sysclk = true → Answers .powerGood s restarted)

/-- R284, R285: a COMMIT whose signature fails, or whose overlaid values break a constraint, ends the session with its code and
the object in 0x1E41:07 and :08 and applies nothing; one that passes puts every staged value in force and in the store, the
later of two, and no other object but a revoked slot's waivers; nothing latched at a reset changes yet. Where power is lost in
step 3, the store at the next start-up holds every old value or, once the marker has moved, every new one; a start-up reads
the copy that the marker names, makes the other good, and shows 0 or, of a cut before the marker moved, the code of log 99. -/
def Obligations.CommitsAreWhole : Prop := ∀ (s : State) (via : Via) (sig : BitVec 768) (cut : Option Bool),
  (∀ x : Session, s.served = true → s.up = true → s.net.session = some x → x.endpoint = via →
    let failed (a f : Nat) : Host.Outcome State Fault Refusal := .next ((s.modNet fun n =>
      { n with session := none, lastCommit := BitVec.ofNat 32 a, failObj := BitVec.ofNat 32 f }).accepted.countAbort.answer
        via a 0 0)
    let new (key : Nat) (t : State) : Prop := key / 2 ^ 8 % 2 ^ 16 ≠ 0x2103 → tget (keyDefault key) t.obj key =
      (stagedVal x.staged key).getD (tget (keyDefault key) s.obj key)
    (s.ownerKey x.slot = none → exec (.sessionCommit via ⟨sig, cut⟩) s = failed abSignature 0) ∧
    (∀ k, s.ownerKey x.slot = some k →
      let ok := sigVerify k (leBytes 48 x.digest.toNat) sig
      (ok = false → exec (.sessionCommit via ⟨sig, cut⟩) s = failed abSignature 0) ∧
      (∀ i sub, ok = true → s.commitBad x.slot x.staged = some (i, sub) →
        exec (.sessionCommit via ⟨sig, cut⟩) s = failed abConstraint (i * 2 ^ 16 + sub * 2 ^ 8)) ∧
      (ok = true → s.commitBad x.slot x.staged = none →
        (cut = none → Answers (.sessionCommit via ⟨sig, cut⟩) s fun t =>
          t.net.session = none ∧ t.net.lastCommit = 0 ∧ t.net.failObj = 0 ∧ t.out = s.out ++ [.reply via 0 0 0] ∧
          (∀ key, new key t) ∧ t.stored = t.provisioned ∧ t.boot.store.copyA = t.boot.store.copyB ∧
          t.eff = s.eff ∧ t.effT = s.effT ∧ t.frame = s.frame ∧ t.mem = s.mem ∧ t.ctxs = s.ctxs ∧ t.gauges = s.gauges) ∧
        (cut = some false → s.sec.power ≠ .ember → Answers (.sessionCommit via ⟨sig, cut⟩) s fun t =>
          t.boot.suppliesGood = false ∧ t.boot.started = false ∧ t.stored = s.stored ∧ t.obj = s.stored ∧
          t.sec.otp = s.sec.otp ∧ t.boot.store.torn = true ∧ t.out = s.out) ∧
        (cut = some true → s.sec.power ≠ .ember → Answers (.sessionCommit via ⟨sig, cut⟩) s fun t =>
          t.boot.suppliesGood = false ∧ t.boot.started = false ∧ t.obj = t.stored ∧
          (∀ key, isRwp key = true → new key t) ∧ t.boot.store.torn = s.boot.store.torn ∧ t.out = s.out)))) ∧
  (s.boot.resetLow = true → s.boot.suppliesGood = true → s.boot.sysclk = true → Answers .powerGood s fun t =>
    t.stored = s.stored ∧ t.obj = s.stored ∧ t.boot.store.copyA = s.stored ∧ t.boot.store.copyB = s.stored ∧
    t.net.lastCommit = if s.boot.store.torn = true then BitVec.ofNat 32 abGeneral else 0)

/-- R361, R362, R390: in BLANK a valid first key fuses slot 0 and makes the device PROVISIONED; in Ground recovery a lost key is
taken where it matches the hash of its ACTIVE slot. R364: at the end of an erasure the target is the lifecycle state, the
pending bit is gone, RECALLED and SCRAPPED have left no byte and no copy, SCRAPPED no key; a running device starts warm with cause 10. -/
def Obligations.KeysAndLifecycle : Prop := ∀ (s : State),
  (∀ via (key : BitVec 776), s.served = true → s.up = true → s.sec.otp.life = .blank → s.mySession via = none →
    (keyOk key = true → Answers (.ownerKeyWrite via key) s fun t => tget 0 t.sec.keys 0 = key ∧
      tget {} t.sec.otp.slots 0 = ⟨digestVal (leBytes 97 key.toNat), .active⟩ ∧ t.sec.otp.life = .provisioned ∧
      (∀ k, k ≠ 0 → tget 0 t.sec.keys k = tget 0 s.sec.keys k ∧ tget {} t.sec.otp.slots k = tget {} s.sec.otp.slots k) ∧
      t.out = s.out ++ [.reply via 0 0 0] ∧ t.obj = s.obj ∧ t.mem = s.mem ∧ t.frame = s.frame) ∧
    (keyOk key = false → exec (.ownerKeyWrite via key) s = .next (s.accepted.countAbort.answer via abRange 0 0))) ∧
  (∀ via slot (key : BitVec 776), slot < 3 → s.served = true → s.boot.dev = .recovery → s.boot.storeLost = true →
    s.sec.otp.life ≠ .blank → s.mySession via = none →
    let x := tget {} s.sec.otp.slots slot
    let fits := x.state = .active ∧ x.hash = digestVal (leBytes 97 key.toNat)
    (fits → Answers (.recoveryKeyWrite via slot key) s fun t => tget 0 t.sec.keys slot = key ∧
      t.boot.recoveryKey = some (s.boot.recoveryKey.getD slot) ∧ t.sec.otp = s.sec.otp ∧
      t.out = s.out ++ [.reply via 0 0 0] ∧ t.obj = s.obj) ∧
    (¬ fits → exec (.recoveryKeyWrite via slot key) s = .next (s.accepted.countAbort.answer via abState 0 0))) ∧
  (∀ target, s.sec.erasing = true → s.sec.otp.target = some target → Answers .lifecycleErasureComplete s fun t =>
    t.sec.otp.life = target ∧ t.sec.otp.target = none ∧ t.sec.erasing = false ∧ t.sec.otp.uid = s.sec.otp.uid ∧
    t.stored = t.provisioned ∧
    (target = .fielded → t.mem = s.mem ∧ t.sec.keys = s.sec.keys ∧ t.sec.waiverBoots = [] ∧
      ∀ e ∈ t.obj, e ∈ s.obj ∧ e.1 / 2 ^ 8 % 2 ^ 16 ≠ 0x2103) ∧
    (target = .recalled → t.mem = [] ∧ t.bundles = [] ∧ t.sec.keys = s.sec.keys) ∧
    (target = .scrapped → t.mem = [] ∧ t.bundles = [] ∧ t.obj = [] ∧ t.sec.keys = [] ∧
      ∀ k : Nat, k < 3 → (tget {} t.sec.otp.slots k).state = .revoked) ∧
    (s.boot.started = false → t.boot.warmDue = true ∧ t.boot.warmReq = some 10) ∧
    (s.boot.started = true → t.eff = t.stored))

/-- R366 to R369: a request for a level the device offers leaves the endpoint's one challenge; a response that verifies is
granted, in place of the endpoint's earlier grant, and clears the count; one that fails is counted, and the eighth in a row
locks debug out until the lockout ends; a write of 1 to RELOCK ends the endpoint's grant and no other. -/
def Claims.DebugUnlocks : Prop := ∀ (s : State) (via : Via), s.served = true → s.up = true →
  let no (a : Nat) : Host.Outcome State Fault Refusal := .next (s.accepted.countAbort.answer via a 0 0)
  (∀ (v : BitVec 8) (ch : BitVec 384),
    let l := Level.ofCode (v.toNat % 4)
    (s.sec.lockout = false → l = .sealedLevel → exec (.debugRequest via v ch) s = no abRange) ∧
    (l ≠ .sealedLevel → (s.offers l = false ∨ s.grantsFull via = true) → exec (.debugRequest via v ch) s = no abState) ∧
    (l ≠ .sealedLevel → s.sec.lockout = false → s.offers l = true → s.grantsFull via = false →
      Answers (.debugRequest via v ch) s fun t =>
        (∀ c, c ∈ t.sec.challenges ↔ (c ∈ s.sec.challenges ∧ c.endpoint ≠ via) ∨
          c = ⟨via, ch, l, v.toNat / 4 % 8, v.toNat / 32 % 4⟩) ∧
        t.sec.grants = s.sec.grants ∧ t.sec.fails = s.sec.fails ∧ t.out = s.out ++ [.reply via 0 0 0])) ∧
  (∀ (sig : BitVec 768) (key : BitVec 776),
    (s.sec.lockout = true → exec (.debugResponse via sig key) s = no abState) ∧
    (s.sec.lockout = false → s.sec.challenges.find? (fun c => decide (c.endpoint = via)) = none →
      Answers (.debugResponse via sig key) s fun t => t.sec.fails = min 8 (s.sec.fails + 1) ∧
        t.sec.lockout = decide (8 ≤ s.sec.fails + 1) ∧ t.sec.grants = s.sec.grants ∧
        t.out = s.out ++ [.reply via abSignature 0 0]) ∧
    (∀ c k, s.sec.lockout = false → s.sec.challenges.find? (fun c => decide (c.endpoint = via)) = some c →
      s.debugKey c key = some k →
      (sigVerify k (c.message s.sec.otp.uid) sig = false → Answers (.debugResponse via sig key) s fun t =>
        t.sec.fails = min 8 (s.sec.fails + 1) ∧ t.sec.lockout = decide (8 ≤ s.sec.fails + 1) ∧
        t.sec.grants = s.sec.grants ∧ t.out = s.out ++ [.reply via abSignature 0 0]) ∧
      (sigVerify k (c.message s.sec.otp.uid) sig = true → s.offers c.level = true → s.grantsFull via = false →
        Answers (.debugResponse via sig key) s fun t => t.sec.fails = 0 ∧ t.sec.lockout = false ∧
          (∀ g, g ∈ t.sec.grants ↔ (g ∈ s.sec.grants ∧ g.endpoint ≠ via) ∨ g = ⟨via, c.level, c.tenant, c.slot⟩) ∧
          t.out = s.out ++ [.reply via 0 0 0] ∧ t.frame = s.frame ∧ t.mem = s.mem))) ∧
  (∀ c, c ∈ s.sec.challenges → c.endpoint = via → Answers (.challengeExpiry via) s fun t => OnlySec s t ∧
    (∀ d, d ∈ t.sec.challenges ↔ d ∈ s.sec.challenges ∧ d.endpoint ≠ via) ∧ t.sec.grants = s.sec.grants) ∧
  (s.sec.lockout = true → exec .lockoutExpiry s = .next (s.modSec fun x => { x with lockout := false })) ∧
  (∀ v, v < 256 → Answers (.relock via v) s fun t => t.out = s.out ++ [.reply via 0 0 0] ∧ t.mem = s.mem ∧
    t.frame = s.frame ∧ (v ≠ 1 → t.sec = s.sec) ∧
    (v = 1 → ∀ g, g ∈ t.sec.grants ↔ g ∈ s.sec.grants ∧ g.endpoint ≠ via))

/-- R366, R370, R375: without the level a debug object does not exist. HALT names a queue and the index it stops before, RESUME
lets it go. The window takes an aligned address; through it the OWNER level reads and writes memory, poison it meets being
recorded (R27) and not delivered, a register block reads
a value that the spec does not state, an address that nothing holds completes UNMAPPED; a write to a register block stops
by name. -/
def Claims.DebugHaltsAndWindow : Prop := ∀ (s : State) (via : Via), s.served = true → s.up = true →
  let no (a : Nat) : Host.Outcome State Fault Refusal := .next (s.accepted.countAbort.answer via a 0 0)
  (∀ (v : BitVec 32) (u : BitVec 16),
    ((s.levelOf via).code < 1 → exec (.halt via v) s = no abObject ∧ exec (.resume via u) s = no abObject) ∧
    (1 ≤ (s.levelOf via).code →
      (s.debugReach via (v.toNat % 4096) = true → exec (.halt via v) s =
        .next ((s.modQueue (v.toNat % 4096) (v.toNat / 4096 % 8) fun x =>
          { x with haltAt := some (v.toNat / 65536 % 4096), haltBy := some via }).accepted.answer via 0 0 0)) ∧
      (s.debugReach via (v.toNat % 4096) = false → exec (.halt via v) s = no abRange) ∧
      (s.debugReach via (u.toNat % 4096) = true → exec (.resume via u) s =
        .next ((s.modQueue (u.toNat % 4096) (u.toNat / 4096 % 8) fun x =>
          { x with haltAt := none, haltBy := none }).accepted.answer via 0 0 0)))) ∧
  (∀ v : BitVec 64,
    ((s.levelOf via).code < 2 → exec (.windowAddress via v) s = no abObject ∧ exec (.windowDataWrite via v) s = no abObject) ∧
    (2 ≤ (s.levelOf via).code →
      (v.toNat % 8 = 0 → exec (.windowAddress via v) s = .next ((s.modSec fun x => x.aim via v).accepted.answer via 0 0 0)) ∧
      (v.toNat % 8 ≠ 0 → exec (.windowAddress via v) s = no abRange) ∧
      (s.window via = .mem →
        (s.poisoned (s.windowAddr via) 8 = false → exec (.windowDataRead via) s =
          .next (s.accepted.answer via 0 8 (leNat (s.rdN (s.windowAddr via) 8)))) ∧
        (∀ p l, s.badUnits [] (s.windowAddr via) 8 = p :: l → exec (.windowDataRead via) s =
          .next ((s.noteBad p).accepted.countAbort.answer via abGeneral 0 0)) ∧
        (inKeep (s.windowAddr via) = false → (∀ u ∈ partialUnits (s.windowAddr via) 8, u ∉ s.poison) →
          Answers (.windowDataWrite via v) s fun t =>
          (∀ a, s.windowAddr via ≤ a → a < s.windowAddr via + 8 → inKeep a = false →
            t.rd a = (leBytes 8 v.toNat).getD (a - s.windowAddr via) 0) ∧
          (∀ a, a < s.windowAddr via ∨ s.windowAddr via + 8 ≤ a → t.rd a = s.rd a) ∧ t.frame = s.frame ∧
          t.out = s.out ++ [.reply via 0 0 0])) ∧
      (∀ die, s.window via = .regs die →
        exec (.windowDataRead via) s = .next ({ s with freeCtr := s.freeCtr + 1 }.accepted.answer via 0 8
          (Config.freeWord s.freeCtr).toNat) ∧
        exec (.windowDataWrite via v) s = .refused .registerBlock) ∧
      (s.window via = .unmapped → exec (.windowDataRead via) s = no abGeneral ∧
        exec (.windowDataWrite via v) s = no abGeneral)))

/-- Debug grants, halts and the window: the parts DebugUnlocks, DebugHaltsAndWindow. -/
def Obligations.DebugUnlocksAndReaches : Prop :=
  Claims.DebugUnlocks ∧ Claims.DebugHaltsAndWindow

/-- R369: the eighth consecutive failed response locks debug out; then every debug request of every endpoint is refused with
0x08000022, until the lockout ends (60 s: LOCKOUT_EXPIRY). The count and the lockout survive every power state and reset. A
verified response clears the count. -/
def Obligations.DebugLocksOut : Prop := ∀ (s : State),
  let keeps (c : Instr) : Prop := Answers c s fun t => t.sec.fails = s.sec.fails ∧ t.sec.lockout = s.sec.lockout
  (s.served = true → s.up = true → ∀ via (sig : BitVec 768) (key : BitVec 776),
    let answer := s.sec.challenges.find? (fun c => decide (c.endpoint = via))
    (s.sec.lockout = false → s.sec.fails = 7 →
      (answer = none ∨ ∃ c, answer = some c ∧ ∀ k, s.debugKey c key = some k → sigVerify k (c.message s.sec.otp.uid) sig = false) →
      Answers (.debugResponse via sig key) s fun t => t.sec.lockout = true ∧ t.sec.fails = 8) ∧
    (∀ c k, s.sec.lockout = false → answer = some c → s.debugKey c key = some k →
      sigVerify k (c.message s.sec.otp.uid) sig = true → s.offers c.level = true → s.grantsFull via = false →
      Answers (.debugResponse via sig key) s fun t => t.sec.fails = 0) ∧
    (s.sec.lockout = true → ∀ v ch, exec (.debugRequest via v ch) s =
      .next (s.accepted.countAbort.answer via 0x08000022 0 0))) ∧
  (s.sec.lockout = true → Answers .lockoutExpiry s fun t => OnlySec s t ∧ t.sec.lockout = false) ∧
  (warmStartDue s = true → keeps .warmStart) ∧ (s.sec.entering.isSome = true → keeps .powerDownComplete) ∧
  (s.boot.resetLow = false → keeps .resetNAssert) ∧ (∀ k, k < 8 → keeps (.supplyBrownout k)) ∧
  (s.boot.resetLow = true → s.boot.suppliesGood = true → keeps .powerGood) ∧
  (s.boot.suppliesGood = false → keeps .suppliesWithinLimits) ∧ (s.sec.emberSupply = true → keeps .emberSupplyLoss)

/-- R371 to R374: entering DOZE the frame stops, contexts and grants below OWNER go, and OTP, store and clock stay; entering
EMBER only the ember domain stays. A wake source that is enabled and matches starts the wake in DOZE, is kept while an entry
is in progress, and does nothing in RUN; the alarm leaves the clock at its time. The loss of the ember supply stops the
clock; its return leaves it at 0 and not set. -/
def Obligations.PowerStatesAndWakes : Prop := ∀ (s : State),
  let source (c : Instr) (base : State) (cause : Nat) : Prop :=
    (s.sec.entering.isSome = true → exec c s = .next (base.modSec fun x =>
      { x with wakeWaiting := some (x.wakeWaiting.getD cause) })) ∧
    (s.sec.entering = none → s.sec.power = .doze → exec c s = .next (base.modSec fun x =>
      { x with wakeWaiting := some (x.wakeWaiting.getD cause), waking := true })) ∧
    (s.sec.entering = none → s.sec.power = .run ∨ s.sec.power = .hold → exec c s = .next base) ∧
    (s.sec.entering = none → s.sec.power = .ember → s.sec.waking = false → Answers c s fun t =>
      t.boot.pwrEn = true ∧ t.sec.wakeCause = cause ∧ t.sec.wakes = satInc 32 s.sec.wakes)
  let alarmed := s.modSec fun x => { x with rtc := BitVec.ofNat 64 (s.val 0x2240 0x0A), rtcAt := s.frame.now }
  (s.sec.entering = some .doze → Answers .powerDownComplete s fun t => t.sec.power = .doze ∧ t.sec.entering = none ∧
    t.frame.ticking = false ∧ t.ops = [] ∧ (∀ c, (t.ctx c).state = .free ∧ (t.ctx c).gen = (s.ctx c).gen) ∧
    (∀ g ∈ t.sec.grants, g ∈ s.sec.grants ∧ (g.level = .owner ∨ g.level = .vendor)) ∧ t.net.session = none ∧
    t.sec.otp = s.sec.otp ∧ t.sec.keys = s.sec.keys ∧ t.sec.rtc = s.sec.rtc ∧ t.obj = s.obj) ∧
  (s.sec.entering = some .ember → s.sec.wakeWaiting = none → Answers .powerDownComplete s fun t => t.sec.power = .ember ∧
    t.frame.ticking = false ∧ t.mem = [] ∧ t.ctxs = [] ∧ t.bundles = [] ∧ t.boot.started = false ∧
    t.sec.otp = s.sec.otp ∧ t.sec.keys = s.sec.keys ∧ t.sec.rtc = s.sec.rtc ∧ t.obj = s.stored ∧ t.out = s.out) ∧
  (∀ level, (s.sec.emberSupply = true → s.wakeOn 0 = true → level = decide (s.val 0x2240 5 = 1) →
      source (.wakeBall level) s 2) ∧
    (s.sec.emberSupply = false ∨ s.wakeOn 0 = false ∨ level ≠ decide (s.val 0x2240 5 = 1) →
      exec (.wakeBall level) s = .next s)) ∧
  (∀ f, (s.sec.emberSupply = true → s.wakeOn 1 = true → s.canMatches f = true → source (.canWakeFrame f) s 3) ∧
    (s.sec.emberSupply = false ∨ s.wakeOn 1 = false ∨ f.crcOk = false ∨ f.fd = true ∨ 500 < f.rate →
      exec (.canWakeFrame f) s = .next s)) ∧
  (s.sec.emberSupply = true → s.val 0x2240 0x0A ≠ 0 → (s.wakeOn 2 = true → source .rtcAlarm alarmed 4) ∧
    (s.wakeOn 2 = false → exec .rtcAlarm s = .next alarmed)) ∧
  (s.sec.emberSupply = true → s.sec.power ≠ .ember → exec .emberSupplyLoss s =
    .next (s.modSec fun x => { x with rtc := 0, rtcSet := false, rtcAt := s.frame.now, emberSupply := false })) ∧
  (s.sec.emberSupply = true → s.sec.power = .ember → Answers .emberSupplyLoss s fun t => t.sec.power = .off ∧
    t.boot.pwrEn = false ∧ t.boot.resetLow = true ∧ t.sec.rtcSet = false ∧ t.sec.emberSupply = false ∧ t.obj = s.obj ∧
    t.sec.otp = s.sec.otp) ∧
  (s.sec.emberSupply = false → exec .emberSupplyRestore s =
    .next (s.modSec fun x => { x with rtc := 0, rtcSet := false, rtcAt := s.frame.now, emberSupply := true }))

/-- R239, R378, R385, R386, R394, R395: power-good begins the cold start where the clock runs, counts a boot and prints its
cause; RESET_N and a supply out of limits take everything but OTP, store, flash and ember domain at once, with cause 1; a warm
start keeps the memory of a tenant whose pages stay, discards every context, keeps its generation, and latches the store. -/
def Obligations.ResetsAndStarts : Prop := ∀ (s : State),
  let cold (t : State) (cause : Nat) : Prop := t.boot.started = true ∧ t.boot.warm = false ∧ t.boot.cause = cause ∧
    t.boot.dev = .starting ∧ t.boot.pwrEn = true ∧ t.sec.boots = satInc 32 s.sec.boots ∧ t.mem = [] ∧ t.ctxs = [] ∧
    t.bundles = [] ∧ t.obj = s.stored ∧ t.eff = t.obj ∧ t.sec.otp = s.sec.otp ∧ t.frame.ticking = false ∧
    t.frame.counter = s.frame.counter ∧ t.out = s.out ++ [.console cause]
  let lost (t : State) : Prop := t.boot.started = false ∧ t.boot.cause = 1 ∧ t.mem = [] ∧ t.ctxs = [] ∧ t.bundles = [] ∧
    t.obj = s.stored ∧ t.sec.otp = s.sec.otp ∧ t.sec.keys = s.sec.keys ∧ t.sec.rtc = s.sec.rtc ∧ t.frame.ticking = false ∧
    t.gauges = [] ∧ t.out = s.out
  (s.boot.resetLow = true → s.boot.suppliesGood = true →
    (s.boot.sysclk = true → Answers .powerGood s fun t => t.boot.resetLow = false ∧ cold t s.boot.cause) ∧
    (s.boot.sysclk = false → Answers .powerGood s fun t => OnlyBoot s t ∧ t.boot = { s.boot with resetLow := false })) ∧
  (s.boot.resetLow = false → Answers .resetNAssert s fun t => t.boot.resetLow = true ∧ lost t) ∧
  (∀ k, k < 8 →
    (s.sec.power ≠ .ember → Answers (.supplyBrownout k) s fun t => t.boot.suppliesGood = false ∧ lost t) ∧
    (s.sec.power = .ember →
      exec (.supplyBrownout k) s = .next (s.modBoot fun b => { b with suppliesGood := false }))) ∧
  (s.boot.suppliesGood = false → s.sec.power ≠ .ember →
    (s.boot.sysclk = true → s.boot.resetLow = false → Answers .suppliesWithinLimits s fun t => cold t s.boot.cause) ∧
    (s.boot.resetLow = true → Answers .suppliesWithinLimits s fun t => OnlyBoot s t ∧
      t.boot = { s.boot with suppliesGood := true })) ∧
  (s.boot.sysclk = true → exec .sysclkStart s = .next s) ∧
  (s.boot.sysclk = false → s.boot.suppliesGood = true → s.boot.resetLow = false →
    Answers .sysclkStart s fun t => cold t s.boot.cause) ∧
  (s.boot.warmDue = true → s.boot.coldReq = true → Answers .warmStart s fun t => cold t 2) ∧
  (s.boot.warmDue = true → s.boot.coldReq = false → Answers .warmStart s fun t => t.boot.started = true ∧
    t.boot.warm = true ∧ t.boot.cause = s.boot.warmReq.getD 3 ∧ t.boot.dev = .starting ∧
    t.sec.boots = satInc 32 s.sec.boots ∧ t.obj = s.stored ∧ t.eff = s.stored ∧ t.frame.ticking = false ∧
    t.frame.counter = s.frame.counter ∧ t.ops = [] ∧ t.posted = [] ∧ t.bundles = s.bundles ∧
    (∀ c, (t.ctx c).state = .free ∧ (t.ctx c).gen = (s.ctx c).gen) ∧
    (∀ a, a < 2 * lpWindow → pageKept s.eff s.stored a = true → t.rd a = s.rd a) ∧
    t.sec.otp = s.sec.otp ∧ t.net.session = none ∧ (s.boot.warmReq ≠ some 8 → t.sec.grants = [])) ∧
  (s.boot.warmDue = false → s.boot.coldReq = false → s.sec.power = .doze → s.sec.waking = true → Answers .warmStart s fun t =>
    t.boot.warm = true ∧ t.boot.cause = 8 ∧ t.sec.power = .run ∧ t.sec.wakeCause = s.sec.wakeWaiting.getD 1 ∧
    t.sec.wakes = satInc 32 s.sec.wakes ∧ (∀ g ∈ t.sec.grants, g ∈ s.sec.grants ∧ (g.level = .owner ∨ g.level = .vendor)) ∧
    t.sec.otp = s.sec.otp)

/-- Table 8-7, R19, R305, R360, R377, R379, R191: each step of start-up does its part. R361: a key that does not match the hash
of its ACTIVE slot verifies nothing. A G-image that does not verify or does
not name the stepping leaves ROM recovery; training that fails, or a missing B- or N-image, Ground recovery. The Gauge dies
leave high impedance with every output SAFE. READY follows where every pair is tested; untested pairs that waivers cover
give WAIVED and cost each used waiver a boot; else LIMP. -/
def Obligations.StartUpSteps : Prop := ∀ (s : State),
  (s.startingUp = true → s.boot.gDone = false → ∀ a b,
    (s.pickImage 1 s.sec.otp.minG a b = none → Answers (.gImageVerify a b) s fun t => t.boot.dev = .recovery ∧
      t.boot.recovery = .rom ∧ t.boot.gDone = false ∧ (∀ d, d < 2 → (t.gauge d).hiZ = true) ∧ t.sec = s.sec) ∧
    (∀ g k, s.pickImage 1 s.sec.otp.minG a b = some (g, k) → Config.stepping ∈ g.steppings →
      s.sec.otp.life ≠ .scrapped → Answers (.gImageVerify a b) s fun t => t.boot.gDone = true ∧ t.boot.gImg = some g ∧
        t.boot.gBank = k ∧ t.boot.dev = .starting ∧ t.out.getLast? = some (.milestone 1) ∧ t.sec = s.sec ∧ t.obj = s.obj)) ∧
  (s.startingUp = true → s.boot.gDone = true → s.boot.gaugeDone = false → Answers .gaugeDiesWritten s fun t =>
    t.boot = { s.boot with gaugeDone := true } ∧
    ∀ d o : Nat, d < 2 → o < 20 → (t.gauge d).hiZ = false ∧
      t.output d o = ⟨s.safeValue d o, true, s.safeValue d o, true⟩) ∧
  (s.startingUp = true → s.boot.gDone = true → s.boot.memDone = false → ∀ tr capacity rate,
    let ok := matching tr capacity = 0x0FFF ∧ tget 0 capacity 0 ∈ [4, 8, 16] ∧ rate ∈ [8533, 7500, 6400]
    Answers (.lpddr5xTrainingComplete tr capacity rate) s fun t => t.memStat.trained = matching tr capacity ∧
      (ok → t.boot = { s.boot with memDone := true } ∧ t.gauges = s.gauges) ∧
      (¬ ok → t.boot.dev = .recovery ∧ t.boot.recovery = .image ∧ t.boot.memDone = false) ∧ t.sec = s.sec ∧ t.mem = s.mem) ∧
  (s.startingUp = true → s.boot.gDone = true → (s.boot.warm = true ∨ s.boot.memDone = true) → s.boot.imagesDone = false →
    s.sec.erasing = false → ∀ bA bB nA nB,
    let pb := s.pickImage 2 s.sec.otp.minB bA bB
    let pn := s.pickImage 3 s.sec.otp.minN nA nB
    (pb = none ∨ pn = none → ∀ lost, Answers (.imageCheck bA bB nA nB lost) s fun t => t.boot.dev = .recovery ∧
      t.boot.recovery = .image ∧ t.boot.imagesDone = false) ∧
    (∀ x k y j, pb = some (x, k) → pn = some (y, j) → s.boot.storeLost = false →
      Answers (.imageCheck bA bB nA nB false) s (fun t => t.boot.imagesDone = true ∧ t.boot.bImg = some x ∧
        t.boot.nImg = some y ∧ t.boot.bBank = k ∧ t.boot.nBank = j ∧ t.boot.dev = .starting ∧ t.obj = s.obj ∧
        t.sec = s.sec.checkKeys ∧ (∀ n, n < 3 → (tget {} s.sec.otp.slots n).state = .active →
          tget 0 s.sec.keys n ≠ 0 → digestVal (leBytes 97 (tget 0 s.sec.keys n).toNat) ≠ (tget {} s.sec.otp.slots n).hash →
          t.ownerKey n = none) ∧ t.out = s.out ++ [.milestone 3]) ∧
      Answers (.imageCheck bA bB nA nB true) s fun t => t.boot.dev = .recovery ∧ t.boot.storeLost = true ∧ t.obj = [] ∧
        t.sec.keys = [])) ∧
  (s.startingUp = true → s.boot.imagesDone = true → s.boot.memDone = true → s.boot.burnishDone = false → ∀ res temps,
    Answers (.startUpBurnishComplete res temps) s fun t => t.boot = { s.boot with burnishDone := true } ∧
      ∀ g : Nat, g < 32 → (s.plate g).slope = none → (s.plate g).history = [] →
        let p := { s.plate g with temp := tget 0 temps g }
        let m := tget {} res g
        (t.plate g).temp = tget 0 temps g ∧ (t.plate g).offTrim = (p.trims m).off ∧
        (t.plate g).gainTrim = (p.trims m).gain ∧ (t.plate g).offsets = (p.trims m).resid ∧
        (t.plate g).burnishes = satInc 32 (s.plate g).burnishes ∧
        (t.plate g).state = if p.beyond m = true then .failed
          else if (s.plate g).state = .overdue then .inService else (s.plate g).state) ∧
  (readyDue s = true → Answers .dictionaryReady s fun t => t.boot.untested = s.untestedPairs.length ∧
    (s.untestedPairs = [] → t.boot.dev = .ready ∧ t.boot.compat = 0 ∧ t.sec = s.sec) ∧
    (s.untestedPairs ≠ [] → (∀ p ∈ s.untestedPairs, (s.waiverFor p).isSome = true) → t.boot.dev = .waived ∧
      t.boot.compat = 2 ∧ ∀ k : Nat, tget 0 t.sec.waiverBoots k =
        if ∃ p ∈ s.untestedPairs, s.waiverFor p = some k then tget 0 s.sec.waiverBoots k - 1
        else tget 0 s.sec.waiverBoots k) ∧
    ((∃ p ∈ s.untestedPairs, s.waiverFor p = none) → t.boot.dev = .limp ∧ t.boot.compat = 1 ∧ t.sec = s.sec) ∧
    (∀ p, p < 4 → (t.can p).latched = none) ∧ t.frame = s.frame ∧ t.mem = s.mem ∧ t.obj = s.obj)

/-- R391, Table 16-7: recovery commands act in Ground recovery alone. A busy one, or a malformed one, changes no flash. ERASE
empties the unused bank; WRITE stores its bytes there where they fit and their CRC agrees; COMMIT judges the image; STATUS
succeeds; RESTART begins a cold start with cause 1. The bank that G0 took is written by none of them. -/
def Obligations.RecoveryCommands : Prop := ∀ (s : State) (h : RecoveryHeader),
  let rows (busy : Bool) (bs : List Byte) (img : Option Image) : List (Nat × Instr) :=
    [(1, .recoveryErase h busy), (2, .recoveryWrite h bs busy), (3, .recoveryCommit h img busy), (4, .recoveryStatus h busy),
     (5, .recoveryRestart h busy)]
  let n := rcImage h
  let flash (t : State) (res : Nat) : Prop := t.boot.recStatus = 2 ∧ t.boot.recResult = res ∧
    t.out = s.out ++ [.recovery res] ∧ t.sec = s.sec ∧ t.obj = s.obj
  (∀ busy bs img, ∀ e ∈ rows busy bs img, rcOp h = e.1 →
    (s.boot.dev ≠ .recovery → exec e.2 s = .next s) ∧
    (s.boot.dev = .recovery → busy = true → exec e.2 s = .next (s.send (.recovery 6))) ∧
    (s.boot.dev = .recovery → busy = false → fld h 31 11 ≠ 0 → Answers e.2 s fun t => flash t 7 ∧
      t.boot.unusedBank = s.boot.unusedBank ∧ t.boot.touched = s.boot.touched)) ∧
  (s.boot.dev = .recovery → s.sec.otp.life ≠ .scrapped → fld h 31 11 = 0 →
    (rcOp h = 1 → 1 ≤ n → n ≤ 3 → Answers (.recoveryErase h false) s fun t => flash t 0 ∧ tget [] t.boot.unusedBank n = [] ∧
      (∀ k, k ≠ n → tget [] t.boot.unusedBank k = tget [] s.boot.unusedBank k) ∧
      tget false t.boot.touched (2 * n + s.boot.unused n) = true) ∧
    (∀ bs, rcOp h = 2 → 1 ≤ n → n ≤ 3 →
      let form := 1 ≤ rcLength h ∧ rcLength h ≤ 4096 ∧ rcOffset h % 4096 = 0 ∧ rcOffset h + rcLength h ≤ bankSize ∧
        bs.length = rcLength h
      (¬ form → Answers (.recoveryWrite h bs false) s fun t => flash t 2 ∧ t.boot.unusedBank = s.boot.unusedBank) ∧
      (form → (crc32c bs).toNat ≠ rcCrc h → Answers (.recoveryWrite h bs false) s fun t => flash t 1 ∧
        t.boot.unusedBank = s.boot.unusedBank) ∧
      (form → (crc32c bs).toNat = rcCrc h → Answers (.recoveryWrite h bs false) s fun t => flash t 0 ∧
        tgetRun 0xFF (tget [] t.boot.unusedBank n) (rcOffset h) bs.length = bs ∧
        (∀ a, a < rcOffset h ∨ rcOffset h + bs.length ≤ a →
          tget 0xFF (tget [] t.boot.unusedBank n) a = tget 0xFF (tget [] s.boot.unusedBank n) a) ∧
        ∀ k, k ≠ n → tget [] t.boot.unusedBank k = tget [] s.boot.unusedBank k)) ∧
    (rcOp h = 3 → 1 ≤ n → n ≤ 3 →
      Answers (.recoveryCommit h none false) s (fun t => flash t 3 ∧ t.boot.touched = s.boot.touched) ∧
      ∀ i : Image, Answers (.recoveryCommit h (some i) false) s fun t =>
        (i.sigOk = false → flash t 3) ∧
        (i.sigOk = true → fld i.version 31 24 < s.sec.otp.min n → flash t 4) ∧
        (i.sigOk = true → s.sec.otp.min n ≤ fld i.version 31 24 → n = 1 → Config.stepping ∉ i.steppings → flash t 5) ∧
        (i.sigOk = true → s.sec.otp.min n ≤ fld i.version 31 24 → (n ≠ 1 ∨ Config.stepping ∈ i.steppings) →
          flash t 0 ∧ tget false t.boot.touched (2 * n + s.boot.unused n) = false)) ∧
    (rcOp h = 4 → Answers (.recoveryStatus h false) s fun t => flash t 0 ∧ t.boot.unusedBank = s.boot.unusedBank) ∧
    (rcOp h = 5 → Answers (.recoveryRestart h false) s fun t => t.boot.started = true ∧ t.boot.warm = false ∧
      t.boot.cause = 1 ∧ t.boot.dev = .starting ∧ t.boot.unusedBank = s.boot.unusedBank ∧ t.sec.otp = s.sec.otp ∧
      t.sec.boots = satInc 32 s.sec.boots))
end

