-- ==== Sys2Proof/Laws/Tab.lean ====
section
/-!
SUPPORT. Laws of sparse tables: a read after a write, and the canonical form, which every operation keeps.
-/

namespace Sys2Proof.Machine

variable {α : Type}

theorem tsorted_tail {e : Nat × α} {t : Tab α} (h : tsorted (e :: t) = true) : tsorted t = true := by
  cases t with
  | nil => rfl
  | cons f t => simp [tsorted] at h; exact h.2

theorem tsorted_head {e : Nat × α} {t : Tab α} (h : tsorted (e :: t) = true) : ∀ f ∈ t, e.1 < f.1 := by
  induction t generalizing e with
  | nil => intro f hf; cases hf
  | cons g t ih =>
    simp [tsorted] at h
    intro f hf
    rcases List.mem_cons.1 hf with rfl | hf
    · exact h.1
    · exact Nat.lt_trans h.1 (ih h.2 f hf)

theorem tsorted_cons {e : Nat × α} {t : Tab α} (ht : tsorted t = true) (h : ∀ f ∈ t, e.1 < f.1) :
    tsorted (e :: t) = true := by
  cases t with
  | nil => rfl
  | cons f t => simp [tsorted, ht, h f (by simp)]

theorem tget_absent (d : α) {t : Tab α} {k : Nat} (h : ∀ e ∈ t, e.1 ≠ k) : tget d t k = d := by
  induction t with
  | nil => rfl
  | cons e t ih =>
    obtain ⟨j, v⟩ := e
    have hj : k ≠ j := fun hk => h (j, v) (by simp) hk.symm
    simp [tget, hj, ih (fun e he => h e (List.mem_cons_of_mem _ he))]

theorem tget_above (d : α) {t : Tab α} {k : Nat} (h : ∀ e ∈ t, k < e.1) : tget d t k = d :=
  tget_absent d (fun e he hk => absurd (h e he) (by omega))

variable [DecidableEq α]

/-! ### Reads after a write -/

omit [DecidableEq α] in
theorem tget_tdel (d : α) (t : Tab α) (k j : Nat) : tget d (tdel t k) j = if j = k then d else tget d t j := by
  induction t with
  | nil => simp [tdel, tget]
  | cons e t ih =>
    obtain ⟨i, w⟩ := e
    simp only [tdel, List.filter_cons] at ih ⊢
    by_cases hi : i = k
    · subst hi
      simp only [ne_eq, not_true_eq_false, decide_false, Bool.false_eq_true, if_false, ih, tget]
      by_cases hj : j = i <;> simp [hj]
    · simp only [ne_eq, hi, not_false_eq_true, decide_true, if_true, tget, ih]
      by_cases hj : j = i
      · subst hj; simp [hi]
      · simp [hj]

omit [DecidableEq α] in
theorem tget_tins (d : α) (t : Tab α) (k j : Nat) (v : α) (h : ∀ e ∈ t, e.1 ≠ k) :
    tget d (tins t k v) j = if j = k then v else tget d t j := by
  induction t with
  | nil => simp [tins, tget]
  | cons e t ih =>
    obtain ⟨i, w⟩ := e
    have hi : i ≠ k := h (i, w) List.mem_cons_self
    have ih := ih (fun e he => h e (List.mem_cons_of_mem _ he))
    simp only [tins]
    split
    · simp [tget]
    · simp only [tget, ih]
      by_cases hj : j = i
      · subst hj; simp [hi]
      · simp [hj]

omit [DecidableEq α] in
theorem tdel_keys (t : Tab α) (k : Nat) : ∀ e ∈ tdel t k, e.1 ≠ k := by
  intro e he; simpa [tdel] using (List.mem_filter.1 he).2

/-- What a read finds after a write. -/
theorem tget_tset (d : α) (t : Tab α) (k j : Nat) (v : α) :
    tget d (tset d t k v) j = if j = k then v else tget d t j := by
  unfold tset
  split
  · rename_i h; rw [tget_tdel, h]
  · rw [tget_tins d _ k j v (tdel_keys t k), tget_tdel]
    by_cases hj : j = k <;> simp [hj]

@[simp] theorem tget_tset_same (d : α) (t : Tab α) (k : Nat) (v : α) : tget d (tset d t k v) k = v := by
  simp [tget_tset]

theorem tget_tset_ne (d : α) (t : Tab α) {k j : Nat} (v : α) (h : j ≠ k) : tget d (tset d t k v) j = tget d t j := by
  simp [tget_tset, h]

@[simp] theorem tget_tmod_same (d : α) (t : Tab α) (k : Nat) (f : α → α) :
    tget d (tmod d t k f) k = f (tget d t k) := by simp [tmod]

theorem tget_tmod_ne (d : α) (t : Tab α) {k j : Nat} (f : α → α) (h : j ≠ k) :
    tget d (tmod d t k f) j = tget d t j := by simp [tmod, tget_tset, h]

/-! ### The canonical form -/

omit [DecidableEq α] in
theorem tsorted_filter {t : Tab α} (p : Nat × α → Bool) (h : tsorted t = true) : tsorted (t.filter p) = true := by
  induction t with
  | nil => rfl
  | cons e t ih =>
    have ih := ih (tsorted_tail h)
    simp only [List.filter_cons]
    split
    · exact tsorted_cons ih (fun f hf => tsorted_head h f (List.mem_filter.1 hf).1)
    · exact ih

omit [DecidableEq α] in
theorem tins_keys {t : Tab α} {k : Nat} {v : α} {e : Nat × α} (h : e ∈ tins t k v) : e ∈ t ∨ e = (k, v) := by
  induction t with
  | nil => simp [tins] at h; exact .inr h
  | cons f t ih =>
    obtain ⟨j, w⟩ := f
    simp only [tins] at h
    split at h
    · rcases List.mem_cons.1 h with h | h
      · exact .inr h
      · exact .inl h
    · rcases List.mem_cons.1 h with h | h
      · exact .inl (h ▸ List.mem_cons_self)
      · exact (ih h).imp (List.mem_cons_of_mem _) id

omit [DecidableEq α] in
theorem tins_sorted {t : Tab α} {k : Nat} {v : α} (h : tsorted t = true) (hk : ∀ e ∈ t, e.1 ≠ k) :
    tsorted (tins t k v) = true := by
  induction t with
  | nil => rfl
  | cons f t ih =>
    obtain ⟨j, w⟩ := f
    have hj : j ≠ k := hk (j, w) List.mem_cons_self
    have hh := tsorted_head h
    simp only [tins]
    split
    · rename_i hlt
      refine tsorted_cons h ?_
      intro e he
      rcases List.mem_cons.1 he with rfl | he
      · exact hlt
      · exact Nat.lt_trans hlt (hh e he)
    · rename_i hlt
      refine tsorted_cons (ih (tsorted_tail h) (fun e he => hk e (List.mem_cons_of_mem _ he))) ?_
      intro e he
      rcases tins_keys he with he | rfl
      · exact hh e he
      · simp; omega

theorem twf_sorted {d : α} {t : Tab α} (h : twf d t = true) : tsorted t = true := by
  simp [twf] at h; exact h.1

theorem twf_entries {d : α} {t : Tab α} (h : twf d t = true) : ∀ e ∈ t, e.2 ≠ d := by
  simp [twf] at h; intro e he; exact h.2 e.1 e.2 he

theorem twf_of {d : α} {t : Tab α} (h : tsorted t = true) (h' : ∀ e ∈ t, e.2 ≠ d) : twf d t = true := by
  simp [twf, h]; intro a b hab; exact h' (a, b) hab

@[simp] theorem twf_nil (d : α) : twf d ([] : Tab α) = true := rfl

/-- A write keeps the canonical form. -/
theorem twf_tset {d : α} {t : Tab α} (h : twf d t = true) (k : Nat) (v : α) : twf d (tset d t k v) = true := by
  have hd : tsorted (tdel t k) = true := tsorted_filter _ (twf_sorted h)
  have he : ∀ e ∈ tdel t k, e.2 ≠ d := fun e he => twf_entries h e (List.mem_filter.1 he).1
  unfold tset
  split
  · exact twf_of hd he
  · rename_i hv
    refine twf_of (tins_sorted hd (tdel_keys t k)) ?_
    intro e h'
    rcases tins_keys h' with h' | rfl
    · exact he e h'
    · exact hv

theorem twf_tmod {d : α} {t : Tab α} (h : twf d t = true) (k : Nat) (f : α → α) : twf d (tmod d t k f) = true :=
  twf_tset h k _

theorem twf_tsetRun {d : α} (vs : List α) {t : Tab α} (h : twf d t = true) (k : Nat) :
    twf d (tsetRun d t k vs) = true := by
  induction vs generalizing t k with
  | nil => exact h
  | cons v vs ih => exact ih (twf_tset h k v) (k + 1)

/-- Leaving entries out keeps the canonical form. -/
theorem twf_filter {d : α} {t : Tab α} (p : Nat × α → Bool) (h : twf d t = true) : twf d (t.filter p) = true :=
  twf_of (tsorted_filter p (twf_sorted h)) (fun e he => twf_entries h e (List.mem_filter.1 he).1)

/-- A change of every listed value, read back. -/
theorem tget_tmap (d : α) (f : Nat → α → α) (t : Tab α) (k : Nat) (h : f k d = d) :
    tget d (tmap d f t) k = f k (tget d t k) := by
  induction t with
  | nil => simp [tmap, tget, h]
  | cons e t ih =>
    obtain ⟨j, v⟩ := e
    simp only [tmap, tget_tset, tget, ih]
    by_cases hk : k = j
    · subst hk; simp
    · simp [hk]

theorem twf_tmap (d : α) (f : Nat → α → α) (t : Tab α) : twf d (tmap d f t) = true := by
  induction t with
  | nil => rfl
  | cons e t ih => exact twf_tset ih _ _

omit [DecidableEq α] in
theorem tdel_of_absent {t : Tab α} {k : Nat} (h : ∀ e ∈ t, e.1 ≠ k) : tdel t k = t := by
  simpa [tdel] using h

omit [DecidableEq α] in
theorem tdel_tins (t : Tab α) (k : Nat) (v : α) : tdel (tins t k v) k = tdel t k := by
  induction t with
  | nil => simp [tins, tdel]
  | cons e t ih =>
    obtain ⟨j, w⟩ := e
    simp only [tins]
    split
    · simp [tdel]
    · simp only [tdel, List.filter_cons] at ih ⊢
      rw [ih]

omit [DecidableEq α] in
theorem tdel_tdel (t : Tab α) (k : Nat) : tdel (tdel t k) k = tdel t k := tdel_of_absent (tdel_keys t k)

/-- Of two writes of one key the later stands. -/
@[simp] theorem tset_tset (d : α) (t : Tab α) (k : Nat) (v w : α) : tset d (tset d t k v) k w = tset d t k w := by
  have h : tdel (tset d t k v) k = tdel t k := by
    unfold tset
    split
    · exact tdel_tdel t k
    · rw [tdel_tins, tdel_tdel]
  simp only [tset, h] at *

@[simp] theorem tmod_tmod (d : α) (t : Tab α) (k : Nat) (f g : α → α) :
    tmod d (tmod d t k f) k g = tmod d t k (fun x => g (f x)) := by simp [tmod]

/-- A read of a run: what was written inside it, what stood before outside it. -/
theorem tget_tsetRun (d : α) (vs : List α) (t : Tab α) (k j : Nat) :
    tget d (tsetRun d t k vs) j = if k ≤ j ∧ j < k + vs.length then vs.getD (j - k) d else tget d t j := by
  induction vs generalizing t k with
  | nil => simp [tsetRun]
  | cons v vs ih =>
    simp only [tsetRun, ih, tget_tset, List.length_cons]
    by_cases h1 : j = k
    · subst h1
      have h2 : ¬ (j + 1 ≤ j ∧ j < j + 1 + vs.length) := by omega
      have h3 : j ≤ j ∧ j < j + (vs.length + 1) := by omega
      simp only [h2, h3, if_false, if_true]
      simp
    · by_cases h4 : k + 1 ≤ j ∧ j < k + 1 + vs.length
      · have h5 : k ≤ j ∧ j < k + (vs.length + 1) := by omega
        simp only [h4, h5]
        obtain ⟨n, hn⟩ : ∃ n, j - k = n + 1 := ⟨j - k - 1, by omega⟩
        rw [hn, show j - (k + 1) = n by omega]
        simp
      · have h5 : ¬ (k ≤ j ∧ j < k + (vs.length + 1)) := by omega
        simp only [h4, h5, h1, if_false]

omit [DecidableEq α] in
/-- What a read finds after keys are filtered out. -/
theorem tget_filter_keys (d : α) (t : Tab α) (p : Nat → Bool) (k : Nat) :
    tget d (t.filter fun e => p e.1) k = if p k = true then tget d t k else d := by
  induction t with
  | nil => simp [tget]
  | cons e t ih =>
    obtain ⟨i, w⟩ := e
    simp only [List.filter_cons]
    cases hi : p i
    · simp only [Bool.false_eq_true, if_false, ih, tget]
      by_cases hk : k = i
      · subst hk; simp [hi]
      · simp [hk]
    · simp only [if_true, tget, ih]
      by_cases hk : k = i
      · subst hk; simp [hi]
      · simp [hk]

end Sys2Proof.Machine
end

