-- ==== Sys2Proof/Laws/State.lean ====
section
/-!
SUPPORT. What each update of State leaves and changes, field by field, so that no proof unfolds a record update.
-/

namespace Sys2Proof.Machine

variable (s : State)

/-! ### setCtx -/

@[simp] theorem State.setCtx_frame (c : Nat) (x : Ctx) : (s.setCtx c x).frame = s.frame := rfl
@[simp] theorem State.setCtx_tenants (c : Nat) (x : Ctx) : (s.setCtx c x).tenants = s.tenants := rfl
@[simp] theorem State.setCtx_links (c : Nat) (x : Ctx) : (s.setCtx c x).links = s.links := rfl
@[simp] theorem State.setCtx_arb (c : Nat) (x : Ctx) : (s.setCtx c x).arb = s.arb := rfl
@[simp] theorem State.setCtx_mem (c : Nat) (x : Ctx) : (s.setCtx c x).mem = s.mem := rfl
@[simp] theorem State.setCtx_host (c : Nat) (x : Ctx) : (s.setCtx c x).host = s.host := rfl
@[simp] theorem State.setCtx_poison (c : Nat) (x : Ctx) : (s.setCtx c x).poison = s.poison := rfl
@[simp] theorem State.setCtx_memStat (c : Nat) (x : Ctx) : (s.setCtx c x).memStat = s.memStat := rfl
@[simp] theorem State.setCtx_posted (c : Nat) (x : Ctx) : (s.setCtx c x).posted = s.posted := rfl
@[simp] theorem State.setCtx_plates (c : Nat) (x : Ctx) : (s.setCtx c x).plates = s.plates := rfl
@[simp] theorem State.setCtx_rebites (c : Nat) (x : Ctx) : (s.setCtx c x).rebites = s.rebites := rfl
@[simp] theorem State.setCtx_fabs (c : Nat) (x : Ctx) : (s.setCtx c x).fabs = s.fabs := rfl
@[simp] theorem State.setCtx_ops (c : Nat) (x : Ctx) : (s.setCtx c x).ops = s.ops := rfl
@[simp] theorem State.setCtx_unitHeld (c : Nat) (x : Ctx) : (s.setCtx c x).unitHeld = s.unitHeld := rfl
@[simp] theorem State.setCtx_ctxs (c : Nat) (x : Ctx) : (s.setCtx c x).ctxs = tset {} s.ctxs c x := rfl
@[simp] theorem State.setCtx_slotOpsTotal (c : Nat) (x : Ctx) : (s.setCtx c x).slotOpsTotal = s.slotOpsTotal := rfl
@[simp] theorem State.setCtx_restores (c : Nat) (x : Ctx) : (s.setCtx c x).restores = s.restores := rfl
@[simp] theorem State.setCtx_bundles (c : Nat) (x : Ctx) : (s.setCtx c x).bundles = s.bundles := rfl
@[simp] theorem State.setCtx_obj (c : Nat) (x : Ctx) : (s.setCtx c x).obj = s.obj := rfl
@[simp] theorem State.setCtx_eff (c : Nat) (x : Ctx) : (s.setCtx c x).eff = s.eff := rfl
@[simp] theorem State.setCtx_effT (c : Nat) (x : Ctx) : (s.setCtx c x).effT = s.effT := rfl
@[simp] theorem State.setCtx_rwt (c : Nat) (x : Ctx) : (s.setCtx c x).rwt = s.rwt := rfl
@[simp] theorem State.setCtx_net (c : Nat) (x : Ctx) : (s.setCtx c x).net = s.net := rfl
@[simp] theorem State.setCtx_gauges (c : Nat) (x : Ctx) : (s.setCtx c x).gauges = s.gauges := rfl
@[simp] theorem State.setCtx_power (c : Nat) (x : Ctx) : (s.setCtx c x).power = s.power := rfl
@[simp] theorem State.setCtx_sec (c : Nat) (x : Ctx) : (s.setCtx c x).sec = s.sec := rfl
@[simp] theorem State.setCtx_boot (c : Nat) (x : Ctx) : (s.setCtx c x).boot = s.boot := rfl
@[simp] theorem State.setCtx_out (c : Nat) (x : Ctx) : (s.setCtx c x).out = s.out := rfl
@[simp] theorem State.setCtx_freeCtr (c : Nat) (x : Ctx) : (s.setCtx c x).freeCtr = s.freeCtr := rfl
@[simp] theorem State.setCtx_pending (c : Nat) (x : Ctx) : (s.setCtx c x).pending = s.pending := rfl

/-! ### modCtx -/

@[simp] theorem State.modCtx_frame (c : Nat) (f : Ctx → Ctx) : (s.modCtx c f).frame = s.frame := rfl
@[simp] theorem State.modCtx_tenants (c : Nat) (f : Ctx → Ctx) : (s.modCtx c f).tenants = s.tenants := rfl
@[simp] theorem State.modCtx_links (c : Nat) (f : Ctx → Ctx) : (s.modCtx c f).links = s.links := rfl
@[simp] theorem State.modCtx_arb (c : Nat) (f : Ctx → Ctx) : (s.modCtx c f).arb = s.arb := rfl
@[simp] theorem State.modCtx_mem (c : Nat) (f : Ctx → Ctx) : (s.modCtx c f).mem = s.mem := rfl
@[simp] theorem State.modCtx_host (c : Nat) (f : Ctx → Ctx) : (s.modCtx c f).host = s.host := rfl
@[simp] theorem State.modCtx_poison (c : Nat) (f : Ctx → Ctx) : (s.modCtx c f).poison = s.poison := rfl
@[simp] theorem State.modCtx_memStat (c : Nat) (f : Ctx → Ctx) : (s.modCtx c f).memStat = s.memStat := rfl
@[simp] theorem State.modCtx_posted (c : Nat) (f : Ctx → Ctx) : (s.modCtx c f).posted = s.posted := rfl
@[simp] theorem State.modCtx_plates (c : Nat) (f : Ctx → Ctx) : (s.modCtx c f).plates = s.plates := rfl
@[simp] theorem State.modCtx_rebites (c : Nat) (f : Ctx → Ctx) : (s.modCtx c f).rebites = s.rebites := rfl
@[simp] theorem State.modCtx_fabs (c : Nat) (f : Ctx → Ctx) : (s.modCtx c f).fabs = s.fabs := rfl
@[simp] theorem State.modCtx_ops (c : Nat) (f : Ctx → Ctx) : (s.modCtx c f).ops = s.ops := rfl
@[simp] theorem State.modCtx_unitHeld (c : Nat) (f : Ctx → Ctx) : (s.modCtx c f).unitHeld = s.unitHeld := rfl
@[simp] theorem State.modCtx_ctxs (c : Nat) (f : Ctx → Ctx) : (s.modCtx c f).ctxs = tset {} s.ctxs c (f (s.ctx c)) := rfl
@[simp] theorem State.modCtx_slotOpsTotal (c : Nat) (f : Ctx → Ctx) : (s.modCtx c f).slotOpsTotal = s.slotOpsTotal := rfl
@[simp] theorem State.modCtx_restores (c : Nat) (f : Ctx → Ctx) : (s.modCtx c f).restores = s.restores := rfl
@[simp] theorem State.modCtx_bundles (c : Nat) (f : Ctx → Ctx) : (s.modCtx c f).bundles = s.bundles := rfl
@[simp] theorem State.modCtx_obj (c : Nat) (f : Ctx → Ctx) : (s.modCtx c f).obj = s.obj := rfl
@[simp] theorem State.modCtx_eff (c : Nat) (f : Ctx → Ctx) : (s.modCtx c f).eff = s.eff := rfl
@[simp] theorem State.modCtx_effT (c : Nat) (f : Ctx → Ctx) : (s.modCtx c f).effT = s.effT := rfl
@[simp] theorem State.modCtx_rwt (c : Nat) (f : Ctx → Ctx) : (s.modCtx c f).rwt = s.rwt := rfl
@[simp] theorem State.modCtx_net (c : Nat) (f : Ctx → Ctx) : (s.modCtx c f).net = s.net := rfl
@[simp] theorem State.modCtx_gauges (c : Nat) (f : Ctx → Ctx) : (s.modCtx c f).gauges = s.gauges := rfl
@[simp] theorem State.modCtx_power (c : Nat) (f : Ctx → Ctx) : (s.modCtx c f).power = s.power := rfl
@[simp] theorem State.modCtx_sec (c : Nat) (f : Ctx → Ctx) : (s.modCtx c f).sec = s.sec := rfl
@[simp] theorem State.modCtx_boot (c : Nat) (f : Ctx → Ctx) : (s.modCtx c f).boot = s.boot := rfl
@[simp] theorem State.modCtx_out (c : Nat) (f : Ctx → Ctx) : (s.modCtx c f).out = s.out := rfl
@[simp] theorem State.modCtx_freeCtr (c : Nat) (f : Ctx → Ctx) : (s.modCtx c f).freeCtr = s.freeCtr := rfl
@[simp] theorem State.modCtx_pending (c : Nat) (f : Ctx → Ctx) : (s.modCtx c f).pending = s.pending := rfl

/-! ### modQueue -/

@[simp] theorem State.modQueue_frame (c q : Nat) (f : Queue → Queue) : (s.modQueue c q f).frame = s.frame := rfl
@[simp] theorem State.modQueue_tenants (c q : Nat) (f : Queue → Queue) : (s.modQueue c q f).tenants = s.tenants := rfl
@[simp] theorem State.modQueue_links (c q : Nat) (f : Queue → Queue) : (s.modQueue c q f).links = s.links := rfl
@[simp] theorem State.modQueue_arb (c q : Nat) (f : Queue → Queue) : (s.modQueue c q f).arb = s.arb := rfl
@[simp] theorem State.modQueue_mem (c q : Nat) (f : Queue → Queue) : (s.modQueue c q f).mem = s.mem := rfl
@[simp] theorem State.modQueue_host (c q : Nat) (f : Queue → Queue) : (s.modQueue c q f).host = s.host := rfl
@[simp] theorem State.modQueue_poison (c q : Nat) (f : Queue → Queue) : (s.modQueue c q f).poison = s.poison := rfl
@[simp] theorem State.modQueue_memStat (c q : Nat) (f : Queue → Queue) : (s.modQueue c q f).memStat = s.memStat := rfl
@[simp] theorem State.modQueue_posted (c q : Nat) (f : Queue → Queue) : (s.modQueue c q f).posted = s.posted := rfl
@[simp] theorem State.modQueue_plates (c q : Nat) (f : Queue → Queue) : (s.modQueue c q f).plates = s.plates := rfl
@[simp] theorem State.modQueue_rebites (c q : Nat) (f : Queue → Queue) : (s.modQueue c q f).rebites = s.rebites := rfl
@[simp] theorem State.modQueue_fabs (c q : Nat) (f : Queue → Queue) : (s.modQueue c q f).fabs = s.fabs := rfl
@[simp] theorem State.modQueue_ops (c q : Nat) (f : Queue → Queue) : (s.modQueue c q f).ops = s.ops := rfl
@[simp] theorem State.modQueue_unitHeld (c q : Nat) (f : Queue → Queue) : (s.modQueue c q f).unitHeld = s.unitHeld := rfl
@[simp] theorem State.modQueue_slotOpsTotal (c q : Nat) (f : Queue → Queue) : (s.modQueue c q f).slotOpsTotal = s.slotOpsTotal := rfl
@[simp] theorem State.modQueue_restores (c q : Nat) (f : Queue → Queue) : (s.modQueue c q f).restores = s.restores := rfl
@[simp] theorem State.modQueue_bundles (c q : Nat) (f : Queue → Queue) : (s.modQueue c q f).bundles = s.bundles := rfl
@[simp] theorem State.modQueue_obj (c q : Nat) (f : Queue → Queue) : (s.modQueue c q f).obj = s.obj := rfl
@[simp] theorem State.modQueue_eff (c q : Nat) (f : Queue → Queue) : (s.modQueue c q f).eff = s.eff := rfl
@[simp] theorem State.modQueue_effT (c q : Nat) (f : Queue → Queue) : (s.modQueue c q f).effT = s.effT := rfl
@[simp] theorem State.modQueue_rwt (c q : Nat) (f : Queue → Queue) : (s.modQueue c q f).rwt = s.rwt := rfl
@[simp] theorem State.modQueue_net (c q : Nat) (f : Queue → Queue) : (s.modQueue c q f).net = s.net := rfl
@[simp] theorem State.modQueue_gauges (c q : Nat) (f : Queue → Queue) : (s.modQueue c q f).gauges = s.gauges := rfl
@[simp] theorem State.modQueue_power (c q : Nat) (f : Queue → Queue) : (s.modQueue c q f).power = s.power := rfl
@[simp] theorem State.modQueue_sec (c q : Nat) (f : Queue → Queue) : (s.modQueue c q f).sec = s.sec := rfl
@[simp] theorem State.modQueue_boot (c q : Nat) (f : Queue → Queue) : (s.modQueue c q f).boot = s.boot := rfl
@[simp] theorem State.modQueue_out (c q : Nat) (f : Queue → Queue) : (s.modQueue c q f).out = s.out := rfl
@[simp] theorem State.modQueue_freeCtr (c q : Nat) (f : Queue → Queue) : (s.modQueue c q f).freeCtr = s.freeCtr := rfl
@[simp] theorem State.modQueue_pending (c q : Nat) (f : Queue → Queue) : (s.modQueue c q f).pending = s.pending := rfl

/-! ### modTen -/

@[simp] theorem State.modTen_frame (t : Nat) (f : Tenant → Tenant) : (s.modTen t f).frame = s.frame := rfl
@[simp] theorem State.modTen_tenants (t : Nat) (f : Tenant → Tenant) : (s.modTen t f).tenants = tmod {} s.tenants t f := rfl
@[simp] theorem State.modTen_links (t : Nat) (f : Tenant → Tenant) : (s.modTen t f).links = s.links := rfl
@[simp] theorem State.modTen_arb (t : Nat) (f : Tenant → Tenant) : (s.modTen t f).arb = s.arb := rfl
@[simp] theorem State.modTen_mem (t : Nat) (f : Tenant → Tenant) : (s.modTen t f).mem = s.mem := rfl
@[simp] theorem State.modTen_host (t : Nat) (f : Tenant → Tenant) : (s.modTen t f).host = s.host := rfl
@[simp] theorem State.modTen_poison (t : Nat) (f : Tenant → Tenant) : (s.modTen t f).poison = s.poison := rfl
@[simp] theorem State.modTen_memStat (t : Nat) (f : Tenant → Tenant) : (s.modTen t f).memStat = s.memStat := rfl
@[simp] theorem State.modTen_posted (t : Nat) (f : Tenant → Tenant) : (s.modTen t f).posted = s.posted := rfl
@[simp] theorem State.modTen_plates (t : Nat) (f : Tenant → Tenant) : (s.modTen t f).plates = s.plates := rfl
@[simp] theorem State.modTen_rebites (t : Nat) (f : Tenant → Tenant) : (s.modTen t f).rebites = s.rebites := rfl
@[simp] theorem State.modTen_fabs (t : Nat) (f : Tenant → Tenant) : (s.modTen t f).fabs = s.fabs := rfl
@[simp] theorem State.modTen_ops (t : Nat) (f : Tenant → Tenant) : (s.modTen t f).ops = s.ops := rfl
@[simp] theorem State.modTen_unitHeld (t : Nat) (f : Tenant → Tenant) : (s.modTen t f).unitHeld = s.unitHeld := rfl
@[simp] theorem State.modTen_ctxs (t : Nat) (f : Tenant → Tenant) : (s.modTen t f).ctxs = s.ctxs := rfl
@[simp] theorem State.modTen_slotOpsTotal (t : Nat) (f : Tenant → Tenant) : (s.modTen t f).slotOpsTotal = s.slotOpsTotal := rfl
@[simp] theorem State.modTen_restores (t : Nat) (f : Tenant → Tenant) : (s.modTen t f).restores = s.restores := rfl
@[simp] theorem State.modTen_bundles (t : Nat) (f : Tenant → Tenant) : (s.modTen t f).bundles = s.bundles := rfl
@[simp] theorem State.modTen_obj (t : Nat) (f : Tenant → Tenant) : (s.modTen t f).obj = s.obj := rfl
@[simp] theorem State.modTen_eff (t : Nat) (f : Tenant → Tenant) : (s.modTen t f).eff = s.eff := rfl
@[simp] theorem State.modTen_effT (t : Nat) (f : Tenant → Tenant) : (s.modTen t f).effT = s.effT := rfl
@[simp] theorem State.modTen_rwt (t : Nat) (f : Tenant → Tenant) : (s.modTen t f).rwt = s.rwt := rfl
@[simp] theorem State.modTen_net (t : Nat) (f : Tenant → Tenant) : (s.modTen t f).net = s.net := rfl
@[simp] theorem State.modTen_gauges (t : Nat) (f : Tenant → Tenant) : (s.modTen t f).gauges = s.gauges := rfl
@[simp] theorem State.modTen_power (t : Nat) (f : Tenant → Tenant) : (s.modTen t f).power = s.power := rfl
@[simp] theorem State.modTen_sec (t : Nat) (f : Tenant → Tenant) : (s.modTen t f).sec = s.sec := rfl
@[simp] theorem State.modTen_boot (t : Nat) (f : Tenant → Tenant) : (s.modTen t f).boot = s.boot := rfl
@[simp] theorem State.modTen_out (t : Nat) (f : Tenant → Tenant) : (s.modTen t f).out = s.out := rfl
@[simp] theorem State.modTen_freeCtr (t : Nat) (f : Tenant → Tenant) : (s.modTen t f).freeCtr = s.freeCtr := rfl
@[simp] theorem State.modTen_pending (t : Nat) (f : Tenant → Tenant) : (s.modTen t f).pending = s.pending := rfl

/-! ### modLink -/

@[simp] theorem State.modLink_frame (l : Nat) (f : Link → Link) : (s.modLink l f).frame = s.frame := rfl
@[simp] theorem State.modLink_tenants (l : Nat) (f : Link → Link) : (s.modLink l f).tenants = s.tenants := rfl
@[simp] theorem State.modLink_links (l : Nat) (f : Link → Link) : (s.modLink l f).links = tmod {} s.links l f := rfl
@[simp] theorem State.modLink_arb (l : Nat) (f : Link → Link) : (s.modLink l f).arb = s.arb := rfl
@[simp] theorem State.modLink_mem (l : Nat) (f : Link → Link) : (s.modLink l f).mem = s.mem := rfl
@[simp] theorem State.modLink_host (l : Nat) (f : Link → Link) : (s.modLink l f).host = s.host := rfl
@[simp] theorem State.modLink_poison (l : Nat) (f : Link → Link) : (s.modLink l f).poison = s.poison := rfl
@[simp] theorem State.modLink_memStat (l : Nat) (f : Link → Link) : (s.modLink l f).memStat = s.memStat := rfl
@[simp] theorem State.modLink_posted (l : Nat) (f : Link → Link) : (s.modLink l f).posted = s.posted := rfl
@[simp] theorem State.modLink_plates (l : Nat) (f : Link → Link) : (s.modLink l f).plates = s.plates := rfl
@[simp] theorem State.modLink_rebites (l : Nat) (f : Link → Link) : (s.modLink l f).rebites = s.rebites := rfl
@[simp] theorem State.modLink_fabs (l : Nat) (f : Link → Link) : (s.modLink l f).fabs = s.fabs := rfl
@[simp] theorem State.modLink_ops (l : Nat) (f : Link → Link) : (s.modLink l f).ops = s.ops := rfl
@[simp] theorem State.modLink_unitHeld (l : Nat) (f : Link → Link) : (s.modLink l f).unitHeld = s.unitHeld := rfl
@[simp] theorem State.modLink_ctxs (l : Nat) (f : Link → Link) : (s.modLink l f).ctxs = s.ctxs := rfl
@[simp] theorem State.modLink_slotOpsTotal (l : Nat) (f : Link → Link) : (s.modLink l f).slotOpsTotal = s.slotOpsTotal := rfl
@[simp] theorem State.modLink_restores (l : Nat) (f : Link → Link) : (s.modLink l f).restores = s.restores := rfl
@[simp] theorem State.modLink_bundles (l : Nat) (f : Link → Link) : (s.modLink l f).bundles = s.bundles := rfl
@[simp] theorem State.modLink_obj (l : Nat) (f : Link → Link) : (s.modLink l f).obj = s.obj := rfl
@[simp] theorem State.modLink_eff (l : Nat) (f : Link → Link) : (s.modLink l f).eff = s.eff := rfl
@[simp] theorem State.modLink_effT (l : Nat) (f : Link → Link) : (s.modLink l f).effT = s.effT := rfl
@[simp] theorem State.modLink_rwt (l : Nat) (f : Link → Link) : (s.modLink l f).rwt = s.rwt := rfl
@[simp] theorem State.modLink_net (l : Nat) (f : Link → Link) : (s.modLink l f).net = s.net := rfl
@[simp] theorem State.modLink_gauges (l : Nat) (f : Link → Link) : (s.modLink l f).gauges = s.gauges := rfl
@[simp] theorem State.modLink_power (l : Nat) (f : Link → Link) : (s.modLink l f).power = s.power := rfl
@[simp] theorem State.modLink_sec (l : Nat) (f : Link → Link) : (s.modLink l f).sec = s.sec := rfl
@[simp] theorem State.modLink_boot (l : Nat) (f : Link → Link) : (s.modLink l f).boot = s.boot := rfl
@[simp] theorem State.modLink_out (l : Nat) (f : Link → Link) : (s.modLink l f).out = s.out := rfl
@[simp] theorem State.modLink_freeCtr (l : Nat) (f : Link → Link) : (s.modLink l f).freeCtr = s.freeCtr := rfl
@[simp] theorem State.modLink_pending (l : Nat) (f : Link → Link) : (s.modLink l f).pending = s.pending := rfl

/-! ### modPlate -/

@[simp] theorem State.modPlate_frame (g : Nat) (f : Plate → Plate) : (s.modPlate g f).frame = s.frame := rfl
@[simp] theorem State.modPlate_tenants (g : Nat) (f : Plate → Plate) : (s.modPlate g f).tenants = s.tenants := rfl
@[simp] theorem State.modPlate_links (g : Nat) (f : Plate → Plate) : (s.modPlate g f).links = s.links := rfl
@[simp] theorem State.modPlate_arb (g : Nat) (f : Plate → Plate) : (s.modPlate g f).arb = s.arb := rfl
@[simp] theorem State.modPlate_mem (g : Nat) (f : Plate → Plate) : (s.modPlate g f).mem = s.mem := rfl
@[simp] theorem State.modPlate_host (g : Nat) (f : Plate → Plate) : (s.modPlate g f).host = s.host := rfl
@[simp] theorem State.modPlate_poison (g : Nat) (f : Plate → Plate) : (s.modPlate g f).poison = s.poison := rfl
@[simp] theorem State.modPlate_memStat (g : Nat) (f : Plate → Plate) : (s.modPlate g f).memStat = s.memStat := rfl
@[simp] theorem State.modPlate_posted (g : Nat) (f : Plate → Plate) : (s.modPlate g f).posted = s.posted := rfl
@[simp] theorem State.modPlate_plates (g : Nat) (f : Plate → Plate) : (s.modPlate g f).plates = tmod {} s.plates g f := rfl
@[simp] theorem State.modPlate_rebites (g : Nat) (f : Plate → Plate) : (s.modPlate g f).rebites = s.rebites := rfl
@[simp] theorem State.modPlate_fabs (g : Nat) (f : Plate → Plate) : (s.modPlate g f).fabs = s.fabs := rfl
@[simp] theorem State.modPlate_ops (g : Nat) (f : Plate → Plate) : (s.modPlate g f).ops = s.ops := rfl
@[simp] theorem State.modPlate_unitHeld (g : Nat) (f : Plate → Plate) : (s.modPlate g f).unitHeld = s.unitHeld := rfl
@[simp] theorem State.modPlate_ctxs (g : Nat) (f : Plate → Plate) : (s.modPlate g f).ctxs = s.ctxs := rfl
@[simp] theorem State.modPlate_slotOpsTotal (g : Nat) (f : Plate → Plate) : (s.modPlate g f).slotOpsTotal = s.slotOpsTotal := rfl
@[simp] theorem State.modPlate_restores (g : Nat) (f : Plate → Plate) : (s.modPlate g f).restores = s.restores := rfl
@[simp] theorem State.modPlate_bundles (g : Nat) (f : Plate → Plate) : (s.modPlate g f).bundles = s.bundles := rfl
@[simp] theorem State.modPlate_obj (g : Nat) (f : Plate → Plate) : (s.modPlate g f).obj = s.obj := rfl
@[simp] theorem State.modPlate_eff (g : Nat) (f : Plate → Plate) : (s.modPlate g f).eff = s.eff := rfl
@[simp] theorem State.modPlate_effT (g : Nat) (f : Plate → Plate) : (s.modPlate g f).effT = s.effT := rfl
@[simp] theorem State.modPlate_rwt (g : Nat) (f : Plate → Plate) : (s.modPlate g f).rwt = s.rwt := rfl
@[simp] theorem State.modPlate_net (g : Nat) (f : Plate → Plate) : (s.modPlate g f).net = s.net := rfl
@[simp] theorem State.modPlate_gauges (g : Nat) (f : Plate → Plate) : (s.modPlate g f).gauges = s.gauges := rfl
@[simp] theorem State.modPlate_power (g : Nat) (f : Plate → Plate) : (s.modPlate g f).power = s.power := rfl
@[simp] theorem State.modPlate_sec (g : Nat) (f : Plate → Plate) : (s.modPlate g f).sec = s.sec := rfl
@[simp] theorem State.modPlate_boot (g : Nat) (f : Plate → Plate) : (s.modPlate g f).boot = s.boot := rfl
@[simp] theorem State.modPlate_out (g : Nat) (f : Plate → Plate) : (s.modPlate g f).out = s.out := rfl
@[simp] theorem State.modPlate_freeCtr (g : Nat) (f : Plate → Plate) : (s.modPlate g f).freeCtr = s.freeCtr := rfl
@[simp] theorem State.modPlate_pending (g : Nat) (f : Plate → Plate) : (s.modPlate g f).pending = s.pending := rfl

/-! ### modFab -/

@[simp] theorem State.modFab_frame (m : Nat) (f : Fab → Fab) : (s.modFab m f).frame = s.frame := rfl
@[simp] theorem State.modFab_tenants (m : Nat) (f : Fab → Fab) : (s.modFab m f).tenants = s.tenants := rfl
@[simp] theorem State.modFab_links (m : Nat) (f : Fab → Fab) : (s.modFab m f).links = s.links := rfl
@[simp] theorem State.modFab_arb (m : Nat) (f : Fab → Fab) : (s.modFab m f).arb = s.arb := rfl
@[simp] theorem State.modFab_mem (m : Nat) (f : Fab → Fab) : (s.modFab m f).mem = s.mem := rfl
@[simp] theorem State.modFab_host (m : Nat) (f : Fab → Fab) : (s.modFab m f).host = s.host := rfl
@[simp] theorem State.modFab_poison (m : Nat) (f : Fab → Fab) : (s.modFab m f).poison = s.poison := rfl
@[simp] theorem State.modFab_memStat (m : Nat) (f : Fab → Fab) : (s.modFab m f).memStat = s.memStat := rfl
@[simp] theorem State.modFab_posted (m : Nat) (f : Fab → Fab) : (s.modFab m f).posted = s.posted := rfl
@[simp] theorem State.modFab_plates (m : Nat) (f : Fab → Fab) : (s.modFab m f).plates = s.plates := rfl
@[simp] theorem State.modFab_rebites (m : Nat) (f : Fab → Fab) : (s.modFab m f).rebites = s.rebites := rfl
@[simp] theorem State.modFab_fabs (m : Nat) (f : Fab → Fab) : (s.modFab m f).fabs = tmod {} s.fabs m f := rfl
@[simp] theorem State.modFab_ops (m : Nat) (f : Fab → Fab) : (s.modFab m f).ops = s.ops := rfl
@[simp] theorem State.modFab_unitHeld (m : Nat) (f : Fab → Fab) : (s.modFab m f).unitHeld = s.unitHeld := rfl
@[simp] theorem State.modFab_ctxs (m : Nat) (f : Fab → Fab) : (s.modFab m f).ctxs = s.ctxs := rfl
@[simp] theorem State.modFab_slotOpsTotal (m : Nat) (f : Fab → Fab) : (s.modFab m f).slotOpsTotal = s.slotOpsTotal := rfl
@[simp] theorem State.modFab_restores (m : Nat) (f : Fab → Fab) : (s.modFab m f).restores = s.restores := rfl
@[simp] theorem State.modFab_bundles (m : Nat) (f : Fab → Fab) : (s.modFab m f).bundles = s.bundles := rfl
@[simp] theorem State.modFab_obj (m : Nat) (f : Fab → Fab) : (s.modFab m f).obj = s.obj := rfl
@[simp] theorem State.modFab_eff (m : Nat) (f : Fab → Fab) : (s.modFab m f).eff = s.eff := rfl
@[simp] theorem State.modFab_effT (m : Nat) (f : Fab → Fab) : (s.modFab m f).effT = s.effT := rfl
@[simp] theorem State.modFab_rwt (m : Nat) (f : Fab → Fab) : (s.modFab m f).rwt = s.rwt := rfl
@[simp] theorem State.modFab_net (m : Nat) (f : Fab → Fab) : (s.modFab m f).net = s.net := rfl
@[simp] theorem State.modFab_gauges (m : Nat) (f : Fab → Fab) : (s.modFab m f).gauges = s.gauges := rfl
@[simp] theorem State.modFab_power (m : Nat) (f : Fab → Fab) : (s.modFab m f).power = s.power := rfl
@[simp] theorem State.modFab_sec (m : Nat) (f : Fab → Fab) : (s.modFab m f).sec = s.sec := rfl
@[simp] theorem State.modFab_boot (m : Nat) (f : Fab → Fab) : (s.modFab m f).boot = s.boot := rfl
@[simp] theorem State.modFab_out (m : Nat) (f : Fab → Fab) : (s.modFab m f).out = s.out := rfl
@[simp] theorem State.modFab_freeCtr (m : Nat) (f : Fab → Fab) : (s.modFab m f).freeCtr = s.freeCtr := rfl
@[simp] theorem State.modFab_pending (m : Nat) (f : Fab → Fab) : (s.modFab m f).pending = s.pending := rfl

/-! ### modGauge -/

@[simp] theorem State.modGauge_frame (d : Nat) (f : Gauge → Gauge) : (s.modGauge d f).frame = s.frame := rfl
@[simp] theorem State.modGauge_tenants (d : Nat) (f : Gauge → Gauge) : (s.modGauge d f).tenants = s.tenants := rfl
@[simp] theorem State.modGauge_links (d : Nat) (f : Gauge → Gauge) : (s.modGauge d f).links = s.links := rfl
@[simp] theorem State.modGauge_arb (d : Nat) (f : Gauge → Gauge) : (s.modGauge d f).arb = s.arb := rfl
@[simp] theorem State.modGauge_mem (d : Nat) (f : Gauge → Gauge) : (s.modGauge d f).mem = s.mem := rfl
@[simp] theorem State.modGauge_host (d : Nat) (f : Gauge → Gauge) : (s.modGauge d f).host = s.host := rfl
@[simp] theorem State.modGauge_poison (d : Nat) (f : Gauge → Gauge) : (s.modGauge d f).poison = s.poison := rfl
@[simp] theorem State.modGauge_memStat (d : Nat) (f : Gauge → Gauge) : (s.modGauge d f).memStat = s.memStat := rfl
@[simp] theorem State.modGauge_posted (d : Nat) (f : Gauge → Gauge) : (s.modGauge d f).posted = s.posted := rfl
@[simp] theorem State.modGauge_plates (d : Nat) (f : Gauge → Gauge) : (s.modGauge d f).plates = s.plates := rfl
@[simp] theorem State.modGauge_rebites (d : Nat) (f : Gauge → Gauge) : (s.modGauge d f).rebites = s.rebites := rfl
@[simp] theorem State.modGauge_fabs (d : Nat) (f : Gauge → Gauge) : (s.modGauge d f).fabs = s.fabs := rfl
@[simp] theorem State.modGauge_ops (d : Nat) (f : Gauge → Gauge) : (s.modGauge d f).ops = s.ops := rfl
@[simp] theorem State.modGauge_unitHeld (d : Nat) (f : Gauge → Gauge) : (s.modGauge d f).unitHeld = s.unitHeld := rfl
@[simp] theorem State.modGauge_ctxs (d : Nat) (f : Gauge → Gauge) : (s.modGauge d f).ctxs = s.ctxs := rfl
@[simp] theorem State.modGauge_slotOpsTotal (d : Nat) (f : Gauge → Gauge) : (s.modGauge d f).slotOpsTotal = s.slotOpsTotal := rfl
@[simp] theorem State.modGauge_restores (d : Nat) (f : Gauge → Gauge) : (s.modGauge d f).restores = s.restores := rfl
@[simp] theorem State.modGauge_bundles (d : Nat) (f : Gauge → Gauge) : (s.modGauge d f).bundles = s.bundles := rfl
@[simp] theorem State.modGauge_obj (d : Nat) (f : Gauge → Gauge) : (s.modGauge d f).obj = s.obj := rfl
@[simp] theorem State.modGauge_eff (d : Nat) (f : Gauge → Gauge) : (s.modGauge d f).eff = s.eff := rfl
@[simp] theorem State.modGauge_effT (d : Nat) (f : Gauge → Gauge) : (s.modGauge d f).effT = s.effT := rfl
@[simp] theorem State.modGauge_rwt (d : Nat) (f : Gauge → Gauge) : (s.modGauge d f).rwt = s.rwt := rfl
@[simp] theorem State.modGauge_net (d : Nat) (f : Gauge → Gauge) : (s.modGauge d f).net = s.net := rfl
@[simp] theorem State.modGauge_gauges (d : Nat) (f : Gauge → Gauge) : (s.modGauge d f).gauges = tmod {} s.gauges d f := rfl
@[simp] theorem State.modGauge_power (d : Nat) (f : Gauge → Gauge) : (s.modGauge d f).power = s.power := rfl
@[simp] theorem State.modGauge_sec (d : Nat) (f : Gauge → Gauge) : (s.modGauge d f).sec = s.sec := rfl
@[simp] theorem State.modGauge_boot (d : Nat) (f : Gauge → Gauge) : (s.modGauge d f).boot = s.boot := rfl
@[simp] theorem State.modGauge_out (d : Nat) (f : Gauge → Gauge) : (s.modGauge d f).out = s.out := rfl
@[simp] theorem State.modGauge_freeCtr (d : Nat) (f : Gauge → Gauge) : (s.modGauge d f).freeCtr = s.freeCtr := rfl
@[simp] theorem State.modGauge_pending (d : Nat) (f : Gauge → Gauge) : (s.modGauge d f).pending = s.pending := rfl

/-! ### modFrame -/

@[simp] theorem State.modFrame_frame (f : Frame → Frame) : (s.modFrame f).frame = f s.frame := rfl
@[simp] theorem State.modFrame_tenants (f : Frame → Frame) : (s.modFrame f).tenants = s.tenants := rfl
@[simp] theorem State.modFrame_links (f : Frame → Frame) : (s.modFrame f).links = s.links := rfl
@[simp] theorem State.modFrame_arb (f : Frame → Frame) : (s.modFrame f).arb = s.arb := rfl
@[simp] theorem State.modFrame_mem (f : Frame → Frame) : (s.modFrame f).mem = s.mem := rfl
@[simp] theorem State.modFrame_host (f : Frame → Frame) : (s.modFrame f).host = s.host := rfl
@[simp] theorem State.modFrame_poison (f : Frame → Frame) : (s.modFrame f).poison = s.poison := rfl
@[simp] theorem State.modFrame_memStat (f : Frame → Frame) : (s.modFrame f).memStat = s.memStat := rfl
@[simp] theorem State.modFrame_posted (f : Frame → Frame) : (s.modFrame f).posted = s.posted := rfl
@[simp] theorem State.modFrame_plates (f : Frame → Frame) : (s.modFrame f).plates = s.plates := rfl
@[simp] theorem State.modFrame_rebites (f : Frame → Frame) : (s.modFrame f).rebites = s.rebites := rfl
@[simp] theorem State.modFrame_fabs (f : Frame → Frame) : (s.modFrame f).fabs = s.fabs := rfl
@[simp] theorem State.modFrame_ops (f : Frame → Frame) : (s.modFrame f).ops = s.ops := rfl
@[simp] theorem State.modFrame_unitHeld (f : Frame → Frame) : (s.modFrame f).unitHeld = s.unitHeld := rfl
@[simp] theorem State.modFrame_ctxs (f : Frame → Frame) : (s.modFrame f).ctxs = s.ctxs := rfl
@[simp] theorem State.modFrame_slotOpsTotal (f : Frame → Frame) : (s.modFrame f).slotOpsTotal = s.slotOpsTotal := rfl
@[simp] theorem State.modFrame_restores (f : Frame → Frame) : (s.modFrame f).restores = s.restores := rfl
@[simp] theorem State.modFrame_bundles (f : Frame → Frame) : (s.modFrame f).bundles = s.bundles := rfl
@[simp] theorem State.modFrame_obj (f : Frame → Frame) : (s.modFrame f).obj = s.obj := rfl
@[simp] theorem State.modFrame_eff (f : Frame → Frame) : (s.modFrame f).eff = s.eff := rfl
@[simp] theorem State.modFrame_effT (f : Frame → Frame) : (s.modFrame f).effT = s.effT := rfl
@[simp] theorem State.modFrame_rwt (f : Frame → Frame) : (s.modFrame f).rwt = s.rwt := rfl
@[simp] theorem State.modFrame_net (f : Frame → Frame) : (s.modFrame f).net = s.net := rfl
@[simp] theorem State.modFrame_gauges (f : Frame → Frame) : (s.modFrame f).gauges = s.gauges := rfl
@[simp] theorem State.modFrame_power (f : Frame → Frame) : (s.modFrame f).power = s.power := rfl
@[simp] theorem State.modFrame_sec (f : Frame → Frame) : (s.modFrame f).sec = s.sec := rfl
@[simp] theorem State.modFrame_boot (f : Frame → Frame) : (s.modFrame f).boot = s.boot := rfl
@[simp] theorem State.modFrame_out (f : Frame → Frame) : (s.modFrame f).out = s.out := rfl
@[simp] theorem State.modFrame_freeCtr (f : Frame → Frame) : (s.modFrame f).freeCtr = s.freeCtr := rfl
@[simp] theorem State.modFrame_pending (f : Frame → Frame) : (s.modFrame f).pending = s.pending := rfl

/-! ### modNet -/

@[simp] theorem State.modNet_frame (f : Net → Net) : (s.modNet f).frame = s.frame := rfl
@[simp] theorem State.modNet_tenants (f : Net → Net) : (s.modNet f).tenants = s.tenants := rfl
@[simp] theorem State.modNet_links (f : Net → Net) : (s.modNet f).links = s.links := rfl
@[simp] theorem State.modNet_arb (f : Net → Net) : (s.modNet f).arb = s.arb := rfl
@[simp] theorem State.modNet_mem (f : Net → Net) : (s.modNet f).mem = s.mem := rfl
@[simp] theorem State.modNet_host (f : Net → Net) : (s.modNet f).host = s.host := rfl
@[simp] theorem State.modNet_poison (f : Net → Net) : (s.modNet f).poison = s.poison := rfl
@[simp] theorem State.modNet_memStat (f : Net → Net) : (s.modNet f).memStat = s.memStat := rfl
@[simp] theorem State.modNet_posted (f : Net → Net) : (s.modNet f).posted = s.posted := rfl
@[simp] theorem State.modNet_plates (f : Net → Net) : (s.modNet f).plates = s.plates := rfl
@[simp] theorem State.modNet_rebites (f : Net → Net) : (s.modNet f).rebites = s.rebites := rfl
@[simp] theorem State.modNet_fabs (f : Net → Net) : (s.modNet f).fabs = s.fabs := rfl
@[simp] theorem State.modNet_ops (f : Net → Net) : (s.modNet f).ops = s.ops := rfl
@[simp] theorem State.modNet_unitHeld (f : Net → Net) : (s.modNet f).unitHeld = s.unitHeld := rfl
@[simp] theorem State.modNet_ctxs (f : Net → Net) : (s.modNet f).ctxs = s.ctxs := rfl
@[simp] theorem State.modNet_slotOpsTotal (f : Net → Net) : (s.modNet f).slotOpsTotal = s.slotOpsTotal := rfl
@[simp] theorem State.modNet_restores (f : Net → Net) : (s.modNet f).restores = s.restores := rfl
@[simp] theorem State.modNet_bundles (f : Net → Net) : (s.modNet f).bundles = s.bundles := rfl
@[simp] theorem State.modNet_obj (f : Net → Net) : (s.modNet f).obj = s.obj := rfl
@[simp] theorem State.modNet_eff (f : Net → Net) : (s.modNet f).eff = s.eff := rfl
@[simp] theorem State.modNet_effT (f : Net → Net) : (s.modNet f).effT = s.effT := rfl
@[simp] theorem State.modNet_rwt (f : Net → Net) : (s.modNet f).rwt = s.rwt := rfl
@[simp] theorem State.modNet_net (f : Net → Net) : (s.modNet f).net = f s.net := rfl
@[simp] theorem State.modNet_gauges (f : Net → Net) : (s.modNet f).gauges = s.gauges := rfl
@[simp] theorem State.modNet_power (f : Net → Net) : (s.modNet f).power = s.power := rfl
@[simp] theorem State.modNet_sec (f : Net → Net) : (s.modNet f).sec = s.sec := rfl
@[simp] theorem State.modNet_boot (f : Net → Net) : (s.modNet f).boot = s.boot := rfl
@[simp] theorem State.modNet_out (f : Net → Net) : (s.modNet f).out = s.out := rfl
@[simp] theorem State.modNet_freeCtr (f : Net → Net) : (s.modNet f).freeCtr = s.freeCtr := rfl
@[simp] theorem State.modNet_pending (f : Net → Net) : (s.modNet f).pending = s.pending := rfl

/-! ### modSec -/

@[simp] theorem State.modSec_frame (f : Sec → Sec) : (s.modSec f).frame = s.frame := rfl
@[simp] theorem State.modSec_tenants (f : Sec → Sec) : (s.modSec f).tenants = s.tenants := rfl
@[simp] theorem State.modSec_links (f : Sec → Sec) : (s.modSec f).links = s.links := rfl
@[simp] theorem State.modSec_arb (f : Sec → Sec) : (s.modSec f).arb = s.arb := rfl
@[simp] theorem State.modSec_mem (f : Sec → Sec) : (s.modSec f).mem = s.mem := rfl
@[simp] theorem State.modSec_host (f : Sec → Sec) : (s.modSec f).host = s.host := rfl
@[simp] theorem State.modSec_poison (f : Sec → Sec) : (s.modSec f).poison = s.poison := rfl
@[simp] theorem State.modSec_memStat (f : Sec → Sec) : (s.modSec f).memStat = s.memStat := rfl
@[simp] theorem State.modSec_posted (f : Sec → Sec) : (s.modSec f).posted = s.posted := rfl
@[simp] theorem State.modSec_plates (f : Sec → Sec) : (s.modSec f).plates = s.plates := rfl
@[simp] theorem State.modSec_rebites (f : Sec → Sec) : (s.modSec f).rebites = s.rebites := rfl
@[simp] theorem State.modSec_fabs (f : Sec → Sec) : (s.modSec f).fabs = s.fabs := rfl
@[simp] theorem State.modSec_ops (f : Sec → Sec) : (s.modSec f).ops = s.ops := rfl
@[simp] theorem State.modSec_unitHeld (f : Sec → Sec) : (s.modSec f).unitHeld = s.unitHeld := rfl
@[simp] theorem State.modSec_ctxs (f : Sec → Sec) : (s.modSec f).ctxs = s.ctxs := rfl
@[simp] theorem State.modSec_slotOpsTotal (f : Sec → Sec) : (s.modSec f).slotOpsTotal = s.slotOpsTotal := rfl
@[simp] theorem State.modSec_restores (f : Sec → Sec) : (s.modSec f).restores = s.restores := rfl
@[simp] theorem State.modSec_bundles (f : Sec → Sec) : (s.modSec f).bundles = s.bundles := rfl
@[simp] theorem State.modSec_obj (f : Sec → Sec) : (s.modSec f).obj = s.obj := rfl
@[simp] theorem State.modSec_eff (f : Sec → Sec) : (s.modSec f).eff = s.eff := rfl
@[simp] theorem State.modSec_effT (f : Sec → Sec) : (s.modSec f).effT = s.effT := rfl
@[simp] theorem State.modSec_rwt (f : Sec → Sec) : (s.modSec f).rwt = s.rwt := rfl
@[simp] theorem State.modSec_net (f : Sec → Sec) : (s.modSec f).net = s.net := rfl
@[simp] theorem State.modSec_gauges (f : Sec → Sec) : (s.modSec f).gauges = s.gauges := rfl
@[simp] theorem State.modSec_power (f : Sec → Sec) : (s.modSec f).power = s.power := rfl
@[simp] theorem State.modSec_sec (f : Sec → Sec) : (s.modSec f).sec = f s.sec := rfl
@[simp] theorem State.modSec_boot (f : Sec → Sec) : (s.modSec f).boot = s.boot := rfl
@[simp] theorem State.modSec_out (f : Sec → Sec) : (s.modSec f).out = s.out := rfl
@[simp] theorem State.modSec_freeCtr (f : Sec → Sec) : (s.modSec f).freeCtr = s.freeCtr := rfl
@[simp] theorem State.modSec_pending (f : Sec → Sec) : (s.modSec f).pending = s.pending := rfl

/-! ### modBoot -/

@[simp] theorem State.modBoot_frame (f : Boot → Boot) : (s.modBoot f).frame = s.frame := rfl
@[simp] theorem State.modBoot_tenants (f : Boot → Boot) : (s.modBoot f).tenants = s.tenants := rfl
@[simp] theorem State.modBoot_links (f : Boot → Boot) : (s.modBoot f).links = s.links := rfl
@[simp] theorem State.modBoot_arb (f : Boot → Boot) : (s.modBoot f).arb = s.arb := rfl
@[simp] theorem State.modBoot_mem (f : Boot → Boot) : (s.modBoot f).mem = s.mem := rfl
@[simp] theorem State.modBoot_host (f : Boot → Boot) : (s.modBoot f).host = s.host := rfl
@[simp] theorem State.modBoot_poison (f : Boot → Boot) : (s.modBoot f).poison = s.poison := rfl
@[simp] theorem State.modBoot_memStat (f : Boot → Boot) : (s.modBoot f).memStat = s.memStat := rfl
@[simp] theorem State.modBoot_posted (f : Boot → Boot) : (s.modBoot f).posted = s.posted := rfl
@[simp] theorem State.modBoot_plates (f : Boot → Boot) : (s.modBoot f).plates = s.plates := rfl
@[simp] theorem State.modBoot_rebites (f : Boot → Boot) : (s.modBoot f).rebites = s.rebites := rfl
@[simp] theorem State.modBoot_fabs (f : Boot → Boot) : (s.modBoot f).fabs = s.fabs := rfl
@[simp] theorem State.modBoot_ops (f : Boot → Boot) : (s.modBoot f).ops = s.ops := rfl
@[simp] theorem State.modBoot_unitHeld (f : Boot → Boot) : (s.modBoot f).unitHeld = s.unitHeld := rfl
@[simp] theorem State.modBoot_ctxs (f : Boot → Boot) : (s.modBoot f).ctxs = s.ctxs := rfl
@[simp] theorem State.modBoot_slotOpsTotal (f : Boot → Boot) : (s.modBoot f).slotOpsTotal = s.slotOpsTotal := rfl
@[simp] theorem State.modBoot_restores (f : Boot → Boot) : (s.modBoot f).restores = s.restores := rfl
@[simp] theorem State.modBoot_bundles (f : Boot → Boot) : (s.modBoot f).bundles = s.bundles := rfl
@[simp] theorem State.modBoot_obj (f : Boot → Boot) : (s.modBoot f).obj = s.obj := rfl
@[simp] theorem State.modBoot_eff (f : Boot → Boot) : (s.modBoot f).eff = s.eff := rfl
@[simp] theorem State.modBoot_effT (f : Boot → Boot) : (s.modBoot f).effT = s.effT := rfl
@[simp] theorem State.modBoot_rwt (f : Boot → Boot) : (s.modBoot f).rwt = s.rwt := rfl
@[simp] theorem State.modBoot_net (f : Boot → Boot) : (s.modBoot f).net = s.net := rfl
@[simp] theorem State.modBoot_gauges (f : Boot → Boot) : (s.modBoot f).gauges = s.gauges := rfl
@[simp] theorem State.modBoot_power (f : Boot → Boot) : (s.modBoot f).power = s.power := rfl
@[simp] theorem State.modBoot_sec (f : Boot → Boot) : (s.modBoot f).sec = s.sec := rfl
@[simp] theorem State.modBoot_boot (f : Boot → Boot) : (s.modBoot f).boot = f s.boot := rfl
@[simp] theorem State.modBoot_out (f : Boot → Boot) : (s.modBoot f).out = s.out := rfl
@[simp] theorem State.modBoot_freeCtr (f : Boot → Boot) : (s.modBoot f).freeCtr = s.freeCtr := rfl
@[simp] theorem State.modBoot_pending (f : Boot → Boot) : (s.modBoot f).pending = s.pending := rfl

/-! ### modPower -/

@[simp] theorem State.modPower_frame (f : Power → Power) : (s.modPower f).frame = s.frame := rfl
@[simp] theorem State.modPower_tenants (f : Power → Power) : (s.modPower f).tenants = s.tenants := rfl
@[simp] theorem State.modPower_links (f : Power → Power) : (s.modPower f).links = s.links := rfl
@[simp] theorem State.modPower_arb (f : Power → Power) : (s.modPower f).arb = s.arb := rfl
@[simp] theorem State.modPower_mem (f : Power → Power) : (s.modPower f).mem = s.mem := rfl
@[simp] theorem State.modPower_host (f : Power → Power) : (s.modPower f).host = s.host := rfl
@[simp] theorem State.modPower_poison (f : Power → Power) : (s.modPower f).poison = s.poison := rfl
@[simp] theorem State.modPower_memStat (f : Power → Power) : (s.modPower f).memStat = s.memStat := rfl
@[simp] theorem State.modPower_posted (f : Power → Power) : (s.modPower f).posted = s.posted := rfl
@[simp] theorem State.modPower_plates (f : Power → Power) : (s.modPower f).plates = s.plates := rfl
@[simp] theorem State.modPower_rebites (f : Power → Power) : (s.modPower f).rebites = s.rebites := rfl
@[simp] theorem State.modPower_fabs (f : Power → Power) : (s.modPower f).fabs = s.fabs := rfl
@[simp] theorem State.modPower_ops (f : Power → Power) : (s.modPower f).ops = s.ops := rfl
@[simp] theorem State.modPower_unitHeld (f : Power → Power) : (s.modPower f).unitHeld = s.unitHeld := rfl
@[simp] theorem State.modPower_ctxs (f : Power → Power) : (s.modPower f).ctxs = s.ctxs := rfl
@[simp] theorem State.modPower_slotOpsTotal (f : Power → Power) : (s.modPower f).slotOpsTotal = s.slotOpsTotal := rfl
@[simp] theorem State.modPower_restores (f : Power → Power) : (s.modPower f).restores = s.restores := rfl
@[simp] theorem State.modPower_bundles (f : Power → Power) : (s.modPower f).bundles = s.bundles := rfl
@[simp] theorem State.modPower_obj (f : Power → Power) : (s.modPower f).obj = s.obj := rfl
@[simp] theorem State.modPower_eff (f : Power → Power) : (s.modPower f).eff = s.eff := rfl
@[simp] theorem State.modPower_effT (f : Power → Power) : (s.modPower f).effT = s.effT := rfl
@[simp] theorem State.modPower_rwt (f : Power → Power) : (s.modPower f).rwt = s.rwt := rfl
@[simp] theorem State.modPower_net (f : Power → Power) : (s.modPower f).net = s.net := rfl
@[simp] theorem State.modPower_gauges (f : Power → Power) : (s.modPower f).gauges = s.gauges := rfl
@[simp] theorem State.modPower_power (f : Power → Power) : (s.modPower f).power = f s.power := rfl
@[simp] theorem State.modPower_sec (f : Power → Power) : (s.modPower f).sec = s.sec := rfl
@[simp] theorem State.modPower_boot (f : Power → Power) : (s.modPower f).boot = s.boot := rfl
@[simp] theorem State.modPower_out (f : Power → Power) : (s.modPower f).out = s.out := rfl
@[simp] theorem State.modPower_freeCtr (f : Power → Power) : (s.modPower f).freeCtr = s.freeCtr := rfl
@[simp] theorem State.modPower_pending (f : Power → Power) : (s.modPower f).pending = s.pending := rfl

/-! ### modOtp -/

@[simp] theorem State.modOtp_frame (f : Otp → Otp) : (s.modOtp f).frame = s.frame := rfl
@[simp] theorem State.modOtp_tenants (f : Otp → Otp) : (s.modOtp f).tenants = s.tenants := rfl
@[simp] theorem State.modOtp_links (f : Otp → Otp) : (s.modOtp f).links = s.links := rfl
@[simp] theorem State.modOtp_arb (f : Otp → Otp) : (s.modOtp f).arb = s.arb := rfl
@[simp] theorem State.modOtp_mem (f : Otp → Otp) : (s.modOtp f).mem = s.mem := rfl
@[simp] theorem State.modOtp_host (f : Otp → Otp) : (s.modOtp f).host = s.host := rfl
@[simp] theorem State.modOtp_poison (f : Otp → Otp) : (s.modOtp f).poison = s.poison := rfl
@[simp] theorem State.modOtp_memStat (f : Otp → Otp) : (s.modOtp f).memStat = s.memStat := rfl
@[simp] theorem State.modOtp_posted (f : Otp → Otp) : (s.modOtp f).posted = s.posted := rfl
@[simp] theorem State.modOtp_plates (f : Otp → Otp) : (s.modOtp f).plates = s.plates := rfl
@[simp] theorem State.modOtp_rebites (f : Otp → Otp) : (s.modOtp f).rebites = s.rebites := rfl
@[simp] theorem State.modOtp_fabs (f : Otp → Otp) : (s.modOtp f).fabs = s.fabs := rfl
@[simp] theorem State.modOtp_ops (f : Otp → Otp) : (s.modOtp f).ops = s.ops := rfl
@[simp] theorem State.modOtp_unitHeld (f : Otp → Otp) : (s.modOtp f).unitHeld = s.unitHeld := rfl
@[simp] theorem State.modOtp_ctxs (f : Otp → Otp) : (s.modOtp f).ctxs = s.ctxs := rfl
@[simp] theorem State.modOtp_slotOpsTotal (f : Otp → Otp) : (s.modOtp f).slotOpsTotal = s.slotOpsTotal := rfl
@[simp] theorem State.modOtp_restores (f : Otp → Otp) : (s.modOtp f).restores = s.restores := rfl
@[simp] theorem State.modOtp_bundles (f : Otp → Otp) : (s.modOtp f).bundles = s.bundles := rfl
@[simp] theorem State.modOtp_obj (f : Otp → Otp) : (s.modOtp f).obj = s.obj := rfl
@[simp] theorem State.modOtp_eff (f : Otp → Otp) : (s.modOtp f).eff = s.eff := rfl
@[simp] theorem State.modOtp_effT (f : Otp → Otp) : (s.modOtp f).effT = s.effT := rfl
@[simp] theorem State.modOtp_rwt (f : Otp → Otp) : (s.modOtp f).rwt = s.rwt := rfl
@[simp] theorem State.modOtp_net (f : Otp → Otp) : (s.modOtp f).net = s.net := rfl
@[simp] theorem State.modOtp_gauges (f : Otp → Otp) : (s.modOtp f).gauges = s.gauges := rfl
@[simp] theorem State.modOtp_power (f : Otp → Otp) : (s.modOtp f).power = s.power := rfl
@[simp] theorem State.modOtp_sec (f : Otp → Otp) : (s.modOtp f).sec = { s.sec with otp := f s.sec.otp } := rfl
@[simp] theorem State.modOtp_boot (f : Otp → Otp) : (s.modOtp f).boot = s.boot := rfl
@[simp] theorem State.modOtp_out (f : Otp → Otp) : (s.modOtp f).out = s.out := rfl
@[simp] theorem State.modOtp_freeCtr (f : Otp → Otp) : (s.modOtp f).freeCtr = s.freeCtr := rfl
@[simp] theorem State.modOtp_pending (f : Otp → Otp) : (s.modOtp f).pending = s.pending := rfl

/-! ### modCan -/

@[simp] theorem State.modCan_frame (p : Nat) (f : CanPort → CanPort) : (s.modCan p f).frame = s.frame := rfl
@[simp] theorem State.modCan_tenants (p : Nat) (f : CanPort → CanPort) : (s.modCan p f).tenants = s.tenants := rfl
@[simp] theorem State.modCan_links (p : Nat) (f : CanPort → CanPort) : (s.modCan p f).links = s.links := rfl
@[simp] theorem State.modCan_arb (p : Nat) (f : CanPort → CanPort) : (s.modCan p f).arb = s.arb := rfl
@[simp] theorem State.modCan_mem (p : Nat) (f : CanPort → CanPort) : (s.modCan p f).mem = s.mem := rfl
@[simp] theorem State.modCan_host (p : Nat) (f : CanPort → CanPort) : (s.modCan p f).host = s.host := rfl
@[simp] theorem State.modCan_poison (p : Nat) (f : CanPort → CanPort) : (s.modCan p f).poison = s.poison := rfl
@[simp] theorem State.modCan_memStat (p : Nat) (f : CanPort → CanPort) : (s.modCan p f).memStat = s.memStat := rfl
@[simp] theorem State.modCan_posted (p : Nat) (f : CanPort → CanPort) : (s.modCan p f).posted = s.posted := rfl
@[simp] theorem State.modCan_plates (p : Nat) (f : CanPort → CanPort) : (s.modCan p f).plates = s.plates := rfl
@[simp] theorem State.modCan_rebites (p : Nat) (f : CanPort → CanPort) : (s.modCan p f).rebites = s.rebites := rfl
@[simp] theorem State.modCan_fabs (p : Nat) (f : CanPort → CanPort) : (s.modCan p f).fabs = s.fabs := rfl
@[simp] theorem State.modCan_ops (p : Nat) (f : CanPort → CanPort) : (s.modCan p f).ops = s.ops := rfl
@[simp] theorem State.modCan_unitHeld (p : Nat) (f : CanPort → CanPort) : (s.modCan p f).unitHeld = s.unitHeld := rfl
@[simp] theorem State.modCan_ctxs (p : Nat) (f : CanPort → CanPort) : (s.modCan p f).ctxs = s.ctxs := rfl
@[simp] theorem State.modCan_slotOpsTotal (p : Nat) (f : CanPort → CanPort) : (s.modCan p f).slotOpsTotal = s.slotOpsTotal := rfl
@[simp] theorem State.modCan_restores (p : Nat) (f : CanPort → CanPort) : (s.modCan p f).restores = s.restores := rfl
@[simp] theorem State.modCan_bundles (p : Nat) (f : CanPort → CanPort) : (s.modCan p f).bundles = s.bundles := rfl
@[simp] theorem State.modCan_obj (p : Nat) (f : CanPort → CanPort) : (s.modCan p f).obj = s.obj := rfl
@[simp] theorem State.modCan_eff (p : Nat) (f : CanPort → CanPort) : (s.modCan p f).eff = s.eff := rfl
@[simp] theorem State.modCan_effT (p : Nat) (f : CanPort → CanPort) : (s.modCan p f).effT = s.effT := rfl
@[simp] theorem State.modCan_rwt (p : Nat) (f : CanPort → CanPort) : (s.modCan p f).rwt = s.rwt := rfl
@[simp] theorem State.modCan_gauges (p : Nat) (f : CanPort → CanPort) : (s.modCan p f).gauges = s.gauges := rfl
@[simp] theorem State.modCan_power (p : Nat) (f : CanPort → CanPort) : (s.modCan p f).power = s.power := rfl
@[simp] theorem State.modCan_sec (p : Nat) (f : CanPort → CanPort) : (s.modCan p f).sec = s.sec := rfl
@[simp] theorem State.modCan_boot (p : Nat) (f : CanPort → CanPort) : (s.modCan p f).boot = s.boot := rfl
@[simp] theorem State.modCan_out (p : Nat) (f : CanPort → CanPort) : (s.modCan p f).out = s.out := rfl
@[simp] theorem State.modCan_freeCtr (p : Nat) (f : CanPort → CanPort) : (s.modCan p f).freeCtr = s.freeCtr := rfl
@[simp] theorem State.modCan_pending (p : Nat) (f : CanPort → CanPort) : (s.modCan p f).pending = s.pending := rfl

/-! ### modEth -/

@[simp] theorem State.modEth_frame (p : Nat) (f : EthPort → EthPort) : (s.modEth p f).frame = s.frame := rfl
@[simp] theorem State.modEth_tenants (p : Nat) (f : EthPort → EthPort) : (s.modEth p f).tenants = s.tenants := rfl
@[simp] theorem State.modEth_links (p : Nat) (f : EthPort → EthPort) : (s.modEth p f).links = s.links := rfl
@[simp] theorem State.modEth_arb (p : Nat) (f : EthPort → EthPort) : (s.modEth p f).arb = s.arb := rfl
@[simp] theorem State.modEth_mem (p : Nat) (f : EthPort → EthPort) : (s.modEth p f).mem = s.mem := rfl
@[simp] theorem State.modEth_host (p : Nat) (f : EthPort → EthPort) : (s.modEth p f).host = s.host := rfl
@[simp] theorem State.modEth_poison (p : Nat) (f : EthPort → EthPort) : (s.modEth p f).poison = s.poison := rfl
@[simp] theorem State.modEth_memStat (p : Nat) (f : EthPort → EthPort) : (s.modEth p f).memStat = s.memStat := rfl
@[simp] theorem State.modEth_posted (p : Nat) (f : EthPort → EthPort) : (s.modEth p f).posted = s.posted := rfl
@[simp] theorem State.modEth_plates (p : Nat) (f : EthPort → EthPort) : (s.modEth p f).plates = s.plates := rfl
@[simp] theorem State.modEth_rebites (p : Nat) (f : EthPort → EthPort) : (s.modEth p f).rebites = s.rebites := rfl
@[simp] theorem State.modEth_fabs (p : Nat) (f : EthPort → EthPort) : (s.modEth p f).fabs = s.fabs := rfl
@[simp] theorem State.modEth_ops (p : Nat) (f : EthPort → EthPort) : (s.modEth p f).ops = s.ops := rfl
@[simp] theorem State.modEth_unitHeld (p : Nat) (f : EthPort → EthPort) : (s.modEth p f).unitHeld = s.unitHeld := rfl
@[simp] theorem State.modEth_ctxs (p : Nat) (f : EthPort → EthPort) : (s.modEth p f).ctxs = s.ctxs := rfl
@[simp] theorem State.modEth_slotOpsTotal (p : Nat) (f : EthPort → EthPort) : (s.modEth p f).slotOpsTotal = s.slotOpsTotal := rfl
@[simp] theorem State.modEth_restores (p : Nat) (f : EthPort → EthPort) : (s.modEth p f).restores = s.restores := rfl
@[simp] theorem State.modEth_bundles (p : Nat) (f : EthPort → EthPort) : (s.modEth p f).bundles = s.bundles := rfl
@[simp] theorem State.modEth_obj (p : Nat) (f : EthPort → EthPort) : (s.modEth p f).obj = s.obj := rfl
@[simp] theorem State.modEth_eff (p : Nat) (f : EthPort → EthPort) : (s.modEth p f).eff = s.eff := rfl
@[simp] theorem State.modEth_effT (p : Nat) (f : EthPort → EthPort) : (s.modEth p f).effT = s.effT := rfl
@[simp] theorem State.modEth_rwt (p : Nat) (f : EthPort → EthPort) : (s.modEth p f).rwt = s.rwt := rfl
@[simp] theorem State.modEth_gauges (p : Nat) (f : EthPort → EthPort) : (s.modEth p f).gauges = s.gauges := rfl
@[simp] theorem State.modEth_power (p : Nat) (f : EthPort → EthPort) : (s.modEth p f).power = s.power := rfl
@[simp] theorem State.modEth_sec (p : Nat) (f : EthPort → EthPort) : (s.modEth p f).sec = s.sec := rfl
@[simp] theorem State.modEth_boot (p : Nat) (f : EthPort → EthPort) : (s.modEth p f).boot = s.boot := rfl
@[simp] theorem State.modEth_out (p : Nat) (f : EthPort → EthPort) : (s.modEth p f).out = s.out := rfl
@[simp] theorem State.modEth_freeCtr (p : Nat) (f : EthPort → EthPort) : (s.modEth p f).freeCtr = s.freeCtr := rfl
@[simp] theorem State.modEth_pending (p : Nat) (f : EthPort → EthPort) : (s.modEth p f).pending = s.pending := rfl

/-! ### modFunc -/

@[simp] theorem State.modFunc_frame (p f : Nat) (g : Func → Func) : (s.modFunc p f g).frame = s.frame := rfl
@[simp] theorem State.modFunc_tenants (p f : Nat) (g : Func → Func) : (s.modFunc p f g).tenants = s.tenants := rfl
@[simp] theorem State.modFunc_links (p f : Nat) (g : Func → Func) : (s.modFunc p f g).links = s.links := rfl
@[simp] theorem State.modFunc_arb (p f : Nat) (g : Func → Func) : (s.modFunc p f g).arb = s.arb := rfl
@[simp] theorem State.modFunc_mem (p f : Nat) (g : Func → Func) : (s.modFunc p f g).mem = s.mem := rfl
@[simp] theorem State.modFunc_host (p f : Nat) (g : Func → Func) : (s.modFunc p f g).host = s.host := rfl
@[simp] theorem State.modFunc_poison (p f : Nat) (g : Func → Func) : (s.modFunc p f g).poison = s.poison := rfl
@[simp] theorem State.modFunc_memStat (p f : Nat) (g : Func → Func) : (s.modFunc p f g).memStat = s.memStat := rfl
@[simp] theorem State.modFunc_posted (p f : Nat) (g : Func → Func) : (s.modFunc p f g).posted = s.posted := rfl
@[simp] theorem State.modFunc_plates (p f : Nat) (g : Func → Func) : (s.modFunc p f g).plates = s.plates := rfl
@[simp] theorem State.modFunc_rebites (p f : Nat) (g : Func → Func) : (s.modFunc p f g).rebites = s.rebites := rfl
@[simp] theorem State.modFunc_fabs (p f : Nat) (g : Func → Func) : (s.modFunc p f g).fabs = s.fabs := rfl
@[simp] theorem State.modFunc_ops (p f : Nat) (g : Func → Func) : (s.modFunc p f g).ops = s.ops := rfl
@[simp] theorem State.modFunc_unitHeld (p f : Nat) (g : Func → Func) : (s.modFunc p f g).unitHeld = s.unitHeld := rfl
@[simp] theorem State.modFunc_ctxs (p f : Nat) (g : Func → Func) : (s.modFunc p f g).ctxs = s.ctxs := rfl
@[simp] theorem State.modFunc_slotOpsTotal (p f : Nat) (g : Func → Func) : (s.modFunc p f g).slotOpsTotal = s.slotOpsTotal := rfl
@[simp] theorem State.modFunc_restores (p f : Nat) (g : Func → Func) : (s.modFunc p f g).restores = s.restores := rfl
@[simp] theorem State.modFunc_bundles (p f : Nat) (g : Func → Func) : (s.modFunc p f g).bundles = s.bundles := rfl
@[simp] theorem State.modFunc_obj (p f : Nat) (g : Func → Func) : (s.modFunc p f g).obj = s.obj := rfl
@[simp] theorem State.modFunc_eff (p f : Nat) (g : Func → Func) : (s.modFunc p f g).eff = s.eff := rfl
@[simp] theorem State.modFunc_effT (p f : Nat) (g : Func → Func) : (s.modFunc p f g).effT = s.effT := rfl
@[simp] theorem State.modFunc_rwt (p f : Nat) (g : Func → Func) : (s.modFunc p f g).rwt = s.rwt := rfl
@[simp] theorem State.modFunc_gauges (p f : Nat) (g : Func → Func) : (s.modFunc p f g).gauges = s.gauges := rfl
@[simp] theorem State.modFunc_power (p f : Nat) (g : Func → Func) : (s.modFunc p f g).power = s.power := rfl
@[simp] theorem State.modFunc_sec (p f : Nat) (g : Func → Func) : (s.modFunc p f g).sec = s.sec := rfl
@[simp] theorem State.modFunc_boot (p f : Nat) (g : Func → Func) : (s.modFunc p f g).boot = s.boot := rfl
@[simp] theorem State.modFunc_out (p f : Nat) (g : Func → Func) : (s.modFunc p f g).out = s.out := rfl
@[simp] theorem State.modFunc_freeCtr (p f : Nat) (g : Func → Func) : (s.modFunc p f g).freeCtr = s.freeCtr := rfl
@[simp] theorem State.modFunc_pending (p f : Nat) (g : Func → Func) : (s.modFunc p f g).pending = s.pending := rfl

/-! ### modPart -/

@[simp] theorem State.modPart_frame (p : Nat) (f : Part → Part) : (s.modPart p f).frame = s.frame := rfl
@[simp] theorem State.modPart_tenants (p : Nat) (f : Part → Part) : (s.modPart p f).tenants = s.tenants := rfl
@[simp] theorem State.modPart_links (p : Nat) (f : Part → Part) : (s.modPart p f).links = s.links := rfl
@[simp] theorem State.modPart_arb (p : Nat) (f : Part → Part) : (s.modPart p f).arb = s.arb := rfl
@[simp] theorem State.modPart_mem (p : Nat) (f : Part → Part) : (s.modPart p f).mem = s.mem := rfl
@[simp] theorem State.modPart_host (p : Nat) (f : Part → Part) : (s.modPart p f).host = s.host := rfl
@[simp] theorem State.modPart_poison (p : Nat) (f : Part → Part) : (s.modPart p f).poison = s.poison := rfl
@[simp] theorem State.modPart_memStat (p : Nat) (f : Part → Part) : (s.modPart p f).memStat = s.memStat := rfl
@[simp] theorem State.modPart_posted (p : Nat) (f : Part → Part) : (s.modPart p f).posted = s.posted := rfl
@[simp] theorem State.modPart_plates (p : Nat) (f : Part → Part) : (s.modPart p f).plates = s.plates := rfl
@[simp] theorem State.modPart_rebites (p : Nat) (f : Part → Part) : (s.modPart p f).rebites = s.rebites := rfl
@[simp] theorem State.modPart_fabs (p : Nat) (f : Part → Part) : (s.modPart p f).fabs = s.fabs := rfl
@[simp] theorem State.modPart_ops (p : Nat) (f : Part → Part) : (s.modPart p f).ops = s.ops := rfl
@[simp] theorem State.modPart_unitHeld (p : Nat) (f : Part → Part) : (s.modPart p f).unitHeld = s.unitHeld := rfl
@[simp] theorem State.modPart_ctxs (p : Nat) (f : Part → Part) : (s.modPart p f).ctxs = s.ctxs := rfl
@[simp] theorem State.modPart_slotOpsTotal (p : Nat) (f : Part → Part) : (s.modPart p f).slotOpsTotal = s.slotOpsTotal := rfl
@[simp] theorem State.modPart_restores (p : Nat) (f : Part → Part) : (s.modPart p f).restores = s.restores := rfl
@[simp] theorem State.modPart_bundles (p : Nat) (f : Part → Part) : (s.modPart p f).bundles = s.bundles := rfl
@[simp] theorem State.modPart_obj (p : Nat) (f : Part → Part) : (s.modPart p f).obj = s.obj := rfl
@[simp] theorem State.modPart_eff (p : Nat) (f : Part → Part) : (s.modPart p f).eff = s.eff := rfl
@[simp] theorem State.modPart_effT (p : Nat) (f : Part → Part) : (s.modPart p f).effT = s.effT := rfl
@[simp] theorem State.modPart_rwt (p : Nat) (f : Part → Part) : (s.modPart p f).rwt = s.rwt := rfl
@[simp] theorem State.modPart_gauges (p : Nat) (f : Part → Part) : (s.modPart p f).gauges = s.gauges := rfl
@[simp] theorem State.modPart_power (p : Nat) (f : Part → Part) : (s.modPart p f).power = s.power := rfl
@[simp] theorem State.modPart_sec (p : Nat) (f : Part → Part) : (s.modPart p f).sec = s.sec := rfl
@[simp] theorem State.modPart_boot (p : Nat) (f : Part → Part) : (s.modPart p f).boot = s.boot := rfl
@[simp] theorem State.modPart_out (p : Nat) (f : Part → Part) : (s.modPart p f).out = s.out := rfl
@[simp] theorem State.modPart_freeCtr (p : Nat) (f : Part → Part) : (s.modPart p f).freeCtr = s.freeCtr := rfl
@[simp] theorem State.modPart_pending (p : Nat) (f : Part → Part) : (s.modPart p f).pending = s.pending := rfl

/-! ### modMap -/

@[simp] theorem State.modMap_frame (n : Nat) (f : CycMap → CycMap) : (s.modMap n f).frame = s.frame := rfl
@[simp] theorem State.modMap_tenants (n : Nat) (f : CycMap → CycMap) : (s.modMap n f).tenants = s.tenants := rfl
@[simp] theorem State.modMap_links (n : Nat) (f : CycMap → CycMap) : (s.modMap n f).links = s.links := rfl
@[simp] theorem State.modMap_arb (n : Nat) (f : CycMap → CycMap) : (s.modMap n f).arb = s.arb := rfl
@[simp] theorem State.modMap_mem (n : Nat) (f : CycMap → CycMap) : (s.modMap n f).mem = s.mem := rfl
@[simp] theorem State.modMap_host (n : Nat) (f : CycMap → CycMap) : (s.modMap n f).host = s.host := rfl
@[simp] theorem State.modMap_poison (n : Nat) (f : CycMap → CycMap) : (s.modMap n f).poison = s.poison := rfl
@[simp] theorem State.modMap_memStat (n : Nat) (f : CycMap → CycMap) : (s.modMap n f).memStat = s.memStat := rfl
@[simp] theorem State.modMap_posted (n : Nat) (f : CycMap → CycMap) : (s.modMap n f).posted = s.posted := rfl
@[simp] theorem State.modMap_plates (n : Nat) (f : CycMap → CycMap) : (s.modMap n f).plates = s.plates := rfl
@[simp] theorem State.modMap_rebites (n : Nat) (f : CycMap → CycMap) : (s.modMap n f).rebites = s.rebites := rfl
@[simp] theorem State.modMap_fabs (n : Nat) (f : CycMap → CycMap) : (s.modMap n f).fabs = s.fabs := rfl
@[simp] theorem State.modMap_ops (n : Nat) (f : CycMap → CycMap) : (s.modMap n f).ops = s.ops := rfl
@[simp] theorem State.modMap_unitHeld (n : Nat) (f : CycMap → CycMap) : (s.modMap n f).unitHeld = s.unitHeld := rfl
@[simp] theorem State.modMap_ctxs (n : Nat) (f : CycMap → CycMap) : (s.modMap n f).ctxs = s.ctxs := rfl
@[simp] theorem State.modMap_slotOpsTotal (n : Nat) (f : CycMap → CycMap) : (s.modMap n f).slotOpsTotal = s.slotOpsTotal := rfl
@[simp] theorem State.modMap_restores (n : Nat) (f : CycMap → CycMap) : (s.modMap n f).restores = s.restores := rfl
@[simp] theorem State.modMap_bundles (n : Nat) (f : CycMap → CycMap) : (s.modMap n f).bundles = s.bundles := rfl
@[simp] theorem State.modMap_obj (n : Nat) (f : CycMap → CycMap) : (s.modMap n f).obj = s.obj := rfl
@[simp] theorem State.modMap_eff (n : Nat) (f : CycMap → CycMap) : (s.modMap n f).eff = s.eff := rfl
@[simp] theorem State.modMap_effT (n : Nat) (f : CycMap → CycMap) : (s.modMap n f).effT = s.effT := rfl
@[simp] theorem State.modMap_rwt (n : Nat) (f : CycMap → CycMap) : (s.modMap n f).rwt = s.rwt := rfl
@[simp] theorem State.modMap_gauges (n : Nat) (f : CycMap → CycMap) : (s.modMap n f).gauges = s.gauges := rfl
@[simp] theorem State.modMap_power (n : Nat) (f : CycMap → CycMap) : (s.modMap n f).power = s.power := rfl
@[simp] theorem State.modMap_sec (n : Nat) (f : CycMap → CycMap) : (s.modMap n f).sec = s.sec := rfl
@[simp] theorem State.modMap_boot (n : Nat) (f : CycMap → CycMap) : (s.modMap n f).boot = s.boot := rfl
@[simp] theorem State.modMap_out (n : Nat) (f : CycMap → CycMap) : (s.modMap n f).out = s.out := rfl
@[simp] theorem State.modMap_freeCtr (n : Nat) (f : CycMap → CycMap) : (s.modMap n f).freeCtr = s.freeCtr := rfl
@[simp] theorem State.modMap_pending (n : Nat) (f : CycMap → CycMap) : (s.modMap n f).pending = s.pending := rfl

/-! ### modView -/

@[simp] theorem State.modView_frame (w : View) (f : ViewSel → ViewSel) : (s.modView w f).frame = s.frame := rfl
@[simp] theorem State.modView_tenants (w : View) (f : ViewSel → ViewSel) : (s.modView w f).tenants = s.tenants := rfl
@[simp] theorem State.modView_links (w : View) (f : ViewSel → ViewSel) : (s.modView w f).links = s.links := rfl
@[simp] theorem State.modView_arb (w : View) (f : ViewSel → ViewSel) : (s.modView w f).arb = s.arb := rfl
@[simp] theorem State.modView_mem (w : View) (f : ViewSel → ViewSel) : (s.modView w f).mem = s.mem := rfl
@[simp] theorem State.modView_host (w : View) (f : ViewSel → ViewSel) : (s.modView w f).host = s.host := rfl
@[simp] theorem State.modView_poison (w : View) (f : ViewSel → ViewSel) : (s.modView w f).poison = s.poison := rfl
@[simp] theorem State.modView_memStat (w : View) (f : ViewSel → ViewSel) : (s.modView w f).memStat = s.memStat := rfl
@[simp] theorem State.modView_posted (w : View) (f : ViewSel → ViewSel) : (s.modView w f).posted = s.posted := rfl
@[simp] theorem State.modView_plates (w : View) (f : ViewSel → ViewSel) : (s.modView w f).plates = s.plates := rfl
@[simp] theorem State.modView_rebites (w : View) (f : ViewSel → ViewSel) : (s.modView w f).rebites = s.rebites := rfl
@[simp] theorem State.modView_fabs (w : View) (f : ViewSel → ViewSel) : (s.modView w f).fabs = s.fabs := rfl
@[simp] theorem State.modView_ops (w : View) (f : ViewSel → ViewSel) : (s.modView w f).ops = s.ops := rfl
@[simp] theorem State.modView_unitHeld (w : View) (f : ViewSel → ViewSel) : (s.modView w f).unitHeld = s.unitHeld := rfl
@[simp] theorem State.modView_ctxs (w : View) (f : ViewSel → ViewSel) : (s.modView w f).ctxs = s.ctxs := rfl
@[simp] theorem State.modView_slotOpsTotal (w : View) (f : ViewSel → ViewSel) : (s.modView w f).slotOpsTotal = s.slotOpsTotal := rfl
@[simp] theorem State.modView_restores (w : View) (f : ViewSel → ViewSel) : (s.modView w f).restores = s.restores := rfl
@[simp] theorem State.modView_bundles (w : View) (f : ViewSel → ViewSel) : (s.modView w f).bundles = s.bundles := rfl
@[simp] theorem State.modView_obj (w : View) (f : ViewSel → ViewSel) : (s.modView w f).obj = s.obj := rfl
@[simp] theorem State.modView_eff (w : View) (f : ViewSel → ViewSel) : (s.modView w f).eff = s.eff := rfl
@[simp] theorem State.modView_effT (w : View) (f : ViewSel → ViewSel) : (s.modView w f).effT = s.effT := rfl
@[simp] theorem State.modView_rwt (w : View) (f : ViewSel → ViewSel) : (s.modView w f).rwt = s.rwt := rfl
@[simp] theorem State.modView_gauges (w : View) (f : ViewSel → ViewSel) : (s.modView w f).gauges = s.gauges := rfl
@[simp] theorem State.modView_power (w : View) (f : ViewSel → ViewSel) : (s.modView w f).power = s.power := rfl
@[simp] theorem State.modView_sec (w : View) (f : ViewSel → ViewSel) : (s.modView w f).sec = s.sec := rfl
@[simp] theorem State.modView_boot (w : View) (f : ViewSel → ViewSel) : (s.modView w f).boot = s.boot := rfl
@[simp] theorem State.modView_out (w : View) (f : ViewSel → ViewSel) : (s.modView w f).out = s.out := rfl
@[simp] theorem State.modView_freeCtr (w : View) (f : ViewSel → ViewSel) : (s.modView w f).freeCtr = s.freeCtr := rfl
@[simp] theorem State.modView_pending (w : View) (f : ViewSel → ViewSel) : (s.modView w f).pending = s.pending := rfl

/-! ### send -/

@[simp] theorem State.send_frame (m : OutMsg) : (s.send m).frame = s.frame := rfl
@[simp] theorem State.send_tenants (m : OutMsg) : (s.send m).tenants = s.tenants := rfl
@[simp] theorem State.send_links (m : OutMsg) : (s.send m).links = s.links := rfl
@[simp] theorem State.send_arb (m : OutMsg) : (s.send m).arb = s.arb := rfl
@[simp] theorem State.send_mem (m : OutMsg) : (s.send m).mem = s.mem := rfl
@[simp] theorem State.send_host (m : OutMsg) : (s.send m).host = s.host := rfl
@[simp] theorem State.send_poison (m : OutMsg) : (s.send m).poison = s.poison := rfl
@[simp] theorem State.send_memStat (m : OutMsg) : (s.send m).memStat = s.memStat := rfl
@[simp] theorem State.send_posted (m : OutMsg) : (s.send m).posted = s.posted := rfl
@[simp] theorem State.send_plates (m : OutMsg) : (s.send m).plates = s.plates := rfl
@[simp] theorem State.send_rebites (m : OutMsg) : (s.send m).rebites = s.rebites := rfl
@[simp] theorem State.send_fabs (m : OutMsg) : (s.send m).fabs = s.fabs := rfl
@[simp] theorem State.send_ops (m : OutMsg) : (s.send m).ops = s.ops := rfl
@[simp] theorem State.send_unitHeld (m : OutMsg) : (s.send m).unitHeld = s.unitHeld := rfl
@[simp] theorem State.send_ctxs (m : OutMsg) : (s.send m).ctxs = s.ctxs := rfl
@[simp] theorem State.send_slotOpsTotal (m : OutMsg) : (s.send m).slotOpsTotal = s.slotOpsTotal := rfl
@[simp] theorem State.send_restores (m : OutMsg) : (s.send m).restores = s.restores := rfl
@[simp] theorem State.send_bundles (m : OutMsg) : (s.send m).bundles = s.bundles := rfl
@[simp] theorem State.send_obj (m : OutMsg) : (s.send m).obj = s.obj := rfl
@[simp] theorem State.send_eff (m : OutMsg) : (s.send m).eff = s.eff := rfl
@[simp] theorem State.send_effT (m : OutMsg) : (s.send m).effT = s.effT := rfl
@[simp] theorem State.send_rwt (m : OutMsg) : (s.send m).rwt = s.rwt := rfl
@[simp] theorem State.send_net (m : OutMsg) : (s.send m).net = s.net := rfl
@[simp] theorem State.send_gauges (m : OutMsg) : (s.send m).gauges = s.gauges := rfl
@[simp] theorem State.send_power (m : OutMsg) : (s.send m).power = s.power := rfl
@[simp] theorem State.send_sec (m : OutMsg) : (s.send m).sec = s.sec := rfl
@[simp] theorem State.send_boot (m : OutMsg) : (s.send m).boot = s.boot := rfl
@[simp] theorem State.send_out (m : OutMsg) : (s.send m).out = s.out ++ [m] := rfl
@[simp] theorem State.send_freeCtr (m : OutMsg) : (s.send m).freeCtr = s.freeCtr := rfl
@[simp] theorem State.send_pending (m : OutMsg) : (s.send m).pending = s.pending := rfl

/-! ### What is read back -/

@[simp] theorem State.setCtx_same (c : Nat) (x : Ctx) : (s.setCtx c x).ctx c = x := by simp [State.ctx, State.setCtx]
theorem State.setCtx_ne {c c' : Nat} (x : Ctx) (h : c' ≠ c) : (s.setCtx c x).ctx c' = s.ctx c' := by
  simp [State.ctx, State.setCtx, tget_tset_ne _ _ _ h]
@[simp] theorem State.modCtx_same (c : Nat) (f : Ctx → Ctx) : (s.modCtx c f).ctx c = f (s.ctx c) := by simp [State.modCtx]
theorem State.modCtx_ne {c c' : Nat} (f : Ctx → Ctx) (h : c' ≠ c) : (s.modCtx c f).ctx c' = s.ctx c' := by
  simp [State.modCtx, State.setCtx_ne _ _ h]
@[simp] theorem State.modQueue_same (c q : Nat) (f : Queue → Queue) : (s.modQueue c q f).queue c q = f (s.queue c q) := by
  simp [State.queue, State.modQueue, Ctx.queue, Ctx.modQueue]
@[simp] theorem State.modTen_same (t : Nat) (f : Tenant → Tenant) : (s.modTen t f).ten t = f (s.ten t) := by
  simp [State.ten, State.modTen]
theorem State.modTen_ne {t k : Nat} (f : Tenant → Tenant) (h : k ≠ t) : (s.modTen t f).ten k = s.ten k := by
  simp [State.ten, State.modTen, tget_tmod_ne _ _ _ h]
@[simp] theorem State.modLink_same (l : Nat) (f : Link → Link) : (s.modLink l f).link l = f (s.link l) := by
  simp [State.link, State.modLink]
theorem State.modLink_ne {l k : Nat} (f : Link → Link) (h : k ≠ l) : (s.modLink l f).link k = s.link k := by
  simp [State.link, State.modLink, tget_tmod_ne _ _ _ h]
@[simp] theorem State.modPlate_same (g : Nat) (f : Plate → Plate) : (s.modPlate g f).plate g = f (s.plate g) := by
  simp [State.plate, State.modPlate]
theorem State.modPlate_ne {g k : Nat} (f : Plate → Plate) (h : k ≠ g) : (s.modPlate g f).plate k = s.plate k := by
  simp [State.plate, State.modPlate, tget_tmod_ne _ _ _ h]
@[simp] theorem State.modFab_same (m : Nat) (f : Fab → Fab) : (s.modFab m f).fab m = f (s.fab m) := by
  simp [State.fab, State.modFab]
theorem State.modFab_ne {m k : Nat} (f : Fab → Fab) (h : k ≠ m) : (s.modFab m f).fab k = s.fab k := by
  simp [State.fab, State.modFab, tget_tmod_ne _ _ _ h]
@[simp] theorem State.modGauge_same (d : Nat) (f : Gauge → Gauge) : (s.modGauge d f).gauge d = f (s.gauge d) := by
  simp [State.gauge, State.modGauge]
theorem State.modGauge_ne {d k : Nat} (f : Gauge → Gauge) (h : k ≠ d) : (s.modGauge d f).gauge k = s.gauge k := by
  simp [State.gauge, State.modGauge, tget_tmod_ne _ _ _ h]
@[simp] theorem State.modCan_same (p : Nat) (f : CanPort → CanPort) : (s.modCan p f).can p = f (s.can p) := by
  simp [State.can, State.modCan]
theorem State.modCan_ne {p k : Nat} (f : CanPort → CanPort) (h : k ≠ p) : (s.modCan p f).can k = s.can k := by
  simp [State.can, State.modCan, tget_tmod_ne _ _ _ h]
@[simp] theorem State.modEth_same (p : Nat) (f : EthPort → EthPort) : (s.modEth p f).eth p = f (s.eth p) := by
  simp [State.eth, State.modEth]
theorem State.modEth_ne {p k : Nat} (f : EthPort → EthPort) (h : k ≠ p) : (s.modEth p f).eth k = s.eth k := by
  simp [State.eth, State.modEth, tget_tmod_ne _ _ _ h]
@[simp] theorem State.modPart_same (p : Nat) (f : Part → Part) : (s.modPart p f).part p = f (s.part p) := by
  simp [State.part, State.modPart]
theorem State.modPart_ne {p k : Nat} (f : Part → Part) (h : k ≠ p) : (s.modPart p f).part k = s.part k := by
  simp [State.part, State.modPart, tget_tmod_ne _ _ _ h]
@[simp] theorem State.modMap_same (n : Nat) (f : CycMap → CycMap) : (s.modMap n f).map n = f (s.map n) := by
  simp [State.map, State.modMap]
theorem State.modMap_ne {n k : Nat} (f : CycMap → CycMap) (h : k ≠ n) : (s.modMap n f).map k = s.map k := by
  simp [State.map, State.modMap, tget_tmod_ne _ _ _ h]
@[simp] theorem State.modFunc_same (p f : Nat) (g : Func → Func) : (s.modFunc p f g).func p f = g (s.func p f) := by
  simp [State.func, State.modFunc]

/-! ### Folds -/

/-- What every turn of a fold keeps, the fold keeps. -/
theorem State.each_keeps {β : Type} (p : State → β) (l : List Nat) (f : State → Nat → State)
    (h : ∀ s k, p (f s k) = p s) : p (s.each l f) = p s := by
  unfold State.each
  induction l generalizing s with
  | nil => rfl
  | cons k l ih => simp [List.foldl_cons, ih, h]

theorem foldl_keeps {β γ : Type} (p : State → β) (l : List γ) (f : State → γ → State)
    (h : ∀ s k, p (f s k) = p s) (s : State) : p (l.foldl f s) = p s := by
  induction l generalizing s with
  | nil => rfl
  | cons k l ih => simp [List.foldl_cons, ih, h]

/-- A property that every turn keeps holds after the fold. -/
theorem State.each_inv (P : State → Prop) (l : List Nat) (f : State → Nat → State)
    (h : ∀ s k, P s → P (f s k)) (hs : P s) : P (s.each l f) := by
  unfold State.each
  induction l generalizing s with
  | nil => exact hs
  | cons k l ih => exact ih _ (h s k hs)

/-- An event of the device itself takes effect where it is due, and changes nothing elsewhere (log 49). -/
@[simp] theorem due_true (s t : State) : due s true t = .next t := rfl
@[simp] theorem due_false (s t : State) : due s false t = .next s := rfl

theorem due_next {s t u : State} {b : Bool} : due s b t = .next u ↔ (b = true ∧ t = u) ∨ (b = false ∧ s = u) := by
  cases b <;> simp [due]

/-- What both the event's effect and the unchanged state have, its outcome has. -/
theorem due_keeps {s t u : State} {b : Bool} (P : State → Prop) (ht : P t) (hs : P s) (h : due s b t = .next u) : P u := by
  rcases due_next.mp h with ⟨_, rfl⟩ | ⟨_, rfl⟩
  · exact ht
  · exact hs

end Sys2Proof.Machine
end

