-- ==== Sys2Proof/Laws/Ops.lean ====
section
/-!
SUPPORT. What the shared operations over memory, translation, records and notifications can do, said once: the canonical
form of memory, which every one keeps, reads after a write, and the parts of State an operation can touch.
-/

namespace Sys2Proof.Machine

/-- `force` only fixes the order of evaluation. -/
@[simp] theorem force_eq {α : Type} (n : Nat) (f : Nat → α) : force n f = f n := by cases n <;> rfl

/-! ### Folds -/

/-- What every step of a fold keeps, the fold keeps. -/
theorem fold_holds {α β : Type} (P : β → Prop) (f : β → α → β) (l : List α) (b : β) (h : P b)
    (hf : ∀ b x, x ∈ l → P b → P (f b x)) : P (l.foldl f b) := by
  induction l generalizing b with
  | nil => exact h
  | cons x l ih => exact ih _ (hf b x (by simp) h) fun b y hy => hf b y (List.mem_cons_of_mem _ hy)

/-! ### Parts of State an operation may touch -/

/-- At most device memory, its poison, ninth bits of wells and host memory differ, and both memories stay canonical. -/
def DataOnly (s t : State) : Prop :=
  (∃ m p f h, t = { s with mem := m, poison := p, fabs := f, host := h }) ∧
  (Memory.wf s.mem = true → Memory.wf t.mem = true) ∧ (twf 0 s.host = true → twf 0 t.host = true)

/-- Besides, at most contexts and tenants differ. -/
def RecordsOnly (s t : State) : Prop :=
  (∃ m p f h c n, t = { s with mem := m, poison := p, fabs := f, host := h, ctxs := c, tenants := n }) ∧
  (Memory.wf s.mem = true → Memory.wf t.mem = true) ∧ (twf 0 s.host = true → twf 0 t.host = true)

/-- At most contexts, tenants, the network's own state and the messages sent differ. -/
def NotifiesOnly (s t : State) : Prop :=
  ∃ c n e o, t = { s with ctxs := c, tenants := n, net := e, out := o }

theorem DataOnly.refl (s : State) : DataOnly s s := ⟨⟨s.mem, s.poison, s.fabs, s.host, rfl⟩, id, id⟩
theorem DataOnly.trans {s t u : State} (h : DataOnly s t) (h' : DataOnly t u) : DataOnly s u := by
  obtain ⟨⟨m, p, f, x, rfl⟩, a, b⟩ := h
  obtain ⟨⟨m', p', f', x', rfl⟩, a', b'⟩ := h'
  exact ⟨⟨m', p', f', x', rfl⟩, fun i => a' (a i), fun i => b' (b i)⟩
theorem DataOnly.records {s t : State} (h : DataOnly s t) : RecordsOnly s t := by
  obtain ⟨⟨m, p, f, x, rfl⟩, a, b⟩ := h
  exact ⟨⟨m, p, f, x, s.ctxs, s.tenants, rfl⟩, a, b⟩
theorem RecordsOnly.refl (s : State) : RecordsOnly s s := (DataOnly.refl s).records
theorem RecordsOnly.trans {s t u : State} (h : RecordsOnly s t) (h' : RecordsOnly t u) : RecordsOnly s u := by
  obtain ⟨⟨m, p, f, x, c, n, rfl⟩, a, b⟩ := h
  obtain ⟨⟨m', p', f', x', c', n', rfl⟩, a', b'⟩ := h'
  exact ⟨⟨m', p', f', x', c', n', rfl⟩, fun i => a' (a i), fun i => b' (b i)⟩
theorem NotifiesOnly.refl (s : State) : NotifiesOnly s s := ⟨s.ctxs, s.tenants, s.net, s.out, rfl⟩
theorem NotifiesOnly.trans {s t u : State} (h : NotifiesOnly s t) (h' : NotifiesOnly t u) : NotifiesOnly s u := by
  obtain ⟨c, n, e, o, rfl⟩ := h
  obtain ⟨c', n', e', o', rfl⟩ := h'
  exact ⟨c', n', e', o', rfl⟩

/-! ### Memory: the canonical form and reads after a write -/

/-- Reset's memories list nothing. -/
theorem reset_memory_wf : Memory.wf State.reset.mem = true ∧ twf 0 State.reset.host = true := ⟨rfl, rfl⟩

theorem State.wrPar_form (s : State) (a n : Nat) : ∃ f, s.wrPar a n = { s with fabs := f } := by
  unfold State.wrPar
  split
  · split
    · exact ⟨s.fabs, rfl⟩
    · exact ⟨_, rfl⟩
  · exact ⟨s.fabs, rfl⟩

/-- A write keeps the canonical form and touches only memory, its poison and ninth bits. -/
theorem State.wr_dataOnly (s : State) (a : Nat) (bs : List Byte) : DataOnly s (s.wr a bs) := by
  obtain ⟨f, hf⟩ := s.wrPar_form a bs.length
  unfold State.wr
  rw [hf]
  exact ⟨⟨_, _, f, s.host, rfl⟩, fun h => twf_tsetRun bs h a, id⟩

/-- Zeroing keeps the canonical form. -/
theorem State.zero_dataOnly (s : State) (a n : Nat) : DataOnly s (s.zero a n) :=
  ⟨⟨_, _, s.fabs, s.host, rfl⟩, fun h => twf_filter _ h, id⟩

/-- A write at a translated target: device memory or host memory. -/
theorem State.wrTarget_dataOnly (s : State) (t : Target) (bs : List Byte) : DataOnly s (s.wrTarget t bs) := by
  unfold State.wrTarget
  split
  · exact s.wr_dataOnly _ _
  · split
    · exact DataOnly.refl s
    · exact ⟨⟨s.mem, s.poison, s.fabs, _, rfl⟩, id, fun h => twf_tsetRun bs h _⟩

/-- Any run of writes at targets. -/
theorem State.wrTargets_dataOnly (s : State) (l : List (Nat × Target × List Byte)) :
    DataOnly s (l.foldl (fun s e => s.wrTarget e.2.1 e.2.2) s) :=
  fold_holds (DataOnly s) _ l s (DataOnly.refl s) fun _ _ _ h => h.trans (State.wrTarget_dataOnly _ _ _)

/-- Well contents at release keep the canonical form. -/
theorem State.fillWells_wf (s : State) (m : Nat) (w : Tab Byte) (h : Memory.wf s.mem = true) :
    Memory.wf (s.fillWells m w).mem = true := by
  unfold State.fillWells
  refine fold_holds (fun t : Tab Byte => twf 0 t = true) _ w _ ((s.zero_dataOnly _ _).2.1 h) ?_
  intro t e _ ht
  split
  · exact twf_tset ht _ _
  · exact ht

/-- What a read finds after a write of the same or another byte: the keep table is read from the contexts. -/
theorem State.rd_wr (s : State) (a b : Nat) (bs : List Byte) :
    (s.wr a bs).rd b = if inKeep b = false ∧ a ≤ b ∧ b < a + bs.length then bs.getD (b - a) 0 else s.rd b := by
  obtain ⟨f, hf⟩ := s.wrPar_form a bs.length
  unfold State.wr State.rd State.ctx
  rw [hf]
  cases h : inKeep b
  · simp only [Bool.false_eq_true, if_false, true_and]
    rw [tget_tsetRun]
  · simp

/-- A byte outside the bytes written reads as before. -/
theorem State.rd_wr_outside (s : State) {a b : Nat} {bs : List Byte} (h : b < a ∨ a + bs.length ≤ b) :
    (s.wr a bs).rd b = s.rd b := by
  rw [State.rd_wr, if_neg]; omega

theorem State.rd_zero (s : State) (a n b : Nat) :
    (s.zero a n).rd b = if inKeep b = false ∧ a ≤ b ∧ b < a + n then 0 else s.rd b := by
  unfold State.zero State.rd State.ctx
  cases h : inKeep b
  · simp only [Bool.false_eq_true, if_false, true_and]
    rw [tget_filter_keys 0 s.mem (fun k => !decide (a ≤ k ∧ k < a + n)) b]
    by_cases hb : a ≤ b ∧ b < a + n <;> simp [hb]
  · simp

/-! ### Translation and reads -/

/-- The table cache is all that a table read fills. -/
theorem State.tableEntry_form (s : State) (c l p a : Nat) : ∃ x, (s.tableEntry c l p a).2 = { s with ctxs := x } := by
  unfold State.tableEntry
  split
  · exact ⟨s.ctxs, rfl⟩
  · exact ⟨_, rfl⟩

/-- Translation fills the table cache and changes nothing else. -/
theorem State.translate_form (s : State) (c a : Nat) (w : Bool) : ∃ x, (s.translate c a w).2 = { s with ctxs := x } := by
  unfold State.translate
  dsimp only
  split
  · exact ⟨s.ctxs, rfl⟩
  split
  · exact ⟨s.ctxs, rfl⟩
  obtain ⟨x1, g1⟩ := s.tableEntry_form c 1 (a / 2 ^ 42) ((s.ctx c).l1 + 8 * (a / 2 ^ 42 % 64))
  generalize hr1 : s.tableEntry c 1 (a / 2 ^ 42) ((s.ctx c).l1 + 8 * (a / 2 ^ 42 % 64)) = r1 at g1 ⊢
  split
  · exact ⟨x1, g1⟩
  obtain ⟨x2, g2⟩ := r1.2.tableEntry_form c 2 (a / 2 ^ 29) (fld r1.1 63 16 * 65536 + 8 * (a / 2 ^ 29 % 8192))
  generalize hr2 : r1.2.tableEntry c 2 (a / 2 ^ 29) (fld r1.1 63 16 * 65536 + 8 * (a / 2 ^ 29 % 8192)) = r2 at g2 ⊢
  rw [g1] at g2
  split
  · exact ⟨x2, g2⟩
  obtain ⟨x3, g3⟩ := r2.2.tableEntry_form c 3 (a / 2 ^ 16) (fld r2.1 63 16 * 65536 + 8 * (a / 2 ^ 16 % 8192))
  generalize hr3 : r2.2.tableEntry c 3 (a / 2 ^ 16) (fld r2.1 63 16 * 65536 + 8 * (a / 2 ^ 16 % 8192)) = r3 at g3 ⊢
  rw [g2] at g3
  repeat' split
  all_goals exact ⟨x3, g3⟩

/-- Finding where a write goes fills the table cache and changes nothing else. -/
theorem State.writeTargets_form (s : State) (c a : Nat) (bs : List Byte) :
    ∃ x, (s.writeTargets c a bs).2 = { s with ctxs := x } := by
  unfold State.writeTargets
  refine fold_holds (fun r : Except Nat (List (Nat × Target × List Byte)) × State => ∃ x, r.2 = { s with ctxs := x })
    _ _ _ ⟨s.ctxs, rfl⟩ ?_
  rintro ⟨r, u⟩ pc _ ⟨x, rfl⟩
  cases r with
  | error e => exact ⟨x, rfl⟩
  | ok l =>
    obtain ⟨y, hy⟩ := ({ s with ctxs := x } : State).translate_form c pc.1 true
    dsimp only
    generalize ({ s with ctxs := x } : State).translate c pc.1 true = q at *
    obtain ⟨t, v⟩ := q
    dsimp only at hy
    subst hy
    cases t <;> exact ⟨y, rfl⟩

theorem State.modCtx_recordsOnly (s : State) (c : Nat) (f : Ctx → Ctx) : RecordsOnly s (s.modCtx c f) :=
  ⟨⟨s.mem, s.poison, s.fabs, s.host, _, s.tenants, rfl⟩, id, id⟩

theorem State.modTen_recordsOnly (s : State) (k : Nat) (f : Tenant → Tenant) : RecordsOnly s (s.modTen k f) :=
  ⟨⟨s.mem, s.poison, s.fabs, s.host, s.ctxs, _, rfl⟩, id, id⟩

theorem State.lateRecord_recordsOnly (s : State) (c q k : Nat) (e : BitVec 16) (ca da : Nat) :
    RecordsOnly s (s.lateRecord c q k e ca da) :=
  (s.modCtx_recordsOnly c _).trans (State.modTen_recordsOnly _ _ _)

/-- A late failure touches its context and its tenant. -/
theorem State.lateFault_recordsOnly (s : State) (c q k : Nat) (e : BitVec 16) (ca da : Nat) :
    RecordsOnly s (s.lateFault c q k e ca da) := by
  unfold State.lateFault
  refine (s.lateRecord_recordsOnly c q k e ca da).trans ?_
  generalize s.lateRecord c q k e ca da = u
  dsimp only
  split
  · exact u.modCtx_recordsOnly _ _
  · exact (u.modCtx_recordsOnly _ _).trans (State.modCtx_recordsOnly _ _ _)

/-- The device's own write: performed, or refused by a poisoned block it covers in part. -/
theorem State.wrOwn_recordsOnly (s : State) (c q ca : Nat) (t : Target) (bs : List Byte) :
    RecordsOnly s (s.wrOwn c q ca t bs) := by
  unfold State.wrOwn
  cases t with
  | dev a =>
    dsimp only
    split
    · exact s.lateFault_recordsOnly _ _ _ _ _ _
    · exact (s.wr_dataOnly _ _).records
  | hostPage p f a => exact (s.wrTarget_dataOnly _ _).records

/-- A write of the device into context memory. -/
theorem State.wrCtx_recordsOnly (s : State) (c q a : Nat) (bs : List Byte) : RecordsOnly s (s.wrCtx c q a bs) := by
  obtain ⟨x, hx⟩ := s.writeTargets_form c a bs
  unfold State.wrCtx
  generalize s.writeTargets c a bs = r at *
  obtain ⟨r, u⟩ := r
  dsimp only at hx
  subst hx
  have h0 : RecordsOnly s { s with ctxs := x } := ⟨⟨s.mem, s.poison, s.fabs, s.host, x, s.tenants, rfl⟩, id, id⟩
  cases r with
  | error e => exact h0
  | ok l => exact fold_holds (RecordsOnly s) _ l _ h0 fun _ _ _ h => h.trans (State.wrOwn_recordsOnly _ _ _ _ _ _)

/-! ### Records -/

theorem State.putRec_recordsOnly (s : State) (r : Rec) : RecordsOnly s (s.putRec r) :=
  (s.modCtx_recordsOnly _ _).trans (State.wrCtx_recordsOnly _ _ _ _ _)

/-- A record written, held or dropped touches memory, its context and its tenant's counter. -/
theorem State.post_recordsOnly (s : State) (r : Rec) : RecordsOnly s (s.post r) := by
  unfold State.post
  dsimp only
  split
  · exact RecordsOnly.refl s
  split
  · split
    · exact (s.modCtx_recordsOnly _ _).trans (State.modTen_recordsOnly _ _ _)
    · split
      · exact s.putRec_recordsOnly _
      · exact s.modCtx_recordsOnly _ _
  · split
    · exact s.putRec_recordsOnly _
    · exact s.modCtx_recordsOnly _ _

theorem State.postTenant_recordsOnly (s : State) (t : Nat) (r : Rec) : RecordsOnly s (s.postTenant t r) :=
  fold_holds (RecordsOnly s) _ _ s (RecordsOnly.refl s) fun _ _ _ h => h.trans (State.post_recordsOnly _ _)

/-- The TICK event: one message to the supervisor, and records. -/
theorem State.tickEvent_form (s : State) : ∃ r, RecordsOnly (s.send (.superEvent r)) s.tickEvent := by
  refine ⟨{ s.mkRec 0x06 with detail := BitVec.ofNat 64 s.frame.tickState.code, die := 0x0F, q := 15 }, ?_⟩
  unfold State.tickEvent State.postSup
  exact fold_holds (RecordsOnly _) _ _ _ (RecordsOnly.refl _) fun _ _ _ h => h.trans (State.postTenant_recordsOnly _ _ _)

/-! ### Notifications -/

theorem State.modCtx_notifiesOnly (s : State) (c : Nat) (f : Ctx → Ctx) : NotifiesOnly s (s.modCtx c f) :=
  ⟨_, s.tenants, s.net, s.out, rfl⟩
theorem State.modTen_notifiesOnly (s : State) (k : Nat) (f : Tenant → Tenant) : NotifiesOnly s (s.modTen k f) :=
  ⟨s.ctxs, _, s.net, s.out, rfl⟩
theorem State.modNet_notifiesOnly (s : State) (f : Net → Net) : NotifiesOnly s (s.modNet f) :=
  ⟨s.ctxs, s.tenants, _, s.out, rfl⟩
theorem State.send_notifiesOnly (s : State) (m : OutMsg) : NotifiesOnly s (s.send m) :=
  ⟨s.ctxs, s.tenants, s.net, _, rfl⟩

theorem State.msix_notifiesOnly (s : State) (p f e : Nat) : NotifiesOnly s (s.msix p f e) := by
  unfold State.msix
  dsimp only
  split
  · exact NotifiesOnly.refl s
  split
  · exact s.modNet_notifiesOnly _
  · exact s.send_notifiesOnly _

theorem State.notifyQueue_notifiesOnly (s : State) (c q : Nat) : NotifiesOnly s (s.notifyQueue c q) := by
  unfold State.notifyQueue
  dsimp only
  split
  · exact s.msix_notifiesOnly _ _ _
  · exact (s.modNet_notifiesOnly _).trans (State.send_notifiesOnly _ _)
  · exact s.modTen_notifiesOnly _ _
  · exact s.modTen_notifiesOnly _ _
  · exact NotifiesOnly.refl s

theorem State.sendTpdo_notifiesOnly (s : State) (p n : Nat) : NotifiesOnly s (s.sendTpdo p n) := by
  unfold State.sendTpdo
  exact (s.send_notifiesOnly _).trans (State.modNet_notifiesOnly _ _)

/-- A tenant's notification: sent, kept for its inhibit time, or dropped. -/
theorem State.notifyTenant_notifiesOnly (s : State) (t : Nat) : NotifiesOnly s (s.notifyTenant t) := by
  unfold State.notifyTenant
  dsimp only
  split
  · exact NotifiesOnly.refl s
  split
  · split
    · split
      · exact NotifiesOnly.refl s
      · exact (s.modTen_notifiesOnly _ _).trans (State.sendTpdo_notifiesOnly _ _ _)
    · exact s.modTen_notifiesOnly _ _
  · split
    · exact (s.modTen_notifiesOnly _ _).trans (State.send_notifiesOnly _ _)
    · exact s.modTen_notifiesOnly _ _

theorem State.notifyCtx_notifiesOnly (s : State) (c : Nat) : NotifiesOnly s (s.notifyCtx c) := by
  unfold State.notifyCtx
  dsimp only
  refine NotifiesOnly.trans ?_ (State.modCtx_notifiesOnly _ _ _)
  exact fold_holds (NotifiesOnly s) _ _ s (NotifiesOnly.refl s) fun _ _ _ h => h.trans (State.notifyQueue_notifiesOnly _ _ _)

/-- The end of a phase sends the notifications that are due. -/
theorem State.flushNotify_notifiesOnly (s : State) : NotifiesOnly s s.flushNotify := by
  unfold State.flushNotify
  refine fold_holds (NotifiesOnly s) _ _ _ ?_ fun _ _ _ h => h.trans (State.notifyTenant_notifiesOnly _ _)
  exact fold_holds (NotifiesOnly s) _ _ _ (NotifiesOnly.refl s) fun _ _ _ h => h.trans (State.notifyCtx_notifiesOnly _ _)

/-- The error register of one port, and the EMCY it may send. -/
theorem State.errBit_notifiesOnly (s : State) (p code b : Nat) (on : Bool) : NotifiesOnly s (s.errBit p code b on) := by
  unfold State.errBit
  dsimp only
  repeat' split
  all_goals first
    | exact s.modNet_notifiesOnly _
    | exact (s.modNet_notifiesOnly _).trans (State.send_notifiesOnly _ _)

theorem State.errAll_notifiesOnly (s : State) (code b : Nat) (on : Bool) : NotifiesOnly s (s.errAll code b on) :=
  fold_holds (NotifiesOnly s) _ _ s (NotifiesOnly.refl s) fun _ _ _ h => h.trans (State.errBit_notifiesOnly _ _ _ _ _)

end Sys2Proof.Machine
end

