-- ==== Sys2Proof/Laws/Exec.lean ====
section
/-!
SUPPORT. What the operations on outstanding macro-instructions, on the parts of a die, and the clock edge of user logic can
do, said once.
-/

namespace Sys2Proof.Machine

/-! ### Parts of a die -/

theorem State.modFab_only (s : State) (m : Nat) (f : Fab → Fab) : OnlyFab m s (s.modFab m f) := ⟨f (s.fab m), rfl⟩
theorem State.modGauge_only (s : State) (d : Nat) (f : Gauge → Gauge) : OnlyGauge d s (s.modGauge d f) := ⟨f (s.gauge d), rfl⟩
theorem State.modExt_only (s : State) (m p : Nat) (f : ExtPort → ExtPort) : OnlyFab m s (s.modExt m p f) := s.modFab_only m _
theorem State.modCollar_only (s : State) (m w : Nat) (f : Collar → Collar) : OnlyFab m s (s.modCollar m w f) := s.modFab_only m _
theorem State.modPos_only (s : State) (d i : Nat) (f : PosIf → PosIf) : OnlyGauge d s (s.modPos d i f) := s.modGauge_only d _
theorem State.modOutput_only (s : State) (d o : Nat) (f : Output → Output) : OnlyGauge d s (s.modOutput d o f) :=
  s.modGauge_only d _
theorem State.modPwm_only (s : State) (d c : Nat) (f : Pwm → Pwm) : OnlyGauge d s (s.modPwm d c f) := s.modGauge_only d _
theorem State.modLoad_only (s : State) (d k : Nat) (f : LoadCh → LoadCh) : OnlyGauge d s (s.modLoad d k f) := s.modGauge_only d _

/-! ### Outstanding macro-instructions -/

/-- At most the outstanding macro-instructions differ. -/
def OnlyOps (s t : State) : Prop := ∃ l, t = { s with ops := l }

theorem OnlyOps.same {s t : State} (h : OnlyOps s t) :
    t.mem = s.mem ∧ t.host = s.host ∧ t.posted = s.posted ∧ t.ctxs = s.ctxs ∧ t.plates = s.plates ∧ SameSystem s t := by
  obtain ⟨l, rfl⟩ := h
  exact ⟨rfl, rfl, rfl, rfl, rfl, rfl, rfl, rfl, rfl, rfl, rfl, rfl, rfl, rfl, rfl⟩

theorem State.modOp_only (s : State) (c q i : Nat) (f : Op → Op) : OnlyOps s (s.modOp c q i f) := ⟨_, rfl⟩
theorem State.dropOp_only (s : State) (c q i : Nat) : OnlyOps s (s.dropOp c q i) := ⟨_, rfl⟩
theorem State.setEtch_only (s : State) (c q i : Nat) (h : EtchRun) : OnlyOps s (s.setEtch c q i h) := s.modOp_only c q i _
theorem State.holdWrites_only (s : State) (c q i : Nat) (e : Engine) (l : List (Nat × Target × List Byte)) :
    OnlyOps s (s.holdWrites c q i e l) := s.modOp_only c q i _
theorem State.endOp_only (s : State) (c q i : Nat) (f : Option Flt) (w : BitVec 64) : OnlyOps s (s.endOp c q i f w) :=
  s.modOp_only c q i _

/-- A macro-instruction that ends with a fault leaves everything but its own outcome (R140). -/
theorem State.finishOp_fault (s : State) (c q i : Nat) (f : Flt) (w : BitVec 64) : OnlyOps s (s.finishOp c q i (some f) w) :=
  s.endOp_only c q i _ w

/-! ### User logic -/

/-- A clock edge of user logic changes the Field dies and draws free levels of their pads, and nothing else (R309, log 20). -/
theorem State.fabricEdge_form (s : State) : ∃ f n, s.fabricEdge = { s with fabs := f, freeCtr := n } := by
  refine fold_holds (fun t : State => ∃ f n, t = { s with fabs := f, freeCtr := n }) _ _ _ ⟨s.fabs, s.freeCtr, rfl⟩ ?_
  rintro t m - ⟨f, n, rfl⟩
  split
  · exact ⟨_, _, rfl⟩
  · exact ⟨f, n, rfl⟩

end Sys2Proof.Machine
end

