-- ==== Sys2Proof/WellFormed.lean ====
section
/-!
DEFINITION. Well-formed commands: every operand within the range the spec gives it (contexts, queues, dies, plates, links,
channels, ports, endpoints, the 256-byte payload of a flit). What a command does with an operand outside is exec's to say.
-/

namespace Sys2Proof

/-- Endpoints: PCIe ports 0-1, functions 0-15; CAN FD ports 0-3, clients 1-127; Ethernet ports 0-1; partitions 0-7. -/
def viaOk : Via → Bool
  | .supervisor => true
  | .pcie port func => decide (port < 2) && decide (func < 16)
  | .can port node => decide (port < 4) && decide (1 ≤ node) && decide (node < 128)
  | .eth port _ _ => decide (port < 2)
  | .burin part => decide (part < 8)

/-- Every key of a table lies below a bound. -/
def keysBelow {α : Type} (n : Nat) (t : Tab α) : Bool := t.all (fun e => decide (e.1 < n))

/-- A list of bytes that fits a datagram or a frame. -/
def bytesOk (l : List Byte) : Bool := decide (l.length < 65536)

/-- Sixteen converters, four resolvers of 16 bits and their turns. -/
def gaugeInOk (x : GaugeIn) : Bool := keysBelow 16 x.sd && keysBelow 4 x.resolver

/-- A flit carries 256 bytes (Table 1-3). -/
def flitShapeOk (f : Flit) : Bool := decide (f.payload.length = 256)

/-- Nine masters. -/
def demandOk (w : Demand) : Bool := keysBelow 9 w.imp && keysBelow 9 w.mar

/-- Lines 0 to 1023 and the proof lines 1024 and 1025. -/
def burnishOk (b : BurnishSums) : Bool := keysBelow 1026 b.zero && keysBelow 1026 b.cal

/-- Every operand of a command in its range. -/
def Instr.wf : Instr → Bool
  | .tick x0 x1 => gaugeInOk x0 && gaugeInOk x1
  | .openingComb => true
  | .combTooth => true
  | .impressStart => true
  | .reservationEnd t => decide (t < 8)
  | .marginStart => true
  | .marginComb => true
  | .guardStart temps _ _ => keysBelow 32 temps
  | .outputPreparation => true
  | .slotOperation => true
  | .frequencySwitch _ => true
  | .outputSeal => true
  | .referenceEvent _ _ => true
  | .missingEvent => true
  | .holdoverExpiry => true
  | .resumeFromFallback via _ => viaOk via
  | .holdTickRestart x0 x1 => gaugeInOk x0 && gaugeInOk x1
  | .flitReceive l dir f _ =>
    decide (l < 24) && decide (dir < 2) && flitShapeOk f.sent && (match f.damaged with | some x => flitShapeOk x | none => true)
  | .retrainComplete l _ _ _ _ => decide (l < 24)
  | .arbitrationWindow d w => decide (d < 50) && demandOk w
  | .stockScrub k off _ _ => decide (k < 2) && decide (off < 0x2000000)
  | .lpddr5xPatrol _ _ => true
  | .postedWriteComplete _ _ => true
  | .bankScrub g bank row _ => decide (g < 32) && decide (bank < 2) && decide (row < 1024)
  | .passComplete c q idx p codes _ _ =>
      decide (c < 4096) && decide (q < 8) && decide (idx < 4096) && decide (p < 32) && keysBelow 1024 codes
  | .rebiteComplete m _ _ => decide (m < 4)
  | .etchWriteOut c q idx => decide (c < 4096) && decide (q < 8) && decide (idx < 4096)
  | .loadComplete c q idx _ => decide (c < 4096) && decide (q < 8) && decide (idx < 4096)
  | .swapTakeEffect c q idx => decide (c < 4096) && decide (q < 8) && decide (idx < 4096)
  | .burnishDue g _ => decide (g < 32)
  | .burnishStep g passes => decide (g < 32) && decide (passes.length = 8) && passes.all (keysBelow 1026)
  | .plateOverdue g => decide (g < 32)
  | .hatch c q _ => decide (c < 4096) && decide (q < 8)
  | .operandFetchComplete c q x _ => decide (c < 4096) && decide (q < 8) && decide (x.idx < 4096)
  | .claimGranted c q idx => decide (c < 4096) && decide (q < 8) && decide (idx < 4096)
  | .tileDrain c q idx _ => decide (c < 4096) && decide (q < 8) && decide (idx < 4096)
  | .stipple c q _ => decide (c < 4096) && decide (q < 8)
  | .stippleComplete c q idx _ _ => decide (c < 4096) && decide (q < 8) && decide (idx < 4096)
  | .etch c q _ => decide (c < 4096) && decide (q < 8)
  | .load c q _ => decide (c < 4096) && decide (q < 8)
  | .swap c q => decide (c < 4096) && decide (q < 8)
  | .moveInk c q _ => decide (c < 4096) && decide (q < 8)
  | .moveDataMover c q _ => decide (c < 4096) && decide (q < 8)
  | .toneDrain c q _ _ => decide (c < 4096) && decide (q < 8)
  | .toneScale c q _ _ => decide (c < 4096) && decide (q < 8)
  | .toneAdd c q _ _ => decide (c < 4096) && decide (q < 8)
  | .toneSub c q _ _ => decide (c < 4096) && decide (q < 8)
  | .toneClamp c q _ _ => decide (c < 4096) && decide (q < 8)
  | .toneCmp c q _ _ => decide (c < 4096) && decide (q < 8)
  | .toneTable c q _ _ => decide (c < 4096) && decide (q < 8)
  | .toneConvert c q _ _ => decide (c < 4096) && decide (q < 8)
  | .reduceColumnSum c q _ _ => decide (c < 4096) && decide (q < 8)
  | .reduceRowSum c q _ _ => decide (c < 4096) && decide (q < 8)
  | .reduceColumnMax c q _ _ => decide (c < 4096) && decide (q < 8)
  | .reduceRowMax c q _ _ => decide (c < 4096) && decide (q < 8)
  | .reduceSumlist c q _ _ => decide (c < 4096) && decide (q < 8)
  | .sample c q _ => decide (c < 4096) && decide (q < 8)
  | .actuate c q _ _ => decide (c < 4096) && decide (q < 8)
  | .waitCount c q => decide (c < 4096) && decide (q < 8)
  | .waitDrain c q => decide (c < 4096) && decide (q < 8)
  | .waitBoth c q => decide (c < 4096) && decide (q < 8)
  | .waitSatisfied c q => decide (c < 4096) && decide (q < 8)
  | .signalCounter c q => decide (c < 4096) && decide (q < 8)
  | .signalEvent c q => decide (c < 4096) && decide (q < 8)
  | .signalFence c q => decide (c < 4096) && decide (q < 8)
  | .signalFlush c q => decide (c < 4096) && decide (q < 8)
  | .patchSet c q => decide (c < 4096) && decide (q < 8)
  | .patchAdd c q => decide (c < 4096) && decide (q < 8)
  | .patchCopy c q => decide (c < 4096) && decide (q < 8)
  | .patchAddreg c q => decide (c < 4096) && decide (q < 8)
  | .patchLoad c q _ => decide (c < 4096) && decide (q < 8)
  | .patchStore c q => decide (c < 4096) && decide (q < 8)
  | .endEntry c q => decide (c < 4096) && decide (q < 8)
  | .ext c q _ => decide (c < 4096) && decide (q < 8)
  | .extDone m p _ beats => decide (m < 4) && decide (p < 8) && bytesOk beats
  | .extTimeout m p => decide (m < 4) && decide (p < 8)
  | .extAbortAck m ack => decide (m < 4) && decide (ack.port < 8) && bytesOk ack.beats
  | .extHung m p => decide (m < 4) && decide (p < 8)
  | .macroComplete c q idx => decide (c < 4096) && decide (q < 8) && decide (idx < 4096)
  | .doorbellQueue via _ => viaOk via
  | .doorbellConsumer via _ => viaOk via
  | .entryStart c q => decide (c < 4096) && decide (q < 8)
  | .marginEntryStart c q => decide (c < 4096) && decide (q < 8)
  | .heldRecordWrite c => decide (c < 4096)
  | .fenceComplete c q => decide (c < 4096) && decide (q < 8)
  | .flushReadCompletion c q _ => decide (c < 4096) && decide (q < 8)
  | .keepCas via c _ _ => viaOk via && decide (c < 4096)
  | .keepUpdate via _ => viaOk via
  | .create via _ _ => viaOk via
  | .admitCtx via _ => viaOk via
  | .invalidate via _ _ => viaOk via
  | .releasePlate via _ _ => viaOk via
  | .teardown via _ => viaOk via
  | .contextReset via _ => viaOk via
  | .ackLate via _ => viaOk via
  | .bundleSubmit via _ => viaOk via
  | .tenantResetRequest via t _ => viaOk via && decide (t < 8)
  | .warmResetRequest _ => true
  | .coldResetRequest => true
  | .functionLevelReset port func _ => decide (port < 2) && decide (func < 16)
  | .partitionRestart part => decide (part < 8)
  | .msixUnmask port func w => decide (port < 2) && decide (func < 16) &&
      (match w with | .entry e _ => decide (e < 2048) | _ => true)
  | .burinPendingClear part => decide (part < 8)
  | .notificationClear via t _ => viaOk via && decide (t < 8)
  | .overrunLatchClear via t _ => viaOk via && decide (t < 8)
  | .objectWrite via port idx sub len v _ =>
      viaOk via && decide (port < 4) && decide (idx < 65536) && decide (sub < 256) && decide (v < 2 ^ (8 * len))
  | .pranilRead x _ _ _ payload _ => decide (x.port < 2) && bytesOk payload
  | .pranilWrite x _ _ _ payload _ => decide (x.port < 2) && bytesOk payload
  | .describe x _ _ _ payload _ => decide (x.port < 2) && bytesOk payload
  | .controlStart x _ _ _ payload _ => decide (x.port < 2) && bytesOk payload
  | .controlStop x _ _ _ payload _ => decide (x.port < 2) && bytesOk payload
  | .discover x _ _ _ payload => decide (x.port < 2) && bytesOk payload
  | .rxCyclicReceive x _ _ _ payload => decide (x.port < 2) && bytesOk payload
  | .cyclicSend n => decide (n < 16)
  | .icmpEcho x _ payload => decide (x.port < 2) && bytesOk payload
  | .gptpSync port _ _ => decide (port < 2)
  | .mailboxGo port func _ _ payload _ => decide (port < 2) && decide (func < 16) && bytesOk payload
  | .mailboxStatusClear port func _ => decide (port < 2) && decide (func < 16)
  | .supervisorCall via _ payload _ => viaOk via && bytesOk payload
  | .usdoTransfer port node _ idx sub payload _ =>
      decide (port < 4) && decide (node < 128) && decide (idx < 65536) && decide (sub < 256) && bytesOk payload
  | .nmtStart port node => decide (port < 4) && decide (node < 128)
  | .nmtStop port node => decide (port < 4) && decide (node < 128)
  | .nmtEnterPreoperational port node => decide (port < 4) && decide (node < 128)
  | .nmtResetCommunication port node => decide (port < 4) && decide (node < 128)
  | .nmtResetNode port node => decide (port < 4) && decide (node < 128)
  | .rpdoReceive port n payload => decide (port < 4) && decide (n < 16) && bytesOk payload
  | .syncReceive port => decide (port < 4)
  | .tpdoTransmit port n => decide (port < 4) && decide (n < 16)
  | .heartbeatProduce port => decide (port < 4)
  | .heartbeatLoss port n => decide (port < 4) && decide (1 ≤ n ∧ n ≤ 8)
  | .sessionOpen via slot _ => viaOk via && decide (slot < 3)
  | .sessionStage via port idx sub len v =>
      viaOk via && decide (port < 4) && decide (idx < 65536) && decide (sub < 256) && decide (v < 2 ^ (8 * len))
  | .sessionCommit via _ => viaOk via
  | .sessionClose via _ => viaOk via
  | .sessionTimeout => true
  | .waiverInstall via slot _ => viaOk via && decide (slot < 4)
  | .encoderEdge d i _ => decide (d < 2) && decide (i < 4)
  | .encoderIndex d i => decide (d < 2) && decide (i < 4)
  | .positionError d i => decide (d < 2) && decide (i < 4)
  | .positionRearm via d i _ _ => viaOk via && decide (d < 2) && decide (i < 4)
  | .carrierPeriodStart d c => decide (d < 2) && decide (c < 12)
  | .loadPeriodStart d k => decide (d < 2) && decide (k < 8)
  | .loadTurnOff d k => decide (d < 2) && decide (k < 8)
  | .overcurrentDetect d k _ => decide (d < 2) && decide (k < 8)
  | .onStateDiagnosis d k _ => decide (d < 2) && decide (k < 8)
  | .probeDiagnosis d k _ => decide (d < 2) && decide (k < 8)
  | .faultClear via d k _ => viaOk via && decide (d < 2) && decide (k < 8)
  | .configurationLoadComplete m _ => decide (m < 4)
  | .releaseStage1 m => decide (m < 4)
  | .releaseStage2 m => decide (m < 4)
  | .releaseStage3 m => decide (m < 4)
  | .configurationScrub m _ => decide (m < 4)
  | .wellBusAccess m w a _ _ _ _ => decide (m < 4) && decide (w < 1024) && decide (a < 8192)
  | .fifoWrite m w _ _ => decide (m < 4) && decide (w < 1024)
  | .fifoRead m w _ => decide (m < 4) && decide (w < 1024)
  | .collarClear m w => decide (m < 4) && decide (w < 1024)
  | .tapLoad m pad _ _ => decide (m < 4) && decide (pad < 96)
  | .railMeasurementUpdate r _ _ => decide (r < 20)
  | .droopDetect die => decide (die < 20)
  | .droopRecover die => decide (die < 20)
  | .averagingWindowBoundary => true
  | .overTemperature die => decide (die < 20)
  | .ownerKeyWrite via _ => viaOk via
  | .lifecycleErasureComplete => true
  | .debugRequest via _ _ => viaOk via
  | .debugResponse via _ _ => viaOk via
  | .challengeExpiry via => viaOk via
  | .lockoutExpiry => true
  | .relock via _ => viaOk via
  | .halt via _ => viaOk via
  | .resume via _ => viaOk via
  | .windowAddress via _ => viaOk via
  | .windowDataRead via => viaOk via
  | .windowDataWrite via _ => viaOk via
  | .powerDownComplete => true
  | .wakeBall _ => true
  | .canWakeFrame _ => true
  | .rtcAlarm => true
  | .rtcWrite via _ => viaOk via
  | .emberSupplyLoss => true
  | .powerGood => true
  | .resetNAssert => true
  | .supplyBrownout supply => decide (supply < 8)
  | .gImageVerify _ _ => true
  | .lpddr5xTrainingComplete _ capacity _ => keysBelow 12 capacity
  | .imageCheck _ _ _ _ _ => true
  | .startUpBurnishComplete res temps => keysBelow 32 res && res.all (fun e => burnishOk e.2) && keysBelow 32 temps
  | .dictionaryReady => true
  | .firstTick x0 x1 => gaugeInOk x0 && gaugeInOk x1
  | .warmStart => true
  | .recoveryKeyWrite via slot _ => viaOk via && decide (slot < 3)
  | .recoveryErase _ _ => true
  | .recoveryWrite _ payload _ => bytesOk payload
  | .recoveryCommit _ _ _ => true
  | .recoveryStatus _ _ => true
  | .recoveryRestart _ _ => true
  | .pcieConfigurationRequest port func => decide (port < 2) && decide (func < 16)
  | .completionTimeout c q => decide (c < 4096) && decide (q < 8)
  | .usdoProtocolTimeout port node => decide (port < 4) && decide (node < 128)
  | .busOffRecovered port => decide (port < 4)
  | .endpointLinkLoss via => viaOk via
  | .phyLinkUp via _ => viaOk via
  | .arpRequest x _ _ => decide (x.port < 2)
  | .dhcpv4Reply port _ _ _ _ => decide (port < 2)
  | .gptpAnnounce port _ => decide (port < 2)
  | .heartbeatConsume port n _ => decide (port < 4) && decide (1 ≤ n ∧ n ≤ 8)
  | .pwmPulseEdge d c => decide (d < 2) && decide (c < 12)
  | .serialLaneLocked m l _ => decide (m < 4) && decide (l < 16)
  | .serialLaneUnlocked m l => decide (m < 4) && decide (l < 16)
  | .bitstreamCopyComplete m slot _ => decide (m < 4) && decide (slot < 8)
  | .gaugeDiesWritten => true
  | .pcieConfigurationReady => true
  | .overTemperatureClear => true
  | .suppliesWithinLimits => true
  | .emberSupplyRestore => true
  | .sysclkStart => true

end Sys2Proof
end

