-- ==== Sys2Proof/Tests/Slice0.lean ====
section
/-!
SUPPORT. Small tests: ill-formed commands that WellFormed refuses, and for every statement a concrete state and operands that
meet its hypotheses, mostly with the effect that the spec gives there.
-/

namespace Sys2Proof.Tests

set_option Elab.async false

open Sys2Proof Sys2Proof.Machine

/-! ### States to test on -/

/-- The command answers a next state of this kind. -/
def got (c : Instr) (s : State) (p : State → Bool) : Bool := match exec c s with | .next t => p t | _ => false

/-- The command is not due: nothing changes. -/
def undue (c : Instr) (s : State) : Bool := got c s fun t => decide (t = s)

def okOf {ε α : Type} : Except ε α → Bool | .ok _ => true | .error _ => false

def p1 : Via := .pcie 0 1
def n5 : Via := .can 1 5
def e9 : Via := .eth 0 0x0A000009 5000
def b2 : Via := .burin 2

/-- Tenant 0 holds PCIe port 0 function 1, tenant 1 client 5 of CAN FD port 1, tenant 2 10.0.0.9 on Ethernet port 0, tenant 3
Burin partition 2; tenant 0 has LPDDR5X pages 0 to 63, both etch shares, and 4 contexts. -/
def objs : Tab Nat :=
  [(0x350001, 9), (0x350002, 2 + 1 * 2 ^ 37 + 5 * 2 ^ 40), (0x350003, 2 + 4 * 2 ^ 37), (0x350004, 3 + 2 * 2 ^ 34),
   (0x350503, 0x0A000009), (0x352002, 64), (0x352006, 4), (0x352016, 4)]

/-- READY and RUN, LOCKED, in frame 7; both Gauge dies provisioned. -/
def base : State :=
  { frame := { tickState := .locked, lock := .locked, ticking := true, counter := 7 }
    boot := { dev := .ready, started := true, resetLow := false, gDone := true, gaugeDone := true, memDone := true,
              imagesDone := true, burnishDone := true, ticked := true, pwrEn := true,
              store := { copyA := objs, copyB := objs } }
    sec := { otp := { life := .provisioned } }
    obj := objs, eff := objs, effT := objs
    gauges := [(0, { written := true, hiZ := false }), (1, { written := true, hiZ := false })] }

def inP (s : State) (p : Phase) : State := s.modFrame fun f => { f with phase := p }

/-- An object's value, in force, at the last reset and at the last tick. -/
def withObj (s : State) (k v : Nat) : State :=
  { s with obj := tset (keyDefault k) s.obj k v, eff := tset (keyDefault k) s.eff k v, effT := tset (keyDefault k) s.effT k v }

/-- A context record: tables at 0, a ring of 128 records at 0x8000, queues of 4 entries from 0x1000 on. -/
def recordOf : BitVec 1024 :=
  BitVec.ofNat 1024 (5 + 0x8000 * 2 ^ 128 + 6 * 2 ^ 176 +
    ((List.range 8).map fun q => (0x1000 + 0x400 * q) * 2 ^ (64 * q + 256) + 2 * 2 ^ (64 * q + 304)).sum)

/-- Level 1 at 0, level 2 at page 1, level 3 at page 2: context page 0 is device page 3, context page 1 host page 5. -/
def tables : Tab Byte :=
  [(0, 1), (2, 1), (0x10000, 1), (0x10002, 2), (0x20000, 3), (0x20002, 3), (0x20008, 0x17), (0x2000A, 5)]

/-- A bundle of one program of these macro-instructions. -/
def bundleWith (ms : List (BitVec 256)) (ds : List (BitVec 256) := []) : Bundle :=
  { header := 5, progs := [(0, { macros := ms, descs := ds })] }

def running : Run := { prog := 0, replay := false, notify := false, result := 0, cookie := 0x77 }

/-- Context 0 of tenant 0, ADMITTED and resident. -/
def ctx0 : Ctx :=
  { state := .admitted, gen := 1, count := 1, record := recordOf, via := p1, slot := some 4, granted := true }

/-- In IMPRESS and MARGIN alike: context 0 with nothing running. -/
def idle (p : Phase) : State :=
  { inP base p with ctxs := [(0, ctx0)], mem := tables, bundles := [bundleWith []] }

/-- Queue 0 (in IMPRESS) runs these macro-instructions. -/
def runs (ms : List (BitVec 256)) (ds : List (BitVec 256) := []) : State :=
  { (idle .impress).modQueue 0 0 fun q => { q with run := some running } with bundles := [bundleWith ms ds] }

/-- Fields of a word: (low bit, value). -/
def wordOf (l : List (Nat × Nat)) : BitVec 256 := BitVec.ofNat 256 (l.map fun e => e.2 * 2 ^ e.1).sum

/-! ### The queue and reset -/

theorem test_step_takes_the_front :
    step { base with pending := [.lockoutExpiry, .sessionTimeout] } = exec .lockoutExpiry { base with pending := [.sessionTimeout] } := by
  rfl

theorem test_idle_step : step base = .next base := by rfl

theorem wit_no_logic_runs : ∀ m, (base.fab m).enables = false ∨ (base.fab m).resetsOn = true ∨ (base.fab m).bs = none :=
  fun _ => .inl rfl

theorem test_reset_is_starting : State.reset.boot.dev = .starting ∧ State.reset.val 0x3000 1 = 5000 := by decide +kernel

theorem wit_memory_canonical : Memory.wf tables = true ∧ Memory.wf base.host = true := by decide +kernel

/-! ### The frame -/

theorem wit_phases :
    base.inPhase .sample = true ∧ (inP base .comb).inPhase .comb = true ∧ (inP base .impress).inPhase .impress = true ∧
    (inP base .margin).inPhase .margin = true ∧ (inP base .margin).nextComb < base.frame.len - base.G := by decide +kernel

theorem test_comb_follows_sample :
    got .openingComb base (fun t => decide (t.frame.phase = .comb ∧ t.frame.elapsed = 4)) = true ∧
    undue .openingComb (inP base .margin) = true := by decide +kernel

theorem test_margin_follows_impress :
    got .marginStart (inP base .impress) (fun t => decide (t.frame.phase = .margin ∧ t.frame.elapsed = 2568)) = true := by
  decide +kernel

theorem test_comb_clears_frame_counters :
    got .openingComb ((idle .sample).modCtx 0 fun x => { x with counters := [(7, 3), (8, 4)] })
      (fun t => decide (t.counter 0 7 = 0 ∧ t.counter 0 8 = 4)) = true := by decide +kernel

/-- Tooth 15, the last of an opening comb; and the seal, prepared. -/
theorem test_tooth_and_seal :
    got .combTooth ((inP base .comb).modFrame fun f => { f with comb := .opening, tooth := 15 })
      (fun t => decide ((tget 0 t.frame.level 11).getLsbD 15 = true ∧ t.frame.tooth = 16)) = true ∧
    ((inP base .guardPhase).modFrame fun f => { f with prepared := true }).guardWork = true ∧
    got .outputSeal ((inP base .guardPhase).modFrame fun f => { f with prepared := true })
      (fun t => decide (t.frame.isSealed = true ∧ t.frame.elapsed = 4975)) = true := by decide +kernel

/-- Group 3 of die 0 up, no die at work, the tooth of group 3 next. -/
def inComb (k : CombKind) : State :=
  (inP base .margin).modFrame fun f => { f with comb := k, tooth := 3, level := [(0, 8#16)] }

/-- A closing and a quiescing tooth let an idle group down; a margin comb leaves it. -/
theorem test_teeth_by_comb :
    (inComb .closing).dieWorks 0 = false ∧ (inComb .marginComb).dieWanted 0 = false ∧
    got .combTooth (inComb .closing) (fun t => decide (tget 0 t.frame.level 0 = 0)) = true ∧
    got .combTooth (inComb .quiescing) (fun t => decide (tget 0 t.frame.level 0 = 0)) = true ∧
    got .combTooth (inComb .marginComb) (fun t => decide (tget 0 t.frame.level 0 = 8)) = true := by decide +kernel

def reserved3 : State := withObj (inP base .impress) 0x310004 2500

theorem test_reservation_ends :
    reservationReady reserved3 3 = true ∧ got (.reservationEnd 3) reserved3 (fun t => decide (t.frame.resEnded = 8)) = true := by
  decide +kernel

theorem test_guard_starts :
    got (.guardStart [] 0 0) (inP base .margin) (fun t => decide (t.frame.phase = .guardPhase ∧ t.frame.elapsed = 4800)) = true := by
  decide +kernel

def sealedGuard : State := (inP base .guardPhase).modFrame fun f => { f with prepared := true, isSealed := true }
def noInput : GaugeIn := ⟨[], []⟩

theorem test_tick_activates :
    sealedGuard.frameEnd = .runs ∧
    got (.tick noInput noInput) (sealedGuard.modOutput 0 3 fun o => { o with pend := 9, pendSafe := false })
      (fun t => decide ((t.output 0 3).act = 9 ∧ (t.output 0 3).actSafe = false ∧ t.frame.counter = 8)) = true := by decide +kernel

def beforeFirst : State :=
  { base with frame := { counter := 5 }, boot := { base.boot with ticked := false } }

theorem test_first_tick_clears_the_counter :
    beforeFirst.up = true ∧ got (.firstTick noInput noInput) beforeFirst
      (fun t => decide (t.frame.counter = 0 ∧ t.frame.tickState = .locked ∧ t.frame.ticking = true)) = true ∧
    got (.firstTick noInput noInput) (withObj beforeFirst 0x300002 1) (fun t => decide (t.frame.tickState = .acquiring)) = true := by
  decide +kernel

/-- A pulse as source; lock window 20 steps of 10 ns. -/
def ext0 : State := withObj base 0x300002 1
def seeking : State := ext0.modFrame fun f => { f with lock := .holdover, tickState := .holdover, agree := [0, 0, 0, 0, 0, 0, 0] }

theorem test_reference_event_at_the_window :
    ext0.tracks = true ∧ (ext0.refTick 200).2 = 200 ∧ got (.referenceEvent 200 false) ext0 (fun t => decide (t.frame.badRun = 0 ∧ t.frame.slew = 200)) = true ∧
    got (.referenceEvent 201 false) ext0 (fun t => decide (t.frame.badRun = 1 ∧ t.frame.badEvents = 1)) = true := by decide +kernel

theorem test_third_bad_event_loses_the_source :
    got (.referenceEvent 0 true) (ext0.modFrame fun f => { f with badRun := 2 })
      (fun t => decide (t.frame.lossDue = true ∧ t.frame.losses = 1)) = true := by decide +kernel

theorem test_eighth_agreeing_event_returns :
    seeking.frame.holding = false ∧ agreeing seeking.lockWindow (seeking.frame.agree ++ [200]) = true ∧
    (seeking.refTick 200).2 = 200 ∧
    got (.referenceEvent 0 true) seeking (fun t => decide (t.frame.agree = [] ∧ t.frame.badEvents = 1)) = true ∧
    got (.referenceEvent 200 false) seeking (fun t => t.frame.returnDue) = true ∧
    got (.referenceEvent 0 false) (seeking.modFrame fun f => { f with agree := [0] }) (fun t => !t.frame.returnDue) = true := by
  decide +kernel

theorem test_missing_event :
    got .missingEvent ext0 (fun t => decide (t.frame.badRun = 1)) = true ∧
    got .missingEvent seeking (fun t => decide (t.frame.agree = [])) = true := by decide +kernel

/-- Holdover of 2000 frames, of which 1999 are used; and HOLD after a resume. -/
def spent : State := seeking.modFrame fun f => { f with holdUsed := 1999 }
def held : State :=
  { base with frame := { base.frame with ticking := false, tickState := .fallbackHold, resumeHold := true }, sec := { base.sec with power := .hold } }

theorem test_holdover_expires :
    expiryReady spent = true ∧ expiryReady seeking = false ∧ got .holdoverExpiry spent (fun t => t.frame.fallbackDue) = true := by
  decide +kernel

theorem test_hold_restarts :
    holdRestartReady held = true ∧ got (.holdTickRestart noInput noInput) held
      (fun t => decide (t.frame.counter = 8 ∧ t.frame.tickState = .locked ∧ t.sec.power = .run)) = true := by decide +kernel

def lateHead : State := (idle .guardPhase).modQueue 0 0 fun q => { q with run := some running }

theorem test_overrun_decision :
    base.unfinishedOf 0 [] = [] ∧ lateHead.unfinishedOf 0 [] = [(0, 0)] ∧
    ((lateHead.judgeTenant 0).ten 0).overruns = 1 ∧ ((lateHead.judgeTenant 0).ten 0).latch = false ∧
    (((withObj lateHead 0x310101 1).judgeTenant 0).ten 0).latch = true := by decide +kernel

/-! ### Queues: PATCH, WAIT, SIGNAL, END -/

/-- PATCH of operation `op`: register 3 from register 2 and this immediate; register 2 holds 40. -/
def patchOf (op imm : Nat) : State :=
  (runs [wordOf [(0, 0x0D), (32, op), (40, 3), (48, 2), (64, imm)]]).setPrm 0 0 2 40

def reg (t : State) (r : Nat) : BitVec 64 := t.prm 0 0 r

theorem test_patch_registers :
    ((List.range 4).all fun op => patchReady (patchOf op 7) 0 0 op) = true ∧
    got (.patchSet 0 0) (patchOf 0 7) (fun t => decide (reg t 3 = 7)) = true ∧
    got (.patchAdd 0 0) ((patchOf 1 (2 ^ 64 - 1)).setPrm 0 0 3 5) (fun t => decide (reg t 3 = 4)) = true ∧
    got (.patchCopy 0 0) (patchOf 2 7) (fun t => decide (reg t 3 = 40)) = true ∧
    got (.patchAddreg 0 0) ((patchOf 3 7).setPrm 0 0 3 2) (fun t => decide (reg t 3 = 42 ∧ reg t 2 = 40)) = true := by decide +kernel

/-- Context address 0x100 is device address 0x30100. -/
def stored : State := (patchOf 4 0x100).wr 0x30100 (leBytes 8 0x1122334455667788)

theorem test_patch_load_is_little_endian :
    patchReady stored 0 0 4 = true ∧ patchAligned (stored.nextMacro 0 0) = true ∧ okOf (stored.readCtx 0 [] 0x100 8).1 = true ∧
    got (.patchLoad 0 0 []) stored (fun t => decide (reg t 3 = 0x1122334455667788)) = true := by decide +kernel

theorem test_patch_store_posts :
    patchReady (patchOf 5 0x100) 0 0 5 = true ∧ okOf ((patchOf 5 0x100).writeTargets 0 0x100 (leBytes 8 40)).1 = true ∧
    got (.patchStore 0 0) (patchOf 5 0x100) (fun t =>
      decide (t.posted.map (fun p => (p.target, p.bytes)) = [(.dev 0x30100, leBytes 8 40)])) = true := by decide +kernel

theorem test_patch_misaligned_ends_the_entry :
    patchAligned ((patchOf 4 0x104).nextMacro 0 0) = false ∧ patchAligned ((patchOf 4 (2 ^ 48)).nextMacro 0 0) = false ∧
    got (.patchLoad 0 0 []) (patchOf 4 0x104) (fun t => decide ((t.queue 0 0).run = none)) = true ∧
    got (.patchStore 0 0) (patchOf 5 (2 ^ 48)) (fun t => decide ((t.queue 0 0).run = none ∧ t.posted = [])) = true := by decide +kernel

/-- WAIT on counter 2 for the value 5, its mode in [37:36]. -/
def waitOf (mode have_ : Nat) : State :=
  (runs [wordOf [(0, 0x0B), (32, 2), (36, mode), (64, 5)]]).modCtx 0 fun x => { x with counters := [(2, BitVec.ofNat 32 have_)] }
def busyOp : Op := { c := 0, q := 0, idx := 9, word := 0x101, reserved := true }
def busy (s : State) : State := { s with ops := [busyOp] }
def isHeld (t : State) : Bool := t.isWaiting 0 0

theorem test_wait_count_is_signed :
    ((List.range 3).all fun m => waitReady (waitOf m 5) 0 0 m) = true ∧
    got (.waitCount 0 0) (waitOf 0 5) (fun t => decide (t.nextIdx 0 0 = 1)) = true ∧
    got (.waitCount 0 0) (waitOf 0 4) isHeld = true ∧
    got (.waitCount 0 0) (waitOf 0 0x80000004) (fun t => decide (t.nextIdx 0 0 = 1)) = true ∧
    got (.waitCount 0 0) (waitOf 0 0x80000005) isHeld = true := by decide +kernel

theorem test_wait_drain_and_both :
    waitReady (busy (waitOf 1 9)) 0 0 1 = true ∧ waitReady (busy (waitOf 2 5)) 0 0 2 = true ∧
    got (.waitDrain 0 0) (waitOf 1 9) (fun t => decide (t.nextIdx 0 0 = 1)) = true ∧
    got (.waitDrain 0 0) (busy (waitOf 1 9)) isHeld = true ∧
    got (.waitBoth 0 0) (waitOf 2 5) (fun t => decide (t.nextIdx 0 0 = 1)) = true ∧
    got (.waitBoth 0 0) (busy (waitOf 2 5)) isHeld = true := by decide +kernel

def waited : State := (waitOf 0 5).modQueue 0 0 fun x => { x with run := some { running with waiting := true } }

theorem test_wait_satisfied :
    waited.isWaiting 0 0 = true ∧ waited.phaseOpen 0 = true ∧ waited.waitMet 0 0 = true ∧
    got (.waitSatisfied 0 0) waited (fun t => decide (t.nextIdx 0 0 = 1)) = true := by decide +kernel

/-- SIGNAL of kind [39:38] on counter 9: adds 3, or sets it where [36] is 1; COOKIE 0xC0. -/
def signalOf (kind set : Nat) : State :=
  (runs [wordOf [(0, 0x0C), (32, 9), (36, set), (38, kind), (64, 3), (128, 0xC0)]]).modCtx 0 fun x => { x with counters := [(9, 4)] }

theorem test_signal_counter :
    signalReady (signalOf 0 0) 0 0 0 = true ∧
    got (.signalCounter 0 0) (signalOf 0 0) (fun t => decide (t.counter 0 9 = 7)) = true ∧
    got (.signalCounter 0 0) (signalOf 0 1) (fun t => decide (t.counter 0 9 = 3)) = true := by decide +kernel

theorem test_signal_event_posts_a_record :
    signalReady (signalOf 1 0) 0 0 1 = true ∧
    got (.signalEvent 0 0) (signalOf 1 0) (fun t =>
      decide (t.counter 0 9 = 7 ∧ (t.ctx 0).ringWritten = 1 ∧ t.rd 0x38000 = 2 ∧ t.rd (0x38000 + 8) = 0xC0 ∧ t.rd (0x38000 + 24) = 7)) = true := by
  decide +kernel

theorem test_signal_fence_and_flush :
    fenceReady (signalOf 2 0) 0 0 2 = true ∧ fenceReady (signalOf 3 0) 0 0 3 = true ∧
    got (.signalFence 0 0) (signalOf 2 0) (fun t => decide (t.counter 0 9 = 4 ∧ (t.ctx 0).fences.map (·.flush) = [false])) = true ∧
    got (.signalFlush 0 0) (signalOf 3 0) (fun t => decide (t.counter 0 9 = 4 ∧ (t.queue 0 0).seq = 1)) = true := by decide +kernel

def ends : State := runs [wordOf [(0, 0x0E)]]

theorem test_end_completes :
    endReady ends 0 0 = true ∧ got (.endEntry 0 0) ends (fun t =>
      decide ((t.queue 0 0).run = none ∧ (t.queue 0 0).headEnded = true ∧ (t.ctx 0).ringWritten = 1)) = true := by decide +kernel

/-- An outstanding macro-instruction at index 0 that has finished, with ST_EN and status register 6. -/
def finished (st : Status) : State :=
  { runs [0] with ops := [{ busyOp with idx := 0, word := wordOf [(0, 1), (8, 1), (16, 6), (22, 1)], fin := some st, sword := 5 }] }

theorem test_macro_retires :
    got (.macroComplete 0 0 0) (finished .success) (fun t => decide (t.ops = [] ∧ reg t 6 = 5)) = true ∧
    got (.macroComplete 0 0 0) (finished .poison) (fun t =>
      decide ((t.queue 0 0).run = none ∧ reg t 6 = 0x8000000000000202)) = true := by decide +kernel

/-! ### Entries, doorbells, records, fences, the keep table -/

/-- An impression queue, and margin queue 4, whose head entry names program 0 and one SET patch of register 1 (its record
at context address 0x4000), and an entry with a reserved bit. -/
def entered (q : Nat) (bad : Nat) : State :=
  let s := (idle (if q < 4 then .impress else .margin)).modQueue 0 q fun x => { x with tail := 1, eligible := decide (q < 4) }
  let s := { s with bundles := [bundleWith [wordOf [(0, 0x0E)]]] }
  let at_ := if q < 4 then 0x31000 else 0x32000
  let s := s.wr at_ (leBytes 64 (2 ^ 9 + 2 ^ 16 + 0x4000 * 2 ^ 32 + 0x99 * 2 ^ 128 + bad * 2 ^ 10))
  s.wr 0x34000 (leBytes 16 (1 + 123 * 2 ^ 64))

theorem test_entry_starts :
    entryReady (entered 0 0) 0 0 = true ∧ okOf ((entered 0 0).checkHead 0 0).1 = true ∧
    got (.entryStart 0 0) (entered 0 0) (fun t =>
      decide (((t.queue 0 0).run.map (·.cookie)) = some 0x99 ∧ reg t 1 = 123)) = true ∧
    okOf ((entered 0 1).checkHead 0 0).1 = false ∧
    got (.entryStart 0 0) (entered 0 1) (fun t => (t.queue 0 0).halted) = true := by decide +kernel

theorem test_margin_entry_starts :
    marginEntryReady (entered 4 0) 0 4 = true ∧
    got (.marginEntryStart 0 4) (entered 4 0) (fun t => (t.queue 0 4).run.isSome) = true := by decide +kernel

theorem test_patch_record_halves :
    patchRecord 0x1111111122222222 (BitVec.ofNat 128 (2 * 2 ^ 6 + 7 * 2 ^ 64)) = 0x1111111100000007 ∧
    patchRecord 0x1111111122222222 (BitVec.ofNat 128 (3 * 2 ^ 6 + 7 * 2 ^ 64)) = 0x0000000722222222 := by decide +kernel

/-- A doorbell word: context, target, index, generation. -/
def bell (target index gen : Nat) : BitVec 64 := BitVec.ofNat 64 (target * 2 ^ 12 + index * 2 ^ 16 + gen * 2 ^ 32)

theorem test_doorbell_queue :
    (idle .sample).bellSender p1 = some 0 ∧ (idle .sample).bellOpen 0 (bell 0 4 1) = true ∧
    ((idle .sample).queue 0 0).takes 4 4 = true ∧ ((idle .sample).queue 0 0).takes 4 5 = false ∧
    got (.doorbellQueue p1 (bell 0 4 1)) (idle .sample) (fun t => decide ((t.queue 0 0).tail = 4)) = true ∧
    got (.doorbellQueue p1 (bell 0 5 1)) (idle .sample) (fun t => decide ((t.queue 0 0).tail = 0 ∧ (t.ten 0).ignored = 1)) = true ∧
    got (.doorbellQueue p1 (bell 9 1 1)) (idle .sample) (fun t => decide ((t.ten 0).ignored = 1)) = true := by decide +kernel

theorem test_stale_doorbell_counts :
    (idle .sample).bellOpen 0 (bell 0 4 2) = false ∧
    got (.doorbellQueue p1 (bell 0 4 2)) (idle .sample) (fun t => decide ((t.queue 0 0).tail = 0 ∧ (t.ten 0).ignored = 1)) = true := by
  decide +kernel

def recorded : State := (idle .sample).modCtx 0 fun x => { x with ringWritten := 3 }

theorem test_doorbell_consumer :
    got (.doorbellConsumer p1 (bell 8 3 1)) recorded (fun t => decide ((t.ctx 0).ringRead = 3)) = true ∧
    got (.doorbellConsumer p1 (bell 8 4 1)) recorded (fun t => decide ((t.ctx 0).ringRead = 0 ∧ (t.ten 0).ignored = 1)) = true := by
  decide +kernel

def holding : State := (idle .sample).modCtx 0 fun x => { x with ringWritten := 127, hold := [{ kind := 1, c := 0 }] }

theorem test_held_record_follows :
    (holding.ctx 0).used < (holding.ctx 0).ringSize ∧
    got (.heldRecordWrite 0) holding (fun t => decide ((t.ctx 0).hold = [] ∧ (t.ctx 0).ringWritten = 128 ∧ t.rd (0x38000 + 127 * 32) = 1)) = true := by
  decide +kernel

/-- The sixteen reserved slots of a ring of 128: a droppable record needs the seventeenth. -/
theorem test_droppable_records_drop :
    droppable 6 = true ∧ droppable 1 = false ∧
    ((((idle .sample).modCtx 0 fun x => { x with ringWritten := 112 }).post { kind := 6 }).ctx 0).lost = true ∧
    ((((idle .sample).modCtx 0 fun x => { x with ringWritten := 111 }).post { kind := 6 }).ctx 0).ringWritten = 112 ∧
    ((((idle .sample).modCtx 0 fun x => { x with ringWritten := 128 }).post { kind := 1 }).ctx 0).hold.length = 1 := by decide +kernel

def fence0 : Fence :=
  { q := 0, seq := 0, ctr := 9, set := false, value := 3, event := false, flush := false, cookie := 0, idx := 0 }
def fenced : State := (idle .sample).modCtx 0 fun x => { x with fences := [{ fence0 with q := 1 }, fence0] }
def flushing : State := (idle .sample).modCtx 0 fun x =>
  { x with fences := [{ fence0 with flush := true, reads := [(0, 1), (1, 1)], host := some (0x10000, 0) }] }

theorem test_fence_completes :
    splitFence 0 (fenced.ctx 0).fences = some ([{ fence0 with q := 1 }], fence0, []) ∧ fenced.fencePerformed 0 fence0 = true ∧
    got (.fenceComplete 0 0) fenced (fun t => decide (t.counter 0 9 = 3 ∧ (t.ctx 0).fences.length = 1)) = true := by decide +kernel

theorem test_flush_reads :
    (flushed 0 (flushing.ctx 0).fences).isSome = true ∧
    got (.flushReadCompletion 0 0 true) flushing (fun t => decide ((t.ctx 0).late.valid = false ∧ (t.ctx 0).fences.map (·.reads) = [[(1, 1)]])) = true ∧
    got (.flushReadCompletion 0 0 false) flushing (fun t => decide ((t.ctx 0).late.cause = 4 ∧ (t.ctx 0).late.caddr = 0x10000)) = true ∧
    got (.completionTimeout 0 0) flushing (fun t => decide ((t.ctx 0).late.cause = 4)) = true := by decide +kernel

theorem test_keep_cas :
    (idle .sample).keepMatch 0 0 ctx0.keep = true ∧ (idle .sample).keepMatch 0 0 0 = false ∧
    got (.keepCas p1 0 ctx0.keep 5) (idle .sample) (fun t => decide ((t.ctx 0).count = 5)) = true ∧
    got (.keepCas p1 0 ctx0.keep 0) (idle .sample) (fun t => decide ((t.ctx 0).state = .ending)) = true ∧
    got (.keepCas p1 0 0 5) (idle .sample) (fun t => decide ((t.ctx 0).count = 1)) = true := by decide +kernel

/-! ### Macro-instructions on the engines -/

/-- A descriptor: base, SPACE, element type, rows, columns, row pitch in bytes. -/
def desc (base space ty rows cols stride : Nat) : BitVec 256 :=
  wordOf [(0, base), (48, space), (52, ty), (64, rows - 1), (80, cols - 1), (96, stride)]

/-- A build of interface level 2 with 16 by 16 positions, every element type, 64 panel wells and extension port 0. -/
def buildOf : BitVec 64 := BitVec.ofNat 64 (2 + 0x3F * 2 ^ 11 + 7 * 2 ^ 17 + 1 * 2 ^ 24 + 960 * 2 ^ 32)

/-- One program on Field die 0 (roles 1 to 3), 8 data and 8 staging wells, one etch piece and four plates on Plate die 0, time on
every unit. -/
def richBundle (ms ds : List (BitVec 256)) (plans : List (BitVec 256) := [0]) : Bundle :=
  { header := 5, progs := [(0, { macros := ms, descs := ds, plans := plans })], build := [0xF],
    res := BitVec.ofNat 512 (1 * 2 ^ 64 + 15 * 2 ^ 71 + 8 * 2 ^ 192 + 8 * 2 ^ 208),
    units := (List.range 0x48).map fun u => BitVec.ofNat 64 (u + 100000 * 2 ^ 32) }

/-- Plate 0 belongs to context 0 and is ACTIVE with four rows and four columns in bank A, SHADOW in bank B. -/
def plate0 : Plate :=
  { owner := some 0, bankA := { state := .active, k := 4, n := 4, w := [(0, 1), (1025, 1)] }, bankB := { state := .shadow, k := 4, n := 4 } }

def engineOf (ms ds : List (BitVec 256)) : State :=
  { runs [] with bundles := [richBundle ms ds], fabs := [(0, { die := .running, desc := buildOf })], plates := [(0, plate0)] }

def hatchOf (op : Nat) (m n : Nat) : State :=
  engineOf [wordOf [(0, op), (8, 1), (32, 0), (40, 1), (48, 2)]]
    [desc 0 2 1 m 4 4, desc 0x800 2 1 4 n n, desc 0x1000 2 3 m n (4 * n)]

theorem test_hatch_is_accepted :
    hatchReady (hatchOf 1 16 16) 0 0 false = true ∧ okOf (hatchPrepare (hatchOf 1 16 16) 0 0 false []).1 = true ∧
    (firstClaimFault (hatchOf 1 16 16) 0 0 (planVariant 0 8 16 16) { space := 2 } { space := 2 } false) = none ∧
    got (.hatch 0 0 []) (hatchOf 1 16 16) (fun t => decide (t.ops.map (·.fin) = [none] ∧ t.nextIdx 0 0 = 1)) = true := by decide +kernel

theorem test_stipple_is_accepted :
    hatchReady (hatchOf 2 64 8) 0 0 true = true ∧ okOf (hatchPrepare (hatchOf 2 64 8) 0 0 true []).1 = true ∧
    got (.stipple 0 0 []) (hatchOf 2 64 8) (fun t => decide (t.ops.map (·.fin) = [none])) = true := by decide +kernel

/-- More than 64 rows: the check of the shapes fails, and nothing else happens. -/
theorem test_stipple_faults_at_65_rows :
    hatchReady (hatchOf 2 65 8) 0 0 true = true ∧
    got (.stipple 0 0 []) (hatchOf 2 65 8) (fun t => decide (t.ops.map (·.fin) = [some .shapeMismatch] ∧ t.mem = (hatchOf 2 65 8).mem)) = true ∧
    got (.hatch 0 0 []) ({ hatchOf 1 16 16 with fabs := [] }) (fun t => decide (t.ops.map (·.fin) = [some .buildMismatch])) = true ∧
    okOf (hatchPrepare (hatchOf 2 1 1025) 0 0 true []).1 = true ∧
    got (.stipple 0 0 []) (hatchOf 2 1 1025) (fun t => decide (t.ops.map (·.fin) = [some .buildMismatch])) = true := by
  decide +kernel

def etchOf : State :=
  engineOf [wordOf [(0, 3), (8, 1), (32, 0), (40, 1), (60, 1)]] [desc 0 1 1 2 4 4, desc 0x40 1 3 2 4 16]

theorem test_etch_is_accepted :
    etchReady etchOf 0 0 = true ∧ okOf (etchCheck etchOf 0 0 []).1 = true ∧
    got (.etch 0 0 []) etchOf (fun t => decide (t.ops.map (·.fin) = [none])) = true ∧
    got (.etch 0 0 []) (etchOf.modPlate 0 fun p => { p with owner := none }) (fun t => decide (t.ops.map (·.fin) = [some .plateNotOwned])) = true := by
  decide +kernel

def loadOf : State := engineOf [wordOf [(0, 4), (8, 1), (32, 0)]] [desc 0x100 0 1 4 4 4]

theorem test_load_takes_the_other_bank :
    loadReady loadOf 0 0 = true ∧ okOf (loadCheck loadOf 0 0 []).1 = true ∧
    got (.load 0 0 []) loadOf (fun t => decide ((t.plate 0).bankB.state = .loading ∧ (t.plate 0).bankA = plate0.bankA)) = true ∧
    got (.load 0 0 []) (loadOf.modPlate 0 fun p => { p with bankB := { state := .loading } })
      (fun t => decide (t.ops.map (·.fin) = [some .bankBusy])) = true := by decide +kernel

def swapOf : State := engineOf [wordOf [(0, 5), (8, 1), (52, 1)]] []

theorem test_swap_is_accepted :
    swapReady swapOf 0 0 = true ∧ swapPlates (swapOf.nextMacro 0 0) = [0] ∧ swapCheck swapOf 0 [0] = none ∧
    got (.swap 0 0) swapOf (fun t => decide (t.ops.map (·.prog) = [.swap [0]] ∧ t.plates = swapOf.plates)) = true ∧
    got (.swap 0 0) (swapOf.modPlate 0 fun p => { p with bankB := {} }) (fun t => decide (t.ops.map (·.fin) = [some .bankEmpty])) = true := by
  decide +kernel

def extOf : State := engineOf [wordOf [(0, 0x10), (8, 1)]] []

theorem test_ext_is_accepted :
    extReady extOf 0 0 = true ∧ okOf (extCheck extOf 0 0 []).1 = true ∧
    got (.ext 0 0 []) extOf (fun t => decide ((t.ext 0 0).cmd = some (0, 0, 0))) = true ∧
    got (.ext 0 0 []) { extOf with fabs := [] } (fun t => decide (t.ops.map (·.fin) = [some .extAbsent])) = true := by decide +kernel

/-- A MOVE of 8 bytes at context address 0x100 to 0x200. -/
def moveOf (mover : Nat) : State :=
  (engineOf [wordOf [(0, 6), (8, 1), (32, 0), (40, 1), (48, mover)]] [desc 0x100 0 1 1 8 8, desc 0x200 0 1 1 8 8]).wr 0x30100 [1, 2, 3, 4, 5, 6, 7, 8]

def posts (t : State) : List (Target × List Byte) := t.posted.map fun p => (p.target, p.bytes)

/-- Does a MOVE pass its checks, and then end without a fault? -/
def moves (s : State) (ecc : Found) : Option Bool :=
  match moveCheck s 0 0 ecc with
  | (.ok (e, a, b, n), u) =>
    let o := { s.newOp 0 0 (s.moveUnit 0 0) with da := a, dd := b }
    some (moveRun (u.issue o) o e ecc n).1.isNone
  | _ => none

theorem test_move_posts_the_bytes :
    moveReady (moveOf 0) 0 0 false = true ∧ moves (moveOf 0) [] = some true ∧
    moves (moveOf 0) [(0x30100, .uncorrectable)] = some false ∧
    got (.moveInk 0 0 [(0x30100, .uncorrectable)]) (moveOf 0) (fun t => decide (posts t = [] ∧ t.ops.map (·.fin) = [some .poison])) = true ∧
    got (.moveInk 0 0 []) (moveOf 0) (fun t => decide (posts t = [(.dev 0x30200, [1, 2, 3, 4, 5, 6, 7, 8])])) = true ∧
    moveReady (moveOf 4) 0 0 true = true ∧ moves (moveOf 4) [] = some true ∧
    got (.moveDataMover 0 0 []) (moveOf 4) (fun t => decide (t.posted.map (·.way) = [[8]])) = true := by decide +kernel

/-- SAMPLE of channel 0 of Gauge die 0 from the copy in K0, and ACTUATE of output 3. -/
def sampleOf : State :=
  (withObj (engineOf [wordOf [(0, 9), (8, 1), (40, 0), (64, 1)]] [desc 0x100 0 3 1 1 4]) 0x501003 0).wr (sampleAddr 0 0) [5, 0, 0, 0x80]
def actuateOf : State :=
  (withObj (engineOf [wordOf [(0, 0x0A), (8, 1), (40, 0), (64, 8)]] [desc 0x100 0 3 1 1 4]) 0x504301 0).wr 0x30100 [0xFE, 0xFF, 0xFF, 0xFF]

theorem test_sample_copies_a_channel :
    sampleReady sampleOf 0 0 = true ∧ (sampleRun sampleOf 0 0 []).1 = none ∧
    got (.sample 0 0 []) sampleOf (fun t => decide (posts t = [(.dev 0x30100, [5, 0, 0, 0x80])])) = true := by decide +kernel

theorem test_actuate_stages_minus_two :
    actuateReady actuateOf 0 0 = true ∧ (actuateRun actuateOf 0 0 77 []).1 = none ∧
    got (.actuate 0 0 77 []) actuateOf (fun t => decide (t.rdN (stagingAddr 0 0 + 48) 8 = [0xFE, 0xFF, 0xFF, 0xFF, 77, 0, 0, 0])) = true ∧
    okOf (actuateOf.readCtx 0 [] 0x100 4).1 = true := by decide +kernel

/-- A Tone operation on two INT8 elements [100, -100] in the wells, its parameters in [127:96], [159:128] and U in [71:66]. -/
def toneOf (code fn : Nat) (extra : List (Nat × Nat)) (ds : List (BitVec 256)) : State :=
  (engineOf [wordOf ([(0, code), (8, 1), (32, fn), (40, 0), (48, 1), (56, 2)] ++ extra)] ds).wr (wellBaseOf 0) [100, 0x9C]

def pairs (ty : Nat) : List (BitVec 256) := [desc 0 2 1 1 2 2, desc 0 2 1 1 2 2, desc 0x40 2 ty 1 2 (2 * eltAlign ty)]
def toneOut (n : Nat) (t : State) : List Byte := t.rdN (wellBaseOf 0 + 0x40) n

theorem wit_tone_ready :
    ((List.range 8).all fun fn => toneReady (toneOf 7 fn [] (pairs 1)) 0 0 7 fn) = true ∧
    ((List.range 5).all fun fn => toneReady (toneOf 8 fn [] (pairs 1)) 0 0 8 fn) = true := by decide +kernel

/-- Does a TONE pass its checks, and then end without a fault? -/
def tones (s : State) (ecc : Found) : Option Bool :=
  match toneCheck s 0 0 false ecc with
  | (.ok ms, u) =>
    let o := { s.newOp 0 0 (8 + toneDie (s.nextMacro 0 0)) with da := ms.headD {}, dd := ms.getLastD {} }
    some (toneRun (u.issue o) o false (if toneBen (s.nextMacro 0 0) then some (ms.getD 1 {}) else none) ecc 0 (walks ms)).1.isNone
  | _ => none

theorem test_tone_add_saturates :
    got (.toneAdd 0 0 [] 0) (toneOf 7 2 [(36, 1)] (pairs 1)) (fun t => decide (toneOut 2 t = [127, 0x80])) = true ∧
    tones (toneOf 7 2 [(36, 1)] (pairs 1)) [] = some true ∧
    tones (toneOf 7 2 [(36, 1)] [desc 0x100 0 1 1 2 2, desc 0 2 1 1 2 2, desc 0x40 2 1 1 2 2]) [(0x30100, .uncorrectable)] = some false := by
  decide +kernel

theorem test_tone_compare_and_convert :
    got (.toneCmp 0 0 [] 0) (toneOf 7 5 [(96, 99)] (pairs 3)) (fun t => decide (toneOut 8 t = [1, 0, 0, 0, 0, 0, 0, 0])) = true ∧
    got (.toneConvert 0 0 [] 0) (toneOf 7 7 [] (pairs 2)) (fun t => decide (toneOut 4 t = [100, 0, 0x9C, 0xFF])) = true := by decide +kernel

theorem test_reduce_row_sum_and_max :
    got (.reduceRowSum 0 0 [] 0) (toneOf 8 1 [] [desc 0 2 1 1 2 2, 0, desc 0x40 2 3 1 1 4]) (fun t => decide (toneOut 4 t = [0, 0, 0, 0])) = true ∧
    got (.reduceRowMax 0 0 [] 0) (toneOf 8 3 [] [desc 0 2 1 1 2 2, 0, desc 0x40 2 3 1 1 4]) (fun t => decide (toneOut 4 t = [100, 0, 0, 0])) = true := by
  decide +kernel

/-- Ties go away from zero: 5/2 is 3 and -5/2 is -3; clamp before the store. -/
theorem test_rounding :
    rndDiv 5 2 = 3 ∧ rndDiv (-5) 2 = -3 ∧ rndDiv 4 3 = 1 ∧ (storeInt 1 200) = (127, 1) ∧ (acc24 (2 ^ 23)).1 = 2 ^ 23 - 1 := by
  decide +kernel

/-! ### Running macro-instructions and the plates -/

/-- The state after these commands. -/
def after (cs : List Instr) (s : State) : State :=
  cs.foldl (fun s c => match exec c s with | .next t => t | _ => s) s

/-- Tiles of 16 and of 1 row by 9 columns, K 4: A of 17 rows in context memory with A[0,0] = 2, B in the wells with B[0,0] = 3. -/
def hatched : State :=
  after [.hatch 0 0 []] (((engineOf [wordOf [(0, 1), (8, 1), (32, 0), (40, 1), (48, 2)]]
    [desc 0x100 0 1 17 4 4, desc 0x800 2 1 4 9 16, desc 0x1000 2 3 17 9 64]).wr 0x30100 [2]).wr (wellBaseOf 0 + 0x800) [3])
def fed : State := after [.operandFetchComplete 0 0 ⟨0, 0⟩ [], .operandFetchComplete 0 0 ⟨0, 2⟩ []] hatched
def badTile : TileCheck := { acc := [(10, some 5)] }
def hatchRunOf (s : State) : Option HatchRun := (s.op 0 0 0).bind Op.hatchRun

theorem test_fetches_feed_the_tiles :
    fetchReady hatched 0 0 0 0 = true ∧ fetchReady hatched 0 0 0 2 = false ∧ tileReady hatched 0 0 0 = false ∧ tileReady fed 0 0 0 = true ∧
    wellFault hatched 0 0 8192 = none ∧
    (hatchRunOf fed).map (fun h => (h.tileAt, h.walk.length, h.rerun, h.bufs.length)) = some (1, 4, false, 2) := by decide +kernel

/-- A tile that agrees makes its writes; the last one ends the HATCH with them. -/
theorem test_tiles_agree :
    got (.tileDrain 0 0 0 .ok) fed (fun t =>
      decide ((hatchRunOf t).map (·.tileAt) = some 3 ∧ t.mem = fed.mem ∧ (t.op 0 0 0).any (fun o => o.held ≠ []))) = true ∧
    got (.tileDrain 0 0 0 .ok) (after [.tileDrain 0 0 0 .ok] fed) (fun t =>
      decide (t.ops.map (·.fin) = [some .success] ∧ t.rdN (wellBaseOf 0 + 0x1000) 4 = [6, 0, 0, 0])) = true := by
  decide +kernel

/-- A first mismatch fetches again and reruns under an allowance, a second one is HATCH_CHECK. A failed accumulator differs in
its row and its column; a failed checksum element in its line; a failed parity in none. -/
def allowed : State := fed.modCtx 0 fun x => { x with impAllow := 1000 }

theorem test_tile_mismatch :
    got (.tileDrain 0 0 0 badTile) allowed (fun t =>
      decide ((hatchRunOf t).map (·.reruns) = some 1 ∧ (t.fab 0).demanded = true ∧ (t.ctx 0).impAllow < 1000 ∧
        (t.ctx 0).ledger.located = true ∧ (t.ctx 0).ledger.failLine = 1)) = true ∧
    got (.tileDrain 0 0 0 { parity := true }) (after [.tileDrain 0 0 0 badTile, .operandFetchComplete 0 0 ⟨0, 0⟩ []] allowed) (fun t =>
      decide (t.ops.map (·.fin) = [some .hatchCheck] ∧ (t.fab 0).mismX = 2)) = true ∧
    (tileSums 1 2 1 2 [2, 3] [5, 7] { t := [(1, some 0)] }).rows = [1] ∧
    (tileSums 1 2 1 2 [2, 3] [5, 7] { t := [(1, some 0)] }).cols = [] ∧
    (tileSums 1 2 1 2 [2, 3] [5, 7] {}).acc = [10, 14, 15, 21] ∧ (tileSums 1 2 1 2 [2, 3] [5, 7] {}).corner = false := by
  decide +kernel

/-- A claim that waits for staging wells an earlier macro-instruction holds. -/
def claiming : State :=
  { hatched with ops := hatched.ops.map fun o => { o with prog := .hatch { (o.hatchRun.getD { walk := [] }) with waiting := true, claim := 8 } } }

theorem test_claim_granted :
    claimReady claiming 0 0 0 = true ∧ got (.claimGranted 0 0 0) claiming (fun t => decide ((hatchRunOf t).map (·.waiting) = some false)) = true := by
  decide +kernel

/-- Two Stipple operations: A in context memory, 65 rows as a HATCH routed to Stipple (8 columns). -/
def stippled : State :=
  after [.hatch 0 0 []] (engineOf [wordOf [(0, 1), (8, 1), (32, 0), (40, 1), (48, 2)]]
    [desc 0x100 0 1 65 4 4, desc 0x800 2 1 4 8 8, desc 0x1000 2 3 65 8 32])
def stipFed : State := after [.operandFetchComplete 0 0 ⟨0, 0⟩ []] stippled
def stipRunOf (s : State) : Option StipRun := (s.op 0 0 0).bind Op.stipRun
def badLane : TileCheck := { t := [(0, some 5)] }

theorem test_stipple_operations :
    fetchReady stippled 0 0 0 0 = true ∧ stipReady stipFed 0 0 0 = true ∧ (stipRunOf stipFed).map (·.ops) = some 2 ∧
    got (.stippleComplete 0 0 0 .ok []) stipFed (fun t => decide ((stipRunOf t).map (·.opAt) = some 1)) = true ∧
    got (.stippleComplete 0 0 0 badLane []) (after [.stippleComplete 0 0 0 badLane [], .operandFetchComplete 0 0 ⟨0, 0⟩ []] (stipFed.modCtx 0 fun x => { x with impAllow := 1000 })) (fun t =>
      decide (t.ops.map (·.fin) = [some .hatchCheck] ∧ (t.fab 0).mismS = 2)) = true := by decide +kernel

theorem test_last_stipple_operation :
    got (.stippleComplete 0 0 0 .ok []) (after [.stippleComplete 0 0 0 .ok [], .operandFetchComplete 0 0 ⟨0, 0⟩ []] stipFed)
      (fun t => decide (t.ops.map (·.fin) = [some .success])) = true := by decide +kernel

def loading : State := after [.load 0 0 []] loadOf

theorem test_load_completes_into_shadow :
    loadCompleteReady loading 0 0 0 = true ∧ (loading.loadOp 0 0 0).isSome = true ∧
    got (.loadComplete 0 0 0 []) (loading.wr 0x30100 [3]) (fun t =>
      decide ((t.plate 0).bankB.state = .shadow ∧ (t.plate 0).bankB.w = [(0, 3)] ∧ t.ops.map (·.fin) = [some .success])) = true := by
  decide +kernel

/-- Poison in the weights: the bank is EMPTY. -/
theorem test_load_of_poison :
    got (.loadComplete 0 0 0 [(0x30100, .uncorrectable)]) loading (fun t =>
      decide ((t.plate 0).bankB = {} ∧ t.ops.map (·.fin) = [some .poison])) = true := by decide +kernel

def swapping : State := after [.swap 0 0] swapOf

theorem test_swap_takes_effect :
    swapDue swapping 0 0 0 = true ∧ swapping.swapOp 0 0 0 = some [0] ∧
    got (.swapTakeEffect 0 0 0) swapping (fun t => decide ((t.plate 0).bankB.state = .active ∧ (t.plate 0).bankA.state = .shadow)) = true ∧
    got (.swapTakeEffect 0 0 0) (swapping.modPlate 0 fun p => { p with bankA := { p.bankA with state := .activeUpset } })
      (fun t => decide ((t.plate 0).bankA = {})) = true := by decide +kernel

theorem test_bank_scrub :
    bankScrubReady swapOf 0 0 1023 = true ∧ bankScrubReady swapOf 0 1 0 = true ∧ bankScrubReady swapOf 1 0 0 = false ∧
    got (.bankScrub 0 0 1023 true) swapOf (fun t => decide ((t.plate 0).bankA.state = .activeUpset ∧ (t.plate 0).upsets = 1)) = true ∧
    got (.bankScrub 0 1 0 true) swapOf (fun t => decide ((t.plate 0).bankB = {})) = true := by decide +kernel

def etching : State := after [.etch 0 0 []] etchOf
def settled : State := after [.passComplete 0 0 0 0 [] 0 0, .passComplete 0 0 0 0 [] 0 0] etching

theorem test_passes_prove :
    passReady etching 0 0 0 0 = true ∧ ((etching.etchOp 0 0 0).bind fun e => e.2.passOf 0) = some (0, false, false) ∧
    got (.passComplete 0 0 0 0 [] 0 0) etching (fun t => decide ((t.plate 0).ledger.proven = 1 ∧ (t.ctx 0).ledger.proven = 1)) = true ∧
    got (.passComplete 0 0 0 0 [(0, 512)] 0 0) etching (fun t =>
      decide ((t.plate 0).ledger.failed = 1 ∧ (t.plate 0).ledger.nClip = 1 ∧ (t.plate 0).ledger.lastBurr = 0xFFFF)) = true := by decide +kernel

/-- A pass that was in flight when its ETCH overran at GUARD is still counted. -/
def inFlight : State :=
  match etching.etchOp 0 0 0 with
  | some (o, _) => { (inP etching .guardPhase).modPlate 0 (fun p => { p with flight := some ⟨o, p.active, 0⟩ }) with ops := [] }
  | none => etching

theorem test_pass_in_flight :
    ((inFlight.flightOf 0 0 0 0).bind fun x => x.op.etchRun.bind (·.passOf 0)) = some (0, false, false) ∧
    got (.passComplete 0 0 0 0 [] 0 0) inFlight (fun t => decide ((t.plate 0).flight = none ∧ (t.plate 0).ledger.proven = 1)) = true := by
  decide +kernel

theorem test_etch_writes_out :
    writeOutReady settled 0 0 0 = true ∧ writeOutReady etching 0 0 0 = false ∧
    got (.etchWriteOut 0 0 0) settled (fun t => decide (t.ops.map (·.fin) = [some .success])) = true := by decide +kernel

/-- One round alone, for the clause on a single row. -/
theorem wit_single_round :
    writeOutReady (after [.etch 0 0 [], .passComplete 0 0 0 0 [] 0 0]
      (engineOf [wordOf [(0, 3), (8, 1), (32, 0), (40, 1), (60, 1)]] [desc 0 1 1 1 4 4, desc 0x40 1 3 1 4 16])) 0 0 0 = true := by
  decide +kernel

/-- Verdicts: a plate out of service, an upset bank, a clipped code at 512, a burr at and past the limit. -/
def verdict (s : State) (raw : Tab Int) : Nat :=
  match etching.etchOp 0 0 0 with
  | some (_, h) => (judge s 0 (s.plate 0).active h 0 (h.codes (0, 0, false)) raw 0 0).cls
  | none => 99

theorem wit_verdicts :
    verdict etching [] = 0 ∧ verdict etching [(0, 511)] ≠ 4 ∧ verdict etching [(0, 512)] = 4 ∧ verdict etching [(0, 100)] ∈ [1, 2, 3] ∧
    verdict (etching.modPlate 0 fun p => { p with bankA := { p.bankA with state := .activeUpset } }) [] = 5 ∧
    verdict (etching.modPlate 0 fun p => { p with state := .failed }) [] = 6 := by decide +kernel

/-- A failed pass of X = [1, 0, 0, 0] on weights that read as 0: its own sums are 0. -/
def failedPass (e1 : Int) : FailedPass := ⟨0, 0, false, e1, 0, [], true, false⟩
def rebiting (e1 : Int) : State :=
  { etching with
    rebites := [(0, [⟨0, 0, 0, 0, 0, false, true⟩])]
    ops := etching.ops.map fun o => match o.prog with
      | .etch h => { o with prog := .etch { h with fails := [failedPass e1] } }
      | _ => o }

theorem test_rebite_checks_its_sums :
    okOf (rebiteWeights (rebiting 0) 0 0 [] ((rebiting 0).plate 0).active).1 = true ∧
    got (.rebiteComplete 0 false []) (rebiting 0) (fun t => decide ((t.ctx 0).ledger.rebitten = 1 ∧ t.rebites = [])) = true ∧
    got (.rebiteComplete 0 false []) (rebiting 1) (fun t => decide ((t.ctx 0).refused = 1 ∧ (t.ctx 0).ledger.rebitten = 0)) = true ∧
    got (.rebiteComplete 0 true []) (rebiting 0) (fun t => decide ((t.ctx 0).refused = 1)) = true := by decide +kernel

/-- Plate 3: 40 K from its last burnish, or at its interval less 8 frames; a step in a margin comb. -/
def warmPlate (s : State) (p : Plate) : State := { s with plates := [(3, p)] }
def marginComb : State := (inP base .margin).modFrame fun f => { f with comb := .marginComb }

theorem test_burnish_due :
    burnishDueReady (warmPlate base { temp := 40 }) 3 false = true ∧ burnishDueReady (warmPlate base { temp := 39 }) 3 false = false ∧
    burnishDueReady (base.modFrame fun f => { f with now := 2000 * 100000 - 40000 }) 3 true = true ∧
    burnishDueReady (base.modFrame fun f => { f with now := 2000 * 100000 - 40001 }) 3 true = false ∧
    got (.burnishDue 3 false) (warmPlate base { temp := 40 }) (fun t => (t.plate 3).due) = true ∧
    got (.burnishDue 3 true) ((warmPlate base { dueTemp := true, steps := 5 }).modFrame fun f => { f with now := 2000 * 100000 })
      (fun t => decide ((t.plate 3).dueTimed = true ∧ (t.plate 3).steps = 5)) = true := by decide +kernel

/-- 100 in each of 32 zero passes of line 5 would take an offset trim of -100 beyond its 7 bits. -/
def offline : BurnishSums := { zero := [(5, 400)] }

theorem test_burnish_steps :
    burnishStepReady (warmPlate marginComb { dueTemp := true, steps := 6 }) 3 = true ∧
    got (.burnishStep 3 []) (warmPlate marginComb { dueTemp := true, steps := 6 }) (fun t => decide ((t.plate 3).steps = 7 ∧ (t.plate 3).due = true)) = true ∧
    ({ steps := 7 } : Plate).beyond {} = false ∧ ({ steps := 7 } : Plate).beyond offline = true ∧
    got (.burnishStep 3 []) (warmPlate marginComb { dueTemp := true, steps := 7, state := .overdue })
      (fun t => decide ((t.plate 3).burnishes = 1 ∧ (t.plate 3).state = .inService)) = true ∧
    got (.burnishStep 3 []) (warmPlate marginComb { dueTemp := true, steps := 7, measured := offline })
      (fun t => decide ((t.plate 3).state = .failed)) = true := by decide +kernel

/-- 32 zero passes of 2 LSB on a line: an offset trim of -16 eighths and nothing left. -/
theorem test_burnish_trims :
    let p : Plate := {}
    p.offNeed { zero := [(5, 64)] } 5 = -16 ∧ p.offLeft { zero := [(5, 64)] } 5 = 0 ∧
    (driftTrim 7 (200, 10, 220, 14) 220 230 14 = 16) := by decide +kernel

theorem test_plate_overdue :
    overdueReady (warmPlate base { dueTemp := true, frames := 16 }) 3 = true ∧ overdueReady (warmPlate base { dueTemp := true, frames := 15 }) 3 = false ∧
    got (.plateOverdue 3) (warmPlate base { dueTemp := true, frames := 16 }) (fun t => decide ((t.plate 3).state = .overdue ∧ (t.plate 3).overdues = 1)) = true ∧
    got (.plateOverdue 3) (warmPlate base { dueTemp := true, frames := 16, state := .linkDown })
      (fun t => decide ((t.plate 3).state = .linkDown ∧ (t.plate 3).overdueToo = true ∧ (t.plate 3).overdues = 1)) = true := by
  decide +kernel

/-! ### Extension ports -/

def commanded : State := after [.ext 0 0 []] extOf
def aborting : State := after [.extTimeout 0 0] commanded
/-- The command was abandoned with its queue: an abort without a timeout. -/
def abandoned : State := aborting.modFab 0 fun f => { f with ext := [(0, { cmd := some (0, 0, 0), aborting := true })] }

theorem test_extension_port_ends :
    extDoneReady commanded 0 0 = true ∧ ((commanded.op 0 0 0).map fun o => (extWrite commanded o 0 []).1) = some none ∧
    got (.extDone 0 0 0 []) commanded (fun t => decide (t.ops.map (·.fin) = [some .success] ∧ (t.ext 0 0).cmd = none)) = true ∧
    got (.extDone 0 0 5 []) commanded (fun t => decide ((t.ops.map fun o => o.fin.map Status.code) = [some 0x0705])) = true := by decide +kernel

theorem test_extension_timeout_and_hang :
    (aborting.ext 0 0).aborting = true ∧ (aborting.ext 0 0).timedOut = true ∧
    got (.extAbortAck 0 ⟨0, []⟩) aborting (fun t => decide (t.ops.map (·.fin) = [some .extTimeout] ∧ t.ext 0 0 = {})) = true ∧
    got (.extAbortAck 0 ⟨0, [7]⟩) abandoned (fun t => decide (t.ops = abandoned.ops ∧ t.ext 0 0 = {})) = true ∧
    got (.extHung 0 0) aborting (fun t => decide (t.ops.map (·.fin) = [some .extHung] ∧ t.extThere 0 0 = false)) = true := by decide +kernel

/-- D0 is four bytes at 0x100, D2 four bytes at 0x200; and the same with the destination gone beyond what is mapped. -/
def extWith : State := engineOf [wordOf [(0, 0x10), (8, 1), (40, 0), (48, 1), (56, 1), (58, 1)]] [desc 0x100 0 1 1 4 4, desc 0x200 0 1 1 4 4]
def streamed : State := after [.ext 0 0 []] extWith
def displaced : State := { streamed with ops := streamed.ops.map fun o => { o with dd := { o.dd with bases := [2 ^ 43] } } }

theorem test_extension_streams :
    okOf (extCheck extWith 0 0 []).1 = true ∧
    got (.ext 0 0 []) extWith (fun t => decide (t.out.length = 1 ∧ t.ops.map (·.fin) = [none])) = true ∧
    got (.extDone 0 0 0 [1, 2, 3, 4]) streamed (fun t => decide (t.posted.map (·.bytes) = [[1, 2, 3, 4]])) = true ∧
    ((displaced.op 0 0 0).map fun o => (extWrite displaced o 0 [1]).1.isSome) = some true ∧
    got (.extDone 0 0 0 [1]) displaced (fun t => decide (t.posted = [] ∧ (t.ext 0 0).cmd = none)) = true := by decide +kernel

/-! ### Links, arbitration, memory -/

/-- A flit for a die, as it is handed to a link; and the one that its trailer and CRC make of it. -/
def flitTo (die : Nat) : Flit := ⟨BitVec.ofNat 64 (die * 2 ^ 5), List.replicate 256 0, 0⟩
def flitOf (seq ack : Nat) (nak : Bool) : Flit := stamp (flitTo 0x12) (BitVec.ofNat 15 seq) (BitVec.ofNat 15 ack) nak

/-- The check value of CRC-32C: "123456789" gives 0xE3069283. -/
theorem test_crc32c : crc32c [0x31, 0x32, 0x33, 0x34, 0x35, 0x36, 0x37, 0x38, 0x39] = 0xE3069283 := by decide +kernel

theorem test_flit_accepted_in_order :
    (base.link 23).carries = true ∧ base.mayCross 23 1 (flitTo 0x12) = true ∧ base.mayCross 23 1 (flitTo 0x11) = false ∧
    flitOk {} (flitOf 0 0 false) = true ∧ flitOk {} (flitOf 1 0 false) = false ∧
    got (.flitReceive 23 1 ⟨flitTo 0x12, none⟩ 0) base (fun t =>
      decide ((t.link 23).d1.expSeq = 1 ∧ (t.link 23).d0.acked = 0x7FFF ∧ (t.link 23).d1.nextSeq = 1 ∧ (t.link 23).d1.nak = false)) = true := by
  decide +kernel

/-- A damaged flit is discarded and answered with NAK; the NAK makes the sender replay what is not acknowledged. -/
def nakDue : State := after [.flitReceive 23 1 ⟨flitTo 0x12, some (flitOf 1 0 false)⟩ 0] base

theorem test_flit_replayed :
    (nakDue.link 23).d1.nak = true ∧ (nakDue.link 23).d1.expSeq = 0 ∧ nakDue.mayCross 23 0 (flitTo 2) = true ∧
    got (.flitReceive 23 0 ⟨flitTo 2, none⟩ 0) nakDue (fun t =>
      decide ((t.link 23).replays = 1 ∧ (t.link 23).d1.toReplay = 1 ∧ (t.link 23).d1.nak = false)) = true ∧
    got (.flitReceive 23 1 ⟨flitTo 0x12, none⟩ 0) (after [.flitReceive 23 0 ⟨flitTo 2, none⟩ 0] nakDue) (fun t =>
      decide ((t.link 23).d1.expSeq = 1 ∧ (t.link 23).d1.toReplay = 0 ∧ (t.link 23).d1.nextSeq = 1)) = true := by decide +kernel

/-- With 128 flits unacknowledged nothing new goes out. -/
theorem test_replay_buffer_is_full :
    let full : Dir := { buffer := List.replicate 128 (flitTo 0x12, 0), nextSeq := 128 }
    (full.sendNext (flitTo 0x12)).1 = none ∧ (full.sendNext (flitTo 0x12)).2.waiting.length = 1 ∧
    ((full.acknowledge 0).sendNext (flitTo 0x12)).1 = some (flitTo 0x12, 128) := by decide +kernel

/-- A link in retraining, with these spares used and these earlier retrainings. -/
def retraining (used : Nat) (times : List Nat) : State :=
  base.modLink 7 fun k => { k with state := .retraining, d0 := { k.d0 with sparesUsed := used }, retrainTimes := times }

theorem test_retraining_ends :
    got (.retrainComplete 7 1 0 true 100) (retraining 3 [100]) (fun t => decide ((t.link 7).state = .spared ∧ (t.link 7).d0.sparesUsed = 4)) = true ∧
    got (.retrainComplete 7 0 0 true 100) (retraining 0 [100]) (fun t => decide ((t.link 7).state = .up)) = true ∧
    got (.retrainComplete 7 1 0 true 100) (retraining 4 [100]) (fun t => decide ((t.link 7).state = .down)) = true ∧
    got (.retrainComplete 7 0 0 false 100) (retraining 0 [100]) (fun t => decide ((t.link 7).state = .down)) = true := by decide +kernel

/-- Nine retrainings within the last second, and eight. -/
theorem test_ninth_retraining :
    got (.retrainComplete 7 0 0 true 100) (retraining 0 [1, 2, 3, 4, 5, 6, 7, 8, 100]) (fun t => decide ((t.link 7).state = .down)) = true ∧
    got (.retrainComplete 7 0 0 true 100) (retraining 0 [1, 2, 3, 4, 5, 6, 7, 100]) (fun t => decide ((t.link 7).state = .up)) = true := by
  decide +kernel

theorem test_arbitration :
    ((List.range 9).map (base.floor 49)).sum ≤ 58 ∧
    got (.arbitrationWindow 49 { plant := 9, mgmt := 9, imp := [(0, 40)], mar := [(1, 40)] }) base (fun t =>
      let a := tget {} t.arb 49
      decide (a.plant = 4 ∧ 2 ≤ a.mgmt ∧ a.plant + a.mgmt + (a.floor.map (·.2)).sum + (a.imp.map (·.2)).sum + (a.mar.map (·.2)).sum + a.idle = 64)) = true ∧
    got (.arbitrationWindow 48 { plant := 0, mgmt := 0, imp := [(0, 40)], mar := [], scrub := 99 }) (inP base .margin) (fun t =>
      decide ((tget {} t.arb 48).scrub = 24)) = true ∧
    got (.arbitrationWindow 0 { plant := 0, mgmt := 0, imp := [(0, 40)], mar := [], scrub := 99 }) (inP base .margin) (fun t =>
      decide ((tget {} t.arb 0).scrub = 0 ∧ (tget {} t.arb 0).idle = 24)) = true := by
  decide +kernel

/-- Both LPDDR5X ports have a slot for the scrubbers. -/
def scrubbing : State := { inP base .margin with arb := [(48, { scrub := 1 }), (49, { scrub := 1 })] }

theorem test_stock_scrub :
    scrubbing.scrubOpen 0 = true ∧ scrubbing.scrubOpen 1 = true ∧ (inP base .margin).scrubOpen 0 = false ∧
    got (.stockScrub 1 0x1FFFFF8 .corrected false) scrubbing (fun t =>
      decide (t.memStat.stCorr = 1 ∧ t.poison = [] ∧ t.scrubOpen 1 = false)) = true ∧
    got (.stockScrub 1 0x1FFFFF8 .uncorrectable false) scrubbing (fun t =>
      decide (t.poison = [0x80003FFFFF8] ∧ t.memStat.stUncorr = 1 ∧ t.out.length = 1)) = true ∧
    got (.stockScrub 0 0 .uncorrectable false) scrubbing (fun t => decide (t.out.getLast? = some (.machineCheck 0))) = true := by
  decide +kernel

theorem test_lpddr5x_patrol :
    base.isLp 0x40 = true ∧ base.isLp (base.usable - 64) = true ∧ base.isLp base.usable = false ∧
    got (.lpddr5xPatrol 0x40 .corrected) scrubbing (fun t => decide (t.memStat.lpCorr = 1)) = true ∧
    got (.lpddr5xPatrol 0x2000000040 .uncorrectable) scrubbing (fun t => decide (t.poison = [0x2000000040] ∧ t.memStat.lpUncorr = 1)) = true := by
  decide +kernel

/-- Posted writes of a whole 64-byte block, and of one byte. -/
def posted (n : Nat) : State :=
  { idle .impress with posted := [{ c := 0, q := 0, epoch := 5, caddr := 0x80, target := .dev 0x30080, bytes := List.replicate n 9, way := [8] }],
                       poison := [0x30080] }

theorem test_posted_write_lands :
    postedReady (posted 64) 0 = true ∧ partialUnits 0x30080 64 = [] ∧ partialUnits 0x30080 1 = [0x30080] ∧
    got (.postedWriteComplete 0 .clean) (posted 64) (fun t => decide (t.rd 0x30080 = 9 ∧ t.rd 0x300BF = 9 ∧ t.rd 0x300C0 = 0 ∧ t.poison = [] ∧ t.posted = [])) = true ∧
    got (.postedWriteComplete 0 .clean) (posted 1) (fun t => decide (t.rd 0x30080 = 0 ∧ (t.ctx 0).late.cause = 1 ∧ (t.ctx 0).late.daddr = 0x30080)) = true := by
  decide +kernel

/-! ### The Gauge dies -/

/-- Output 3 of Gauge die 0 of tenant 0 with this staged value, or none. -/
def staging (v : Option Int) : State :=
  let s := withObj (inP (idle .guardPhase) .guardPhase) 0x504301 0
  match v with
  | some x => s.wr (stagingAddr 0 0 + 48) (stagingEntry x 5 0 false)
  | none => s.modOutput 0 3 fun o => { o with act := 12, actSafe := false }
def pending3 (s : State) (v : Int) (safe : Bool) : Bool :=
  got .outputPreparation s fun t => decide ((t.output 0 3).pend = v ∧ (t.output 0 3).pendSafe = safe)

theorem test_output_preparation :
    pending3 (staging (some 77)) 77 false = true ∧ pending3 (staging none) 12 false = true ∧
    pending3 (staging (some 77) |>.modTen 0 fun x => { x with latch := true }) 0 true = true ∧
    pending3 (withObj (staging (some 77)) 0x504308 55 |>.modTen 0 fun x => { x with overran := true }) 55 true = true := by decide +kernel

/-- The overrun action HOLD, an unreadable block, a poisoned entry, an entry of a context under reset. -/
theorem test_output_actions :
    pending3 ((withObj (staging (some 77)) 0x504309 0 |>.modTen 0 fun x => { x with overran := true }).modOutput 0 3 fun o => { o with act := 12, actSafe := false })
      12 false = true ∧
    (staging none).blockBad 0 0 = false ∧ ({ staging none with poison := [stagingAddr 0 0] }).blockBad 0 0 = true ∧
    pending3 ({ staging (some 77) with poison := [stagingAddr 0 0] }) 0 true = true ∧
    pending3 ((staging none).wr (stagingAddr 0 0 + 48) (stagingEntry 77 5 0 true)) 0 true = true ∧
    pending3 (((staging (some 77)).modFrame fun f => { f with resetCtxs := [0] }).modOutput 0 3 fun o => { o with act := 12, actSafe := false }) 12 false = true := by decide +kernel

theorem wit_forced_safe :
    (staging none).forcedSafe 0 3 = false ∧ ((staging none).modFrame fun f => { f with tickState := .fallbackSafe }).forcedSafe 0 3 = true ∧
    (staging none).forcedSafe 0 4 = true := by decide +kernel

/-- Position interface 3 of Gauge die 1 as a quadrature input. -/
def encoder : State := withObj base 0x583301 1

theorem test_encoder :
    posThere encoder 1 3 = true ∧ encoder.posMode 1 3 = 1 ∧
    got (.encoderEdge 1 3 false) encoder (fun t => decide ((t.pos 1 3).count = 0x7FFFFFFF)) = true ∧
    got (.encoderEdge 1 3 true) (encoder.modPos 1 3 fun x => { x with count := 0x7FFFFFFF }) (fun t => decide ((t.pos 1 3).count = 0)) = true ∧
    got (.encoderIndex 1 3) (encoder.modPos 1 3 fun x => { x with count := 6 }) (fun t => decide ((t.pos 1 3).indexPos = 6 ∧ (t.pos 1 3).index = true)) = true ∧
    got (.positionError 1 3) encoder (fun t => (t.pos 1 3).error) = true := by decide +kernel

theorem test_channels_latch :
    (({ ratio := 100, bits := 200 } : SdCh).latch true 100 100 (2 ^ 23)).latched = 2 ^ 23 - 1 ∧
    (({ ratio := 100, bits := 199 } : SdCh).latch true 100 100 5).latched = noSample ∧
    (({ count := 9 } : PosIf).latch 1 0).latched = 9 ∧ (({ count := 9, error := true } : PosIf).latch 1 0).latched = noSample ∧
    (({ count := 9, error := true, rearm := true, cleared := true } : PosIf).latch 1 0).latched = 0 := by decide +kernel

/-- PWM channel 2 of Gauge die 0, period 50 us in 100 ps steps, least pulse 100, with this active value. -/
def carrier (v : Int) : State := (withObj base 0x504207 100).modOutput 0 2 fun o => { o with act := v, actSafe := false }
def onTime (v : Int) (n : Nat) : Bool := got (.carrierPeriodStart 0 2) (carrier v) fun t => decide ((t.pwm 0 2).onTime = n)

theorem test_pwm_pulses :
    carrierReady (carrier 0) 0 2 = true ∧ (carrier 0).carrierPeriod 0 2 = 500000 ∧ onTime (-1) 0 = true ∧ onTime 99 0 = true ∧
    onTime 100 100 = true ∧ onTime 499900 499900 = true ∧ onTime 499901 500000 = true ∧ onTime 500001 500000 = true := by decide +kernel

theorem test_pwm_edge :
    got (.pwmPulseEdge 0 2) (base.modPwm 0 2 fun x => { x with plan := [(5, true, false)] }) (fun t => decide ((t.pwm 0 2).on = true ∧ (t.pwm 0 2).plan = [])) = true := by
  decide +kernel

/-- Load-control channel 0 of Gauge die 0, on-time 3000 steps, as running. -/
def loadCh (f : LoadCh → LoadCh) : State :=
  (base.modOutput 0 12 fun o => { o with act := 3000, actSafe := false }).modLoad 0 0 fun x => f { x with running := true, on := true, onTime := 3000 }

theorem test_load_period :
    loadPeriodReady (loadCh fun _ => {}) 0 0 = true ∧ (loadCh fun _ => {}).lowDuty 0 0 = 0 ∧
    got (.loadPeriodStart 0 0) (loadCh fun _ => {}) (fun t => decide ((t.load 0 0).onTime = 3000 ∧ (t.load 0 0).on = true)) = true ∧
    got (.loadPeriodStart 0 0) (loadCh fun _ => { latched := true }) (fun t => (t.load 0 0).running && !(t.load 0 0).on) = true ∧
    loadOffReady (loadCh fun x => { x with windowDone := true }) 0 0 = true ∧ loadOffReady (loadCh id) 0 0 = false ∧
    got (.loadTurnOff 0 0) (loadCh fun x => { x with windowDone := true }) (fun t => !(t.load 0 0).on) = true := by decide +kernel

theorem test_load_faults :
    (loadCh id).faultTh 0 0 = 2800 ∧ (loadCh id).overTh 0 0 = 2000 ∧
    got (.overcurrentDetect 0 0 2800) (loadCh id) (fun t => decide ((t.load 0 0).result = .switchFault ∧ (t.load 0 0).latched = true ∧ (t.load 0 0).on = false)) = true ∧
    got (.overcurrentDetect 0 0 2799) (loadCh id) (fun t => decide ((t.load 0 0).result = .overcurrent)) = true ∧
    got (.overcurrentDetect 0 0 2800) (withObj (loadCh id) 0x50600B 0) (fun t => decide ((t.load 0 0).latched = false ∧ (t.load 0 0).on = true)) = true ∧
    undue (.overcurrentDetect 0 0 1999) (loadCh id) = true := by decide +kernel

theorem test_load_diagnosis :
    got (.onStateDiagnosis 0 0 50) (loadCh id) (fun t => decide ((t.load 0 0).result = .goodOn)) = true ∧
    got (.onStateDiagnosis 0 0 49) (loadCh id) (fun t => decide ((t.load 0 0).result = .open)) = true ∧
    got (.onStateDiagnosis 0 0 49) (loadCh fun x => { x with result := .overcurrent }) (fun t => decide ((t.load 0 0).result = .overcurrent)) = true ∧
    got (.probeDiagnosis 0 0 1000) (loadCh fun x => { x with probing := true }) (fun t => decide ((t.load 0 0).result = .open)) = true ∧
    got (.probeDiagnosis 0 0 999) (loadCh fun x => { x with probing := true }) (fun t => decide ((t.load 0 0).result = .goodOff)) = true := by
  decide +kernel

/-! ### The fabric -/

/-- An uncompressed P-384 key and the signature it makes over the byte 'x', worked out outside the model (RFC 6979 curve, private key 12345). -/
def key0 : BitVec 776 := 0x486104f043226125161a8c3dc174cf43bdec9b62a6dd1f46b2ef4affe1c1beaabf0b693a3c6ece41ddb0441f2c9f5b481b8ba8fd899a173bcb3cb0516904908dc35a2acb1d2e976ccda10088582f68b4cdcdd8d5b7a6952a314d0e355e996be804
def hash0 : BitVec 384 := 0x112eab96645eae488291100893df27a5d7a4d1b010c2e27922617f1916f2dc1971c733be7c6a94daad746ae4763d892b
def digestX : BitVec 384 := 0x85daa7ca90b93bc8b513d3aeac287cf9222601bdd530563afa97328d057a07443e25d4a9700519aa290eba1fc5c252d7
def sigX : BitVec 768 := 0xa597c43391fdd61be1b2594257b80b994d3161b27cd796373bdd1a5a4392f800c35b3884d400fdaf2fefa36e7fd3e4b34e49f7c85b49e88decbb84819aefc568dc66aa34cd4f74199262f1ad338e9e8eb532f800efc116959fee11a96b0814c6

theorem test_sha384 : digestVal [0x78] = digestX := by decide +kernel

def imageOf_ (v : Nat) : Image :=
  ⟨BitVec.ofNat 32 v, true, [0xC2], [⟨1, 1⟩, ⟨2, 1⟩, ⟨3, 1⟩, ⟨4, 2⟩]⟩

/-- Owner key slot 0 ACTIVE, and images tested with each other and with level 2. -/
def keyed (s : State) : State :=
  { s with sec := { s.sec with keys := [(0, key0)], otp := { s.sec.otp with slots := [(0, ⟨hash0, .active⟩)] } }
           boot := { s.boot with gImg := some (imageOf_ 1), bImg := some (imageOf_ 1), nImg := some (imageOf_ 1) } }

def bitstream0 : Bitstream :=
  { keySlot := 0, stripes := 0, length := 0, desc := BitVec.ofNat 64 (2 + 0x3F * 2 ^ 11 + 7 * 2 ^ 17 + 960 * 2 ^ 32), ports := [], bus := [200],
    parity := [], fifo := [300], aspectA := [], aspectB := [], almostFull := [], almostEmpty := [], credit := [], wells := [(5, 9)],
    digest := digestX, sig := sigX }

def withFab (f : Fab) : State := { base with fabs := [(3, f)] }
def configuring : State := keyed (withFab { die := .configuring, copy := some bitstream0 })

theorem test_configuration_loads :
    got (.configurationLoadComplete 3 true) configuring (fun t =>
      decide ((t.fab 3).die = .held ∧ (t.fab 3).releaseDue = true ∧ t.rd (wellBaseOf 3 + 5) = 9)) = true := by decide +kernel

theorem test_configuration_fails_its_stripes :
    got (.configurationLoadComplete 3 false) configuring (fun t => decide ((t.fab 3).die = .unconfigured ∧ (t.fab 3).result = 2 ∧ (t.fab 3).bs = none)) = true := by
  decide +kernel

theorem test_release_stages :
    stage1Ready (withFab { die := .held, releaseDue := true }) 3 = true ∧ stage2Ready (withFab { die := .releasing, rel := 1 }) 3 = true ∧
    got (.releaseStage1 3) (withFab { die := .held, releaseDue := true }) (fun t => decide ((t.fab 3).padsOn = true ∧ (t.fab 3).enables = false)) = true ∧
    got (.releaseStage2 3) (withFab { die := .releasing, rel := 1 }) (fun t => decide ((t.fab 3).enables = true ∧ (t.fab 3).resetsOn = true)) = true ∧
    got (.releaseStage3 3) (withFab { die := .releasing, rel := 2 }) (fun t => decide ((t.fab 3).die = .running ∧ (t.fab 3).resetsOn = false)) = true := by
  decide +kernel

/-- Slot 4 is the boot slot of Field die 3 during start-up; a reconfiguration asks for slot 7. -/
def booting : State := withObj { base with boot := { base.boot with dev := .starting } } 0x600401 4
def reconfiguring : State := withFab { die := .running, bs := some bitstream0, reconfig := some 7 }

theorem test_bitstream_copy :
    copyReady booting 3 4 = true ∧ booting.bootCopyDue 3 4 = true ∧ copyReady reconfiguring 3 7 = true ∧ reconfiguring.bootCopyDue 3 7 = false ∧
    got (.bitstreamCopyComplete 3 4 bitstream0) booting (fun t => decide ((t.fab 3).die = .configuring)) = true ∧
    got (.bitstreamCopyComplete 3 7 bitstream0) reconfiguring (fun t => decide ((t.fab 3).die = .running ∧ (t.fab 3).newCopy = some bitstream0)) = true := by
  decide +kernel

def live (f : Fab → Fab) : State := withFab (f { die := .running, bs := some bitstream0, desc := bitstream0.desc })

theorem test_configuration_scrub :
    scrubReady (live id) 3 = true ∧
    got (.configurationScrub 3 .corrected) (live id) (fun t => decide ((t.fab 3).corrected = 1 ∧ (t.fab 3).stripe = 1)) = true ∧
    got (.configurationScrub 3 .clean) (live fun f => { f with stripe := stripeCount - 1 }) (fun t => decide ((t.fab 3).stripe = 0)) = true ∧
    got (.configurationScrub 3 .uncorrectable) (withObj (live id) 0x600406 1) (fun t => decide ((t.fab 3).rewritten = 1 ∧ (t.fab 3).restartDue = true)) = true := by
  decide +kernel

theorem test_well_bus :
    (live id).busWell 3 200 = true ∧ (live id).busWell 3 300 = false ∧ (live id).portAHits 3 200 8191 8191 = true ∧
    got (.wellBusAccess 3 200 8191 true 7 (some (8191, 5)) false) (live id) (fun t => decide (t.rd (wellBaseOf 3 + 200 * 8192 + 8191) = 7)) = true ∧
    got (.wellBusAccess 3 200 0 false 0 none false) ((live id).wr (wellBaseOf 3 + 200 * 8192) [6]) (fun t => decide (t.out = [.wellBus 3 200 0 false false 6])) = true ∧
    got (.wellBusAccess 3 300 0 true 7 none false) (live id) (fun t => decide (t.out = [.wellBus 3 300 0 true false 0] ∧ t.mem = [])) = true := by
  decide +kernel

def fifoWith (ws : List (BitVec 72)) : State := live fun f => { f with collars := [(300, { words := ws })] }
def many : List (BitVec 72) := List.replicate 8191 1

theorem test_fifo_keeps_order :
    (fifoWith []).isFifo 3 300 = true ∧ (fifoWith []).fifoDepth 3 300 = 8192 ∧
    got (.fifoWrite 3 300 5 0) (fifoWith [1]) (fun t => decide ((t.collar 3 300).words = [1, 5] ∧ (t.collar 3 300).full = false)) = true ∧
    got (.fifoRead 3 300 0) (fifoWith [1, 5]) (fun t => decide ((t.collar 3 300).words = [5] ∧ (t.collar 3 300).lastWord = 1)) = true ∧
    got (.fifoRead 3 300 0) (fifoWith []) (fun t => (t.collar 3 300).underflow) = true ∧
    got (.collarClear 3 300) (live fun f => { f with collars := [(300, { overflow := true, underflow := true })] })
      (fun t => decide ((t.collar 3 300).overflow = false ∧ (t.collar 3 300).underflow = false)) = true := by decide +kernel

theorem test_fifo_full_overflows :
    got (.fifoWrite 3 300 5 0) (fifoWith many) (fun t => (t.collar 3 300).full && !(t.collar 3 300).overflow) = true ∧
    got (.fifoWrite 3 300 5 0) (fifoWith (1 :: many)) (fun t => (t.collar 3 300).overflow) = true := by decide +kernel

/-- Pad bank 3 is in serial mode. -/
def serialPads : State := live fun f => { f with bs := some { bitstream0 with serial := 8 } }

theorem test_taps_and_lanes :
    got (.tapLoad 3 95 true 0x7F) (live id) (fun t => decide (tget 0 (t.fab 3).tapIn 95 = 0x7F ∧ (t.fab 3).tapOut = [])) = true ∧
    got (.tapLoad 3 0 false 1) (live id) (fun t => decide (tget 0 (t.fab 3).tapOut 0 = 1)) = true ∧
    serialPads.laneSerial 3 15 = true ∧ serialPads.laneSerial 3 11 = false ∧
    got (.serialLaneLocked 3 15 25) serialPads (fun t => decide (t.lane 3 15 = { state := 2, rate := 25 })) = true ∧
    got (.serialLaneUnlocked 3 15) (live fun f => { f with lanes := [(15, { state := 2, rate := 25 })] }) (fun t => decide (t.lane 3 15 = { state := 1, rate := 25 })) = true := by
  decide +kernel

/-- Cell 0 inverts its own first flip-flop on spine 0, which VCLK drives; the enable of its second one is low. -/
def toggles : Cell :=
  { kind := .lut6 1, ins := [.ff 0 false], ff0 := { d := .out 0 false }, ff1 := { d := .high, enable := .low } }
def clocked : State :=
  live fun f => { f with bs := some { bitstream0 with cells := [(0, toggles)], spines := [(0, some { source := .vclk })] },
                         enables := true, resetsOn := false, spineOn := [(0, true)] }

theorem test_user_logic_toggles :
    (match step clocked with | .next t => decide ((t.fab 3).ffs = [(0, true)]) | _ => false) = true ∧
    ({ async := true, reset := .high, init := true } : FlipFlop).next (fun w => decide (w = .high)) false false = true ∧
    (toggles.output 0 [true] false false) = false := by decide +kernel

/-- RAM: bit 5 at the address the inputs spell; shift: one place up. -/
theorem test_dynamic_cells :
    ({ kind := .ram 0, ins := [.high, .low, .high], data := .high, write := .high } : Cell).nextMem (fun w => decide (w = .high)) true 1 = 33 ∧
    ({ kind := .shift 0, data := .high, write := .high } : Cell).nextMem (fun w => decide (w = .high)) true 5 = 11 ∧
    ({ kind := .ram 0, ins := [.high], data := .high } : Cell).nextMem (fun w => decide (w = .high)) true 1 = 1 := by decide +kernel

/-! ### Power -/

/-- Rail 5 limited to 10.00 A. -/
def railed (x : Rail) : State := withObj { base with power := { rails := [(5, x)] } } 0x400105 1000

theorem test_rail_holds_and_lifts :
    (railed {}).railLimit 5 = some 1000 ∧ (railed {}).railLimit 19 = none ∧
    got (.railMeasurementUpdate 5 1001 false) (railed {}) (fun t => (t.rail 5).held) = true ∧
    got (.railMeasurementUpdate 5 1000 false) (railed {}) (fun t => !(t.rail 5).held) = true ∧
    got (.railMeasurementUpdate 5 950 false) (railed { held := true }) (fun t => (t.rail 5).held) = true ∧
    got (.railMeasurementUpdate 5 949 false) (railed { held := true }) (fun t => !(t.rail 5).held) = true := by decide +kernel

theorem test_lost_regulation_resets :
    got (.railMeasurementUpdate 5 0 true) (railed {}) (fun t => decide (t.power.outside = true ∧ t.boot.warmReq = some 6)) = true ∧
    got (.railMeasurementUpdate 5 0 true) (inP (railed {}) .guardPhase) (fun t => decide (t.power.warmDue = some 6)) = true := by decide +kernel

theorem test_heat_and_droop :
    got (.overTemperature 19) base (fun t => decide (t.boot.warmReq = some 7 ∧ t.boot.heldHot = true)) = true ∧
    got .overTemperatureClear { base with boot := { base.boot with heldHot := true } } (fun t => !t.boot.heldHot) = true ∧
    stretches 14 = true ∧ got (.droopDetect 14) (inP base .guardPhase) (fun t => t.power.droopInGuard) = true ∧
    got (.droopRecover 14) { base with power := { stretched := [(14, true)] } } (fun t => decide (t.power.stretched = [])) = true ∧
    got .averagingWindowBoundary { base with power := { cancels := 8, raisingStopped := true } } (fun t => decide (t.power.cancels = 0 ∧ t.power.raisingStopped = false)) = true := by
  decide +kernel

/-- A switch due in GUARD. -/
def switching (p : Power) : State := { (inP base .guardPhase).modFrame fun f => { f with prepared := true } with power := p }

theorem test_frequency_switch :
    switchReady (switching { plan := .raise }) = true ∧
    got (.frequencySwitch true) (switching { plan := .lower, step := 4 }) (fun t => decide (t.power.step = 4 ∧ t.frame.freqDone = true)) = true ∧
    got (.frequencySwitch true) (switching { plan := .raise, step := 4 }) (fun t => decide (t.power.step = 5)) = true ∧
    got (.frequencySwitch true) (switching { plan := .raise, step := 4, droopInGuard := true, cancels := 7 })
      (fun t => decide (t.power.step = 4 ∧ t.power.cancels = 8 ∧ t.power.raisingStopped = true)) = true ∧
    got (.frequencySwitch false) (switching { plan := .raise, step := 4 }) (fun t => decide (t.power.step = 4 ∧ t.power.planned = .raise)) = true := by
  decide +kernel

theorem test_cut_ladder :
    ladder 35 101 100 = 35 ∧ ladder 3 101 100 = 4 ∧ ladder 3 100 100 = 3 ∧ ladder 3 98 100 = 3 ∧ ladder 3 97 100 = 2 ∧ ladder 0 97 100 = 0 ∧
    ((List.range 16).filter (slotOpenAt 14)).length = 2 := by decide +kernel

/-! ### Slot operations -/

/-- Context 1 waits for a slot; tenant 0 may have one (0x3520:15), which context 0 holds. -/
def twoCtxs (n : Nat) : State :=
  let s := withObj (inP base .guardPhase) 0x352015 n
  { s.modFrame fun f => { f with prepared := true } with
      ctxs := [(0, ctx0), (1, { ctx0 with slot := none })], bundles := [bundleWith []], restores := [(false, 1)] }

theorem test_slot_operations :
    slotOpReady (twoCtxs 2) = true ∧ (twoCtxs 2).nextSlotOp = some (.restore 1 5) ∧ (twoCtxs 1).nextSlotOp = some (.save 0) ∧
    got .slotOperation (twoCtxs 2) (fun t => decide ((t.ctx 1).slot = some 5 ∧ t.frame.slotOps = 1)) = true ∧
    got .slotOperation (twoCtxs 1) (fun t => decide ((t.ctx 0).slot = none ∧ t.slotOpsTotal = 1)) = true := by decide +kernel

/-- Context 1 was evicted: the General image lists its bundle's level (`lvl`), or only another one, which refuses it. -/
def evicted (lvl : BitVec 32) : State :=
  let s := (withObj (withObj (twoCtxs 2) 0x450007 1) 0x310001 100).modCtx 1 fun x => { x with evicted := true, copy := 1 }
  { s with bundles := [bundleWith [], bundleWith []],
           boot := { s.boot with gImg := some ⟨1, true, [0xC2], [⟨4, lvl⟩]⟩, bImg := none } }

def evictedOnly (lvl : BitVec 32) : State := { evicted lvl with restores := [] }

theorem test_evicted_context_returns :
    (evicted 0).nextSlotOp = some (.restore 1 5) ∧ (evicted 7).nextSlotOp = some (.restore 1 5) ∧
    ((evictedOnly 0).admitCheck 1).1 = none ∧
    ((evictedOnly 7).admitCheck 1).1.isSome = true ∧
    got .slotOperation (evicted 0) (fun t => decide ((t.ctx 1).slot = some 5 ∧ (t.ctx 1).evicted = false)) = true ∧
    got .slotOperation (evicted 7) (fun t => decide ((t.ctx 1).slot = none ∧ (t.ctx 1).evicted = true ∧ (t.ten 0).lastRejection ≠ 0)) = true := by
  decide +kernel


/-! ### Contexts and their commands -/

/-- A command header: CMD, the context, its generation. -/
def ctxHdr (cmd c gen : Nat) : BitVec 128 := BitVec.ofNat 128 (cmd + c * 2 ^ 16 + gen * 2 ^ 32)

/-- A bundle of identifier 5 of tenant 0, and context 0 in this state (generation 1). -/
def inCtxState (st : CtxState) : State :=
  { idle .impress with bundles := [{ header := BitVec.ofNat 512 (5 * 2 ^ 128) }], ctxs := [(0, { ctx0 with state := st })],
                       plates := [(31, { owner := some 0 })] }

/-- A record with a reserved bit set; a record of a ring of 32 records. -/
def shortRing : BitVec 1024 := BitVec.ofNat 1024 (recordOf.toNat - 2 ^ 176)

theorem test_create :
    (inCtxState .created).viewOf p1 = .tenant 0 ∧ (inCtxState .created).awake = true ∧ hdrCmd (ctxHdr 1 0 0) = 1 ∧
    hdrReserved (ctxHdr 1 0 0) = false ∧ recordReserved (recordOf ||| BitVec.ofNat 1024 (2 ^ 108)) = true ∧
    recordReserved recordOf = false ∧ recordOk { record := recordOf } = true ∧ recordOk { record := shortRing } = false ∧
    (inCtxState .created).copyFor 0 5 = some 0 ∧ (inCtxState .created).ctxCount 0 < (inCtxState .created).share 0 0x16 ∧
    (inCtxState .created).freeCtx = some 1 ∧
    got (.create p1 (ctxHdr 1 0 0) recordOf) (inCtxState .created) (fun t => decide ((t.ctx 1).state = .created ∧ (t.ctx 1).gen = 1 ∧
      t.out = [.reply p1 0 4 0x10001])) = true ∧
    got (.create p1 (ctxHdr 1 0 0) shortRing) (inCtxState .created) (fun t => decide (t.ctxs = (inCtxState .created).ctxs)) = true := by
  decide +kernel

/-- Each command on a context in each kind of state: recordedAs, or turned away. -/
def recordedAs (c : Instr) (st : CtxState) (f : Ctx → Bool) : Bool :=
  got c (inCtxState st) fun t => f (t.ctx 0) && decide (t.out = [.reply p1 0 0 0])
def turned (c : Instr) (s : State) (a : Nat) : Bool := got c s fun t => decide (t.out.getLast? = some (.reply p1 a 0 0) ∧ t.ctxs = s.ctxs)

theorem test_context_commands :
    recordedAs (.admitCtx p1 (ctxHdr 2 0 1)) .created (·.admitDue) = true ∧
    recordedAs (.invalidate p1 (ctxHdr 3 0 1) (BitVec.ofNat 96 (2 ^ 16 + 3 * 2 ^ 64))) .admitted (fun x => decide (x.invalidates = [(65536, 3)])) = true ∧
    recordedAs (.releasePlate p1 (ctxHdr 4 0 1) 31) .admitted (fun x => decide (x.plateReleases = [31])) = true ∧
    recordedAs (.teardown p1 (ctxHdr 5 0 1)) .created (·.teardownDue) = true ∧
    recordedAs (.teardown p1 (ctxHdr 5 0 1)) .ending (·.teardownDue) = true ∧
    recordedAs (.contextReset p1 (ctxHdr 6 0 1)) .admitted (·.resetDue) = true ∧
    recordedAs (.ackLate p1 (ctxHdr 7 0 1)) .admitted (·.ackDue) = true := by decide +kernel

theorem test_context_commands_refused :
    turned (.admitCtx p1 (ctxHdr 2 0 1)) (inCtxState .admitted) abState = true ∧
    turned (.invalidate p1 (ctxHdr 3 0 1) 0) (inCtxState .ending) abState = true ∧
    turned (.releasePlate p1 (ctxHdr 4 0 1) 30) (inCtxState .admitted) abRange = true ∧
    turned (.releasePlate p1 (ctxHdr 4 0 1) 31) (inCtxState .created) abState = true ∧
    turned (.teardown p1 (ctxHdr 5 0 1)) (inCtxState .orphaned) abState = true ∧
    turned (.contextReset p1 (ctxHdr 6 0 1)) (inCtxState .ending) abState = true ∧
    turned (.ackLate p1 (ctxHdr 7 0 1)) (inCtxState .ending) abState = true ∧
    turned (.teardown p1 (ctxHdr 5 0 1)) ((inCtxState .ending).modCtx 0 fun x => { x with deviceOwns := true }) abState = true := by
  decide +kernel

/-- A context of tenant 1; a stale generation; a context that does not exist. -/
theorem test_context_commands_foreign_and_stale :
    turned (.teardown p1 (ctxHdr 5 0 1)) ((inCtxState .admitted).modCtx 0 fun x => { x with tenant := 1 }) abForeign = true ∧
    got (.teardown p1 (ctxHdr 5 0 2)) (inCtxState .admitted) (fun t => decide (t.ctxs = (inCtxState .admitted).ctxs ∧ (t.ten 0).ignored = 1)) = true ∧
    got (.admitCtx p1 (ctxHdr 2 9 0)) (inCtxState .admitted) (fun t => decide ((t.ten 0).ignored = 1)) = true := by decide +kernel

theorem test_resets_are_requested :
    got (.warmResetRequest 7) base (fun t => decide (t.boot.warmReq = some 7)) = true ∧
    got (.warmResetRequest 7) { base with boot := { base.boot with warmReq := some 5 } } (fun t => decide (t.boot.warmReq = some 5)) = true ∧
    base.tenantOf b2 = some 3 ∧ got (.partitionRestart 2) base (fun t => (t.ten 3).resetReq && (t.ten 3).floorsHeld) = true ∧
    got (.tenantResetRequest p1 0 1) base (fun t => (t.ten 0).resetReq) = true ∧
    got (.tenantResetRequest .supervisor 0 1) base (fun t => decide (t.tenants = [] ∧ t.net.aborts = 1)) = true ∧
    got .coldResetRequest base (fun t => t.boot.coldReq) = true ∧
    got (.tenantResetRequest .supervisor 0 1) { base with net := { base.net with session := some ⟨.supervisor, 0, 0, 0, []⟩ } }
      (fun t => (t.ten 0).resetReq) = true := by decide +kernel

/-- A ticking device, as a reset request needs. -/
theorem wit_reset_request : base.boot.started = true ∧ base.frame.ticking = true ∧ base.served = true ∧ base.up = true ∧ base.awake = true := by
  decide +kernel

/-- A mailbox that is DONE, and a session of the function. -/
def sessionOf (v : Via) : Session := { endpoint := v, slot := 0, nonce := 0, digest := digestX }
def opened (v : Via) : State := keyed { base with net := { base.net with session := some (sessionOf v), can := [(1, { nmt := .operational })] } }
def mailDone : State := { (opened p1) with net := { (opened p1).net with func := [(1, { mbx := .done, vec := 3 })] } }

theorem test_function_level_reset :
    got (.functionLevelReset 0 1 false) mailDone (fun t => decide ((t.func 0 1).mbx = .idle ∧ (t.func 0 1).resetReq = true ∧
      t.net.session = none ∧ (t.ten 0).floorsHeld = true)) = true ∧
    got (.functionLevelReset 0 0 true) mailDone (fun t => decide ((t.func 0 1).blocked = true ∧ (t.func 0 0).blocked = false)) = true ∧
    got (.functionLevelReset 1 1 false) mailDone (fun t => decide ((t.func 0 1).mbx = .done ∧ t.net.session.isSome = true)) = true ∧
    flrCovers 0 false = List.range 16 ∧ flrCovers 3 false = [3] ∧ 1 ∈ flrCovers 0 true ∧ 0 ∉ flrCovers 0 true := by decide +kernel

/-! ### A signed bundle -/

/-- A bundle of one program of END alone (Table 8-1, Table 8-2), all but its signature; and the signature by key 12345, made outside the model. -/
def bundleBody : List Byte := leBytes 352 0xe00000000000000000000000000000000000000000000004000000120000000060000000000000080000000a0000000050000000000000020000000800000000100000000000000000000000000000000000000000000000000000000000000000000000000000000000000000000000500000003000001c0000000014a484442
def bundleSig : BitVec 768 := 0x17e526a23a64e35e4791838160ad62bb8191e91f88583ebed114b5d2d1d22d9b34d00ccce9f948b5542166a3c57923a4e49f7c85b49e88decbb84819aefc568dc66aa34cd4f74199262f1ad338e9e8eb532f800efc116959fee11a96b0814c6
def submitted : List Byte := bundleBody ++ leBytes 96 bundleSig.toNat
def isRej (r : Except Rej Bundle) (code : Nat) : Bool := match r with | .error e => decide (e.code = code) | .ok _ => false

theorem test_bundle_accepted : okOf (verify (keyed base) 0 submitted) = true := by decide +kernel

theorem test_bundle_kept :
    got (.bundleSubmit p1 submitted) (keyed base) (fun t => decide (t.copyFor 0 5 = some 0 ∧ t.copyFor 1 5 = none ∧ t.out = [.bundle p1 0])) = true := by
  decide +kernel

theorem test_bundle_rejected :
    isRej (verify (keyed base) 0 (bundleBody ++ List.replicate 96 1)) 0x0905 = true ∧ isRej (verify base 0 submitted) 0x0904 = true ∧
    isRej (verify base 0 (submitted.take 159)) 0x0902 = true ∧ isRej (verify base 0 [0x42, 0x44, 0x48, 0x4A]) 0x0901 = true ∧
    base.bellSender p1 = some 0 ∧ base.bellSender (.can 0 9) = none ∧
    got (.bundleSubmit p1 []) base (fun t => decide ((t.ten 0).lastRejection = 0x0901 ∧ t.bundles = [])) = true ∧
    got (.bundleSubmit (.can 0 9) submitted) base (fun t => decide (t = base)) = true := by decide +kernel

/-! ### Notifications, objects, datagrams -/

/-- The network up: both PCIe ports answering, CAN FD port 1 OPERATIONAL, Ethernet port 0 at 10.0.0.1. -/
def net0 : Net := { pcie := [(0, { answering := true }), (1, { answering := true })], can := [(1, { nmt := .operational })] }
def online : State := { withObj (withObj (withObj base 0x1E0001 0x0A000001) 0x506001 0) 0x503001 0 with net := net0 }
def lastReply (via : Via) (a n v : Nat) (t : State) : Bool := decide (t.out.getLast? = some (.reply via a n v))

/-- Function 1 of port 0 with message 31 pending. -/
def pending31 (f : Func → Func) : State :=
  { base with net := { func := [(1, f { pendingBits := [(31, true)], msixEnable := true, unmasked := [(31, true)] })] } }

theorem test_notification_paths :
    got (.msixUnmask 0 1 (.entry 31 false)) (pending31 fun x => { x with unmasked := [] }) (fun t =>
      decide (t.out = [.msix 0 1 31] ∧ tget false (t.func 0 1).pendingBits 31 = false)) = true ∧
    got (.msixUnmask 0 1 (.entry 31 false)) (pending31 fun x => { x with unmasked := [], blocked := true }) (fun t => decide (t.out = [])) = true ∧
    got (.msixUnmask 0 1 (.control true false)) (pending31 fun x => { x with msixEnable := false }) (fun t => decide (t.out = [.msix 0 1 31])) = true ∧
    got (.msixUnmask 0 1 (.control true true)) (pending31 id) (fun t => decide (t.out = [] ∧ tget false (t.func 0 1).pendingBits 31 = true)) = true ∧
    got (.msixUnmask 0 1 (.relaxed true)) (pending31 fun x => { x with msixMask := true }) (fun t =>
      decide ((t.func 0 1).relaxedOrdering = true ∧ t.out = [])) = true ∧
    (∀ w ∈ ([.entry 31 false, .control true true, .relaxed true] : List CfgWrite), cfgFits w 0 1 = true) ∧
    State.vecLimit (.pcie 0 1) = 32 ∧
    got (.burinPendingClear 2) { base with net := { parts := [(2, { pendingWord := 5 })] } } (fun t =>
      lastReply b2 0 8 5 t && decide ((t.part 2).pendingWord = 0)) = true ∧
    got (.notificationClear p1 0 4) (base.modTen 0 fun x => { x with notify := 6 }) (fun t => decide ((t.ten 0).notify = 2)) = true ∧
    got (.notificationClear .supervisor 7 1) base (fun t => lastReply .supervisor 0 0 0 t) = true := by decide +kernel

/-- 0x3104:01 takes a byte; 0x3102:01 is read-only; 0x3100:01 is provisioned. -/
def okRow (r : Except Nat ObjRow) (a : Acc) (n : Nat) : Bool := match r with | .ok r => decide (r.acc = a ∧ r.size = n) | .error _ => false

theorem test_object_writes :
    online.mySession p1 = none ∧ okRow (online.lookup p1 0x3104 1) .rwt 1 = true ∧ okRow (online.lookup p1 0x3102 1) .ro 4 = true ∧
    okRow (online.lookup .supervisor 0x3100 1) .rwp 4 = true ∧ okOf (online.lookup p1 0x3104 2) = false ∧
    got (.objectWrite p1 0 0x3104 1 1 1 3) online (fun t => lastReply p1 0 0 0 t && decide (t.rwt = [⟨0x310401, 1, 1⟩])) = true ∧
    got (.objectWrite p1 0 0x3104 1 1 1 4) online (fun t => lastReply p1 abState 0 0 t && decide (t.rwt = [] ∧ t.net.xferRefused = 1)) = true ∧
    got (.objectWrite p1 0 0x3104 1 2 1 0) online (lastReply p1 abLength 0 0) = true ∧
    got (.objectWrite p1 0 0x3102 1 4 1 0) online (lastReply p1 abReadOnly 0 0) = true ∧
    got (.objectWrite .supervisor 0 0x3100 1 4 1 0) online (lastReply .supervisor abNoSession 0 0) = true ∧
    got (.objectWrite p1 0 0x3104 2 1 1 0) online (fun t => decide (t.rwt = [])) = true := by decide +kernel

/-- An rwt object of a load-control channel; a write of a value out of its range; a write before READY. -/
theorem test_object_write_range_and_start_up :
    okRow (online.lookup p1 0x5060 0x0F) .rwt 1 = true ∧
    got (.objectWrite p1 0 0x5060 0x0F 1 1 0) online (fun t => lastReply p1 0 0 0 t && decide (t.val 0x5060 0x0F = 1)) = true ∧
    got (.objectWrite p1 0 0x5060 0x0F 1 256 0) online (lastReply p1 abRange 0 0) = true ∧
    got (.objectWrite p1 0 0x3104 1 1 1 0) { online with boot := { online.boot with dev := .starting } } (lastReply p1 abState 0 0) = true := by
  decide +kernel

/-- In this fallback state; a session of p1 is open. -/
def fallen (k : TickState) (s : State) : State := s.modFrame fun f => { f with tickState := k }
def sessional : State := { base with net := { base.net with session := some ⟨p1, 0, 0, 0, []⟩ } }

theorem test_resume_from_fallback :
    base.lockHeld = true ∧ base.mayWriteWide .supervisor 0x3002 = true ∧ base.mayWriteWide p1 0x3002 = false ∧ sessional.mayWriteWide p1 0x3002 = true ∧
    got (.resumeFromFallback .supervisor 1) (fallen .fallbackSafe base) (fun t => decide (t.rwt = [⟨0x300200, 1, 1⟩])) = true ∧
    got (.resumeFromFallback .supervisor 1) (fallen .fallbackHold base) (fun t => t.frame.resumeHold) = true ∧
    got (.resumeFromFallback .supervisor 1) base (fun t => decide (t.frame = base.frame ∧ t.rwt = [])) = true ∧
    got (.resumeFromFallback .supervisor 1) (ext0.modFrame fun f => { f with lock := .holdover }) (lastReply .supervisor abState 0 0) = true ∧
    got (.resumeFromFallback p1 1) (fallen .fallbackSafe base) (fun t => decide (t.rwt = [] ∧ t.net.aborts = 1)) = true ∧
    got (.resumeFromFallback p1 1) (fallen .fallbackSafe sessional) (fun t => decide (t.rwt.length = 1)) = true := by
  decide +kernel

/-- The keep table: context 0 of generation 1 with count 1 is 0x1_0001_...; an update that expects it. -/
def keepWord : Nat := (inCtxState .admitted).ctx 0 |>.keep.toNat
def keepOrder (expect : Nat) : BitVec 192 := BitVec.ofNat 192 (1 * 2 ^ 16 + expect * 2 ^ 64 + 2 * 2 ^ 128)

theorem test_control_writes :
    got (.rtcWrite .supervisor 99) online (fun t => decide (t.sec.rtc = 99 ∧ t.sec.rtcSet = true)) = true ∧
    got (.overrunLatchClear p1 0 1) online (fun t => decide (t.rwt = [⟨0x310401, 1, 1⟩])) = true ∧
    got (.faultClear p1 0 0 1) online (fun t => decide (t.rwt.length = 1)) = true ∧
    got (.positionRearm p1 0 0 1 true) online (fun t => (t.pos 0 0).cleared) = true ∧
    (inCtxState .admitted).keepStale 0 0 1 = false ∧ (inCtxState .admitted).keepMatch 0 0 (BitVec.ofNat 64 keepWord) = true ∧
    got (.keepUpdate p1 (keepOrder keepWord)) (inCtxState .admitted) (fun t => decide ((t.ctx 0).count = 2)) = true ∧
    got (.keepUpdate p1 (keepOrder 9)) (inCtxState .admitted) (lastReply p1 abKeep 0 0) = true := by decide +kernel

/-- A request header: TYPE, SEQ 9, INDEX, SUB, LENGTH. -/
def req (ty i sub len : Nat) : BitVec 256 := pranilHdr ty 9 i sub 0 len 0 0
def u9 : BitVec 16 := 5000
def ip9 : BitVec 32 := 0x0A000009
def lastGram (s : State) : Option (BitVec 256 × List Byte) := match s.out.getLast? with | some (.datagram _ _ _ _ _ h bs) => some (h, bs) | _ => none

/-- The answer carries the tag of the request. -/
theorem test_datagram_tag :
    got (.pranilRead ⟨0, some 5⟩ ip9 u9 (req 1 0x3104 3 0) [] 0) online (fun t => match t.out.getLast? with
      | some (.datagram _ tag ip udp src _ _) => decide (tag = some 5 ∧ ip = ip9 ∧ udp = u9 ∧ src = online.pranilPort)
      | _ => false) = true := by decide +kernel

theorem test_datagrams :
    online.viewOf e9 = .tenant 2 ∧ datagramOk (req 1 0x3104 3 0) [] = true ∧ hType (req 1 0x3104 3 0) = 1 ∧
    (online.eth 0).answers.find? (fun a => a.serves ip9 u9 (req 1 0x3104 3 0)) = none ∧
    got (.pranilRead ⟨0, none⟩ ip9 u9 (req 1 0x3104 3 0) [] 0) online (fun t =>
      decide (lastGram t = some (pranilHdr 0x10 9 0x3104 3 0 1 0 7, [0]) ∧ (t.eth 0).answers.length = 1)) = true ∧
    got (.pranilWrite ⟨0, none⟩ ip9 u9 (req 2 0x3104 3 1) [1] 0) online (fun t => decide (t.rwt = [⟨0x310403, 1, 1⟩])) = true ∧
    got (.pranilWrite ⟨0, none⟩ ip9 u9 (req 2 0x3102 3 4) [1, 0, 0, 0] 0) online (fun t =>
      decide (lastGram t = some (pranilHdr 0x11 9 0x3102 3 0 0 abReadOnly 7, []))) = true ∧
    got (.describe ⟨0, none⟩ ip9 u9 (req 3 0x3104 3 0) [] 0) online (fun t => decide ((lastGram t).map (·.2.length) = some 8)) = true ∧
    got (.pranilRead ⟨0, none⟩ ip9 u9 (req 1 0x3104 3 4) [] 0) online (fun t => decide (t = online)) = true := by decide +kernel

/-- A request seen before gets the kept answer and is not performed again. -/
def again : State := after [.pranilWrite ⟨0, none⟩ ip9 u9 (req 2 0x3104 3 1) [1] 0] online

theorem test_datagram_repeated :
    ((again.eth 0).answers.find? (fun a => a.serves ip9 u9 (req 2 0x3104 3 1))).isSome = true ∧
    got (.pranilWrite ⟨0, none⟩ ip9 u9 (req 2 0x3104 3 1) [1] 0) again (fun t => decide (t.rwt.length = 1 ∧ t.out.length = 2)) = true := by
  decide +kernel

def starting (s : State) : State := { s with boot := { s.boot with dev := .starting } }

theorem test_control_and_discover :
    got (.controlStart ⟨0, none⟩ ip9 u9 (req 4 0 0 1) [1] 0) online (fun t => (t.ten 2).started && decide ((t.ten 2).startUdp = u9)) = true ∧
    got (.controlStop ⟨0, none⟩ ip9 u9 (req 4 0 0 1) [2] 0) (online.modTen 2 fun x => { x with started := true }) (fun t => !(t.ten 2).started) = true ∧
    got (.controlStart ⟨0, none⟩ ip9 u9 (req 4 0 0 1) [1] 0) (starting online) (fun t => decide ((t.eth 0).latched = [(2, true, u9)] ∧ (t.ten 2).started = false)) = true ∧
    got (.controlStop ⟨0, none⟩ ip9 u9 (req 4 0 0 1) [2] 0) (starting online) (fun t => decide ((2, false, u9) ∈ (t.eth 0).latched)) = true ∧
    got (.discover ⟨0, none⟩ ip9 u9 (req 0x20 0 0 0) []) online (fun t => decide ((lastGram t).map (·.2.length) = some 32)) = true ∧
    got (.discover ⟨0, none⟩ ip9 u9 (req 0x20 0 0 0) []) { online with boot := { online.boot with gDone := false, dev := .starting } }
      (fun t => decide ((lastGram t).map (·.2.length) = some 32)) = true := by decide +kernel

/-! ### Maps, PDOs, services -/

/-- RX map 0: from 10.0.0.9, one entry 0x3104:03 of 1 byte, for tenant 2; TX map 0 captured. -/
def mapped : State :=
  let s := [(0x1E3001, 1), (0x1E3002, 0), (0x1E3003, 0x0A000009), (0x1E3008, 2), (0x1E3009, 1), (0x1E3010, 0x31040301)].foldl (fun s e => withObj s e.1 e.2) online
  (s.modTen 2 fun x => { x with started := true }).modMap 0 fun x => { x with captured := some [7], sendDue := true }
/-- The entry names a read-only object instead. -/
def badMapped : State := withObj mapped 0x1E3010 0x31020304

theorem test_cyclic_maps :
    got (.cyclicSend 0) mapped (fun t => decide ((lastGram t).map (·.2) = some [7] ∧ (t.map 0).sent = 1)) = true ∧
    mapped.mapRuns 16 = true ∧ okOf (match mapped.writeEntries (ownerView 2) (mapped.mapEntries 16) [1] with | some _ => .ok () | none => .error ()) = true ∧
    got (.rxCyclicReceive ⟨0, none⟩ ip9 u9 (req 0x30 0 0 1) [1]) mapped (fun t => decide ((t.map 16).accepted = 1 ∧ t.rwt = [⟨0x310403, 1, 1⟩])) = true ∧
    got (.rxCyclicReceive ⟨0, none⟩ ip9 u9 (req 0x30 0 0 2) [1, 1]) mapped (fun t => decide (t = mapped)) = true ∧
    (badMapped.writeEntries (ownerView 2) (badMapped.mapEntries 16) [1, 0, 0, 0]).isNone = true ∧
    got (.rxCyclicReceive ⟨0, none⟩ ip9 u9 (req 0x30 0 0 4) [1, 0, 0, 0]) badMapped (fun t => decide (t = badMapped)) = true := by decide +kernel

/-- CAN FD port 1: RPDO 0 writes 0x3104:02 for tenant 1; TPDO 0 of transmission type k sends 0x3104:02. -/
def pdo (k : Nat) : State :=
  [(0x1140001, 0x201), (0x1140007, 1), (0x1160001, 0x31040208), (0x1180001, 0x181), (0x1180002, k), (0x1180007, 1), (0x11A0001, 0x31040208)].foldl
    (fun s e => withObj s e.1 e.2) online
def badPdo : State := withObj (pdo 1) 0x1160001 0x31020220

theorem test_pdos :
    got (.rpdoReceive 1 0 [1]) (pdo 1) (fun t => decide (t.rwt = [⟨0x310402, 1, 1⟩] ∧ (t.can 1).rxCount = 1)) = true ∧
    got (.rpdoReceive 1 0 []) (pdo 1) (fun t => decide (t = pdo 1)) = true ∧
    (badPdo.writeEntries (ownerView 1) (badPdo.pdoEntries 1 0x1600) [1, 0, 0, 0]).isNone = true ∧
    got (.rpdoReceive 1 0 [1, 0, 0, 0]) badPdo (fun t => decide (t = badPdo)) = true ∧
    got (.syncReceive 1) (pdo 1) (fun t => decide (tget [] (t.can 1).captured 0 = [0] ∧ tget 0 (t.can 1).syncCount 0 = 0)) = true ∧
    got (.syncReceive 1) (pdo 2) (fun t => decide (tget [] (t.can 1).captured 0 = [] ∧ tget 0 (t.can 1).syncCount 0 = 1)) = true ∧
    got (.syncReceive 0) (pdo 1) (fun t => decide (t = pdo 1)) = true ∧
    (pdo 255).tpdoReady 1 0 = true ∧ got (.tpdoTransmit 1 0) (pdo 255) (fun t => decide (t.out = [.tpdo 1 0 [0]])) = true ∧
    got (.tpdoTransmit 1 0) (after [.syncReceive 1] (pdo 1)) (fun t => decide (t.out = [.tpdo 1 0 [0]] ∧ tget [] (t.can 1).captured 0 = [])) = true := by
  decide +kernel

theorem test_usdo :
    online.usdoOn 1 = true ∧ online.usdoOn 0 = false ∧
    got (.usdoTransfer 1 5 true 0x3104 2 [1] 0) online (fun t => lastReply n5 0 0 0 t && decide (t.rwt.length = 1)) = true ∧
    got (.usdoTransfer 1 5 false 0x3104 2 [] 0) online (lastReply n5 0 1 0) = true ∧
    got (.usdoTransfer 0 5 true 0x3104 2 [1] 0) online (fun t => decide (t = online)) = true ∧
    got (.usdoProtocolTimeout 1 5) online (lastReply n5 0x05040000 0 0) = true := by decide +kernel

theorem test_ip_services :
    online.address 0 = 0x0A000001 ∧ online.address 1 = 0 ∧
    online.ethOn = true ∧
    got (.icmpEcho ⟨0, some 3⟩ ip9 [1]) online (fun t => decide (t.out = [.icmpReply 0 (some 3) ip9 [1]])) = true ∧
    got (.arpRequest ⟨0, none⟩ ip9 0x0A000001) online (fun t => decide (t.out = [.arpReply 0 none ip9])) = true ∧
    got (.arpRequest ⟨0, none⟩ ip9 0x0A000002) online (fun t => decide (t.out = [])) = true ∧
    got (.dhcpv4Reply 1 7 8 9 true) online (fun t => decide (t.address 1 = 7 ∧ (t.eth 1).dhcpGateway = 9)) = true ∧
    got (.dhcpv4Reply 1 7 8 9 false) online (fun t => decide (t.address 1 = 0)) = true ∧
    got (.dhcpv4Reply 0 7 8 9 true) online (fun t => decide (t = online)) = true := by decide +kernel

/-- A path delay of 30 ns, measured by the peer's times; then a Sync 100 ns after its origin is 70 ns off. -/
def timed : State := after [.gptpSync 0 0 (.pdelayResp 0 1000 5020 5060 1100)] online

theorem test_gptp :
    (online.eth 0).pdelaySeq = 0 ∧ (timed.eth 0).pathDelay = 30 ∧ timed.out = [.pdelayReq 0 1] ∧
    got (.gptpSync 0 0 (.sync 500 none 600 true)) timed (fun t => decide ((t.eth 0).offset = 70 ∧ (t.eth 0).synced = true)) = true ∧
    got (.gptpSync 0 0 (.sync 0 (some 540) 600 false)) timed (fun t => decide ((t.eth 0).offset = 30 ∧ (t.eth 0).synced = false)) = true ∧
    got (.gptpSync 0 0 (.pdelayReq 9 4 77)) online (fun t => decide (t.out = [.pdelayResp 0 9 4 77])) = true ∧
    got (.gptpSync 0 0 (.pdelayResp 0 1 2 3 4)) timed (fun t => decide (t = timed)) = true ∧
    got (.gptpAnnounce 0 ⟨0, 4⟩) (after [.gptpAnnounce 0 ⟨0, 9⟩] online) (fun t => decide ((t.eth 0).grandmaster = some 4)) = true ∧
    got (.gptpAnnounce 0 ⟨0, 9⟩) (after [.gptpAnnounce 0 ⟨0, 4⟩] online) (fun t => decide ((t.eth 0).grandmaster = some 4)) = true ∧
    got (.gptpAnnounce 0 ⟨1, 9⟩) online (fun t => decide (t = online)) = true := by decide +kernel

/-- Grants and challenges of two endpoints, and a session of the first. -/
def linked (v : Via) : State :=
  { opened v with sec := { (opened v).sec with grants := [⟨v, .owner, 0, 0⟩, ⟨b2, .owner, 0, 0⟩], challenges := [⟨v, 1, .owner, 0, 0⟩, ⟨b2, 1, .owner, 0, 0⟩] } }
def cut (v : Via) : Bool := got (.endpointLinkLoss v) (linked v) fun t => decide (t.net.session = none ∧ t.sec.grants.length = 1 ∧ t.sec.challenges.length = 1)

theorem test_endpoint_links :
    cut p1 = true ∧ cut e9 = true ∧ cut n5 = true ∧
    got (.endpointLinkLoss (.pcie 1 1)) (linked p1) (fun t => decide (t.net.session.isSome = true ∧ t.sec.grants.length = 2)) = true ∧
    got (.phyLinkUp e9 1000) online (fun t => decide ((t.eth 0).speed = 1000 ∧ t.out = [.pdelayReq 0 1])) = true ∧
    got (.phyLinkUp (.pcie 1 0) 0) online (fun t => (tget {} t.net.pcie 1).linkUp) = true ∧
    got (.pcieConfigurationRequest 0 15) online (fun t => decide (t.out = [.config 0 15 true])) = true ∧
    got (.pcieConfigurationRequest 0 15) base (fun t => decide (t.out = [.config 0 15 false])) = true ∧
    got (.pcieConfigurationRequest 0 15) { online with boot := { online.boot with recovery := .rom } } (fun t => decide (t.out = [.config 0 15 false])) = true ∧
    got .pcieConfigurationReady base (fun t => (tget {} t.net.pcie 0).answering && (tget {} t.net.pcie 1).answering) = true := by decide +kernel

theorem test_mailbox :
    online.funcUp 0 1 = true ∧
    got (.mailboxGo 0 1 0x105 (req 1 0x3104 1 0) [] 0) online (fun t =>
      decide ((t.func 0 1).mbx = .done ∧ (t.func 0 1).rspData = [0] ∧ (t.func 0 1).vec = 0x105)) = true ∧
    got (.mailboxGo 0 1 0 (req 5 0 0 0) [] 0) online (fun t => decide ((t.func 0 1).mbx = .aborted ∧ t.out = [] ∧ fld (t.func 0 1).rspHdr 159 128 = 0x05040001)) = true ∧
    got (.mailboxGo 0 1 0 (req 1 0x3104 1 0) [] 0) (online.modFunc 0 1 fun x => { x with mbx := .done }) (fun t =>
      decide ((t.func 0 1).mbx = .done ∧ (t.func 0 1).rspData = [] ∧ (t.func 0 1).req = req 1 0x3104 1 0)) = true ∧
    got (.mailboxStatusClear 0 1 0x80000000) (online.modFunc 0 1 fun x => { x with mbx := .done }) (fun t => decide ((t.func 0 1).mbx = .idle)) = true ∧
    got (.mailboxStatusClear 0 1 1) (online.modFunc 0 1 fun x => { x with mbx := .done }) (fun t => decide ((t.func 0 1).mbx = .done)) = true ∧
    Via.calls .supervisor = true ∧ Via.calls b2 = true ∧
    got (.supervisorCall .supervisor (req 1 0x3104 8 0) [] 0) online (fun t => decide (t.out = [.callReply .supervisor (pranilHdr 0x10 9 0x3104 8 0 1 0 7) [0]])) = true ∧
    got (.supervisorCall b2 (req 1 0x3104 9 0) [] 0) online (fun t => decide (t.net.aborts = 1)) = true := by decide +kernel

theorem test_nmt :
    online.canOn 1 = true ∧ online.canOn 0 = false ∧ online.tenantOf n5 = some 1 ∧ online.tenantOf (.can 1 6) = none ∧
    got (.nmtStart 0 5) online (fun t => decide (t = online)) = true ∧
    got (.nmtStop 1 5) online (fun t => decide ((t.can 1).nmt = .stopped)) = true ∧
    got (.nmtEnterPreoperational 1 5) online (fun t => decide ((t.can 1).nmt = .preOperational)) = true ∧
    got (.nmtStart 1 5) (starting online) (fun t => decide ((t.can 1).latched = some .operational)) = true ∧
    got (.nmtResetCommunication 1 5) (withObj online 0x1E1002 9) (fun t => decide ((t.can 1).nmt = .preOperational ∧ t.out = [.bootUp 1])) = true ∧
    got (.nmtResetNode 1 5) (withObj online 0x1E1002 9) (fun t => decide ((t.ten 1).resetReq = true ∧ t.out = [.bootUp 1])) = true ∧
    got (.nmtResetNode 1 6) (withObj online 0x1E1002 9) (fun t => decide (t.tenants = [] ∧ t.out = [.bootUp 1])) = true := by decide +kernel

/-- Client 5 watched at place 8, its loss asking for its tenant's reset; a heartbeat of ours each 10 ms. -/
def watching (k : Nat) : State := withObj (withObj (withObj online 0x1101608 (5 * 65536 + 100)) 0x1101700 10) 0x1E1302 k

theorem test_heartbeats :
    (watching 1).watched 1 8 = 5 ∧ (watching 1).watched 1 7 = 0 ∧
    got (.heartbeatProduce 1) (watching 1) (fun t => decide (t.out = [.heartbeat 1 5])) = true ∧
    got (.heartbeatLoss 1 8) (watching 1) (fun t => decide ((t.ten 1).resetReq = true ∧ bit (t.can 1).errReg 4 = true)) = true ∧
    got (.heartbeatLoss 1 8) (watching 0) (fun t => decide (t.tenants = [])) = true ∧
    got (.heartbeatConsume 1 8 5) (after [.heartbeatLoss 1 8] (watching 0)) (fun t => decide (bit (t.can 1).errReg 4 = false ∧ (t.can 1).bad = false)) = true ∧
    got (.heartbeatConsume 1 8 5) (after [.heartbeatLoss 1 8, .busOffRecovered 1] (watching 0)) (fun t => decide (bit (t.can 1).errReg 4 = true ∧ (t.can 1).bad = true)) = true ∧
    got (.heartbeatConsume 1 7 5) (watching 1) (fun t => decide (t = watching 1)) = true ∧
    got (.busOffRecovered 1) online (fun t => decide ((t.can 1).busOff = true ∧ (t.can 1).nmt = .operational)) = true := by decide +kernel

/-! ### Sessions, keys, lifecycle -/

/-- Signatures by key 12345, made outside the model: over digestX, over challenge 1 for OWNER, and a waiver of G-image 0 with B-image 0. -/
def commitSig : BitVec 768 := 0x9d331e11d8eca046780c92a96f3c448407a265625da7dc2708ae0f115b015a53223e4819f7530f274cfeeeaea61fc86a4e49f7c85b49e88decbb84819aefc568dc66aa34cd4f74199262f1ad338e9e8eb532f800efc116959fee11a96b0814c6
def challengeSig : BitVec 768 := 0x1b71568caff8a96da83e460fce186f5b8ce4b074072f2794ac29f6cf358319dc44cb4be7d6f34b12c310d6cda14181924e49f7c85b49e88decbb84819aefc568dc66aa34cd4f74199262f1ad338e9e8eb532f800efc116959fee11a96b0814c6
def waiver1 : BitVec 1024 := 0x98c1df284f1a38f47d75dd43109c633644ef66a46a092d8600ead7d12766e188eaebf190d46e69dbb50867d5180e2f594e49f7c85b49e88decbb84819aefc568dc66aa34cd4f74199262f1ad338e9e8eb532f800efc116959fee11a96b0814c60000000000000000000000000000000000000000000001000000000000000011

def sessionIs (t : State) (p : Session → Bool) : Bool := match t.net.session with | some x => p x | none => false

theorem test_session_opens :
    got (.sessionOpen p1 0 7) (keyed base) (fun t => sessionIs t fun x => decide (x.endpoint = p1 ∧ x.digest = firstDigest 7 0 0 ∧ x.staged = [])) = true ∧
    turned (.sessionOpen p1 0 7) (opened p1) abSessionOpen = true := by decide +kernel

theorem test_session_stages :
    (objRow 0x3100 1).map (·.acc) = some .rwp ∧ ((objRow 0x3100 1).map fun r => (opened p1).stageCheck r 0x3100 1 4 5) = some 0 ∧
    got (.sessionStage p1 0 0x3100 1 4 5) (opened p1) (fun t => decide (t.obj = (opened p1).obj) && sessionIs t fun x => decide (x.staged = [(0x310001, 5)])) = true ∧
    turned (.sessionStage p1 0 0x3100 1 3 5) (opened p1) abLength = true ∧ turned (.sessionStage p1 0 0x3100 1 4 99719) (opened p1) abRange = true := by
  decide +kernel

theorem test_waiver_installs :
    (opened p1).mayStage 0x2103 4 waiver1.toNat = true ∧ (opened p1).waiverCheck waiver1.toNat = 0 ∧
    (opened p1).ownerKey (fld (waiver1 ||| BitVec.ofNat 1024 (2 ^ 80)) 81 80) = none ∧
    got (.waiverInstall p1 3 waiver1) (opened p1) (fun t => sessionIs t fun x => decide (x.staged = [(0x210304, waiver1.toNat)])) = true ∧
    turned (.waiverInstall p1 3 (waiver1 ||| BitVec.ofNat 1024 (2 ^ 80))) (opened p1) abSignature = true := by decide +kernel

theorem test_session_ends :
    got (.sessionClose p1 1) (opened p1) (fun t => decide (t.net.session = none)) = true ∧
    got (.sessionClose .supervisor 1) (opened p1) (fun t => t.net.session.isSome && lastReply .supervisor abState 0 0 t) = true ∧
    got .sessionTimeout (opened p1) (fun t => decide (t.net.session = none)) = true ∧ sameLink (.pcie 0 3) p1 = true ∧ 1 ∈ flrCovers 1 false := by decide +kernel

/-- A session that has staged this value of 0x3100:01 (the run budget of tenant 0). -/
def staged (v : Nat) : State := let s := opened p1; { s with net := { s.net with session := some { sessionOf p1 with staged := [(0x310001, v)] } } }

theorem test_commit_applies :
    sigVerify key0 (leBytes 48 digestX.toNat) commitSig = true ∧ (staged 5).commitBad 0 [(0x310001, 5)] = none ∧
    got (.sessionCommit p1 ⟨commitSig, none⟩) (staged 5) (fun t => decide (tget 0 t.obj 0x310001 = 5 ∧ t.eff = (staged 5).eff ∧ t.net.session = none)) = true := by
  decide +kernel

/-- Power is lost before the marker moves, and after it; then the next start-up. -/
theorem test_commit_cut :
    got (.sessionCommit p1 ⟨commitSig, some false⟩) (staged 5) (fun t => decide (t.stored = objs ∧ t.boot.store.torn = true ∧ t.boot.started = false)) = true ∧
    got (.sessionCommit p1 ⟨commitSig, some true⟩) (staged 5) (fun t => decide (tget 0 t.stored 0x310001 = 5 ∧ t.obj = t.stored)) = true ∧
    got .powerGood { State.reset with boot := { store := { copyA := objs, torn := true } } } (fun t =>
      decide (t.obj = objs ∧ t.boot.store.copyB = objs ∧ t.net.lastCommit = BitVec.ofNat 32 abGeneral)) = true := by
  decide +kernel

theorem test_commit_fails :
    (staged 99718).commitBad 0 [(0x310001, 99718)] = some (0x3100, 1) ∧
    got (.sessionCommit p1 ⟨commitSig, none⟩) (staged 99718) (fun t => decide (t.obj = (staged 99718).obj ∧ t.net.lastCommit = 0x0F0D0004 ∧ t.net.failObj = 0x31000100)) = true ∧
    got (.sessionCommit p1 ⟨sigX, none⟩) (staged 5) (fun t => decide (t.obj = (staged 5).obj ∧ t.net.session = none)) = true ∧
    got (.sessionCommit p1 ⟨sigX, none⟩) { staged 5 with sec := {} } (lastReply p1 abSignature 0 0) = true := by decide +kernel

/-- A device in this lifecycle state. -/
def inLife (s : State) (l : Life) : State := { s with sec := { s.sec with otp := { s.sec.otp with life := l } } }
def blank : State := inLife base .blank
def recovering (s : State) : State := { s with boot := { s.boot with dev := .recovery, recovery := .image, storeLost := true } }
def hashed : State := { base with sec := { otp := { life := .provisioned, slots := [(0, ⟨hash0, .active⟩)] } } }

theorem test_owner_key :
    keyOk key0 = true ∧ keyOk 4 = false ∧
    got (.ownerKeyWrite p1 key0) blank (fun t => decide (t.sec.otp.life = .provisioned ∧ tget {} t.sec.otp.slots 0 = ⟨hash0, .active⟩)) = true ∧
    got (.ownerKeyWrite p1 4) blank (lastReply p1 abRange 0 0) = true := by decide +kernel

theorem test_recovery_key :
    (recovering hashed).served = true ∧
    got (.recoveryKeyWrite p1 0 key0) (recovering hashed) (fun t => decide (tget 0 t.sec.keys 0 = key0 ∧ t.boot.recoveryKey = some 0)) = true ∧
    got (.recoveryKeyWrite p1 1 key0) (recovering hashed) (lastReply p1 abState 0 0) = true := by decide +kernel

def erasing (target : Life) (started : Bool) : State :=
  let s := keyed { base with mem := [(5, 5)], bundles := [bundleWith []] }
  { s with sec := { s.sec with erasing := true, otp := { s.sec.otp with target := some target } }, boot := { s.boot with started := started } }

theorem test_erasure_completes :
    got .lifecycleErasureComplete (erasing .fielded false) (fun t => decide (t.sec.otp.life = .fielded ∧ t.mem = [(5, 5)] ∧ t.boot.warmReq = some 10)) = true ∧
    got .lifecycleErasureComplete (erasing .recalled true) (fun t => decide (t.sec.otp.life = .recalled ∧ t.mem = [] ∧ t.sec.keys = [(0, key0)])) = true ∧
    got .lifecycleErasureComplete (erasing .scrapped true) (fun t => decide (t.sec.keys = [] ∧ (tget {} t.sec.otp.slots 0).state = .revoked ∧ t.obj = [])) = true := by
  decide +kernel

/-! ### Debug -/

/-- Challenge 1 for OWNER at p1, with this many failed responses. -/
def challenged (n : Nat) : State :=
  let s := keyed online
  { s with sec := { s.sec with challenges := [⟨p1, 1, .owner, 0, 0⟩], fails := n } }
def noChallenge (n : Nat) : State := { keyed online with sec := { (keyed online).sec with fails := n } }
def lockedOut : State := { online with sec := { online.sec with lockout := true, fails := 8 } }
def granted (l : Level) : State := { idle .impress with sec := { base.sec with grants := [⟨p1, l, 0, 0⟩, ⟨b2, .owner, 0, 0⟩] } }

theorem test_debug_request :
    got (.debugRequest p1 2 1) online (fun t => decide (t.sec.challenges = [⟨p1, 1, .owner, 0, 0⟩])) = true ∧
    got (.debugRequest p1 0 1) online (lastReply p1 abRange 0 0) = true ∧
    got (.debugRequest p1 3 1) online (lastReply p1 abState 0 0) = true ∧
    got (.debugRequest p1 2 1) lockedOut (lastReply p1 0x08000022 0 0) = true ∧ online.grantsFull p1 = false ∧
    { online with sec := { online.sec with grants := (List.range 8).map fun k => ⟨.can 0 (k + 1), .owner, 0, 0⟩ } }.grantsFull p1 = true := by
  decide +kernel

theorem test_debug_grant :
    (challenged 7).debugKey ⟨p1, 1, .owner, 0, 0⟩ 0 = some key0 ∧
    got (.debugResponse p1 challengeSig 0) (challenged 7) (fun t => decide (t.sec.grants = [⟨p1, .owner, 0, 0⟩] ∧ t.sec.fails = 0)) = true := by
  decide +kernel

theorem test_debug_failures_lock_out :
    got (.debugResponse p1 sigX 0) (challenged 7) (fun t => decide (t.sec.lockout = true ∧ t.sec.fails = 8 ∧ t.sec.grants = [])) = true ∧
    got (.debugResponse p1 sigX 0) (challenged 6) (fun t => decide (t.sec.lockout = false ∧ t.sec.fails = 7)) = true ∧
    got (.debugResponse p1 sigX 0) (noChallenge 7) (fun t => decide (t.sec.lockout = true)) = true ∧
    got (.debugResponse p1 sigX 0) lockedOut (lastReply p1 abState 0 0) = true ∧
    got .lockoutExpiry lockedOut (fun t => decide (t.sec.lockout = false ∧ t.sec.fails = 8)) = true := by decide +kernel

theorem test_debug_ends :
    got (.challengeExpiry p1) (challenged 0) (fun t => decide (t.sec.challenges = [])) = true ∧
    got (.relock p1 1) (granted .owner) (fun t => decide (t.sec.grants = [⟨b2, .owner, 0, 0⟩])) = true ∧
    got (.relock p1 0) (granted .owner) (fun t => decide (t.sec = (granted .owner).sec)) = true := by decide +kernel

theorem test_halt_and_resume :
    got (.halt p1 (BitVec.ofNat 32 (2 * 4096 + 9 * 65536))) (granted .tenant) (fun t => decide ((t.queue 0 2).haltAt = some 9)) = true ∧
    got (.halt p1 1) (granted .tenant) (lastReply p1 abRange 0 0) = true ∧ got (.halt p1 0) (granted .sealedLevel) (lastReply p1 abObject 0 0) = true ∧
    got (.resume p1 0x2000) (after [.halt p1 (BitVec.ofNat 32 (2 * 4096 + 9 * 65536))] (granted .tenant)) (fun t => decide ((t.queue 0 2).haltAt = none)) = true := by
  decide +kernel

/-- The window of p1 at this address, at the OWNER level. -/
def aimed (a : Nat) : State := let s := granted .owner; { s with sec := { s.sec with window := [(p1, BitVec.ofNat 64 a)] } }

/-- The block there is poisoned. -/
def poisonedAt (a : Nat) : State := { aimed a with poison := [a] }

theorem test_window :
    got (.windowAddress p1 0x30000) (granted .owner) (fun t => decide (t.windowAddr p1 = 0x30000)) = true ∧
    got (.windowAddress p1 0x30004) (granted .owner) (lastReply p1 abRange 0 0) = true ∧
    got (.windowAddress p1 0x30000) (granted .tenant) (lastReply p1 abObject 0 0) = true ∧
    (aimed 0x30000).window p1 = .mem ∧ inKeep 0x30000 = false ∧ (aimed 0x30000).poisoned 0x30000 8 = false ∧
    got (.windowDataWrite p1 0x0102030405060708) (aimed 0x30000) (fun t => decide (t.rd 0x30000 = 8 ∧ t.rd 0x30007 = 1 ∧ t.rd 0x30008 = 0)) = true ∧
    got (.windowDataRead p1) (aimed 0) (fun t => lastReply p1 0 8 (leNat ((aimed 0).rdN 0 8)) t) = true ∧
    (poisonedAt 0x30000).badUnits [] 0x30000 8 = [0x30000] ∧
    got (.windowDataRead p1) (poisonedAt 0x30000) (fun t => lastReply p1 abGeneral 0 0 t && decide (t.memStat.lastBad = 0x30000)) = true ∧
    got (.windowDataWrite p1 1) (poisonedAt 0x30000) (fun t => lastReply p1 abGeneral 0 0 t && decide (t.mem = tables)) = true ∧
    (aimed 0x7FFFFFFFFF8).window p1 = .unmapped ∧ got (.windowDataRead p1) (aimed 0x7FFFFFFFFF8) (lastReply p1 abGeneral 0 0) = true := by decide +kernel

theorem test_window_of_registers :
    (aimed 0xF0000000000).window p1 = .regs 0 ∧ got (.windowDataRead p1) (aimed 0xF0000000000) (fun t => decide (t.freeCtr = 1)) = true ∧
    (match exec (.windowDataWrite p1 0) (aimed 0xF0000000000) with | .refused .registerBlock => true | _ => false) = true := by decide +kernel

/-! ### Power states -/

def entering (p : PowerState) : State := { granted .owner with sec := { (granted .owner).sec with entering := some p } }
def dozing : State := { withObj base 0x224003 7 with sec := { base.sec with power := .doze } }
def inPower (p : PowerState) : State := { withObj base 0x224003 7 with sec := { base.sec with power := p } }

theorem test_power_down :
    got .powerDownComplete (entering .doze) (fun t => decide (t.sec.power = .doze ∧ t.frame.ticking = false ∧ (t.ctx 0).state = .free ∧ t.sec.grants.length = 2)) = true ∧
    got .powerDownComplete (entering .ember) (fun t => decide (t.sec.power = .ember ∧ t.mem = [] ∧ t.boot.started = false)) = true := by decide +kernel

def pinLevel (s : State) : Bool := decide (s.val 0x2240 5 = 1)
def frameOf (crc : Bool) : CanFrame := { ident := 0, data := 0, fd := false, crcOk := crc }

theorem test_wake_sources :
    dozing.wakeOn 0 = true ∧ dozing.wakeOn 1 = true ∧ dozing.wakeOn 2 = true ∧
    got (.wakeBall (pinLevel dozing)) dozing (fun t => decide (t.sec.waking = true ∧ t.sec.wakeWaiting = some 2)) = true ∧
    got (.wakeBall (!pinLevel dozing)) dozing (fun t => decide (t = dozing)) = true ∧
    got (.wakeBall (pinLevel dozing)) (inPower .run) (fun t => decide (t = inPower .run)) = true ∧
    got (.wakeBall (pinLevel dozing)) (inPower .ember) (fun t => decide (t.boot.pwrEn = true ∧ t.sec.wakeCause = 2)) = true ∧
    got (.wakeBall (pinLevel dozing)) { dozing with sec := { dozing.sec with power := .run, entering := some .doze } } (fun t => decide (t.sec.wakeWaiting = some 2)) = true ∧
    dozing.canMatches (frameOf true) = true ∧ got (.canWakeFrame (frameOf true)) dozing (fun t => decide (t.sec.wakeWaiting = some 3)) = true ∧
    got (.canWakeFrame (frameOf false)) dozing (fun t => decide (t = dozing)) = true ∧
    got (.canWakeFrame { frameOf true with rate := 501 }) dozing (fun t => decide (t = dozing)) = true ∧
    got .rtcAlarm (withObj dozing 0x22400A 77) (fun t => decide (t.sec.wakeWaiting = some 4 ∧ t.sec.rtc = 77)) = true ∧
    got .rtcAlarm (withObj (withObj dozing 0x22400A 77) 0x224003 0) (fun t => decide (t.sec.wakeWaiting = none ∧ t.sec.rtc = 77)) = true := by decide +kernel

theorem test_ember_supply :
    got .emberSupplyLoss base (fun t => !t.sec.emberSupply && !t.sec.rtcSet) = true ∧
    got .emberSupplyLoss (inPower .ember) (fun t => decide (t.sec.power = .off ∧ t.boot.pwrEn = false)) = true ∧
    got .emberSupplyRestore { base with sec := { base.sec with emberSupply := false } } (fun t => t.sec.emberSupply) = true ∧
    got (.wakeBall true) { dozing with sec := { dozing.sec with emberSupply := false } } (fun t => !t.sec.waking) = true := by decide +kernel

/-! ### Resets and start-up -/

def bootIs (f : Boot → Boot) : State := { base with boot := f base.boot, mem := [(5, 5)], ctxs := [(0, ctx0)] }

theorem test_power_good :
    got .powerGood State.reset (fun t => decide (t.boot.started = true ∧ t.boot.cause = 0 ∧ t.out = [.console 0] ∧ t.sec.boots = 1)) = true ∧
    got .powerGood { State.reset with boot := { sysclk := false } } (fun t => decide (t.boot.started = false ∧ t.boot.resetLow = false)) = true ∧
    got .sysclkStart { State.reset with boot := { sysclk := false, resetLow := false } } (fun t => t.boot.started) = true ∧
    got .sysclkStart base (fun t => decide (t = base)) = true ∧
    got .suppliesWithinLimits (bootIs fun b => { b with suppliesGood := false }) (fun t => t.boot.started) = true ∧
    got .suppliesWithinLimits (bootIs fun b => { b with suppliesGood := false, resetLow := true }) (fun t => t.boot.suppliesGood) = true := by decide +kernel

theorem test_reset_n_and_brownout :
    got .resetNAssert (bootIs id) (fun t => decide (t.mem = [] ∧ t.boot.resetLow = true ∧ t.boot.cause = 1 ∧ (t.ctx 0).state = .free ∧ t.sec.otp = base.sec.otp)) = true ∧
    got (.supplyBrownout 7) (bootIs id) (fun t => decide (t.mem = [] ∧ t.boot.suppliesGood = false ∧ t.boot.started = false)) = true ∧
    got (.supplyBrownout 0) (inPower .ember) (fun t => decide (t.boot.suppliesGood = false)) = true := by decide +kernel

/-- Page 0 stays tenant 0's; so memory at 5 stays through a warm start, and goes in a cold one. -/
theorem test_warm_start :
    warmStartDue (bootIs fun b => { b with warmDue := true }) = true ∧
    got .warmStart (bootIs fun b => { b with warmDue := true }) (fun t => decide (t.boot.warm = true ∧ t.boot.cause = 3 ∧ t.rd 5 = 5 ∧
      (t.ctx 0).state = .free ∧ (t.ctx 0).gen = 1)) = true ∧
    got .warmStart (bootIs fun b => { b with warmDue := true, coldReq := true }) (fun t => decide (t.boot.cause = 2 ∧ t.mem = [])) = true ∧
    got .warmStart { dozing with sec := { dozing.sec with waking := true, wakeWaiting := some 3 } } (fun t => decide (t.sec.power = .run ∧ t.sec.wakeCause = 3 ∧ t.boot.cause = 8)) = true ∧
    pageKept (bootIs id).eff (bootIs id).stored 5 = true := by decide +kernel

/-- In start-up with these steps done. -/
def startUp (f : Boot → Boot) : State := let s := keyed base; { s with boot := f { s.boot with dev := .starting } }
def image1 : Image := imageOf_ 1

theorem test_g_image_verify :
    (startUp fun b => { b with gDone := false }).startingUp = true ∧
    got (.gImageVerify (some image1) none) (startUp fun b => { b with gDone := false }) (fun t => decide (t.boot.gDone = true ∧ t.boot.gBank = 0)) = true ∧
    got (.gImageVerify none (some image1)) (startUp fun b => { b with gDone := false }) (fun t => decide (t.boot.gBank = 1)) = true ∧
    got (.gImageVerify none none) (startUp fun b => { b with gDone := false }) (fun t => decide (t.boot.dev = .recovery ∧ t.boot.recovery = .rom ∧ (t.gauge 0).hiZ = true)) = true := by
  decide +kernel

theorem test_gauge_and_training :
    got .gaugeDiesWritten (startUp fun b => { b with gaugeDone := false }) (fun t => decide (t.boot.gaugeDone = true ∧ (t.gauge 1).hiZ = false ∧ (t.output 1 19).actSafe = true)) = true ∧
    matching 0xFFFF ((List.range 12).map fun k => (k, 8)) = 0x0FFF ∧
    got (.lpddr5xTrainingComplete 0xFFFF ((List.range 12).map fun k => (k, 8)) 8533) (startUp fun b => { b with memDone := false }) (fun t => t.boot.memDone) = true ∧
    got (.lpddr5xTrainingComplete 0xFFF7 ((List.range 12).map fun k => (k, 8)) 8533) (startUp fun b => { b with memDone := false }) (fun t => decide (t.boot.dev = .recovery)) = true := by
  decide +kernel

theorem test_image_check :
    got (.imageCheck (some image1) none none (some image1) false) (startUp fun b => { b with imagesDone := false }) (fun t =>
      decide (t.boot.imagesDone = true ∧ t.boot.bBank = 0 ∧ t.boot.nBank = 1)) = true ∧
    got (.imageCheck (some image1) none none none false) (startUp fun b => { b with imagesDone := false }) (fun t => decide (t.boot.dev = .recovery ∧ t.boot.recovery = .image)) = true ∧
    got (.imageCheck (some image1) none none (some image1) true) (startUp fun b => { b with imagesDone := false }) (fun t => decide (t.boot.storeLost = true ∧ t.obj = [])) = true ∧
    (startUp fun b => { b with burnishDone := false }).startingUp = true ∧ (startUp fun b => { b with burnishDone := false }).boot.memDone = true ∧
    ((startUp fun b => { b with burnishDone := false }).plate 31).slope = none := by decide +kernel

/-- Slot 0 is ACTIVE for another key: the key the store holds verifies nothing. -/
def wrongKey : State :=
  let s := startUp fun b => { b with imagesDone := false }
  { s with sec := { s.sec with otp := { s.sec.otp with slots := [(0, ⟨0, .active⟩)] } } }

theorem test_keys_are_checked :
    (startUp id).ownerKey 0 = some key0 ∧
    got (.imageCheck (some image1) none none (some image1) false) wrongKey (fun t => decide (t.boot.imagesDone = true ∧ t.ownerKey 0 = none)) = true := by
  decide +kernel

/-- No Field die to boot; the pair of B-image and G-image untested, with and without a waiver that names it. -/
def noFields (s : State) : State := (List.range 4).foldl (fun s m => withObj s (0x600101 + 256 * m) 8) s
def settledUp : State := noFields (startUp id)
def untested : State := { settledUp with boot := { settledUp.boot with gImg := some ⟨1, true, [0xC2], [⟨3, 1⟩]⟩, bImg := some ⟨1, true, [0xC2], [⟨3, 1⟩]⟩ } }
def waived : State :=
  let s := withObj untested 0x210301 (1 + 2 * 2 ^ 3 + 2 ^ 8 + 2 ^ 40 + 2 ^ 72)
  { s with sec := { s.sec with waiverBoots := [(0, 1)] } }

theorem test_dictionary_ready :
    readyDue settledUp = true ∧ settledUp.untestedPairs = [] ∧ untested.untestedPairs.length = 1 ∧ readyDue untested = true ∧ readyDue waived = true ∧
    got .dictionaryReady settledUp (fun t => decide (t.boot.dev = .ready)) = true ∧
    got .dictionaryReady untested (fun t => decide (t.boot.dev = .limp ∧ t.boot.untested = 1)) = true ∧
    got .dictionaryReady waived (fun t => decide (t.boot.dev = .waived ∧ tget 0 t.sec.waiverBoots 0 = 0)) = true := by decide +kernel

/-! ### Recovery -/

def recHdr (op image off len crc : Nat) : RecoveryHeader := BitVec.ofNat 128 (op + image * 2 ^ 8 + off * 2 ^ 32 + len * 2 ^ 64 + crc * 2 ^ 96)
def nine : List Byte := [0x31, 0x32, 0x33, 0x34, 0x35, 0x36, 0x37, 0x38, 0x39]
def inRecovery : State := recovering (keyed base)
def resultIs (c : Instr) (n : Nat) : Bool := got c inRecovery fun t => decide (t.out = [.recovery n] ∧ t.boot.recResult = n)

theorem test_recovery_form :
    got (.recoveryErase (recHdr 1 2 0 0 0) false) base (fun t => decide (t = base)) = true ∧
    got (.recoveryErase (recHdr 1 2 0 0 0) true) inRecovery (fun t => decide (t.out = [.recovery 6])) = true ∧
    resultIs (.recoveryErase (recHdr (1 + 2 ^ 11) 2 0 0 0) false) 7 = true ∧
    resultIs (.recoveryStatus (recHdr 4 0 0 0 0) false) 0 = true := by decide +kernel

theorem test_recovery_writes :
    resultIs (.recoveryErase (recHdr 1 3 0 0 0) false) 0 = true ∧
    resultIs (.recoveryWrite (recHdr 2 1 4096 9 0xE3069283) nine false) 0 = true ∧
    resultIs (.recoveryWrite (recHdr 2 1 4096 9 0xE3069282) nine false) 1 = true ∧
    resultIs (.recoveryWrite (recHdr 2 1 4095 9 0xE3069283) nine false) 2 = true ∧
    got (.recoveryWrite (recHdr 2 1 0x7FF000 9 0xE3069283) nine false) inRecovery (fun t =>
      decide (tgetRun 0xFF (tget [] t.boot.unusedBank 1) 0x7FF000 9 = nine ∧ tget 0xFF (tget [] t.boot.unusedBank 1) 0x7FF009 = 0xFF)) = true := by decide +kernel

/-- The OTP asks for at least version 1 of the N-image. -/
def least1 : State := { inRecovery with sec := { inRecovery.sec with otp := { inRecovery.sec.otp with minN := 1 } } }

theorem test_recovery_commit :
    resultIs (.recoveryCommit (recHdr 3 1 0 0 0) none false) 3 = true ∧ resultIs (.recoveryCommit (recHdr 3 1 0 0 0) (some { image1 with sigOk := false }) false) 3 = true ∧
    resultIs (.recoveryCommit (recHdr 3 1 0 0 0) (some { image1 with steppings := [] }) false) 5 = true ∧
    resultIs (.recoveryCommit (recHdr 3 3 0 0 0) (some { image1 with steppings := [] }) false) 0 = true ∧
    got (.recoveryCommit (recHdr 3 3 0 0 0) (some image1) false) least1 (fun t => decide (t.boot.recResult = 4)) = true ∧
    got (.recoveryRestart (recHdr 5 0 0 0 0) false) inRecovery (fun t => decide (t.boot.dev = .starting ∧ t.boot.cause = 1)) = true := by decide +kernel

/-! ### Ill-formed commands -/

def g0 : GaugeIn := ⟨[], []⟩
def flit0 : Flit := ⟨0, List.replicate 256 0, 0⟩
def demand0 : Demand := ⟨0, 0, [], [], 0⟩
def passes (j : Nat) : List (Tab Int) := List.replicate 7 [] ++ [[(j, 0)]]

/-- Well-formed with every operand at its greatest value, ill-formed with any one of them one above. -/
def edge (bounds : List Nat) (f : (Nat → Nat) → Instr) : Bool :=
  (f fun k => bounds.getD k 1 - 1).wf &&
    (List.range bounds.length).all fun j => !(f fun k => if k = j then bounds.getD k 1 else bounds.getD k 1 - 1).wf

theorem test_edges_1 : ∀ f ∈ ([fun a => .hatch (a 0) (a 1) [],
    fun a => .stipple (a 0) (a 1) [],
    fun a => .etch (a 0) (a 1) [],
    fun a => .load (a 0) (a 1) [],
    fun a => .swap (a 0) (a 1),
    fun a => .moveInk (a 0) (a 1) [],
    fun a => .moveDataMover (a 0) (a 1) [],
    fun a => .toneDrain (a 0) (a 1) [] 0,
    fun a => .toneScale (a 0) (a 1) [] 0,
    fun a => .toneAdd (a 0) (a 1) [] 0,
    fun a => .toneSub (a 0) (a 1) [] 0,
    fun a => .toneClamp (a 0) (a 1) [] 0,
    fun a => .toneCmp (a 0) (a 1) [] 0,
    fun a => .toneTable (a 0) (a 1) [] 0,
    fun a => .toneConvert (a 0) (a 1) [] 0,
    fun a => .reduceColumnSum (a 0) (a 1) [] 0,
    fun a => .reduceRowSum (a 0) (a 1) [] 0,
    fun a => .reduceColumnMax (a 0) (a 1) [] 0,
    fun a => .reduceRowMax (a 0) (a 1) [] 0,
    fun a => .reduceSumlist (a 0) (a 1) [] 0,
    fun a => .sample (a 0) (a 1) [],
    fun a => .actuate (a 0) (a 1) 0 [],
    fun a => .waitCount (a 0) (a 1),
    fun a => .waitDrain (a 0) (a 1),
    fun a => .waitBoth (a 0) (a 1)] : List ((Nat → Nat) → Instr)), edge [4096, 8] f = true := by decide +kernel

theorem test_edges_2 : ∀ f ∈ ([fun a => .waitSatisfied (a 0) (a 1),
    fun a => .signalCounter (a 0) (a 1),
    fun a => .signalEvent (a 0) (a 1),
    fun a => .signalFence (a 0) (a 1),
    fun a => .signalFlush (a 0) (a 1),
    fun a => .patchSet (a 0) (a 1),
    fun a => .patchAdd (a 0) (a 1),
    fun a => .patchCopy (a 0) (a 1),
    fun a => .patchAddreg (a 0) (a 1),
    fun a => .patchLoad (a 0) (a 1) [],
    fun a => .patchStore (a 0) (a 1),
    fun a => .endEntry (a 0) (a 1),
    fun a => .ext (a 0) (a 1) [],
    fun a => .entryStart (a 0) (a 1),
    fun a => .marginEntryStart (a 0) (a 1),
    fun a => .fenceComplete (a 0) (a 1),
    fun a => .flushReadCompletion (a 0) (a 1) false,
    fun a => .completionTimeout (a 0) (a 1)] : List ((Nat → Nat) → Instr)), edge [4096, 8] f = true := by decide +kernel

theorem test_edges_3 : ∀ f ∈ ([fun a => .rebiteComplete (a 0) false [],
    fun a => .syncReceive (a 0),
    fun a => .heartbeatProduce (a 0),
    fun a => .heartbeatLoss (a 0) 1,
    fun a => .waiverInstall .supervisor (a 0) 0,
    fun a => .configurationLoadComplete (a 0) false,
    fun a => .releaseStage1 (a 0),
    fun a => .releaseStage2 (a 0),
    fun a => .releaseStage3 (a 0),
    fun a => .configurationScrub (a 0) .clean,
    fun a => .busOffRecovered (a 0),
    fun a => .heartbeatConsume (a 0) 1 0] : List ((Nat → Nat) → Instr)), edge [4] f = true := by decide +kernel

theorem test_edges_4 : ∀ f ∈ ([fun a => .pranilRead ⟨a 0, none⟩ 0 0 0 [] 0,
    fun a => .pranilWrite ⟨a 0, none⟩ 0 0 0 [] 0,
    fun a => .describe ⟨a 0, none⟩ 0 0 0 [] 0,
    fun a => .controlStart ⟨a 0, none⟩ 0 0 0 [] 0,
    fun a => .controlStop ⟨a 0, none⟩ 0 0 0 [] 0,
    fun a => .discover ⟨a 0, none⟩ 0 0 0 [],
    fun a => .rxCyclicReceive ⟨a 0, none⟩ 0 0 0 [],
    fun a => .icmpEcho ⟨a 0, none⟩ 0 [],
    fun a => .gptpSync (a 0) 0 (.pdelayReq 0 0 0),
    fun a => .arpRequest ⟨a 0, none⟩ 0 0,
    fun a => .dhcpv4Reply (a 0) 0 0 0 false,
    fun a => .gptpAnnounce (a 0) ⟨0, 0⟩] : List ((Nat → Nat) → Instr)), edge [2] f = true := by decide +kernel

theorem test_edges_5 : ∀ f ∈ ([fun a => .etchWriteOut (a 0) (a 1) (a 2),
    fun a => .loadComplete (a 0) (a 1) (a 2) [],
    fun a => .swapTakeEffect (a 0) (a 1) (a 2),
    fun a => .operandFetchComplete (a 0) (a 1) ⟨a 2, 0⟩ [],
    fun a => .claimGranted (a 0) (a 1) (a 2),
    fun a => .tileDrain (a 0) (a 1) (a 2) .ok,
    fun a => .stippleComplete (a 0) (a 1) (a 2) .ok [],
    fun a => .macroComplete (a 0) (a 1) (a 2)] : List ((Nat → Nat) → Instr)), edge [4096, 8, 4096] f = true := by decide +kernel

theorem test_edges_6 : ∀ f ∈ ([fun a => .reservationEnd (a 0),
    fun a => .tenantResetRequest .supervisor (a 0) 0,
    fun a => .partitionRestart (a 0),
    fun a => .burinPendingClear (a 0),
    fun a => .notificationClear .supervisor (a 0) 0,
    fun a => .overrunLatchClear .supervisor (a 0) 0,
    fun a => .supplyBrownout (a 0)] : List ((Nat → Nat) → Instr)), edge [8] f = true := by decide +kernel

theorem test_edges_7 : ∀ f ∈ ([fun a => .nmtStart (a 0) (a 1),
    fun a => .nmtStop (a 0) (a 1),
    fun a => .nmtEnterPreoperational (a 0) (a 1),
    fun a => .nmtResetCommunication (a 0) (a 1),
    fun a => .nmtResetNode (a 0) (a 1),
    fun a => .usdoProtocolTimeout (a 0) (a 1)] : List ((Nat → Nat) → Instr)), edge [4, 128] f = true := by decide +kernel

theorem test_edges_8 : ∀ f ∈ ([fun a => .loadPeriodStart (a 0) (a 1),
    fun a => .loadTurnOff (a 0) (a 1),
    fun a => .overcurrentDetect (a 0) (a 1) 0,
    fun a => .onStateDiagnosis (a 0) (a 1) 0,
    fun a => .probeDiagnosis (a 0) (a 1) 0,
    fun a => .faultClear .supervisor (a 0) (a 1) 0] : List ((Nat → Nat) → Instr)), edge [2, 8] f = true := by decide +kernel

theorem test_edges_9 : ∀ f ∈ ([fun a => .extDone (a 0) (a 1) 0 [],
    fun a => .extTimeout (a 0) (a 1),
    fun a => .extAbortAck (a 0) ⟨a 1, []⟩,
    fun a => .extHung (a 0) (a 1),
    fun a => .bitstreamCopyComplete (a 0) (a 1) bitstream0] : List ((Nat → Nat) → Instr)), edge [4, 8] f = true := by decide +kernel

theorem test_edges_10 : ∀ f ∈ ([fun a => .functionLevelReset (a 0) (a 1) false,
    fun a => .mailboxGo (a 0) (a 1) 0 0 [] 0,
    fun a => .mailboxStatusClear (a 0) (a 1) 0,
    fun a => .pcieConfigurationRequest (a 0) (a 1)] : List ((Nat → Nat) → Instr)), edge [2, 16] f = true := by decide +kernel

theorem test_edges_11 : ∀ f ∈ ([fun a => .rpdoReceive (a 0) (a 1) [],
    fun a => .tpdoTransmit (a 0) (a 1),
    fun a => .serialLaneLocked (a 0) (a 1) 0,
    fun a => .serialLaneUnlocked (a 0) (a 1)] : List ((Nat → Nat) → Instr)), edge [4, 16] f = true := by decide +kernel

theorem test_edges_12 : ∀ f ∈ ([fun a => .encoderEdge (a 0) (a 1) false,
    fun a => .encoderIndex (a 0) (a 1),
    fun a => .positionError (a 0) (a 1),
    fun a => .positionRearm .supervisor (a 0) (a 1) 0 false] : List ((Nat → Nat) → Instr)), edge [2, 4] f = true := by decide +kernel

theorem test_edges_13 : ∀ f ∈ ([fun a => .railMeasurementUpdate (a 0) 0 false,
    fun a => .droopDetect (a 0),
    fun a => .droopRecover (a 0),
    fun a => .overTemperature (a 0)] : List ((Nat → Nat) → Instr)), edge [20] f = true := by decide +kernel

theorem test_edges_14 :
    edge [32] (fun a => .burnishDue (a 0) false) = true ∧
    edge [32] (fun a => .burnishStep (a 0) (passes 0)) = true ∧
    edge [32] (fun a => .plateOverdue (a 0)) = true ∧
    edge [4, 1024] (fun a => .fifoWrite (a 0) (a 1) 0 0) = true ∧
    edge [4, 1024] (fun a => .fifoRead (a 0) (a 1) 0) = true ∧
    edge [4, 1024] (fun a => .collarClear (a 0) (a 1)) = true ∧
    edge [4096] (fun a => .heldRecordWrite (a 0)) = true ∧
    edge [4096] (fun a => .keepCas .supervisor (a 0) 0 0) = true ∧
    edge [4, 65536, 256, 256] (fun a => .objectWrite .supervisor (a 0) (a 1) (a 2) 1 (a 3) 0) = true ∧
    edge [4, 65536, 256, 256] (fun a => .sessionStage .supervisor (a 0) (a 1) (a 2) 1 (a 3)) = true ∧
    edge [3] (fun a => .sessionOpen .supervisor (a 0) 0) = true ∧
    edge [3] (fun a => .recoveryKeyWrite .supervisor (a 0) 0) = true ∧
    edge [2, 12] (fun a => .carrierPeriodStart (a 0) (a 1)) = true ∧
    edge [2, 12] (fun a => .pwmPulseEdge (a 0) (a 1)) = true ∧
    edge [24, 2] (fun a => .flitReceive (a 0) (a 1) ⟨flit0, none⟩ 0) = true ∧
    edge [24] (fun a => .retrainComplete (a 0) 0 0 false 0) = true ∧
    edge [50] (fun a => .arbitrationWindow (a 0) demand0) = true ∧
    edge [2, 0x2000000] (fun a => .stockScrub (a 0) (a 1) .clean false) = true ∧
    edge [32, 2, 1024] (fun a => .bankScrub (a 0) (a 1) (a 2) false) = true ∧
    edge [4096, 8, 4096, 32] (fun a => .passComplete (a 0) (a 1) (a 2) (a 3) [] 0 0) = true := by decide +kernel

theorem test_edges_15 :
    edge [2, 16, 2048] (fun a => .msixUnmask (a 0) (a 1) (.entry (a 2) false)) = true ∧
    edge [16] (fun a => .cyclicSend (a 0)) = true ∧
    edge [4, 128, 65536, 256] (fun a => .usdoTransfer (a 0) (a 1) false (a 2) (a 3) [] 0) = true ∧
    edge [4, 1024, 8192] (fun a => .wellBusAccess (a 0) (a 1) (a 2) false 0 none false) = true ∧
    edge [4, 96] (fun a => .tapLoad (a 0) (a 1) false 0) = true := by decide +kernel

/-- Every endpoint out of its range, and the last one within it. -/
theorem test_endpoints :
    (∀ v ∈ ([.pcie 2 0, .pcie 0 16, .can 4 1, .can 0 0, .can 0 128, .eth 2 0 0, .burin 8] : List Via), viaOk v = false) ∧
    (∀ v ∈ ([.supervisor, .pcie 1 15, .can 3 127, .eth 1 0 0, .burin 7] : List Via), viaOk v = true) := by decide

/-- An endpoint out of range makes the command ill-formed. -/
theorem test_ill_formed_endpoint_1 :
    ∀ i ∈ ([.resumeFromFallback (.can 4 1) 0,
      .doorbellQueue (.can 4 1) 0,
      .doorbellConsumer (.can 4 1) 0,
      .keepCas (.can 4 1) 0 0 0,
      .keepUpdate (.can 4 1) 0,
      .create (.can 4 1) 0 0,
      .admitCtx (.can 4 1) 0,
      .invalidate (.can 4 1) 0 0,
      .releasePlate (.can 4 1) 0 0,
      .teardown (.can 4 1) 0,
      .contextReset (.can 4 1) 0,
      .ackLate (.can 4 1) 0,
      .bundleSubmit (.can 4 1) [],
      .tenantResetRequest (.can 4 1) 0 0,
      .notificationClear (.can 4 1) 0 0,
      .overrunLatchClear (.can 4 1) 0 0,
      .objectWrite (.can 4 1) 0 0 0 1 0 0,
      .supervisorCall (.can 4 1) 0 [] 0,
      .sessionOpen (.can 4 1) 0 0,
      .sessionStage (.can 4 1) 0 0 0 1 0,
      .sessionCommit (.can 4 1) ⟨0, none⟩,
      .sessionClose (.can 4 1) 0,
      .waiverInstall (.can 4 1) 0 0,
      .positionRearm (.can 4 1) 0 0 0 false,
      .faultClear (.can 4 1) 0 0 0,
      .ownerKeyWrite (.can 4 1) 0,
      .debugRequest (.can 4 1) 0 0,
      .debugResponse (.can 4 1) 0 0,
      .challengeExpiry (.can 4 1),
      .relock (.can 4 1) 0] : List Instr), i.wf = false := by decide +kernel

/-- An endpoint out of range makes the command ill-formed. -/
theorem test_ill_formed_endpoint_2 :
    ∀ i ∈ ([.halt (.can 4 1) 0,
      .resume (.can 4 1) 0,
      .windowAddress (.can 4 1) 0,
      .windowDataRead (.can 4 1),
      .windowDataWrite (.can 4 1) 0,
      .rtcWrite (.can 4 1) 0,
      .recoveryKeyWrite (.can 4 1) 0 0,
      .endpointLinkLoss (.can 4 1),
      .phyLinkUp (.can 4 1) 0] : List Instr), i.wf = false := by decide +kernel

theorem test_bytes (n : Nat) : bytesOk (List.replicate n 0) = decide (n < 65536) := by simp [bytesOk]

theorem test_payload_decides (l : List Byte) :
    Instr.wf (.extDone 0 0 0 l) = bytesOk l ∧
    Instr.wf (.extAbortAck 0 ⟨0, l⟩) = bytesOk l ∧
    Instr.wf (.pranilRead ⟨0, none⟩ 0 0 0 l 0) = bytesOk l ∧
    Instr.wf (.pranilWrite ⟨0, none⟩ 0 0 0 l 0) = bytesOk l ∧
    Instr.wf (.describe ⟨0, none⟩ 0 0 0 l 0) = bytesOk l ∧
    Instr.wf (.controlStart ⟨0, none⟩ 0 0 0 l 0) = bytesOk l ∧
    Instr.wf (.controlStop ⟨0, none⟩ 0 0 0 l 0) = bytesOk l ∧
    Instr.wf (.discover ⟨0, none⟩ 0 0 0 l) = bytesOk l ∧
    Instr.wf (.rxCyclicReceive ⟨0, none⟩ 0 0 0 l) = bytesOk l ∧
    Instr.wf (.icmpEcho ⟨0, none⟩ 0 l) = bytesOk l ∧
    Instr.wf (.mailboxGo 0 0 0 0 l 0) = bytesOk l ∧
    Instr.wf (.supervisorCall .supervisor 0 l 0) = bytesOk l ∧
    Instr.wf (.usdoTransfer 0 0 false 0 0 l 0) = bytesOk l ∧
    Instr.wf (.rpdoReceive 0 0 l) = bytesOk l ∧
    Instr.wf (.recoveryWrite 0 l false) = bytesOk l := by
  refine ⟨rfl, rfl, rfl, rfl, rfl, rfl, rfl, rfl, rfl, rfl, rfl, rfl, rfl, rfl, rfl⟩

theorem test_ill_formed_tables :
    (∀ i ∈ ([.tick ⟨[(16, 0)], []⟩ g0, .tick g0 ⟨[], [(4, 0)]⟩, .holdTickRestart ⟨[], [(4, 0)]⟩ g0, .holdTickRestart g0 ⟨[(16, 0)], []⟩,
      .firstTick ⟨[(16, 0)], []⟩ g0, .firstTick g0 ⟨[], [(4, 0)]⟩, .guardStart [(32, 0)] 0 0, .passComplete 0 0 0 0 [(1024, 0)] 0 0,
      .burnishStep 0 (passes 1026), .burnishStep 0 [], .lpddr5xTrainingComplete 0 [(12, 0)] 0,
      .startUpBurnishComplete [(32, {})] [], .startUpBurnishComplete [(0, { cal := [(1026, 0)] })] [], .startUpBurnishComplete [] [(32, 0)],
      .arbitrationWindow 0 { demand0 with imp := [(9, 0)] }, .arbitrationWindow 0 { demand0 with mar := [(9, 0)] },
      .flitReceive 0 0 ⟨{ flit0 with payload := [] }, none⟩ 0, .flitReceive 0 0 ⟨flit0, some { flit0 with payload := [] }⟩ 0, .heartbeatLoss 0 0, .heartbeatLoss 0 9,
      .heartbeatConsume 0 0 0, .heartbeatConsume 0 9 0] : List Instr), i.wf = false) ∧
    (∀ i ∈ ([.tick ⟨[(15, 0)], [(3, 0)]⟩ g0, .guardStart [(31, 0)] 0 0, .burnishStep 0 (passes 1025),
      .arbitrationWindow 0 { demand0 with imp := [(8, 0)], mar := [(8, 0)] }, .flitReceive 0 0 ⟨flit0, some flit0⟩ 0, .heartbeatLoss 3 8] : List Instr), i.wf = true) := by decide +kernel

/-- The table gives its rows no bits: no word spells a command. -/
theorem test_no_word_spells_a_command (n w : Nat) : decodeTableWord n w = none ∧ State.reset.withFetchWord n w = State.reset := by
  simp [decodeTableWord, State.withFetchWord]
end Sys2Proof.Tests
end

section
/-!
LinksAcceptAndRetrain (R6, R10 to R12): what each step of a crossing does to its link, from its directions up to the whole
state, and how retraining ends.
-/

namespace Sys2Proof.Machine

/-! ### The two directions of a link -/

@[simp] theorem Link.modDir_state (k : Link) (d : Nat) (f : Dir → Dir) : (k.modDir d f).state = k.state := by
  unfold Link.modDir; split <;> rfl
@[simp] theorem Link.modDir_replays (k : Link) (d : Nat) (f : Dir → Dir) : (k.modDir d f).replays = k.replays := by
  unfold Link.modDir; split <;> rfl
@[simp] theorem Link.dir_modDir_same (k : Link) (d : Nat) (f : Dir → Dir) : (k.modDir d f).dir d = f (k.dir d) := by
  unfold Link.modDir Link.dir; split <;> rfl

/-- A change of one direction leaves the other. -/
theorem Link.dir_modDir_back (k : Link) {d : Nat} (f : Dir → Dir) (hd : d < 2) :
    (k.modDir d f).dir (1 - d) = k.dir (1 - d) := by
  interval_cases d <;> rfl
theorem Link.dir_modBack (k : Link) {d : Nat} (f : Dir → Dir) (hd : d < 2) :
    (k.modDir (1 - d) f).dir d = k.dir d := by
  interval_cases d <;> rfl

/-! ### The sender: the next flit, acknowledgement and replay -/

/-- With a full replay buffer and nothing to send again, nothing goes out. -/
theorem Dir.sendNext_full (d : Dir) (sent : Flit) (hr : d.toReplay = 0) (hb : bufferDepth ≤ d.buffer.length) :
    (d.sendNext sent).1 = none := by
  unfold Dir.sendNext
  rw [if_neg (not_not_intro hr)]
  split <;> simp [hb]

/-- A replay sends the oldest flit of the buffer that is still to go again. -/
theorem Dir.sendNext_replaying (d : Dir) (sent : Flit) (hr : 0 < d.toReplay) :
    (d.sendNext sent).1.map (·.1) = (d.buffer[d.buffer.length - d.toReplay]?).map (·.1) ∧
    (d.sendNext sent).2.toReplay = d.toReplay - 1 := by
  unfold Dir.sendNext
  rw [if_pos (by omega)]
  exact ⟨by simp [Function.comp_def], rfl⟩

/-- Sending leaves the receiving end of the direction as it is. -/
theorem Dir.sendNext_receiver (d : Dir) (sent : Flit) :
    (d.sendNext sent).2.expSeq = d.expSeq ∧ (d.sendNext sent).2.accepted = d.accepted := by
  unfold Dir.sendNext
  dsimp only
  repeat' split
  all_goals exact ⟨rfl, rfl⟩

@[simp] theorem Dir.acknowledge_acked (d : Dir) (ack : BitVec 15) : (d.acknowledge ack).acked = ack := by
  simp only [Dir.acknowledge]; split <;> rfl
@[simp] theorem Dir.replay_acked (d : Dir) (ack : BitVec 15) (time : Nat) : (d.replay ack time).acked = ack :=
  d.acknowledge_acked ack

/-- R10: a replay covers the whole buffer that ACK leaves. -/
@[simp] theorem Dir.replay_toReplay (d : Dir) (ack : BitVec 15) (time : Nat) :
    (d.replay ack time).toReplay = (d.replay ack time).buffer.length := by
  simp [Dir.replay]

/-! ### Retraining starts (R11) -/

/-- A direction at the start of retraining: its replay counts start afresh. -/
def Dir.countsCleared (d : Dir) : Dir :=
  { d with replayTimes := [], buffer := d.buffer.map (fun e => (e.1, 0)) }

theorem Link.retrain_dir (k : Link) (time d : Nat) : (k.retrain time).dir d = (k.dir d).countsCleared := by
  unfold Link.dir; split <;> rfl

/-! ### The receiver (R10) -/

theorem flitOk_iff (d : Dir) (f : Flit) :
    flitOk d f = true ↔ (crc32c (flitBytes f)).toNat = Flit.crc f ∧ Flit.seq f = d.expSeq ∧ Flit.ty f < 8 ∧
      Flit.cls f < 4 ∧ bit f.trailer 15 = false := by
  simp [flitOk, and_assoc]

/-- The receiver judges a flit by the SEQ it expects and by nothing else of its direction. -/
theorem flitOk_of_expSeq_eq {d e : Dir} (h : d.expSeq = e.expSeq) (f : Flit) : flitOk d f = flitOk e f := by
  simp [flitOk, h]

/-- A direction whose receiver has taken a flit. -/
def Dir.took (d : Dir) (f : Flit) : Dir :=
  { d with expSeq := d.expSeq + 1, nak := false, accepted := d.accepted ++ [f] }

section Receive
variable {k : Link} {d : Nat} {f : Flit} (time : Nat)

theorem Link.receive_rejected (h : flitOk (k.dir d) f = false) :
    k.receive d f time = k.modDir d fun x => { x with nak := true } := by
  simp [Link.receive, h]

theorem Link.receive_acknowledging (h : flitOk (k.dir d) f = true) (hn : Flit.nak f = false) :
    k.receive d f time = (k.modDir d (·.took f)).modDir (1 - d) (·.acknowledge (Flit.ack f)) := by
  simp [Link.receive, h, hn, Dir.took]

/-- The link that a flit with NAK leaves, before it is asked whether its sender is worn. -/
def Link.replaying (k : Link) (d : Nat) (f : Flit) (time : Nat) : Link :=
  { (k.modDir d (·.took f)).modDir (1 - d) (·.replay (Flit.ack f) time) with replays := satInc 32 k.replays }

theorem Link.receive_replaying (h : flitOk (k.dir d) f = true) (hn : Flit.nak f = true) :
    k.receive d f time = if ((k.replaying d f time).dir (1 - d)).worn then (k.replaying d f time).retrain time
      else k.replaying d f time := by
  simp [Link.receive, h, hn, Link.replaying, Dir.took]

theorem Link.replaying_dir (k : Link) (f : Flit) (hd : d < 2) : (k.replaying d f time).dir d = (k.dir d).took f := by
  change ((k.modDir d _).modDir (1 - d) _).dir d = _
  rw [Link.dir_modBack _ _ hd, Link.dir_modDir_same]

theorem Link.replaying_back (k : Link) (f : Flit) (hd : d < 2) :
    (k.replaying d f time).dir (1 - d) = (k.dir (1 - d)).replay (Flit.ack f) time := by
  change ((k.modDir d _).modDir (1 - d) _).dir (1 - d) = _
  rw [Link.dir_modDir_same, Link.dir_modDir_back _ _ hd]

/-- R10: what an accepted flit does to both directions, whether or not it carries NAK. -/
theorem Link.receive_accepted (hd : d < 2) (h : flitOk (k.dir d) f = true) :
    ((k.receive d f time).dir d).expSeq = (k.dir d).expSeq + 1 ∧ ((k.receive d f time).dir d).nak = false ∧
    ((k.receive d f time).dir d).accepted = (k.dir d).accepted ++ [f] ∧
    ((k.receive d f time).dir (1 - d)).acked = Flit.ack f := by
  cases hn : Flit.nak f with
  | false =>
    rw [Link.receive_acknowledging time h hn, Link.dir_modBack _ _ hd, Link.dir_modDir_same, Link.dir_modDir_same]
    exact ⟨rfl, rfl, rfl, Dir.acknowledge_acked _ _⟩
  | true =>
    have hdir := k.replaying_dir time f hd
    have hback := k.replaying_back time f hd
    rw [Link.receive_replaying time h hn]
    split
    · rw [Link.retrain_dir, Link.retrain_dir, hdir, hback]
      exact ⟨rfl, rfl, rfl, Dir.replay_acked _ _ time⟩
    · rw [hdir, hback]
      exact ⟨rfl, rfl, rfl, Dir.replay_acked _ _ _⟩

/-- R10: an accepted NAK is counted, and its sender is to send its whole buffer again. -/
theorem Link.receive_nak (hd : d < 2) (h : flitOk (k.dir d) f = true) (hn : Flit.nak f = true) :
    (k.receive d f time).replays = satInc 32 k.replays ∧
    ((k.receive d f time).dir (1 - d)).toReplay = ((k.receive d f time).dir (1 - d)).buffer.length := by
  have hback := k.replaying_back time f hd
  rw [Link.receive_replaying time h hn]
  split
  · rw [Link.retrain_dir, hback]
    exact ⟨rfl, by simp [Dir.countsCleared]⟩
  · rw [hback]
    exact ⟨rfl, Dir.replay_toReplay _ _ _⟩

end Receive

/-! ### A crossing -/

/-- The link after the next flit has gone out in direction `d`, before it arrives: the NAK of the other direction went with
it. -/
def Link.sent (k : Link) (d : Nat) (offered : Flit) : Link :=
  (k.modDir d fun _ => ((k.dir d).sendNext offered).2).modDir (1 - d) fun y => { y with nak := false }

/-- What arrives where the sender puts `g` on the lanes. -/
def Link.arriving (k : Link) (d : Nat) (g : Flit) (seq : BitVec 15) (damaged : Option Flit) : Flit :=
  damaged.getD (stamp g seq ((k.dir (1 - d)).expSeq - 1) (k.dir (1 - d)).nak)

section Sent
variable (k : Link) {d : Nat} (offered : Flit) (hd : d < 2)
include hd

theorem Link.sent_dir : (k.sent d offered).dir d = ((k.dir d).sendNext offered).2 := by
  rw [Link.sent, Link.dir_modBack _ _ hd, Link.dir_modDir_same]

theorem Link.sent_back : (k.sent d offered).dir (1 - d) = { k.dir (1 - d) with nak := false } := by
  rw [Link.sent, Link.dir_modDir_same, Link.dir_modDir_back _ _ hd]

/-- Sending leaves what the receiver of the direction makes of a flit. -/
theorem Link.flitOk_sent (f : Flit) : flitOk ((k.sent d offered).dir d) f = flitOk (k.dir d) f := by
  refine flitOk_of_expSeq_eq ?_ f
  rw [k.sent_dir offered hd, ((k.dir d).sendNext_receiver offered).1]

end Sent

@[simp] theorem Link.sent_state (k : Link) (d : Nat) (offered : Flit) : (k.sent d offered).state = k.state := by
  simp [Link.sent]
@[simp] theorem Link.sent_replays (k : Link) (d : Nat) (offered : Flit) : (k.sent d offered).replays = k.replays := by
  simp [Link.sent]

theorem Link.cross_none {k : Link} {d : Nat} {sent : Flit} (damaged : Option Flit) (time : Nat)
    (h : ((k.dir d).sendNext sent).1 = none) :
    k.cross d sent damaged time = (k.modDir d fun _ => ((k.dir d).sendNext sent).2, none) := by
  simp [Link.cross, h]

theorem Link.cross_some {k : Link} {d : Nat} {sent g : Flit} {seq : BitVec 15} (damaged : Option Flit) (time : Nat)
    (hd : d < 2) (h : ((k.dir d).sendNext sent).1 = some (g, seq)) :
    k.cross d sent damaged time = ((k.sent d sent).receive d (k.arriving d g seq damaged) time,
      if flitOk (k.dir d) (k.arriving d g seq damaged) then some (k.arriving d g seq damaged) else none) := by
  rw [← k.flitOk_sent sent hd]
  simp only [Link.cross, h]
  rfl

/-! ### Routing: an accepted flit waits for its next link, or is delivered -/

/-- At most the flits that wait in the directions of the link differ. -/
def Link.OnlyWaits (k k' : Link) : Prop :=
  k'.state = k.state ∧ k'.replays = k.replays ∧ ∀ e, ∃ w, k'.dir e = { k.dir e with waiting := w }

theorem Link.OnlyWaits.refl (k : Link) : k.OnlyWaits k := ⟨rfl, rfl, fun e => ⟨(k.dir e).waiting, rfl⟩⟩

theorem Link.onlyWaits_modDir (k : Link) (d : Nat) (w : Dir → List Flit) :
    k.OnlyWaits (k.modDir d fun x => { x with waiting := w x }) := by
  refine ⟨k.modDir_state d _, k.modDir_replays d _, fun e => ?_⟩
  unfold Link.modDir Link.dir
  by_cases hd : d = 0 <;> by_cases he : e = 0 <;> simp only [hd, he, if_true, if_false] <;> exact ⟨_, rfl⟩

theorem State.checkPart_notifiesOnly (s : State) (p : Nat) (kind : MachineCheck) : NotifiesOnly s (s.checkPart p kind) :=
  (s.modNet_notifiesOnly _).trans (State.send_notifiesOnly _ _)

/-- R14, R28: what routing a flit can do. -/
theorem State.route_cases (s : State) (l d : Nat) (f : Flit) :
    s.route l d f = s ∨ (∃ p, s.route l d f = s.checkPart p .precise) ∨
    ∃ n e, s.route l d f = s.modLink n fun k => k.modDir e fun x => { x with waiting := x.waiting ++ [f] } := by
  unfold State.route
  dsimp only
  split
  case isTrue =>
    split
    case isTrue =>
      split
      case h_1 p _ => exact .inr (.inl ⟨p, rfl⟩)
      case h_2 => exact .inl rfl
    case isFalse => exact .inl rfl
  case isFalse =>
    split
    case h_1 => exact .inl rfl
    case h_2 n _ =>
      split
      case isTrue => exact .inr (.inr ⟨n, _, rfl⟩)
      case isFalse => exact .inl rfl

theorem State.route_link (s : State) (l d j : Nat) (f : Flit) : (s.link j).OnlyWaits ((s.route l d f).link j) := by
  obtain h | ⟨p, h⟩ | ⟨n, e, h⟩ := s.route_cases l d f <;> rw [h]
  · exact Link.OnlyWaits.refl _
  · exact Link.OnlyWaits.refl _
  · by_cases hj : j = n
    · rw [hj, State.modLink_same]
      exact Link.onlyWaits_modDir _ e fun x => x.waiting ++ [f]
    · rw [State.modLink_ne _ _ hj]
      exact Link.OnlyWaits.refl _

theorem State.route_frame (s : State) (l d : Nat) (f : Flit) :
    (s.route l d f).mem = s.mem ∧ (s.route l d f).ctxs = s.ctxs ∧ (s.route l d f).obj = s.obj ∧
    (s.route l d f).posted = s.posted := by
  obtain h | ⟨p, h⟩ | ⟨n, e, h⟩ := s.route_cases l d f <;> rw [h] <;> exact ⟨rfl, rfl, rfl, rfl⟩

/-! ### FLIT_RECEIVE: one flit crosses -/

theorem exec_flitReceive {s : State} {l dir : Nat} {sent : Flit} (damaged : Option Flit) (time : Nat)
    (hl : l < 24) (hd : dir < 2) (hc : (s.link l).carries = true) (hm : s.mayCross l dir sent = true) :
    exec (.flitReceive l dir ⟨sent, damaged⟩ time) s = .next (flitEffect s l dir ⟨sent, damaged⟩ time) := by
  change due s (decide (l < 24) && decide (dir < 2) && (s.link l).carries && s.mayCross l dir sent) _ = _
  simp [hl, hd, hc, hm]

theorem flitEffect_none {s : State} {l dir : Nat} {sent : Flit} (damaged : Option Flit) (time : Nat)
    (h : (((s.link l).dir dir).sendNext sent).1 = none) :
    flitEffect s l dir ⟨sent, damaged⟩ time =
      s.modLink l fun _ => (s.link l).modDir dir fun _ => (((s.link l).dir dir).sendNext sent).2 := by
  simp only [flitEffect, Link.cross_none damaged time h]

/-- The link once the flit has arrived. -/
def Link.crossed (k : Link) (d : Nat) (offered f : Flit) (time : Nat) : Link := (k.sent d offered).receive d f time

theorem flitEffect_some {s : State} {l dir : Nat} {sent g : Flit} {seq : BitVec 15} (damaged : Option Flit) (time : Nat)
    (hd : dir < 2) (h : (((s.link l).dir dir).sendNext sent).1 = some (g, seq)) :
    flitEffect s l dir ⟨sent, damaged⟩ time =
      let f := (s.link l).arriving dir g seq damaged
      let t := s.modLink l fun _ => (s.link l).crossed dir sent f time
      if flitOk ((s.link l).dir dir) f then t.route l dir f else t := by
  simp only [flitEffect, Link.cross_some damaged time hd h, Link.crossed]
  cases flitOk ((s.link l).dir dir) ((s.link l).arriving dir g seq damaged) <;> rfl

section Crossed
variable {k : Link} {d : Nat} {f : Flit} (offered : Flit) (time : Nat) (hd : d < 2)
include hd

/-- A flit that is discarded: the next outgoing flit of the receiver carries NAK. -/
theorem Link.crossed_rejected (h : flitOk (k.dir d) f = false) :
    (k.crossed d offered f time).dir d = { ((k.dir d).sendNext offered).2 with nak := true } ∧
    (k.crossed d offered f time).dir (1 - d) = { k.dir (1 - d) with nak := false } ∧
    (k.crossed d offered f time).state = k.state ∧ (k.crossed d offered f time).replays = k.replays := by
  rw [← k.flitOk_sent offered hd] at h
  rw [Link.crossed, Link.receive_rejected time h, Link.dir_modDir_same, Link.dir_modDir_back _ _ hd,
    k.sent_dir offered hd, k.sent_back offered hd]
  simp

theorem Link.crossed_accepted (h : flitOk (k.dir d) f = true) :
    ((k.crossed d offered f time).dir d).expSeq = (k.dir d).expSeq + 1 ∧
    ((k.crossed d offered f time).dir d).nak = false ∧
    ((k.crossed d offered f time).dir d).accepted = (k.dir d).accepted ++ [f] ∧
    ((k.crossed d offered f time).dir (1 - d)).acked = Flit.ack f := by
  obtain ⟨hseq, hacc⟩ := (k.dir d).sendNext_receiver offered
  rw [← k.flitOk_sent offered hd] at h
  have hreceived := Link.receive_accepted time hd h
  rwa [k.sent_dir offered hd, hseq, hacc] at hreceived

theorem Link.crossed_acknowledging (h : flitOk (k.dir d) f = true) (hn : Flit.nak f = false) :
    (k.crossed d offered f time).replays = k.replays ∧ (k.crossed d offered f time).state = k.state := by
  rw [← k.flitOk_sent offered hd] at h
  rw [Link.crossed, Link.receive_acknowledging time h hn]
  simp

theorem Link.crossed_nak (h : flitOk (k.dir d) f = true) (hn : Flit.nak f = true) :
    (k.crossed d offered f time).replays = satInc 32 k.replays ∧
    ((k.crossed d offered f time).dir (1 - d)).toReplay = ((k.crossed d offered f time).dir (1 - d)).buffer.length := by
  rw [← k.flitOk_sent offered hd] at h
  have hreceived := Link.receive_nak time hd h hn
  rwa [Link.sent_replays] at hreceived

end Crossed

/-- Routing the flit that crossed touches what waits on the links and nothing that the crossing left of them. -/
theorem State.route_crossed (s : State) (l dir : Nat) (x : Link) (f : Flit) :
    x.OnlyWaits (((s.modLink l fun _ => x).route l dir f).link l) ∧
    ∀ j, j ≠ l → (s.link j).OnlyWaits (((s.modLink l fun _ => x).route l dir f).link j) := by
  refine ⟨?_, fun j hj => ?_⟩
  · have h := (s.modLink l fun _ => x).route_link l dir l f
    rwa [State.modLink_same] at h
  · have h := (s.modLink l fun _ => x).route_link l dir j f
    rwa [State.modLink_ne _ _ hj] at h

theorem flitsAcceptedInOrder : Claims.FlitsAcceptedInOrder := by
  intro s l dir sent damaged time hl hdir hcarries hmay d back next
  have hexec := exec_flitReceive damaged time hl hdir hcarries hmay
  refine ⟨fun hr hb => d.sendNext_full sent hr hb, fun hr _ => d.sendNext_replaying sent hr, fun hnone => ?_,
    fun g seq hsome => ?_⟩
  · rw [flitEffect_none damaged time hnone] at hexec
    refine ⟨_, hexec, ⟨_, rfl⟩, ?_, ?_⟩
    · rw [State.modLink_same, Link.dir_modDir_same]
      exact (d.sendNext_receiver sent).1
    · rw [State.modLink_same, Link.dir_modDir_back _ _ hdir]
  · intro f
    refine ⟨flitOk_iff d f, ?_⟩
    rw [flitEffect_some damaged time hdir hsome] at hexec
    change exec _ s = .next (if flitOk d f then (s.modLink l fun _ => (s.link l).crossed dir sent f time).route l dir f
      else s.modLink l fun _ => (s.link l).crossed dir sent f time) at hexec
    refine ⟨_, hexec, ?_⟩
    cases hok : flitOk d f with
    | false =>
      simp only [Bool.false_eq_true, if_false, false_implies, and_true, true_implies, State.modLink_same]
      exact ⟨rfl, rfl, rfl, rfl, fun j hj => by simp [State.modLink_ne _ _ hj], ⟨_, rfl⟩,
        Link.crossed_rejected sent time hdir hok⟩
    | true =>
      simp only [if_true, Bool.true_eq_false, false_implies, true_implies, true_and]
      obtain ⟨⟨hstate, hreplays, hdirs⟩, hothers⟩ :=
        s.route_crossed l dir ((s.link l).crossed dir sent f time) f
      obtain ⟨hmem, hctxs, hobj, hposted⟩ :=
        (s.modLink l fun _ => (s.link l).crossed dir sent f time).route_frame l dir f
      obtain ⟨w, hw⟩ := hdirs dir
      obtain ⟨w', hw'⟩ := hdirs (1 - dir)
      refine ⟨hmem, hctxs, hobj, hposted, fun j hj => ?_, ?_, fun hn => ?_, fun hn => ?_⟩
      · obtain ⟨hst, hrep, -⟩ := hothers j hj
        exact ⟨hst, hrep⟩
      · rw [hw, hw']
        exact Link.crossed_accepted sent time hdir hok
      · rw [hstate, hreplays]
        exact Link.crossed_acknowledging sent time hdir hok hn
      · rw [hreplays, hw']
        exact Link.crossed_nak sent time hdir hok hn

/-! ### Retraining ends (R11, R12) -/

theorem retrainFails_iff (k : Link) (fail0 fail1 : Nat) (ok : Bool) (time : Nat) :
    retrainFails k fail0 fail1 ok time = true ↔
      ok = false ∨ (Config.spareLanes < k.d0.sparesUsed + fail0 ∨ Config.spareLanes < k.d1.sparesUsed + fail1) ∨
      8 < (k.retrainTimes.filter (fun t => decide (time < t + 1000000000))).length := by
  cases ok <;> simp [retrainFails, or_assoc]

theorem exec_retrainComplete {s : State} {l : Nat} (fail0 fail1 : Nat) (ok : Bool) (time : Nat) (hl : l < 24)
    (hs : (s.link l).state = .retraining) :
    exec (.retrainComplete l fail0 fail1 ok time) s = .next (retrainComplete s l fail0 fail1 ok time) := by
  change due s (decide (l < 24) && decide ((s.link l).state = .retraining)) _ = _
  simp [hl, hs]

theorem State.lateFault_notifiesOnly (s : State) (c q cause : Nat) (epoch : BitVec 16) (ca da : Nat) :
    NotifiesOnly s (s.lateFault c q cause epoch ca da) := by
  unfold State.lateFault
  refine NotifiesOnly.trans ((s.modCtx_notifiesOnly c _).trans (State.modTen_notifiesOnly _ _ _) :
    NotifiesOnly s (s.lateRecord c q cause epoch ca da)) ?_
  generalize s.lateRecord c q cause epoch ca da = u
  dsimp only
  split
  · exact u.modCtx_notifiesOnly _ _
  · exact (u.modCtx_notifiesOnly _ _).trans (State.modCtx_notifiesOnly _ _ _)

theorem State.failPosted_notifiesOnly (s : State) (p : Posted) (cause : Nat) : NotifiesOnly s (s.failPosted p cause) := by
  unfold State.failPosted
  split
  · exact s.modTen_notifiesOnly _ _
  · exact s.lateFault_notifiesOnly _ _ _ _ _ _

/-- R246: the posted writes that were to cross the link are taken out; what their late failures add is notification. -/
theorem State.failWay_notifiesOnly (s : State) (l : Nat) :
    NotifiesOnly { s with posted := s.posted.filter (fun p => !decide (l ∈ p.way)) } (s.failWay l) :=
  fold_holds (NotifiesOnly _) _ _ _ (NotifiesOnly.refl _) fun _ _ _ h => h.trans (State.failPosted_notifiesOnly _ _ _)

theorem State.failStores_notifiesOnly (s : State) (l : Nat) : NotifiesOnly s (s.failStores l) := by
  refine fold_holds (NotifiesOnly s) _ _ _ (NotifiesOnly.refl s) fun u f _ h => ?_
  split
  · exact h.trans (u.checkPart_notifiesOnly _ _)
  · exact h

theorem NotifiesOnly.links_mem_posted {s t : State} (h : NotifiesOnly s t) :
    t.links = s.links ∧ t.mem = s.mem ∧ t.posted = s.posted := by
  obtain ⟨c, n, e, o, rfl⟩ := h
  exact ⟨rfl, rfl, rfl⟩

/-- R12: besides the link's state and the posted writes over it, declaring a link down only notifies. -/
theorem State.declareDown_notifiesOnly (s : State) (l : Nat) :
    NotifiesOnly { s.modLink l fun k => { k with state := .down, downDue := true } with
      posted := s.posted.filter (fun p => !decide (l ∈ p.way)) } (s.declareDown l) :=
  ((State.failWay_notifiesOnly _ l).trans (State.failStores_notifiesOnly _ l)).trans (State.errAll_notifiesOnly _ _ _ _)

theorem State.declareDown_spec (s : State) (l : Nat) :
    ((s.declareDown l).link l).state = .down ∧ ((s.declareDown l).link l).downDue = true ∧
    (∀ j, j ≠ l → (s.declareDown l).link j = s.link j) ∧
    (∀ p ∈ (s.declareDown l).posted, l ∉ p.way) ∧ (s.declareDown l).mem = s.mem := by
  obtain ⟨hlinks, hmem, hposted⟩ := (s.declareDown_notifiesOnly l).links_mem_posted
  have hlink : ∀ j, (s.declareDown l).link j = (s.modLink l fun k => { k with state := .down, downDue := true }).link j :=
    fun j => by rw [State.link, hlinks]; rfl
  refine ⟨?_, ?_, fun j hj => ?_, fun p hp => ?_, hmem⟩
  · rw [hlink, State.modLink_same]
  · rw [hlink, State.modLink_same]
  · rw [hlink, State.modLink_ne _ _ hj]
  · rw [hposted] at hp
    simpa using (List.mem_filter.mp hp).2

theorem retrainingEnds : Claims.RetrainingEnds := by
  intro s l fail0 fail1 ok time hl hs short often
  have hexec := exec_retrainComplete fail0 fail1 ok time hl hs
  have hfails := retrainFails_iff (s.link l) fail0 fail1 ok time
  refine ⟨fun ⟨hok, hshort, hoften⟩ => ⟨_, hexec, ?_⟩, fun h => ⟨_, hexec, ?_⟩⟩
  · have hspares : retrainFails (s.link l) fail0 fail1 ok time = false := by
      rw [← Bool.not_eq_true, hfails]
      simp only [short, often, decide_eq_false_iff_not] at hshort hoften
      simp [hok, hshort, hoften]
    rw [retrainComplete, hspares]
    simp only [Bool.false_eq_true, if_false, State.modLink_same]
    exact ⟨⟨_, rfl⟩, rfl, rfl, rfl, rfl, rfl⟩
  · have hdown : retrainFails (s.link l) fail0 fail1 ok time = true := by
      rw [hfails]
      simpa only [short, often, decide_eq_true_eq] using h
    rw [retrainComplete, if_pos hdown]
    exact s.declareDown_spec l

/-- Settles O28: a crossing seen as a send, an arrival and a route, and retraining by its two ends. -/
theorem linksAcceptAndRetrain : Obligations.LinksAcceptAndRetrain := ⟨flitsAcceptedInOrder, retrainingEnds⟩

end Sys2Proof.Machine
end

section
/-!
ResetStateAsStated: every table of the reset state is empty, so what it shows are the defaults of its tables.
-/

namespace Sys2Proof.Machine

open Sys2Proof

/-- An empty table reads its default everywhere. -/
@[simp] theorem tget_empty {α : Type} (d : α) (k : Nat) : tget d [] k = d := rfl

/-- Where no object was written, each reads its default. -/
theorem State.val_of_obj_empty {s : State} (h : s.obj = []) (i sub port : Nat) :
    s.val i sub port = keyDefault (objKey port i sub) := by
  rw [State.val, h, tget_empty]

theorem resetState : Claims.ResetState := by
  refine ⟨rfl, rfl, rfl, rfl, rfl, rfl, rfl, fun l => ⟨rfl, rfl⟩, fun g => ⟨rfl, rfl, rfl⟩, fun c => ⟨rfl, rfl⟩,
    fun m => rfl, fun d o => rfl, State.val_of_obj_empty rfl, ?_⟩
  simp only [State.val_of_obj_empty (s := State.reset) rfl]
  decide +kernel

/-- Settles O2: the tables of the reset state are empty, and the object tables list the defaults. -/
theorem resetStateAsStated : Obligations.ResetStateAsStated :=
  ⟨resetState, reset_memory_wf.1, reset_memory_wf.2, rfl, rfl⟩

end Sys2Proof.Machine
end

section
/-!
What a read of context memory and the search for a write's targets may touch: the table cache of contexts, the error
counters and the poison of memory. Every queue, every bundle and all data stand after them.
-/

namespace Sys2Proof.Machine

/-- At most table caches, memory error counters and poison differ: what looking up or reading context memory leaves. -/
def OnlyLooked (s t : State) : Prop :=
  (∃ x m p, t = { s with ctxs := x, memStat := m, poison := p }) ∧ ∀ d, ∃ y, t.ctx d = { s.ctx d with tlb := y }

theorem OnlyLooked.refl (s : State) : OnlyLooked s s := ⟨⟨s.ctxs, s.memStat, s.poison, rfl⟩, fun _ => ⟨_, rfl⟩⟩

theorem OnlyLooked.trans {s t u : State} (h : OnlyLooked s t) (h' : OnlyLooked t u) : OnlyLooked s u := by
  obtain ⟨⟨x, m, p, rfl⟩, hc⟩ := h
  obtain ⟨⟨x', m', p', rfl⟩, hc'⟩ := h'
  refine ⟨⟨x', m', p', rfl⟩, fun d => ?_⟩
  obtain ⟨y, hy⟩ := hc d
  obtain ⟨y', hy'⟩ := hc' d
  exact ⟨y', by rw [hy', hy]⟩

/-- Counters and poison alone. -/
theorem OnlyLooked.of_counts {s t : State} (h : ∃ m p, t = { s with memStat := m, poison := p }) : OnlyLooked s t := by
  obtain ⟨m, p, rfl⟩ := h
  exact ⟨⟨s.ctxs, m, p, rfl⟩, fun _ => ⟨_, rfl⟩⟩

/-! ### What stays -/

theorem OnlyLooked.queue {s t : State} (h : OnlyLooked s t) (c q : Nat) : t.queue c q = s.queue c q := by
  obtain ⟨-, hc⟩ := h
  obtain ⟨y, hy⟩ := hc c
  rw [State.queue, hy]
  rfl

theorem OnlyLooked.prm {s t : State} (h : OnlyLooked s t) (c q r : Nat) : t.prm c q r = s.prm c q r := by
  rw [State.prm, h.queue]
  rfl

theorem OnlyLooked.nextIdx {s t : State} (h : OnlyLooked s t) (c q : Nat) : t.nextIdx c q = s.nextIdx c q := by
  rw [State.nextIdx, h.queue]
  rfl

theorem OnlyLooked.nextMacro {s t : State} (h : OnlyLooked s t) (c q : Nat) : t.nextMacro c q = s.nextMacro c q := by
  have hprog : t.progOf c q = s.progOf c q := by
    have hbundle : t.bundleOf c = s.bundleOf c := by
      obtain ⟨⟨x, m, p, rfl⟩, hc⟩ := h
      obtain ⟨y, hy⟩ := hc c
      rw [State.bundleOf, hy]
      rfl
    rw [State.progOf, h.queue, hbundle]
    rfl
  rw [State.nextMacro, State.macroAt, hprog, h.nextIdx]
  rfl

theorem OnlyLooked.data {s t : State} (h : OnlyLooked s t) :
    t.mem = s.mem ∧ t.host = s.host ∧ t.posted = s.posted ∧ t.ops = s.ops ∧ t.plates = s.plates := by
  obtain ⟨⟨x, m, p, rfl⟩, -⟩ := h
  exact ⟨rfl, rfl, rfl, rfl, rfl⟩

theorem SameSystem.trans {s t u : State} (h : SameSystem s t) (h' : SameSystem t u) : SameSystem s u :=
  ⟨h'.frame.trans h.frame, h'.links.trans h.links, h'.gauges.trans h.gauges, h'.power.trans h.power, h'.sec.trans h.sec,
   h'.boot.trans h.boot, h'.net.trans h.net, h'.obj.trans h.obj, h'.eff.trans h.eff, h'.effT.trans h.effT⟩

theorem OnlyLooked.system {s t : State} (h : OnlyLooked s t) : SameSystem s t := by
  obtain ⟨⟨x, m, p, rfl⟩, -⟩ := h
  constructor <;> rfl

/-! ### The walk of the tables (R201 to R203) -/

theorem State.modTlb_looked (s : State) (c : Nat) (f : Tab (Option (BitVec 64)) → Tab (Option (BitVec 64))) :
    OnlyLooked s (s.modCtx c fun x => { x with tlb := f x.tlb }) := by
  refine ⟨⟨_, s.memStat, s.poison, rfl⟩, fun d => ?_⟩
  by_cases hd : d = c
  · subst hd
    exact ⟨_, State.modCtx_same _ _ _⟩
  · exact ⟨_, State.modCtx_ne _ _ hd⟩

theorem State.tableEntry_looked (s : State) (c l p a : Nat) : OnlyLooked s (s.tableEntry c l p a).2 := by
  unfold State.tableEntry
  split
  · exact OnlyLooked.refl s
  · exact s.modTlb_looked c fun y => tset none y (tlbKey l p) _

theorem State.translate_looked (s : State) (c a : Nat) (w : Bool) : OnlyLooked s (s.translate c a w).2 := by
  unfold State.translate
  dsimp only
  split
  · exact OnlyLooked.refl s
  split
  · exact OnlyLooked.refl s
  have h1 := s.tableEntry_looked c 1 (a / 2 ^ 42) ((s.ctx c).l1 + 8 * (a / 2 ^ 42 % 64))
  generalize s.tableEntry c 1 (a / 2 ^ 42) ((s.ctx c).l1 + 8 * (a / 2 ^ 42 % 64)) = r1 at h1 ⊢
  split
  · exact h1
  have h2 := h1.trans (r1.2.tableEntry_looked c 2 (a / 2 ^ 29) (fld r1.1 63 16 * 65536 + 8 * (a / 2 ^ 29 % 8192)))
  generalize r1.2.tableEntry c 2 (a / 2 ^ 29) (fld r1.1 63 16 * 65536 + 8 * (a / 2 ^ 29 % 8192)) = r2 at h2 ⊢
  split
  · exact h2
  have h3 := h2.trans (r2.2.tableEntry_looked c 3 (a / 2 ^ 16) (fld r2.1 63 16 * 65536 + 8 * (a / 2 ^ 16 % 8192)))
  generalize r2.2.tableEntry c 3 (a / 2 ^ 16) (fld r2.1 63 16 * 65536 + 8 * (a / 2 ^ 16 % 8192)) = r3 at h3 ⊢
  repeat' split
  all_goals exact h3

/-! ### Errors that a read finds (R18, R27) -/

theorem State.findOne_counts (s : State) (e : Nat × Ecc) : ∃ m p, s.findOne e = { s with memStat := m, poison := p } := by
  unfold State.findOne
  split
  · exact ⟨s.memStat, s.poison, rfl⟩
  · exact ⟨_, s.poison, rfl⟩
  · unfold State.markPoison
    dsimp only
    split
    · exact ⟨_, s.poison, rfl⟩
    · exact ⟨_, _, rfl⟩

theorem State.findErrors_looked (s : State) (ecc : Found) (a n : Nat) : OnlyLooked s (s.findErrors ecc a n) :=
  fold_holds (OnlyLooked s) _ _ s (OnlyLooked.refl s) fun _ _ _ h => h.trans (.of_counts (State.findOne_counts _ _))

theorem State.noteBad_looked (s : State) (a : Nat) : OnlyLooked s (s.noteBad a) := .of_counts ⟨_, s.poison, rfl⟩

/-! ### Reads and targets of context memory (R202) -/

theorem State.readPiece_looked (s : State) (c : Nat) (ecc : Found) (t : Target) (n : Nat) :
    OnlyLooked s (s.readPiece c ecc t n).2 := by
  unfold State.readPiece
  dsimp only
  split
  · rename_i a
    split
    · exact (s.findErrors_looked ecc a n).trans (State.noteBad_looked _ _)
    · split <;> exact s.findErrors_looked ecc a n
  · split <;> exact OnlyLooked.refl s

/-- A fold that stops at its first error: where every turn only looks, the fold does. -/
theorem foldl_looked {ε α β : Type} (f : Except ε α × State → β → Except ε α × State) (l : List β) (a : α) (s : State)
    (herr : ∀ e u x, (f (.error e, u) x).2 = u) (hok : ∀ b u x, OnlyLooked u (f (.ok b, u) x).2) :
    OnlyLooked s (l.foldl f (.ok a, s)).2 := by
  refine fold_holds (fun r : Except ε α × State => OnlyLooked s r.2) f l _ (OnlyLooked.refl s) ?_
  rintro ⟨r, u⟩ x - h
  cases r with
  | error e => rwa [herr]
  | ok b => exact h.trans (hok b u x)

theorem State.readCtx_looked (s : State) (c : Nat) (ecc : Found) (a n : Nat) : OnlyLooked s (s.readCtx c ecc a n).2 := by
  unfold State.readCtx
  refine foldl_looked _ _ _ s (fun _ _ _ => rfl) fun bs u pc => ?_
  have ht := u.translate_looked c pc.1 false
  dsimp only
  split
  · next heq => rwa [heq] at ht
  · next t v heq =>
    rw [heq] at ht
    have hp := ht.trans (v.readPiece_looked c ecc t pc.2)
    split <;> next heq' => rwa [heq'] at hp

theorem State.writeTargets_looked (s : State) (c a : Nat) (bs : List Byte) : OnlyLooked s (s.writeTargets c a bs).2 := by
  unfold State.writeTargets
  refine foldl_looked _ _ _ s (fun _ _ _ => rfl) fun l u pc => ?_
  have ht := u.translate_looked c pc.1 true
  dsimp only
  split <;> next heq => rwa [heq] at ht

/-! ### Reads of a matrix (R163, R171) -/

theorem State.spaceTargets_looked (s : State) (c : Nat) (pl : Place) (sp a : Nat) (bs : List Byte) (w : Bool) :
    OnlyLooked s (s.spaceTargets c pl sp a bs w).2 := by
  unfold State.spaceTargets
  split
  · exact OnlyLooked.refl s
  split
  · exact OnlyLooked.refl s
  refine foldl_looked _ _ _ s (fun _ _ _ => rfl) fun l u pc => ?_
  have ht := u.translate_looked c pc.1 w
  dsimp only
  split <;> next heq => rwa [heq] at ht

theorem State.readSpace_looked (s : State) (c : Nat) (e : Engine) (pl : Place) (ecc : Found) (sp a n : Nat) :
    OnlyLooked s (s.readSpace c e pl ecc sp a n).2 := by
  unfold State.readSpace
  have ht := s.spaceTargets_looked c pl sp a (List.replicate n 0) false
  split
  · next heq => rwa [heq] at ht
  · next l v heq =>
    rw [heq] at ht
    refine ht.trans (foldl_looked _ _ _ v (fun _ _ _ => rfl) fun bs u t => ?_)
    dsimp only
    split
    · exact OnlyLooked.refl u
    · have hp := u.readPiece_looked c ecc t.2.1 t.2.2.length
      split <;> next heq' => rwa [heq'] at hp

theorem State.readMat_looked (s : State) (c : Nat) (e : Engine) (pl : Place) (ecc : Found) (m : Mat) (w : Nat) :
    OnlyLooked s (s.readMat c e pl ecc m w).2 := by
  unfold State.readMat State.readBlock
  refine foldl_looked _ _ _ s (fun _ _ _ => rfl) fun vs u i => ?_
  dsimp only
  have hr := u.readSpace_looked c e pl ecc m.space (m.at w + (0 + i) * m.stride + 0 * eltBits m.ty / 8)
    (rowBytes m.ty (0 * (if m.ty = 0 then 1 else 0) % 2 + m.cols))
  split <;> next heq => rwa [heq] at hr

end Sys2Proof.Machine
end

section
/-!
PatchesChangeRegistersAndMemory (R157): what the queue engine does at the end of an instruction of its own, said once,
and PATCH in its six operations.
-/

namespace Sys2Proof.Machine

open Sys2Proof

/-! ### Registers of a queue (R145) -/

@[simp] theorem State.prm_setPrm_same (s : State) (c q r : Nat) (v : BitVec 64) : (s.setPrm c q r v).prm c q r = v := by
  simp [State.prm, State.setPrm]

theorem State.prm_setPrm_ne (s : State) (c q : Nat) {r j : Nat} (v : BitVec 64) (h : j ≠ r) :
    (s.setPrm c q r v).prm c q j = s.prm c q j := by simp [State.prm, State.setPrm, tget_tset_ne _ _ _ h]

/-- A change of a queue that keeps what it runs keeps its next instruction. -/
theorem State.nextIdx_modQueue (s : State) (c q : Nat) (f : Queue → Queue) (h : ∀ x, (f x).run = x.run) :
    (s.modQueue c q f).nextIdx c q = s.nextIdx c q := by
  rw [State.nextIdx, State.modQueue_same, h]
  rfl

theorem State.nextMacro_modQueue (s : State) (c q : Nat) (f : Queue → Queue) (h : ∀ x, (f x).run = x.run) :
    (s.modQueue c q f).nextMacro c q = s.nextMacro c q := by
  have hbundle : (s.modQueue c q f).bundleOf c = s.bundleOf c := by
    simp only [State.bundleOf, State.modQueue, State.modCtx_same]
    rfl
  have hprog : (s.modQueue c q f).progOf c q = s.progOf c q := by
    rw [State.progOf, State.modQueue_same, h, hbundle]
    rfl
  rw [State.nextMacro, State.macroAt, hprog, s.nextIdx_modQueue c q f h]
  rfl

/-! ### The success of an instruction of the queue engine (R147, R199) -/

/-- What success leaves in the queue: the status register zeroed where the word asks for it, the entry one step on. -/
def Queue.finished (w : Word256) (i : Nat) (x : Queue) : Queue :=
  { x with prm := if stEn w = true then tset 0 x.prm (stReg w) 0 else x.prm
           run := x.run.map fun r => { r with pc := i + 1, lastDone := i, waiting := false } }

theorem State.modCtx_modCtx (s : State) (c : Nat) (f g : Ctx → Ctx) :
    (s.modCtx c f).modCtx c g = s.modCtx c fun x => g (f x) := by
  simp [State.modCtx, State.setCtx, State.ctx]

theorem State.modQueue_modQueue (s : State) (c q : Nat) (f g : Queue → Queue) :
    (s.modQueue c q f).modQueue c q g = s.modQueue c q fun x => g (f x) := by
  simp [State.modQueue, State.modCtx_modCtx, Ctx.modQueue]

/-- The frame a context last ran in is no part of its queues. -/
theorem State.ran_modQueue (s : State) (c q : Nat) (f : Queue → Queue) :
    (s.ran c).modQueue c q f = (s.modQueue c q f).modCtx c fun y => { y with lastRun := s.frame.counter.toNat } := by
  simp [State.ran, State.modQueue, State.modCtx_modCtx, Ctx.modQueue]

theorem State.finishNow_eq (s : State) (c q : Nat) :
    s.finishNow c q = (s.modQueue c q (Queue.finished (s.nextMacro c q) (s.nextIdx c q))).modCtx c
      fun y => { y with lastRun := s.frame.counter.toNat } := by
  rw [← State.ran_modQueue]
  unfold State.finishNow State.writeStatus Queue.finished
  cases hen : stEn (s.nextMacro c q) with
  | false => simp only [Bool.false_eq_true, if_false, State.modRun]
  | true => simp only [if_true, State.modRun, State.setPrm, State.modQueue_modQueue]

@[simp] theorem State.finishNow_queue (s : State) (c q : Nat) :
    (s.finishNow c q).queue c q = (s.queue c q).finished (s.nextMacro c q) (s.nextIdx c q) := by
  rw [State.finishNow_eq, ← s.modQueue_same c q (Queue.finished (s.nextMacro c q) (s.nextIdx c q))]
  simp only [State.queue, State.modCtx_same]
  rfl

theorem State.finishNow_data (s : State) (c q : Nat) :
    (s.finishNow c q).mem = s.mem ∧ (s.finishNow c q).host = s.host ∧ (s.finishNow c q).posted = s.posted ∧
    (s.finishNow c q).ops = s.ops := by
  rw [State.finishNow_eq]
  exact ⟨rfl, rfl, rfl, rfl⟩

/-- The status register is zeroed. -/
theorem State.finishNow_prm_status (s : State) (c q r : Nat) (h : statusZero (s.nextMacro c q) r) :
    (s.finishNow c q).prm c q r = 0 := by
  obtain ⟨hen, rfl⟩ := h
  simp [State.prm, Queue.finished, hen]

/-- Every other register stays. -/
theorem State.finishNow_prm (s : State) (c q r : Nat) (h : ¬ statusZero (s.nextMacro c q) r) :
    (s.finishNow c q).prm c q r = s.prm c q r := by
  rw [State.prm, State.finishNow_queue, State.prm, Queue.finished]
  split
  · next hen => exact tget_tset_ne (0 : BitVec 64) (s.queue c q).prm 0 fun hr => h ⟨hen, hr.symm⟩
  · rfl

/-- The queue runs the same instruction of the same entry; its registers may differ. -/
structure SameEntry (c q : Nat) (s t : State) : Prop where
  word : t.nextMacro c q = s.nextMacro c q
  run : (t.queue c q).run = (s.queue c q).run
  head : (t.queue c q).head = (s.queue c q).head
  tail : (t.queue c q).tail = (s.queue c q).tail
  seq : (t.queue c q).seq = (s.queue c q).seq

theorem OnlyLooked.sameEntry {s t : State} (h : OnlyLooked s t) (c q : Nat) : SameEntry c q s t :=
  ⟨h.nextMacro c q, by rw [h.queue], by rw [h.queue], by rw [h.queue], by rw [h.queue]⟩

theorem SameEntry.trans {c q : Nat} {s t u : State} (h : SameEntry c q s t) (h' : SameEntry c q t u) : SameEntry c q s u :=
  ⟨h'.word.trans h.word, h'.run.trans h.run, h'.head.trans h.head, h'.tail.trans h.tail, h'.seq.trans h.seq⟩

theorem State.setPrm_sameEntry (s : State) (c q r : Nat) (v : BitVec 64) : SameEntry c q s (s.setPrm c q r v) :=
  ⟨s.nextMacro_modQueue c q _ fun _ => rfl, by simp [State.setPrm], by simp [State.setPrm], by simp [State.setPrm],
   by simp [State.setPrm]⟩

/-- After the success the queue has moved on. -/
theorem SameEntry.finishNow {c q : Nat} {s u : State} (h : SameEntry c q s u) : movedOn s (u.finishNow c q) c q := by
  intro r hr
  have hidx : u.nextIdx c q = r.pc := by rw [State.nextIdx, h.run, hr]
  rw [State.finishNow_queue, hidx]
  exact ⟨by simp [Queue.finished, h.run, hr], h.head, h.tail, h.seq⟩

/-- After the success every register but the status register is as it was. -/
theorem SameEntry.finishNow_prm {c q : Nat} {s u : State} (h : SameEntry c q s u) {r : Nat}
    (hr : ¬ statusZero (s.nextMacro c q) r) : (u.finishNow c q).prm c q r = u.prm c q r :=
  u.finishNow_prm c q r (by rwa [h.word])

/-! ### Its fault (R140) -/

@[simp] theorem State.writeStatus_posted (s : State) (c q : Nat) (w : Word256) (st : Status) (v : BitVec 64) :
    (s.writeStatus c q w st v).posted = s.posted := by
  unfold State.writeStatus
  split <;> rfl

theorem RecordsOnly.posted {s t : State} (h : RecordsOnly s t) : t.posted = s.posted := by
  obtain ⟨⟨m, p, f, x, c, n, rfl⟩, -, -⟩ := h
  rfl

/-- An entry that ends runs no more, and posts no write. -/
theorem State.endRun_ends (s : State) (c q : Nat) (st : Status) (i d : Nat) :
    ((s.endRun c q st i d).queue c q).run = none ∧ (s.endRun c q st i d).posted = s.posted := by
  unfold State.endRun
  cases hrun : (s.queue c q).run with
  | none => exact ⟨hrun, rfl⟩
  | some r =>
    have hres : (s.writeResult c q r.result).posted = s.posted := (State.wrCtx_recordsOnly _ _ _ _ _).posted
    have hposted : ∀ u : State, u.posted = s.posted → ∀ (b : Bool) (e : Rec),
        (if b = true then u.post e else u).posted = s.posted := fun u hu b e => by
      split
      · exact (u.post_recordsOnly e).posted.trans hu
      · exact hu
    dsimp only
    split
    · rw [State.modQueue_same, State.modQueue_posted]
      exact ⟨rfl, hposted _ hres _ _⟩
    · rw [State.modQueue_same, State.modQueue_posted]
      exact ⟨rfl, hposted _ hres _ _⟩

theorem State.faultNow_ends (s : State) (c q : Nat) (f : Flt) :
    ((s.faultNow c q f).queue c q).run = none ∧ (s.faultNow c q f).posted = s.posted := by
  obtain ⟨hrun, hposted⟩ :=
    (s.writeStatus c q (s.nextMacro c q) f.1 0).endRun_ends c q f.1 (s.nextIdx c q) f.2
  exact ⟨hrun, hposted.trans (s.writeStatus_posted c q _ _ _)⟩

/-! ### PATCH -/

/-- An event that is due answers its effect. -/
theorem answers_due {i : Instr} {s t : State} {b : Bool} {P : State → Prop} (hexec : exec i s = due s b t)
    (hb : b = true) (h : P t) : Answers i s P := ⟨t, by rw [hexec, hb, due_true], h⟩

theorem State.modQueue_onlyRan (s : State) (c q n : Nat) (f : Queue → Queue) :
    OnlyRan c q s ((s.modQueue c q f).modCtx c fun y => { y with lastRun := n }) := ⟨f (s.queue c q), n, rfl⟩

/-- A PATCH that gives DST a value: the queue moves on and nothing but its registers differs. -/
theorem State.setPrm_finishNow (s : State) (c q r : Nat) (v : BitVec 64) :
    let w := s.nextMacro c q
    let t := (s.setPrm c q r v).finishNow c q
    OnlyRan c q s t ∧ movedOn s t c q ∧ (¬ statusZero w r → t.prm c q r = v) ∧
    ∀ j, (statusZero w j → t.prm c q j = 0) ∧ (¬ statusZero w j → j ≠ r → t.prm c q j = s.prm c q j) := by
  have hsame := s.setPrm_sameEntry c q r v
  refine ⟨?_, hsame.finishNow, fun hr => ?_, fun j => ⟨fun hj => ?_, fun hj hne => ?_⟩⟩
  · rw [State.finishNow_eq, State.setPrm, State.modQueue_modQueue]
    exact s.modQueue_onlyRan c q _ _
  · rw [hsame.finishNow_prm hr, State.prm_setPrm_same]
  · exact State.finishNow_prm_status _ c q j (by rwa [hsame.word])
  · rw [hsame.finishNow_prm hj, State.prm_setPrm_ne _ _ _ _ hne]

theorem patchRegisters : Claims.PatchRegisters := fun s c q =>
  ⟨fun h => answers_due rfl h (s.setPrm_finishNow c q _ _), fun h => answers_due rfl h (s.setPrm_finishNow c q _ _),
   fun h => answers_due rfl h (s.setPrm_finishNow c q _ _), fun h => answers_due rfl h (s.setPrm_finishNow c q _ _)⟩

/-- Posted writes are added at the end; of the queue only what it keeps of host pages differs. -/
theorem State.postWrites_spec (s : State) (c q : Nat) (way : Target → List Nat) (l : List (Nat × Target × List Byte)) :
    let t := s.postWrites c q way l
    (∃ ps : List Posted, t.posted = s.posted ++ ps ∧
      ps.map (fun p => (p.c, p.q, p.caddr, p.target, p.bytes)) = l.map (fun e => (c, q, e.1, e.2.1, e.2.2))) ∧
    SameEntry c q s t ∧ (∀ r, t.prm c q r = s.prm c q r) ∧ t.mem = s.mem ∧ t.host = s.host ∧ t.ops = s.ops := by
  unfold State.postWrites State.postAll
  dsimp only
  split
  · refine ⟨⟨_, rfl, ?_⟩, ?_, fun r => ?_, rfl, rfl, rfl⟩
    · simp only [List.map_map]
      rfl
    · refine ⟨?_, ?_, ?_, ?_, ?_⟩
      · exact State.nextMacro_modQueue _ c q _ fun _ => rfl
      all_goals rw [State.modQueue_same]; rfl
    · rw [State.prm, State.modQueue_same]
      rfl
  · refine ⟨⟨_, rfl, ?_⟩, ⟨rfl, rfl, rfl, rfl, rfl⟩, fun r => rfl, rfl, rfl, rfl⟩
    simp only [List.map_map]
    rfl

theorem patchLoad_aligned {s u : State} {c q : Nat} {ecc : Found} {bs : List Byte}
    (ha : patchAligned (s.nextMacro c q) = true) (hread : s.readCtx c ecc (fld (s.nextMacro c q) 111 64) 8 = (.ok bs, u)) :
    patchLoad s c q ecc =
      (u.setPrm c q (patchDst (s.nextMacro c q)) (BitVec.ofNat 64 (leNat bs))).finishNow c q := by
  simp [patchLoad, ha, hread]

theorem patchStore_aligned {s u : State} {c q : Nat} {l : List (Nat × Target × List Byte)}
    (ha : patchAligned (s.nextMacro c q) = true)
    (htargets : s.writeTargets c (fld (s.nextMacro c q) 111 64)
      (leBytes 8 (s.prm c q (patchSrc (s.nextMacro c q))).toNat) = (.ok l, u)) :
    patchStore s c q = (u.postWrites c q u.patchWay l).finishNow c q := by
  simp [patchStore, ha, htargets]

theorem patchLoad_misaligned {s : State} {c q : Nat} (ecc : Found) (ha : patchAligned (s.nextMacro c q) = false) :
    patchLoad s c q ecc = s.faultNow c q (.misaligned, 0) := by simp [patchLoad, ha]

theorem patchStore_misaligned {s : State} {c q : Nat} (ha : patchAligned (s.nextMacro c q) = false) :
    patchStore s c q = s.faultNow c q (.misaligned, 0) := by simp [patchStore, ha]

theorem patchMemory : Claims.PatchMemory := by
  intro s c q ecc w a
  refine ⟨fun h ha bs u hread => answers_due rfl h ?_, fun h ha l u htargets => answers_due rfl h ?_,
    fun ha => ⟨fun h => answers_due rfl h ?_, fun h => answers_due rfl h ?_⟩⟩
  · have hlook : OnlyLooked s u := by
      have hl := s.readCtx_looked c ecc a 8
      rwa [hread] at hl
    rw [patchLoad_aligned ha hread]
    have hsame := (hlook.sameEntry c q).trans (u.setPrm_sameEntry c q (patchDst w) (BitVec.ofNat 64 (leNat bs)))
    obtain ⟨hmem, hhost, hposted, hops, -⟩ := hlook.data
    obtain ⟨hmem', hhost', hposted', hops'⟩ :=
      (u.setPrm c q (patchDst w) (BitVec.ofNat 64 (leNat bs))).finishNow_data c q
    refine ⟨fun hr => ?_, fun r hr hne => ?_, hsame.finishNow, hmem'.trans hmem, hhost'.trans hhost,
      hposted'.trans hposted, hops'.trans hops⟩
    · rw [hsame.finishNow_prm hr, State.prm_setPrm_same]
    · rw [hsame.finishNow_prm hr, State.prm_setPrm_ne _ _ _ _ hne, hlook.prm]
  · have hlook : OnlyLooked s u := by
      have hl := s.writeTargets_looked c a (leBytes 8 (s.prm c q (patchSrc w)).toNat)
      rwa [htargets] at hl
    rw [patchStore_aligned ha htargets]
    obtain ⟨⟨ps, hps, hl⟩, hkeep, hprm, hmem', hhost', hops'⟩ := u.postWrites_spec c q u.patchWay l
    have hsame := (hlook.sameEntry c q).trans hkeep
    obtain ⟨hmem, hhost, hposted, hops, -⟩ := hlook.data
    obtain ⟨fmem, fhost, fposted, fops⟩ := (u.postWrites c q u.patchWay l).finishNow_data c q
    refine ⟨⟨ps, ?_, hl⟩, fun r hr => ?_, hsame.finishNow, fmem.trans (hmem'.trans hmem),
      fhost.trans (hhost'.trans hhost), fops.trans (hops'.trans hops)⟩
    · rw [fposted, hps, hposted]
    · rw [hsame.finishNow_prm hr, hprm, hlook.prm]
  · rw [patchLoad_misaligned ecc ha]
    exact (s.faultNow_ends c q _).1
  · rw [patchStore_misaligned ha]
    exact s.faultNow_ends c q _

/-- Settles O11: the queue engine's success and fault, applied to the six operations. -/
theorem patchesChangeRegistersAndMemory : Obligations.PatchesChangeRegistersAndMemory := ⟨patchRegisters, patchMemory⟩

end Sys2Proof.Machine
end

section
/-!
BanksLoadSwapAndScrub (R64, R66, R68, Table 3-2): the two banks of a plate, and the events that change one or both.
-/

namespace Sys2Proof.Machine

open Sys2Proof

/-! ### The two banks of a plate -/

@[simp] theorem Plate.bank_setBank_same (p : Plate) (b : Bool) (k : Bank) : (p.setBank b k).bank b = k := by cases b <;> rfl
@[simp] theorem Plate.bank_setBank_other (p : Plate) (b : Bool) (k : Bank) : (p.setBank b k).bank (!b) = p.bank (!b) := by
  cases b <;> rfl
@[simp] theorem Plate.bank_setBank_not (p : Plate) (b : Bool) (k : Bank) : (p.setBank (!b) k).bank b = p.bank b := by
  cases b <;> rfl

/-! ### An operation that ends -/

/-- A change of an operation that keeps its names is found under them. -/
theorem State.op_modOp (s : State) (c q i : Nat) (f : Op → Op)
    (hf : ∀ o, (f o).c = o.c ∧ (f o).q = o.q ∧ (f o).idx = o.idx) : (s.modOp c q i f).op c q i = (s.op c q i).map f := by
  unfold State.op State.modOp
  dsimp only
  induction s.ops with
  | nil => rfl
  | cons o l ih =>
    obtain ⟨hc, hq, hi⟩ := hf o
    by_cases ho : o.c = c ∧ o.q = q ∧ o.idx = i
    · simp [ho, hc, hq, hi]
    · rw [List.map_cons, if_neg ho, List.find?_cons_of_neg (by simpa using ho), List.find?_cons_of_neg (by simpa using ho),
        ih]

theorem State.op_endOp_success {s : State} {c q i : Nat} {o : Op} (h : s.op c q i = some o) (w : BitVec 64) :
    (s.endOp c q i none w).op c q i = some { o with fin := some .success, sword := w, held := [] } := by
  refine (s.op_modOp c q i (fun o => { o with fin := some .success, sword := w, held := [] })
    fun _ => ⟨rfl, rfl, rfl⟩).trans ?_
  rw [h]
  rfl

theorem State.op_endOp_fault {s : State} {c q i : Nat} {o : Op} (h : s.op c q i = some o) (f : Flt) (w : BitVec 64) :
    (s.endOp c q i (some f) w).op c q i = some { o with fin := some f.1, detail := BitVec.ofNat 64 f.2, held := [] } := by
  refine (s.op_modOp c q i (fun o => { o with fin := some f.1, detail := BitVec.ofNat 64 f.2, held := [] })
    fun _ => ⟨rfl, rfl, rfl⟩).trans ?_
  rw [h]
  rfl

/-! ### LOAD -/

theorem State.loadOp_op {s : State} {c q i : Nat} {o : Op} {r : LoadRun} (h : s.loadOp c q i = some (o, r)) :
    s.op c q i = some o := by
  unfold State.loadOp at h
  split at h
  · split at h
    · cases h
      assumption
    · cases h
  · cases h

/-- The end of a LOAD changes one bank of one plate and its own operation. -/
theorem load_ends {s u : State} (hlook : OnlyLooked s u) (c q i g : Nat) (b : Bool) (k : Plate → Bank) (f : Option Flt) :
    let t := (u.modPlate g fun p => p.setBank b (k p)).endOp c q i f 0
    (t.plate g).bank b = k (s.plate g) ∧ (t.plate g).bank (!b) = (s.plate g).bank (!b) ∧
    (∀ j, j ≠ g → t.plate j = s.plate j) ∧ t.mem = s.mem ∧ t.posted = s.posted ∧ SameSystem s t := by
  intro t
  obtain ⟨hmem, -, hposted, -, hplates⟩ := hlook.data
  have hplate : ∀ j, u.plate j = s.plate j := fun j => by rw [State.plate, hplates]; rfl
  have hg : t.plate g = (s.plate g).setBank b (k (s.plate g)) := by
    rw [← hplate g]
    exact u.modPlate_same g fun p => p.setBank b (k p)
  have hsys : SameSystem u t := by constructor <;> rfl
  refine ⟨by rw [hg, Plate.bank_setBank_same], by rw [hg, Plate.bank_setBank_other], fun j hj => ?_, hmem, hposted,
    hlook.system.trans hsys⟩
  rw [← hplate j]
  exact u.modPlate_ne (fun p => p.setBank b (k p)) hj

theorem loadsComplete : Claims.LoadsComplete := by
  intro s u c q i ecc o r hready hop
  have hlooked : ∀ x, s.readMat c .plate ⟨0, 0⟩ ecc o.da 0 = (x, u) → OnlyLooked s u := fun x hx => by
    have hl := s.readMat_looked c .plate ⟨0, 0⟩ ecc o.da 0
    rwa [hx] at hl
  have hfound : OnlyLooked s u → ∀ f, (u.modPlate r.g f).op c q i = some o := fun hlook f => by
    obtain ⟨-, -, -, hops, -⟩ := hlook.data
    rw [State.op, State.modPlate_ops, hops]
    exact State.loadOp_op hop
  refine ⟨fun w hread => ?_, fun f hread => ?_⟩
  · have hlook := hlooked _ hread
    refine answers_due rfl hready ?_
    have heff : loadCompleteEffect s c q i ecc = (u.modPlate r.g fun p => p.setBank r.toB (mkBank (p.bank r.toB)
        ((List.range r.k).flatMap (fun i => (w.drop (i * o.da.cols)).take r.n)))).endOp c q i none 0 := by
      simp only [loadCompleteEffect, hop, hread]
    rw [heff]
    obtain ⟨hbank, hkept⟩ := load_ends hlook c q i r.g r.toB _ none
    exact ⟨hbank, by rw [hbank]; rfl, State.op_endOp_success (hfound hlook _) 0, hkept⟩
  · have hlook := hlooked _ hread
    refine answers_due rfl hready ?_
    have heff : loadCompleteEffect s c q i ecc =
        (u.modPlate r.g fun p => p.setBank r.toB {}).endOp c q i (some f) 0 := by
      simp only [loadCompleteEffect, hop, hread]
    rw [heff]
    obtain ⟨hbank, hkept⟩ := load_ends hlook c q i r.g r.toB (fun _ => {}) (some f)
    exact ⟨hbank, State.op_endOp_fault (hfound hlook _) f 0, hkept⟩

/-! ### SWAP (R66) -/

theorem Plate.swapped_brings_in (p : Plate) :
    (p.swapped.bank p.targetB).state = .active ∧ (p.swapped.bank p.targetB).w = p.other.w := by
  simp [Plate.swapped, Plate.other]

theorem Plate.swapped_puts_back (p : Plate) :
    ((p.bank (!p.targetB)).state = .active → (p.swapped.bank (!p.targetB)).state = .shadow) ∧
    ((p.bank (!p.targetB)).state = .activeUpset → p.swapped.bank (!p.targetB) = {}) := by
  refine ⟨fun h => ?_, fun h => ?_⟩ <;> simp [Plate.swapped, h]

/-- Each plate of a list without repetition is changed once, any other not at all, and nothing but plates differs. -/
theorem State.each_modPlate (s : State) (gs : List Nat) (f : Plate → Plate) (h : gs.Nodup) :
    (∃ x, s.each gs (fun s g => s.modPlate g f) = { s with plates := x }) ∧
    (∀ g ∈ gs, (s.each gs fun s g => s.modPlate g f).plate g = f (s.plate g)) ∧
    ∀ g, g ∉ gs → (s.each gs fun s g => s.modPlate g f).plate g = s.plate g := by
  induction gs generalizing s with
  | nil => exact ⟨⟨s.plates, rfl⟩, fun g hg => (List.not_mem_nil hg).elim, fun _ _ => rfl⟩
  | cons j gs ih =>
    obtain ⟨hj, hnodup⟩ := List.nodup_cons.mp h
    obtain ⟨⟨x, hx⟩, hin, hout⟩ := ih (s.modPlate j f) hnodup
    refine ⟨⟨x, hx⟩, fun g hg => ?_, fun g hg => ?_⟩
    · rcases List.mem_cons.mp hg with rfl | hg
      · exact (hout g hj).trans (s.modPlate_same g f)
      · exact (hin g hg).trans (congrArg f (s.modPlate_ne f fun heq => hj (heq ▸ hg)))
    · obtain ⟨hne, hg⟩ := not_or.mp (mt List.mem_cons.mpr hg)
      exact (hout g hg).trans (s.modPlate_ne f hne)

/-- A SWAP whose plates all have a bank to bring in takes effect on every one of them together. -/
theorem swapTakes {s : State} {c q i : Nat} {gs : List Nat} (hop : s.swapOp c q i = some gs) (hnodup : gs.Nodup)
    (hfull : ∀ g ∈ gs, (s.plate g).other.state ≠ .empty) :
    (∀ g ∈ gs, (swapTake s c q i).plate g = (s.plate g).swapped) ∧
    (∀ g, g ∉ gs → (swapTake s c q i).plate g = s.plate g) ∧ (swapTake s c q i).mem = s.mem ∧
    SameSystem s (swapTake s c q i) := by
  have hnone : gs.any (fun g => decide ((s.plate g).other.state = .empty)) = false := by
    simpa using hfull
  obtain ⟨⟨x, hx⟩, hin, hout⟩ := s.each_modPlate gs Plate.swapped hnodup
  have htake : swapTake s c q i = (s.each gs (fun s g => s.modPlate g Plate.swapped)).endOp c q i none 0 := by
    simp [swapTake, hop, hnone]
  rw [htake]
  refine ⟨hin, hout, ?_, ?_⟩
  · rw [hx]; rfl
  · rw [hx]; constructor <;> rfl

/-! ### The bank scrubber (R68) -/

theorem Bank.upset_active {b : Bank} (h : b.state = .active) : b.upset.state = .activeUpset ∧ b.upset.w = b.w := by
  simp [Bank.upset, h]
theorem Bank.upset_shadow {b : Bank} (h : b.state = .shadow) : b.upset = {} := by simp [Bank.upset, h]
theorem Bank.upset_stays {b : Bank} (h : b.state = .loading ∨ b.state = .activeUpset) : b.upset = b := by
  rcases h with h | h <;> simp [Bank.upset, h]

/-- An event of a plate that its owner alone hears of is a record. -/
theorem State.plateEvent_recordsOnly (s : State) (kind g d : Nat) : RecordsOnly s (s.plateEvent kind g d false) := by
  unfold State.plateEvent
  dsimp only
  split
  · exact s.post_recordsOnly _
  · exact RecordsOnly.refl s

theorem RecordsOnly.plates_system {s t : State} (h : RecordsOnly s t) : t.plates = s.plates ∧ SameSystem s t := by
  obtain ⟨⟨m, p, f, x, c, n, rfl⟩, -, -⟩ := h
  exact ⟨rfl, by constructor <;> rfl⟩

/-- A mismatch: its plate counts it, its bank is upset, and a bank that serves or waits is told of. -/
theorem bankScrub_mismatch (s : State) (g bank row : Nat) :
    let isB := decide (bank = 1)
    let t := bankScrubEffect s g bank row true
    t.plate g = { (s.plate g).setBank isB ((s.plate g).bank isB).upset with upsets := satInc 32 (s.plate g).upsets } ∧
    (∀ j, j ≠ g → t.plate j = s.plate j) ∧ SameSystem s t ∧
    (((s.plate g).bank isB).state ≠ .active → ((s.plate g).bank isB).state ≠ .shadow → t.out = s.out ∧ t.ctxs = s.ctxs) := by
  intro isB t
  let u := s.modPlate g fun p => { p.setBank isB ((s.plate g).bank isB).upset with upsets := satInc 32 p.upsets }
  have hu : t = if ((s.plate g).bank isB).state = .active ∨ ((s.plate g).bank isB).state = .shadow
      then u.plateEvent 0x09 g (g + bank * 2 ^ 8 + row * 2 ^ 16) false else u := rfl
  have hplates : t.plates = u.plates ∧ SameSystem u t := by
    rw [hu]
    split
    · exact (u.plateEvent_recordsOnly _ _ _).plates_system
    · exact (RecordsOnly.refl u).plates_system
  have hplate : ∀ j, t.plate j = u.plate j := fun j => by rw [State.plate, hplates.1]; rfl
  have hsys : SameSystem s t := by
    have hmod : SameSystem s u := by constructor <;> rfl
    exact hmod.trans hplates.2
  refine ⟨(hplate g).trans (s.modPlate_same g _), fun j hj => (hplate j).trans (s.modPlate_ne _ hj),
    hsys, fun ha hs => ?_⟩
  rw [hu, if_neg (by simp [ha, hs])]
  exact ⟨rfl, rfl⟩

theorem swapsAndBankScrubs : Claims.SwapsAndBankScrubs := by
  intro s
  refine ⟨fun c q i gs hdue hop hnodup hfull => answers_due rfl hdue ?_, fun g bank row mismatch hready => ?_⟩
  · obtain ⟨hin, hout, hmem, hsys⟩ := swapTakes hop hnodup hfull
    refine ⟨fun g hg => ?_, hout, hmem, hsys⟩
    obtain ⟨hstate, hw⟩ := (s.plate g).swapped_brings_in
    obtain ⟨hback, hempty⟩ := (s.plate g).swapped_puts_back
    rw [hin g hg]
    exact ⟨hstate, hw, hback, hempty⟩
  · refine ⟨fun hm => ?_, fun hm => answers_due rfl hready ?_⟩
    · subst hm
      exact congrArg Host.Outcome.next (ite_self s)
    · subst hm
      obtain ⟨hg, hothers, hsys, hquiet⟩ := bankScrub_mismatch s g bank row
      have hbank : ∀ b, ((bankScrubEffect s g bank row true).plate g).bank b =
          ((s.plate g).setBank (decide (bank = 1)) ((s.plate g).bank (decide (bank = 1))).upset).bank b := fun b => by
        rw [hg]
        cases b <;> rfl
      simp only [hbank, Plate.bank_setBank_same, Plate.bank_setBank_other]
      refine ⟨Bank.upset_active, Bank.upset_shadow, fun h => ⟨Bank.upset_stays h, hquiet ?_ ?_⟩, trivial, by rw [hg], hothers, hsys⟩
      · rcases h with h | h <;> simp [h]
      · rcases h with h | h <;> simp [h]

/-- Settles O24: one bank of one plate for a LOAD and the scrubber, both banks of the plates it names for a SWAP. -/
theorem banksLoadSwapAndScrub : Obligations.BanksLoadSwapAndScrub := ⟨loadsComplete, swapsAndBankScrubs⟩

end Sys2Proof.Machine
end

section
/-!
Arbitration (R230 to R232): a window hands out exactly 64 slots, counted through the floors, the two rounds of deficit round
robin and what is left over.
-/

namespace Sys2Proof.Machine

open Sys2Proof

/-! ### The sum of a table of counts -/

/-- What a table of counts adds up to. -/
def tsum (t : Tab Nat) : Nat := (t.map (·.2)).sum

theorem tsum_nil : tsum [] = 0 := rfl

theorem tsum_tins (t : Tab Nat) (k v : Nat) : tsum (tins t k v) = tsum t + v := by
  induction t with
  | nil => simp [tins, tsum]
  | cons e t ih =>
    simp only [tsum, List.map_cons, List.sum_cons] at ih ⊢
    unfold tins
    split
    · simp only [List.map_cons, List.sum_cons]; omega
    · simp only [List.map_cons, List.sum_cons]; omega

theorem tsum_tdel {t : Tab Nat} (h : tsorted t = true) (k : Nat) : tsum (tdel t k) + tget 0 t k = tsum t := by
  induction t with
  | nil => rfl
  | cons e t ih =>
    have ih := ih (tsorted_tail h)
    by_cases hk : k = e.1
    · have habsent : ∀ f ∈ t, f.1 ≠ k := fun f hf => by have := tsorted_head h f hf; omega
      have hdel : tdel (e :: t) k = t := by
        rw [← tdel_of_absent habsent]
        simp [tdel, hk]
      rw [hdel]
      simp only [tget, tsum, List.map_cons, List.sum_cons, if_pos hk]
      omega
    · have hdel : tdel (e :: t) k = e :: tdel t k := by simp [tdel, Ne.symm hk]
      rw [hdel]
      simp only [tget, tsum, List.map_cons, List.sum_cons, if_neg hk] at ih ⊢
      omega

/-- A write of one count. -/
theorem tsum_tset {t : Tab Nat} (h : twf 0 t = true) (k v : Nat) : tsum (tset 0 t k v) + tget 0 t k = tsum t + v := by
  have hdel := tsum_tdel (twf_sorted h) k
  unfold tset
  split
  · omega
  · rw [tsum_tins]; omega

theorem tsum_tmod_add {t : Tab Nat} (h : twf 0 t = true) (k g : Nat) : tsum (tmod 0 t k (· + g)) = tsum t + g := by
  have := tsum_tset h k (tget 0 t k + g)
  rw [tmod]
  omega

/-! ### Deficit round robin -/

/-- Slots that are granted and slots that are left stay the same in sum. -/
def Drr.Conserves (x y : Drr) : Prop := twf 0 y.grant = true ∧ tsum y.grant + y.slots = tsum x.grant + x.slots

theorem Drr.visit_conserves (wt : Nat → Nat) (x : Drr) (h : twf 0 x.grant = true) : x.Conserves (x.visit wt) := by
  unfold Drr.visit Drr.Conserves
  dsimp only
  split
  · exact ⟨h, rfl⟩
  split
  · exact ⟨h, rfl⟩
  · dsimp only
    generalize hg : min (if tget 0 x.deficit x.next = 0 then wt x.next else tget 0 x.deficit x.next)
      (min (tget 0 x.demand x.next) x.slots) = g
    have hle : g ≤ x.slots := by omega
    rw [tsum_tmod_add h]
    exact ⟨twf_tmod h x.next (· + g), by omega⟩

/-- What a round hands out of its slots, it grants. -/
theorem drr_conserves (wt : Nat → Nat) (next : Nat) (deficit demand : Tab Nat) (slots : Nat) :
    tsum (drr wt ⟨next, deficit, demand, slots, []⟩).grant + (drr wt ⟨next, deficit, demand, slots, []⟩).slots = slots := by
  have h := fold_holds (Drr.Conserves ⟨next, deficit, demand, slots, []⟩) (fun x _ => x.visit wt) (List.range 640)
    ⟨next, deficit, demand, slots, []⟩ ⟨rfl, rfl⟩ fun x _ _ hx => by
      obtain ⟨hwf, hsum⟩ := hx
      obtain ⟨hwf', hsum'⟩ := x.visit_conserves wt hwf
      exact ⟨hwf', hsum'.trans hsum⟩
  exact h.2.trans (Nat.zero_add slots)

/-! ### Floors -/

/-- One master's turn at the floors: what is left of the window and of the demands, the grants, the slots that idle. -/
def floorTurn (s : State) (d : Nat) (r : Nat × Demand × Tab Nat × Nat) (m : Nat) : Nat × Demand × Tab Nat × Nat :=
  let (left, w, grants, idle) := r
  let f := min (s.floor d m) left
  let gi := min f (tget 0 w.imp m)
  let gm := min (f - gi) (tget 0 w.mar m)
  let held := if m < 8 ∧ (s.ten m).floorsHeld = true then f - gi - gm else 0
  (left - gi - gm - held, { w with imp := tmod 0 w.imp m (· - gi), mar := tmod 0 w.mar m (· - gm) },
    tset 0 grants m (gi + gm), idle + held)

theorem floorGrants_eq (s : State) (d slots : Nat) (w : Demand) :
    floorGrants s d slots w = masters.foldl (floorTurn s d) (slots, w, [], 0) := rfl

/-- What one turn takes of the window is granted or idles; a floor that fits is met as far as the demand goes. -/
theorem floorTurn_spec (s : State) (d left idle m : Nat) (w : Demand) (grants : Tab Nat) :
    ∃ left' w' g idle', floorTurn s d (left, w, grants, idle) m = (left', w', tset 0 grants m g, idle') ∧
      g + idle' + left' = idle + left ∧ left ≤ left' + s.floor d m ∧
      (∀ j, j ≠ m → tget 0 w'.imp j = tget 0 w.imp j ∧ tget 0 w'.mar j = tget 0 w.mar j) ∧
      (s.floor d m ≤ left → g = min (s.floor d m) (tget 0 w.imp m + tget 0 w.mar m)) := by
  unfold floorTurn
  dsimp only
  generalize s.floor d m = f
  refine ⟨_, _, _, _, rfl, ?_, ?_, fun j hj => ?_, ?_⟩
  · split <;> omega
  · split <;> omega
  · exact ⟨tget_tmod_ne 0 w.imp (· - _) hj, tget_tmod_ne 0 w.mar (· - _) hj⟩
  · omega

/-- The turns of several masters. -/
theorem floorTurns_spec (s : State) (d : Nat) (ms : List Nat) (left idle : Nat) (w : Demand) (grants : Tab Nat)
    (hnodup : ms.Nodup) (hwf : twf 0 grants = true) (hfresh : ∀ m ∈ ms, tget 0 grants m = 0) :
    ∃ left' w' grants' idle', ms.foldl (floorTurn s d) (left, w, grants, idle) = (left', w', grants', idle') ∧
      tsum grants' + idle' + left' = tsum grants + idle + left ∧
      (∀ j, j ∉ ms → tget 0 grants' j = tget 0 grants j) ∧
      ((ms.map (s.floor d)).sum ≤ left →
        ∀ m ∈ ms, tget 0 grants' m = min (s.floor d m) (tget 0 w.imp m + tget 0 w.mar m)) := by
  induction ms generalizing left idle w grants with
  | nil => exact ⟨left, w, grants, idle, rfl, rfl, fun _ _ => rfl, fun _ m hm => (List.not_mem_nil hm).elim⟩
  | cons m ms ih =>
    obtain ⟨hm, hnodup⟩ := List.nodup_cons.mp hnodup
    obtain ⟨left₁, w₁, g, idle₁, hturn, hsum₁, hleft, hdemand, hmet⟩ := floorTurn_spec s d left idle m w grants
    have hne : ∀ j ∈ ms, j ≠ m := fun j hj heq => hm (heq ▸ hj)
    obtain ⟨left', w', grants', idle', hfold, hsum, hkeep, hrest⟩ := ih left₁ idle₁ w₁ (tset 0 grants m g) hnodup
      (twf_tset hwf m g) fun j hj => by
        rw [tget_tset_ne 0 grants g (hne j hj)]
        exact hfresh j (List.mem_cons_of_mem m hj)
    refine ⟨left', w', grants', idle', by rw [List.foldl_cons, hturn, hfold], ?_, fun j hj => ?_, fun hfit j hj => ?_⟩
    · have hset := tsum_tset hwf m g
      rw [hfresh m List.mem_cons_self] at hset
      omega
    · obtain ⟨hjm, hj⟩ := not_or.mp (mt List.mem_cons.mpr hj)
      rw [hkeep j hj, tget_tset_ne 0 grants g hjm]
    · simp only [List.map_cons, List.sum_cons] at hfit
      rcases List.mem_cons.mp hj with rfl | hj
      · rw [hkeep j hm, tget_tset_same]
        exact hmet (by omega)
      · obtain ⟨himp, hmar⟩ := hdemand j (hne j hj)
        rw [hrest (by omega) j hj, himp, hmar]

/-! ### A window -/

theorem scrubSlots_le (s : State) (d left : Nat) (w : Demand) : s.scrubSlots d left w ≤ left := by
  unfold State.scrubSlots
  split
  · exact Nat.min_le_right _ _
  · exact Nat.zero_le _

theorem scrubSlots_link (s : State) {d : Nat} (left : Nat) (w : Demand) (h : d < 48) : s.scrubSlots d left w = 0 :=
  if_neg fun hd => absurd hd.1 (by omega)

/-- The slots of a window: `p` of plant I/O, `m` and later `more` of management, `nf` at the floors and `held` idle there,
`nx` and `ny` of the two classes, `scrub` of the scrubbers. -/
theorem slots_add_up {p m left nf held nx sx o ny sy more scrub : Nat} (hp : p ≤ 4) (hm : m ≤ 2)
    (hfloor : nf + held + left = 64 - p - m) (himp : nx + sx = left) (ho : o ≤ sx) (hmar : ny + sy = o)
    (hmore : more ≤ sx - o + sy) (hscrub : scrub ≤ sx - o + sy - more) :
    p + (m + more) + nf + nx + ny + scrub + (held + (sx - o + sy - more - scrub)) = 64 := by omega

/-- Every slot of a window has its use. -/
theorem arbitrate_spec {s : State} {d : Nat} {a : Arb} {w : Demand} {b : Arb} (hb : arbitrate s d a w = b) :
    b.plant + b.mgmt + tsum b.floor + tsum b.imp + tsum b.mar + b.scrub + b.idle = 64 ∧
    (d < 48 → b.scrub = 0) ∧ b.plant = min w.plant 4 ∧ min w.mgmt 2 ≤ b.mgmt ∧ b.mgmt ≤ w.mgmt ∧
    ((masters.map (s.floor d)).sum ≤ 58 →
      ∀ m, m < 9 → tget 0 b.floor m = min (s.floor d m) (tget 0 w.imp m + tget 0 w.mar m)) := by
  obtain ⟨left, w', floors, held, hfold, hsum, -, hmet⟩ := floorTurns_spec s d masters (64 - min w.plant 4 - min w.mgmt 2) 0 w []
    List.nodup_range rfl fun _ _ => rfl
  have himp := drr_conserves s.weight a.nextImp a.deficitImp w'.imp left
  unfold arbitrate at hb
  dsimp only at hb
  rw [floorGrants_eq, hfold] at hb
  dsimp only at hb
  generalize drr s.weight ⟨a.nextImp, a.deficitImp, w'.imp, left, []⟩ = x at himp hb
  generalize s.marginOffer d left = offer at hb
  have hmar := drr_conserves s.weight a.nextMar a.deficitMar w'.mar (min x.slots offer)
  generalize drr s.weight ⟨a.nextMar, a.deficitMar, w'.mar, min x.slots offer, []⟩ = y at hmar hb
  generalize hrest : x.slots - min x.slots offer + y.slots -
    min (w.mgmt - min w.mgmt 2) (x.slots - min x.slots offer + y.slots) = rest at hb
  have hscrub := scrubSlots_le s d rest w
  have hlink := fun h => scrubSlots_link s (d := d) rest w h
  generalize s.scrubSlots d rest w = scrub at hscrub hlink hb
  subst hb
  rw [tsum_nil, Nat.zero_add] at hsum
  subst hrest
  refine ⟨?_, hlink, rfl, Nat.le_add_right _ _, ?_, fun hfit m hm => hmet (hfit.trans ?_) m (List.mem_range.mpr hm)⟩
  · exact slots_add_up (Nat.min_le_right _ _) (Nat.min_le_right _ _) hsum himp (Nat.min_le_left _ _) hmar
      (Nat.min_le_right _ _) hscrub
  · dsimp only
    omega
  · clear hmet hfit hfold
    omega

theorem arbitrationHandsOutEverySlot : Claims.ArbitrationHandsOutEverySlot := by
  intro s d w hd
  refine answers_due rfl (decide_eq_true hd) ?_
  dsimp only
  rw [tget_tset_same]
  obtain ⟨hsum, hscrub, hplant, hmgmt, hmgmt', hfloor⟩ := arbitrate_spec (s := s) (d := d) (a := tget {} s.arb d) (w := w) rfl
  exact ⟨hsum, hscrub, hplant, hmgmt, hmgmt', hfloor, fun j hj => tget_tset_ne _ _ _ hj, rfl⟩

end Sys2Proof.Machine
end

section
/-!
ArbitrationScrubbersAndWrites, its scrubbers and posted writes (R18, R22, R23, R26 to R30, R246): the slot a scrubber takes,
what it finds in a unit, and the end of a posted write.
-/

namespace Sys2Proof.Machine

open Sys2Proof

/-! ### Units of the error code (R18, R20) -/

theorem eccBase_of_aligned {a : Nat} (h : a % eccUnit a = 0) : eccBase a = a :=
  Nat.div_mul_cancel (Nat.dvd_of_mod_eq_zero h)

theorem lpWindow_twice_le_stockBase (k off : Nat) : 2 * lpWindow ≤ stockBase k + off := by
  unfold lpWindow stockBase
  omega

theorem eccBase_stock {k off : Nat} (h : off % 8 = 0) : eccBase (stockBase k + off) = stockBase k + off := by
  refine eccBase_of_aligned ?_
  rw [eccUnit, if_neg (Nat.not_lt.mpr (lpWindow_twice_le_stockBase k off)), stockBase]
  omega

theorem State.lt_of_isLp {s : State} {a : Nat} (h : s.isLp a = true) : a < 2 * lpWindow := by
  by_contra hge
  unfold lpWindow at hge
  unfold State.isLp State.region lpWindow at h
  rw [if_neg (by omega), if_neg (by omega)] at h
  split at h
  · next heq => repeat' split at heq
                all_goals cases heq
  · cases h

theorem eccBase_lp {a : Nat} (hlt : a < 2 * lpWindow) (h : a % 64 = 0) : eccBase a = a := by
  refine eccBase_of_aligned ?_
  rwa [eccUnit, if_pos hlt]

/-! ### A scrubber's turn -/

/-- The turn takes one slot of its port. -/
theorem State.takeScrub_slot {s : State} {k : Nat} (h : s.scrubOpen k = true) :
    (tget {} (s.takeScrub k).arb (48 + k)).scrub + 1 = (tget {} s.arb (48 + k)).scrub := by
  have hpos : 0 < (tget {} s.arb (48 + k)).scrub := of_decide_eq_true (Bool.and_eq_true_iff.mp h).2
  rw [State.takeScrub, tget_tmod_same]
  exact Nat.sub_add_cancel hpos

/-- An error that a scrubber cannot correct, in a unit that is not poisoned yet (R29). -/
theorem State.scrubBad_new {s : State} {a : Nat} (die : Nat) (hbase : eccBase a = a) (h : a ∉ s.poison) :
    ∃ e : Rec, e.kind = 0x08 ∧
      s.scrubBad a die = { s.countBad a with poison := s.poison ++ [a], out := s.out ++ [.superEvent e] } := by
  refine ⟨{ (s.markPoison a).mkRec 0x08 with die := die, detail := BitVec.ofNat 64 a, q := 15 }, rfl, ?_⟩
  rw [State.scrubBad, hbase, if_neg h]
  simp only [State.markPoison, hbase, if_neg h]
  rfl

theorem State.countBad_stock (s : State) {a : Nat} (h : 2 * lpWindow ≤ a) : s.countBad a =
    { s with memStat := { s.memStat with stUncorr := satInc 32 s.memStat.stUncorr, lastBad := a } } := by
  simp only [State.countBad, if_neg (Nat.not_lt.mpr h)]

theorem State.countBad_lp (s : State) {a : Nat} (h : a < 2 * lpWindow) : s.countBad a =
    { s with memStat := { s.memStat with lpUncorr := satInc 32 s.memStat.lpUncorr, lastBad := a } } := by
  simp only [State.countBad, if_pos h]

theorem State.countCorrected_stock (s : State) {a : Nat} (h : 2 * lpWindow ≤ a) : s.countCorrected a =
    { s with memStat := { s.memStat with stCorr := satInc 32 s.memStat.stCorr } } := by
  simp only [State.countCorrected, if_neg (Nat.not_lt.mpr h)]

theorem State.countCorrected_lp (s : State) {a : Nat} (h : a < 2 * lpWindow) : s.countCorrected a =
    { s with memStat := { s.memStat with lpCorr := satInc 32 s.memStat.lpCorr } } := by
  simp only [State.countCorrected, if_pos h]

/-- An uncorrectable error of a stock: its unit is poisoned and the supervisor told; in the supervisor region a machine check
follows (R30). -/
theorem stockScrub_uncorrectable {u : State} {k off : Nat} (recovers : Bool) (h8 : off % 8 = 0)
    (hclean : stockBase k + off ∉ u.poison) :
    let t := stockScrub u k off .uncorrectable recovers
    t.poison = u.poison ++ [stockBase k + off] ∧ t.memStat.stUncorr = satInc 32 u.memStat.stUncorr ∧
    t.memStat.lastBad = stockBase k + off ∧ t.mem = u.mem ∧ t.arb = u.arb ∧
    ∃ e : Rec, e.kind = 0x08 ∧
      t.out = u.out ++ [.superEvent e] ++ (if off < 0x80000 then [.machineCheck k] else []) := by
  obtain ⟨e, hkind, hbad⟩ := State.scrubBad_new (0x0C + k) (eccBase_stock h8) hclean
  unfold stockScrub
  dsimp only
  rw [hbad, u.countBad_stock (lpWindow_twice_le_stockBase k off)]
  split
  · split
    · exact ⟨rfl, rfl, rfl, rfl, rfl, e, hkind, rfl⟩
    · exact ⟨rfl, rfl, rfl, rfl, rfl, e, hkind, rfl⟩
  · exact ⟨rfl, rfl, rfl, rfl, rfl, e, hkind, (List.append_nil _).symm⟩

theorem exec_stockScrub {s : State} {k off : Nat} (e : Ecc) (recovers : Bool) (hopen : s.scrubOpen k = true) (hk : k < 2)
    (hoff : off < 0x2000000) (h8 : off % 8 = 0) :
    exec (.stockScrub k off e recovers) s = .next (stockScrub (s.takeScrub k) k off e recovers) := by
  have hdue : (s.scrubOpen k && decide (k < 2) && decide (off < 0x2000000) && decide (off % 8 = 0)) = true := by
    simp [hopen, hk, hoff, h8]
  exact (congrArg (due s · _) hdue).trans (due_true _ _)

theorem exec_patrol {s : State} {a : Nat} (e : Ecc) (hopen : s.scrubOpen (a / lpWindow) = true) (hlp : s.isLp a = true)
    (h64 : a % 64 = 0) : exec (.lpddr5xPatrol a e) s = .next (patrol (s.takeScrub (a / lpWindow)) a e) := by
  have hdue : (s.scrubOpen (a / lpWindow) && s.isLp a && decide (a % 64 = 0)) = true := by simp [hopen, hlp, h64]
  exact (congrArg (due s · _) hdue).trans (due_true _ _)

theorem scrubbersReport : Claims.ScrubbersReport := by
  intro s
  refine ⟨fun k off recovers hopen hk hoff h8 => ?_, fun a hopen hlp h64 => ?_⟩
  · refine ⟨State.takeScrub_slot hopen, exec_stockScrub .clean recovers hopen hk hoff h8, ?_, fun hclean => ?_⟩
    · rw [exec_stockScrub .corrected recovers hopen hk hoff h8]
      exact congrArg _ (State.countCorrected_stock _ (lpWindow_twice_le_stockBase k off))
    · exact ⟨_, exec_stockScrub .uncorrectable recovers hopen hk hoff h8,
        stockScrub_uncorrectable (u := s.takeScrub k) recovers h8 hclean⟩
  · have hlt := State.lt_of_isLp hlp
    refine ⟨exec_patrol .clean hopen hlp h64, ?_, fun hclean => ?_⟩
    · rw [exec_patrol .corrected hopen hlp h64]
      exact congrArg _ (State.countCorrected_lp _ hlt)
    · refine ⟨_, exec_patrol .uncorrectable hopen hlp h64, ?_⟩
      obtain ⟨e, hkind, hbad⟩ := State.scrubBad_new (s := s.takeScrub (a / lpWindow)) (0x0C + a / lpWindow)
        (eccBase_lp hlt h64) hclean
      unfold patrol
      dsimp only
      rw [hbad, State.countBad_lp _ hlt]
      exact ⟨rfl, rfl, rfl, rfl, e, hkind, rfl⟩

/-! ### Posted writes (R22, R246) -/

/-- A posted write leaves those in flight. -/
def State.takePosted (s : State) (i : Nat) : State := { s with posted := s.posted.eraseIdx i }

theorem postedEffect_dev {s : State} {i a : Nat} {p : Posted} (e : Ecc) (hp : s.posted[i]? = some p)
    (htarget : p.target = .dev a) (hway : ∀ l ∈ p.way, (s.link l).state ≠ .down) :
    postedEffect s i e = (s.takePosted i).performDev p a e := by
  have hup : p.way.any (fun l => decide (((s.takePosted i).link l).state = .down)) = false :=
    List.any_eq_false.mpr fun l hl => mt of_decide_eq_true (hway l hl)
  have heff : postedEffect s i e = (s.takePosted i).performPosted p e := by
    rw [postedEffect, hp]
    rfl
  rw [heff, State.performPosted, hup, htarget]
  rfl

/-- Units that a write covers whole are clean after it (R27). -/
theorem unpoison_clean (l : List Nat) (a n : Nat) : ∀ u ∈ unpoison l a n, ¬ (a ≤ u ∧ u + eccUnit u ≤ a + n) := by
  intro u hu
  simpa only [Bool.not_eq_true', decide_eq_false_iff_not] using (List.mem_filter.mp hu).2

theorem State.wr_kept (s : State) (a : Nat) (bs : List Byte) :
    (s.wr a bs).posted = s.posted ∧ (s.wr a bs).poison = unpoison s.poison a bs.length ∧ (s.wr a bs).host = s.host ∧
    SameSystem s (s.wr a bs) := by
  obtain ⟨f, hf⟩ := s.wrPar_form a bs.length
  unfold State.wr
  rw [hf]
  exact ⟨rfl, rfl, rfl, by constructor <;> rfl⟩

/-- The first late failure of a context fills its record (R246, Table 10-7). -/
theorem State.lateFault_record (s : State) (c q cause : Nat) (ep : BitVec 16) (ca da : Nat)
    (h : (s.ctx c).late.valid = false) :
    let l := ((s.lateFault c q cause ep ca da).ctx c).late
    l.valid = true ∧ l.cause = cause ∧ l.q = q ∧ l.caddr = ca ∧ l.daddr = da := by
  have hrecord : ((s.lateRecord c q cause ep ca da).ctx c).late =
      { valid := true, cause := cause, q := q, epoch := ep, caddr := ca, daddr := da,
        frame := s.frame.counter.setWidth 32, count := 1 } := by
    have hctx : (s.lateRecord c q cause ep ca da).ctx c = (s.modCtx c fun x => { x with late := _ }).ctx c := rfl
    rw [hctx, State.modCtx_same, h]
    rfl
  have hlate : ((s.lateFault c q cause ep ca da).ctx c).late = ((s.lateRecord c q cause ep ca da).ctx c).late := by
    unfold State.lateFault
    dsimp only
    split
    · rw [State.modCtx_same]
    · rw [State.modQueue, State.modCtx_same, State.modCtx_same]
      rfl
  rw [hlate, hrecord]
  exact ⟨rfl, rfl, rfl, rfl, rfl⟩

theorem State.lateRecord_kept (s : State) (c q cause : Nat) (ep : BitVec 16) (ca da : Nat) :
    ∃ x y, s.lateRecord c q cause ep ca da = { s with ctxs := x, tenants := y } := ⟨_, _, rfl⟩

/-- A late failure touches contexts and tenants alone. -/
theorem State.lateFault_form (s : State) (c q cause : Nat) (ep : BitVec 16) (ca da : Nat) :
    ∃ x y, s.lateFault c q cause ep ca da = { s with ctxs := x, tenants := y } := by
  obtain ⟨x, y, hrecord⟩ := s.lateRecord_kept c q cause ep ca da
  unfold State.lateFault
  rw [hrecord]
  dsimp only
  split
  · exact ⟨_, y, rfl⟩
  · exact ⟨_, y, rfl⟩

theorem State.performDev_whole {s : State} {p : Posted} {a : Nat} (e : Ecc)
    (h : partialUnits a p.bytes.length = []) : s.performDev p a e = s.wr a p.bytes := by
  unfold State.performDev
  exact if_pos h

theorem State.performDev_poisoned {s : State} {p : Posted} {a : Nat} (e : Ecc)
    (h : ∃ u ∈ partialUnits a p.bytes.length, u ∈ s.poison) : s.performDev p a e = s.failPosted p 1 := by
  obtain ⟨u, hu, hpoison⟩ := h
  have hfind : ((partialUnits a p.bytes.length).find? (fun u => decide (u ∈ s.poison))).isSome = true :=
    List.find?_isSome.mpr ⟨u, hu, by simpa using hpoison⟩
  obtain ⟨v, hv⟩ := Option.isSome_iff_exists.mp hfind
  unfold State.performDev
  dsimp only
  rw [if_neg (List.ne_nil_of_mem hu), hv]

theorem postedWritesLand : Claims.PostedWritesLand := by
  intro s i a p e hp hready htarget hway
  have heff := postedEffect_dev e hp htarget hway
  refine ⟨fun hwhole => answers_due rfl hready ?_, fun hgone hfirst hbad => answers_due rfl hready ?_⟩
  · rw [heff, State.performDev_whole e hwhole]
    obtain ⟨hposted, hpoison, hhost, hsys⟩ := State.wr_kept (s.takePosted i) a p.bytes
    have htaken : SameSystem s (s.takePosted i) := by constructor <;> rfl
    refine ⟨hposted, fun k hk hkeep => ?_, fun b hb => State.rd_wr_outside _ hb, ?_, hhost,
      htaken.trans hsys⟩
    · rw [State.rd_wr, if_pos ⟨hkeep, Nat.le_add_right a k, Nat.add_lt_add_left hk a⟩, Nat.add_sub_cancel_left]
    · rw [hpoison]
      exact unpoison_clean _ _ _
  · rw [heff, State.performDev_poisoned (s := s.takePosted i) e hbad, State.failPosted, hgone, htarget]
    dsimp only
    obtain ⟨hvalid, hcause, hq, hca, hda⟩ := State.lateFault_record (s.takePosted i) p.c p.q 1
      p.epoch p.caddr a hfirst
    obtain ⟨x, y, hform⟩ := State.lateFault_form (s.takePosted i) p.c p.q 1 p.epoch p.caddr a
    refine ⟨?_, ?_, hvalid, hcause, hq, hca, hda, ?_⟩
    · rw [hform]
      rfl
    · rw [hform]
      rfl
    · rw [hform]
      constructor <;> rfl

/-- Settles O29: every slot counted, a scrubber's finding by its memory, a posted write by what it covers. -/
theorem arbitrationScrubbersAndWrites : Obligations.ArbitrationScrubbersAndWrites :=
  ⟨arbitrationHandsOutEverySlot, scrubbersReport, postedWritesLand⟩

end Sys2Proof.Machine
end

section
/-!
DebugUnlocksAndReaches (R366 to R370, R375): what a request of a served device answers, then each debug request by the case
that its checks find.
-/

namespace Sys2Proof.Machine

open Sys2Proof

/-! ### A request of a running device (R257, R258) -/

section Request

variable {s t : State} {via : Via} (hserved : s.served = true) (hup : s.up = true)
include hserved hup

theorem State.request_answered {f : State → Ans × State} {n v : Nat} (h : f s.accepted = (.ok (n, v), t)) :
    s.request via 0 false f = t.answer via 0 n v := by
  simp [State.request, State.perform, Config.transferLimit, hserved, hup, h]

theorem State.request_refused {f : State → Ans × State} {a : Nat} (h : f s.accepted = (.error a, t)) :
    s.request via 0 false f = t.countAbort.answer via a 0 0 := by
  simp [State.request, State.perform, Config.transferLimit, hserved, hup, h]

/-- A write that is done is answered with 0. -/
theorem exec_wrote {i : Instr} {f : State → Nat × State}
    (hexec : exec i s = .next (s.request via 0 false fun u => wrote (f u))) (h : f s.accepted = (0, t)) :
    exec i s = .next (t.answer via 0 0 0) := by
  have hf : wrote (f s.accepted) = (.ok (0, 0), t) := by rw [h]; rfl
  rw [hexec, State.request_answered hserved hup hf]

/-- A write that is refused is counted and answered with its abort. -/
theorem exec_aborted {i : Instr} {f : State → Nat × State} {a : Nat}
    (hexec : exec i s = .next (s.request via 0 false fun u => wrote (f u))) (ha : a ≠ 0) (h : f s.accepted = (a, t)) :
    exec i s = .next (t.countAbort.answer via a 0 0) := by
  have hf : wrote (f s.accepted) = (.error a, t) := by rw [h, wrote, if_neg ha]
  rw [hexec, State.request_refused hserved hup hf]

end Request

/-! ### Requests for a level and their responses (R367 to R369) -/

theorem debugRequest_sealed {s : State} (via : Via) {v : Nat} (ch : BitVec 384) (hlock : s.sec.lockout = false)
    (hl : Level.ofCode (v % 4) = .sealedLevel) : s.debugRequest via v ch = (abRange, s) := by
  simp [State.debugRequest, hlock, hl]

theorem debugRequest_closed {s : State} {via : Via} {v : Nat} (ch : BitVec 384)
    (hl : Level.ofCode (v % 4) ≠ .sealedLevel) (h : s.offers (Level.ofCode (v % 4)) = false ∨ s.grantsFull via = true) :
    s.debugRequest via v ch = (abState, s) := by
  unfold State.debugRequest
  dsimp only
  rw [if_neg hl]
  split
  · rfl
  · exact if_pos (by rcases h with h | h <;> simp [h])

theorem debugRequest_open {s : State} {via : Via} {v : Nat} (ch : BitVec 384) (hlock : s.sec.lockout = false)
    (hl : Level.ofCode (v % 4) ≠ .sealedLevel) (hoffers : s.offers (Level.ofCode (v % 4)) = true)
    (hroom : s.grantsFull via = false) :
    s.debugRequest via v ch = (0, s.modSec fun x => x.challenge ⟨via, ch, Level.ofCode (v % 4), v / 4 % 8, v / 32 % 4⟩) := by
  simp [State.debugRequest, hlock, hl, hoffers, hroom]

/-- A fresh challenge is the endpoint's only one. -/
theorem Sec.mem_challenge (x : Sec) (c d : Challenge) :
    d ∈ (x.challenge c).challenges ↔ (d ∈ x.challenges ∧ d.endpoint ≠ c.endpoint) ∨ d = c := by
  simp [Sec.challenge]

theorem debugResponse_locked {s : State} (via : Via) (sig : BitVec 768) (key : BitVec 776) (h : s.sec.lockout = true) :
    s.debugResponse via sig key = (abState, s) := by simp [State.debugResponse, h]

theorem debugResponse_none {s : State} {via : Via} (sig : BitVec 768) (key : BitVec 776) (hlock : s.sec.lockout = false)
    (hc : s.sec.challenges.find? (fun c => decide (c.endpoint = via)) = none) :
    s.debugResponse via sig key = (abSignature, s.modSec Sec.failed) := by simp [State.debugResponse, hlock, hc]

theorem debugResponse_bad {s : State} {via : Via} {sig : BitVec 768} {key : BitVec 776} {c : Challenge} {k : BitVec 776}
    (hlock : s.sec.lockout = false) (hc : s.sec.challenges.find? (fun c => decide (c.endpoint = via)) = some c)
    (hk : s.debugKey c key = some k) (hsig : sigVerify k (c.message s.sec.otp.uid) sig = false) :
    s.debugResponse via sig key = (abSignature, s.modSec Sec.failed) := by
  simp [State.debugResponse, hlock, hc, hk, hsig]

theorem debugResponse_good {s : State} {via : Via} {sig : BitVec 768} {key : BitVec 776} {c : Challenge} {k : BitVec 776}
    (hlock : s.sec.lockout = false) (hc : s.sec.challenges.find? (fun c => decide (c.endpoint = via)) = some c)
    (hk : s.debugKey c key = some k) (hsig : sigVerify k (c.message s.sec.otp.uid) sig = true)
    (hoffers : s.offers c.level = true) (hroom : s.grantsFull via = false) :
    s.debugResponse via sig key = (0, s.granted1 c) := by
  simp [State.debugResponse, hlock, hc, hk, hsig, hoffers, hroom]

/-- A failed response of a device that is not locked out yet (R369). -/
theorem Sec.failed_counts {x : Sec} (h : x.lockout = false) :
    x.failed.fails = min 8 (x.fails + 1) ∧ x.failed.lockout = decide (8 ≤ x.fails + 1) ∧ x.failed.grants = x.grants :=
  ⟨rfl, by rw [Sec.failed, h, Bool.false_or]; rfl, rfl⟩

/-- Grants end: the others stay, and no memory, no frame and no message differs. -/
theorem State.endGrants_spec (s : State) (p : Grant → Bool) :
    (s.endGrants p).sec.grants = s.sec.grants.filter (fun g => !p g) ∧ (s.endGrants p).out = s.out ∧
    (s.endGrants p).frame = s.frame ∧ (s.endGrants p).mem = s.mem := ⟨rfl, rfl, rfl, rfl⟩

/-- A verified response: the endpoint's one grant, and a clear count. -/
theorem State.granted1_spec (s : State) (c : Challenge) :
    (s.granted1 c).sec.fails = 0 ∧ (s.granted1 c).sec.lockout = s.sec.lockout ∧
    (∀ g, g ∈ (s.granted1 c).sec.grants ↔ (g ∈ s.sec.grants ∧ g.endpoint ≠ c.endpoint) ∨
      g = ⟨c.endpoint, c.level, c.tenant, c.slot⟩) ∧
    (s.granted1 c).out = s.out ∧ (s.granted1 c).frame = s.frame ∧ (s.granted1 c).mem = s.mem := by
  refine ⟨rfl, rfl, fun g => ?_, rfl, rfl, rfl⟩
  simp [State.granted1, (s.endGrants_spec _).1]

section Unlock

variable {s : State} {via : Via} (hserved : s.served = true) (hup : s.up = true)
include hserved hup

/-- A response that fails. -/
theorem exec_debugResponse_failed {sig : BitVec 768} {key : BitVec 776} (hlock : s.sec.lockout = false)
    (h : s.accepted.debugResponse via sig key = (abSignature, s.accepted.modSec Sec.failed)) :
    Answers (.debugResponse via sig key) s fun t => t.sec.fails = min 8 (s.sec.fails + 1) ∧
      t.sec.lockout = decide (8 ≤ s.sec.fails + 1) ∧ t.sec.grants = s.sec.grants ∧
      t.out = s.out ++ [.reply via abSignature 0 0] := by
  obtain ⟨hfails, hlocked, hgrants⟩ := Sec.failed_counts hlock
  exact ⟨_, exec_aborted hserved hup rfl (a := abSignature) (by decide) h, hfails, hlocked, hgrants, rfl⟩

theorem debugUnlocks_request (v : BitVec 8) (ch : BitVec 384) :
    let l := Level.ofCode (v.toNat % 4)
    let no (a : Nat) : Host.Outcome State Fault Refusal := .next (s.accepted.countAbort.answer via a 0 0)
    (s.sec.lockout = false → l = .sealedLevel → exec (.debugRequest via v ch) s = no abRange) ∧
    (l ≠ .sealedLevel → (s.offers l = false ∨ s.grantsFull via = true) → exec (.debugRequest via v ch) s = no abState) ∧
    (l ≠ .sealedLevel → s.sec.lockout = false → s.offers l = true → s.grantsFull via = false →
      Answers (.debugRequest via v ch) s fun t =>
        (∀ c, c ∈ t.sec.challenges ↔ (c ∈ s.sec.challenges ∧ c.endpoint ≠ via) ∨
          c = ⟨via, ch, l, v.toNat / 4 % 8, v.toNat / 32 % 4⟩) ∧
        t.sec.grants = s.sec.grants ∧ t.sec.fails = s.sec.fails ∧ t.out = s.out ++ [.reply via 0 0 0]) := by
  refine ⟨fun hlock hl => ?_, fun hl h => ?_, fun hl hlock hoffers hroom => ?_⟩
  · exact exec_aborted hserved hup rfl (a := abRange) (by decide) (debugRequest_sealed (s := s.accepted) via ch hlock hl)
  · exact exec_aborted hserved hup rfl (a := abState) (by decide) (debugRequest_closed (s := s.accepted) ch hl h)
  · exact ⟨_, exec_wrote hserved hup rfl (debugRequest_open (s := s.accepted) ch hlock hl hoffers hroom),
      fun c => s.sec.mem_challenge _ c, rfl, rfl, rfl⟩

theorem debugUnlocks_response (sig : BitVec 768) (key : BitVec 776) (c : Challenge) (k : BitVec 776)
    (hlock : s.sec.lockout = false) (hc : s.sec.challenges.find? (fun c => decide (c.endpoint = via)) = some c)
    (hk : s.debugKey c key = some k) (hsig : sigVerify k (c.message s.sec.otp.uid) sig = true)
    (hoffers : s.offers c.level = true) (hroom : s.grantsFull via = false) :
    Answers (.debugResponse via sig key) s fun t => t.sec.fails = 0 ∧ t.sec.lockout = false ∧
      (∀ g, g ∈ t.sec.grants ↔ (g ∈ s.sec.grants ∧ g.endpoint ≠ via) ∨ g = ⟨via, c.level, c.tenant, c.slot⟩) ∧
      t.out = s.out ++ [.reply via 0 0 0] ∧ t.frame = s.frame ∧ t.mem = s.mem := by
  have hvia : c.endpoint = via := by simpa using List.find?_some hc
  obtain ⟨hfails, hlocked, hgrants, hout, hframe, hmem⟩ := s.accepted.granted1_spec c
  rw [hvia] at hgrants
  refine ⟨(s.accepted.granted1 c).answer via 0 0 0, exec_wrote hserved hup rfl
    (debugResponse_good (s := s.accepted) hlock hc hk hsig hoffers hroom), ?_⟩
  generalize s.accepted.granted1 c = t at *
  exact ⟨hfails, hlocked.trans hlock, hgrants, congrArg (· ++ [_]) hout, hframe, hmem⟩

theorem debugUnlocks_relock (v : Nat) (hv : v < 256) : Answers (.relock via v) s fun t =>
    t.out = s.out ++ [.reply via 0 0 0] ∧ t.mem = s.mem ∧ t.frame = s.frame ∧ (v ≠ 1 → t.sec = s.sec) ∧
    (v = 1 → ∀ g, g ∈ t.sec.grants ↔ g ∈ s.sec.grants ∧ g.endpoint ≠ via) := by
  have hexec : exec (.relock via v) s = .next ((s.accepted.relock via v).2.answer via 0 0 0) :=
    exec_wrote hserved hup (f := fun u => if v < 256 then u.relock via v else (abRange, u)) rfl (if_pos hv)
  refine ⟨_, hexec, ?_⟩
  by_cases h1 : v = 1
  · have hrelock : (s.accepted.relock via v).2 = s.accepted.endGrants fun g => decide (g.endpoint = via) := if_pos h1
    obtain ⟨hgrants, hout, hframe, hmem⟩ := s.accepted.endGrants_spec fun g => decide (g.endpoint = via)
    rw [hrelock]
    generalize s.accepted.endGrants (fun g => decide (g.endpoint = via)) = t at *
    refine ⟨congrArg (· ++ [_]) hout, hmem, hframe, fun h => absurd h1 h, fun _ g => ?_⟩
    rw [State.answer, State.send_sec, hgrants]
    simp [State.accepted]
  · have hrelock : (s.accepted.relock via v).2 = s.accepted := if_neg h1
    rw [hrelock]
    exact ⟨rfl, rfl, rfl, fun _ => rfl, fun h => absurd h h1⟩

end Unlock

theorem challengeExpiry_ends {s : State} {via : Via} {c : Challenge} (hc : c ∈ s.sec.challenges) (hvia : c.endpoint = via) :
    Answers (.challengeExpiry via) s fun t => OnlySec s t ∧
      (∀ d, d ∈ t.sec.challenges ↔ d ∈ s.sec.challenges ∧ d.endpoint ≠ via) ∧ t.sec.grants = s.sec.grants := by
  refine answers_due rfl (List.any_eq_true.mpr ⟨c, hc, decide_eq_true hvia⟩) ⟨⟨_, rfl⟩, fun d => ?_, rfl⟩
  simp [State.modSec]

theorem debugUnlocks : Claims.DebugUnlocks := by
  intro s via hserved hup no
  refine ⟨debugUnlocks_request hserved hup, fun sig key => ⟨fun hlock => ?_, fun hlock hc => ?_, fun c k hlock hc hk => ?_⟩,
    fun c hc hvia => challengeExpiry_ends hc hvia, fun hlock => ?_, debugUnlocks_relock hserved hup⟩
  · exact exec_aborted hserved hup rfl (a := abState) (by decide) (debugResponse_locked (s := s.accepted) via sig key hlock)
  · exact exec_debugResponse_failed hserved hup hlock (debugResponse_none (s := s.accepted) sig key hlock hc)
  · exact ⟨fun hsig => exec_debugResponse_failed hserved hup hlock (debugResponse_bad (s := s.accepted) hlock hc hk hsig),
      debugUnlocks_response hserved hup sig key c k hlock hc hk⟩
  · exact (congrArg (due s · _) hlock).trans (due_true _ _)

/-! ### HALT and RESUME (R370) -/

theorem debugOnly_hidden {s : State} {via : Via} {need : Nat} (f : State → Nat × State)
    (h : (s.levelOf via).code < need) : s.debugOnly via need f = (abObject, s) := if_pos h

theorem debugOnly_shown {s : State} {via : Via} {need : Nat} (f : State → Nat × State)
    (h : need ≤ (s.levelOf via).code) : s.debugOnly via need f = f s := if_neg (Nat.not_lt.mpr h)

theorem State.accepted_debugReach (s : State) (via : Via) (c : Nat) : s.accepted.debugReach via c = s.debugReach via c := by
  cases via <;> rfl

section Reach

variable {s : State} {via : Via} (hserved : s.served = true) (hup : s.up = true)
include hserved hup

/-- A debug object that the endpoint's level does not reach does not exist (R366). -/
theorem exec_hidden {i : Instr} {need : Nat} {f : State → Nat × State}
    (hexec : exec i s = .next (s.request via 0 false fun u => wrote (u.debugOnly via need f)))
    (h : (s.levelOf via).code < need) : exec i s = .next (s.accepted.countAbort.answer via abObject 0 0) :=
  exec_aborted hserved hup hexec (by decide) (debugOnly_hidden (s := s.accepted) f h)

/-- A debug object that the level reaches: done. -/
theorem exec_shown_wrote {i : Instr} {need : Nat} {f : State → Nat × State} {t : State}
    (hexec : exec i s = .next (s.request via 0 false fun u => wrote (u.debugOnly via need f)))
    (h : need ≤ (s.levelOf via).code) (hf : f s.accepted = (0, t)) : exec i s = .next (t.answer via 0 0 0) :=
  exec_wrote hserved hup hexec ((debugOnly_shown (s := s.accepted) f h).trans hf)

/-- A debug object that the level reaches: refused. -/
theorem exec_shown_aborted {i : Instr} {need a : Nat} {f : State → Nat × State} {t : State}
    (hexec : exec i s = .next (s.request via 0 false fun u => wrote (u.debugOnly via need f)))
    (h : need ≤ (s.levelOf via).code) (ha : a ≠ 0) (hf : f s.accepted = (a, t)) :
    exec i s = .next (t.countAbort.answer via a 0 0) :=
  exec_aborted hserved hup hexec ha ((debugOnly_shown (s := s.accepted) f h).trans hf)

theorem halt_queue (v : BitVec 32) (hlevel : 1 ≤ (s.levelOf via).code) :
    (s.debugReach via (v.toNat % 4096) = true → exec (.halt via v) s =
      .next ((s.modQueue (v.toNat % 4096) (v.toNat / 4096 % 8) fun x =>
        { x with haltAt := some (v.toNat / 65536 % 4096), haltBy := some via }).accepted.answer via 0 0 0)) ∧
    (s.debugReach via (v.toNat % 4096) = false →
      exec (.halt via v) s = .next (s.accepted.countAbort.answer via abRange 0 0)) := by
  refine ⟨fun h => ?_, fun h => ?_⟩
  · refine exec_shown_wrote hserved hup rfl hlevel ?_
    rw [State.haltQueue, State.accepted_debugReach, h]
    rfl
  · refine exec_shown_aborted hserved hup rfl hlevel (by decide) ?_
    rw [State.haltQueue, State.accepted_debugReach, h]
    rfl

theorem resume_queue (u : BitVec 16) (hlevel : 1 ≤ (s.levelOf via).code) (h : s.debugReach via (u.toNat % 4096) = true) :
    exec (.resume via u) s = .next ((s.modQueue (u.toNat % 4096) (u.toNat / 4096 % 8) fun x =>
      { x with haltAt := none, haltBy := none }).accepted.answer via 0 0 0) := by
  refine exec_shown_wrote hserved hup rfl hlevel ?_
  rw [State.resumeQueue, State.accepted_debugReach, h]
  rfl

/-! ### The window (R366) -/

theorem window_address (v : BitVec 64) (hlevel : 2 ≤ (s.levelOf via).code) :
    (v.toNat % 8 = 0 → exec (.windowAddress via v) s =
      .next ((s.modSec fun x => x.aim via v).accepted.answer via 0 0 0)) ∧
    (v.toNat % 8 ≠ 0 → exec (.windowAddress via v) s = .next (s.accepted.countAbort.answer via abRange 0 0)) := by
  refine ⟨fun h => ?_, fun h => ?_⟩
  · refine exec_shown_wrote hserved hup rfl hlevel ?_
    rw [State.setWindow, if_neg (not_not.mpr h), BitVec.ofNat_toNat, BitVec.setWidth_eq]
    rfl
  · refine exec_shown_aborted hserved hup rfl hlevel (by decide) ?_
    exact if_pos h

end Reach

/-- The rows of the window: its address and its data. -/
theorem window_rows : indexRows 0x7001 = [u64 0x7001 1 1 1 .wo 0, u64 0x7001 1 2 2 .rw 0] ∧
    objRow 0x7001 2 = some (u64 0x7001 1 2 2 .rw 0) := by decide +kernel

/-- From OWNER up the window's data are an object (R366). -/
theorem lookup_window {s : State} {via : Via} (h : 2 ≤ (s.levelOf via).code) :
    s.lookup via 0x7001 2 = .ok (u64 0x7001 1 2 2 .rw 0) := by
  have hsees : ∀ sub, viewSees s.channelTenant (s.viewOf via) (s.levelOf via).code 0x7001 sub = true := fun sub => by
    simp [viewSees, debugNeed, h]
  obtain ⟨hrows, hrow⟩ := window_rows
  simp [State.lookup, viewLookup, hrows, hrow, hsees, u64]

theorem readObj_window_ok {s t : State} {via : Via} {v : Nat} (h : 2 ≤ (s.levelOf via).code)
    (hread : s.windowRead via = (.ok v, t)) : s.readObj via 0 0x7001 2 = (.ok (8, v), t) := by
  simp [State.readObj, lookup_window h, hread]

theorem readObj_window_error {s t : State} {via : Via} {a : Nat} (h : 2 ≤ (s.levelOf via).code)
    (hread : s.windowRead via = (.error a, t)) : s.readObj via 0 0x7001 2 = (.error a, t) := by
  simp [State.readObj, lookup_window h, hread]

theorem windowRead_clean {s : State} {via : Via} (hw : s.window via = .mem) (h : s.poisoned (s.windowAddr via) 8 = false) :
    s.windowRead via = (.ok (leNat (s.rdN (s.windowAddr via) 8)), s) := by
  obtain ⟨hunits, hparity⟩ := Bool.or_eq_false_iff.mp h
  have hbad : s.badUnits [] (s.windowAddr via) 8 = [] := by
    simpa [State.badUnits, List.any_eq_false, List.filter_eq_nil_iff] using hunits
  simp [State.windowRead, hw, hbad, hparity]

theorem windowRead_poison {s : State} {via : Via} {p : Nat} {l : List Nat} (hw : s.window via = .mem)
    (h : s.badUnits [] (s.windowAddr via) 8 = p :: l) : s.windowRead via = (.error abGeneral, s.noteBad p) := by
  simp [State.windowRead, hw, h]

theorem windowRead_regs {s : State} {via : Via} {die : Nat} (hw : s.window via = .regs die) :
    s.windowRead via = (.ok (Config.freeWord s.freeCtr).toNat, { s with freeCtr := s.freeCtr + 1 }) := by
  simp [State.windowRead, hw, State.takeFree]

theorem windowRead_unmapped {s : State} {via : Via} (hw : s.window via = .unmapped) :
    s.windowRead via = (.error abGeneral, s) := by simp [State.windowRead, hw]

theorem windowWrite_clean {s : State} {via : Via} (v : BitVec 64) (hw : s.window via = .mem)
    (hkeep : inKeep (s.windowAddr via) = false) (h : ∀ u ∈ partialUnits (s.windowAddr via) 8, u ∉ s.poison) :
    s.windowWrite via v = (0, s.wr (s.windowAddr via) (leBytes 8 v.toNat)) := by
  have hfind : (partialUnits (s.windowAddr via) 8).find? (fun u => decide (u ∈ s.poison)) = none := by
    simpa [List.find?_eq_none] using h
  simp [State.windowWrite, hw, State.writeMem, hkeep, hfind]

theorem leBytes_length (n v : Nat) : (leBytes n v).length = n := by
  induction n generalizing v with
  | zero => rfl
  | succ n ih => simp [leBytes, ih]

/-- Where the window reaches no register block, a write through it is a request. -/
theorem exec_windowDataWrite {s : State} {via : Via} (v : BitVec 64) (h : s.windowRegs via = false) :
    exec (.windowDataWrite via v) s =
      .next (s.request via 0 false fun u => wrote (u.debugOnly via 2 fun u => u.windowWrite via v)) :=
  if_neg (by simp [h])

theorem windowRegs_hidden {s : State} {via : Via} (h : (s.levelOf via).code < 2) : s.windowRegs via = false := by
  simp [State.windowRegs, h]

theorem windowRegs_of_window {s : State} {via : Via} (h : ∀ die, s.window via ≠ .regs die) : s.windowRegs via = false := by
  unfold State.windowRegs
  cases hw : s.window via with
  | mem => simp
  | unmapped => simp
  | regs die => exact absurd hw (h die)

section Window

variable {s : State} {via : Via} (hserved : s.served = true) (hup : s.up = true) (hlevel : 2 ≤ (s.levelOf via).code)
include hserved hup hlevel

theorem exec_windowRead_ok {v : Nat} {t : State} (h : s.accepted.windowRead via = (.ok v, t)) :
    exec (.windowDataRead via) s = .next (t.answer via 0 8 v) :=
  congrArg Host.Outcome.next (State.request_answered hserved hup (readObj_window_ok (s := s.accepted) hlevel h))

theorem exec_windowRead_error {a : Nat} {t : State} (h : s.accepted.windowRead via = (.error a, t)) :
    exec (.windowDataRead via) s = .next (t.countAbort.answer via a 0 0) :=
  congrArg Host.Outcome.next (State.request_refused hserved hup (readObj_window_error (s := s.accepted) hlevel h))

/-- OWNER writes the eight bytes at the window's address. -/
theorem window_writes (v : BitVec 64) (hw : s.window via = .mem) (hkeep : inKeep (s.windowAddr via) = false)
    (hclean : ∀ u ∈ partialUnits (s.windowAddr via) 8, u ∉ s.poison) : Answers (.windowDataWrite via v) s fun t =>
      (∀ a, s.windowAddr via ≤ a → a < s.windowAddr via + 8 → inKeep a = false →
        t.rd a = (leBytes 8 v.toNat).getD (a - s.windowAddr via) 0) ∧
      (∀ a, a < s.windowAddr via ∨ s.windowAddr via + 8 ≤ a → t.rd a = s.rd a) ∧ t.frame = s.frame ∧
      t.out = s.out ++ [.reply via 0 0 0] := by
  have hwrite := windowWrite_clean (s := s.accepted) v hw hkeep hclean
  have hnoregs := windowRegs_of_window (s := s) (via := via) (by simp [hw])
  refine ⟨_, exec_shown_wrote hserved hup (exec_windowDataWrite v hnoregs) hlevel hwrite, ?_⟩
  have hlen : (leBytes 8 v.toNat).length = 8 := leBytes_length 8 v.toNat
  refine ⟨fun a hlo hhi hk => ?_, fun a ha => ?_, ?_⟩
  · refine (s.accepted.rd_wr _ a _).trans (if_pos ⟨hk, hlo, ?_⟩)
    rwa [hlen]
  · exact s.accepted.rd_wr_outside (by rwa [hlen])
  · obtain ⟨⟨m, p, f, x, hwr⟩, -⟩ := s.accepted.wr_dataOnly (s.windowAddr via) (leBytes 8 v.toNat)
    have hwr' : s.accepted.wr (s.accepted.windowAddr via) (leBytes 8 v.toNat) =
      { s.accepted with mem := m, poison := p, fabs := f, host := x } := hwr
    rw [hwr']
    exact ⟨rfl, rfl⟩

end Window

theorem debugHaltsAndWindow : Claims.DebugHaltsAndWindow := by
  intro s via hserved hup no
  refine ⟨fun v u => ⟨fun h => ?_, fun h => ?_⟩, fun v => ⟨fun h => ?_, fun h => ?_⟩⟩
  · exact ⟨exec_hidden hserved hup rfl h, exec_hidden hserved hup rfl h⟩
  · obtain ⟨hreach, hfar⟩ := halt_queue hserved hup v h
    exact ⟨hreach, hfar, resume_queue hserved hup u h⟩
  · exact ⟨exec_hidden hserved hup rfl h, exec_hidden hserved hup (exec_windowDataWrite v (windowRegs_hidden h)) h⟩
  · obtain ⟨haligned, hodd⟩ := window_address hserved hup v h
    refine ⟨haligned, hodd, fun hw => ⟨fun hclean => ?_, fun p l hbad => ?_, window_writes hserved hup h v hw⟩,
      fun die hw => ⟨?_, ?_⟩, fun hw => ⟨?_, ?_⟩⟩
    · exact exec_windowRead_ok hserved hup h (windowRead_clean (s := s.accepted) hw hclean)
    · exact exec_windowRead_error hserved hup h (windowRead_poison (s := s.accepted) hw hbad)
    · exact exec_windowRead_ok hserved hup h (windowRead_regs (s := s.accepted) hw)
    · exact if_pos (by simp [hup, State.windowRegs, h, hw])
    · exact exec_windowRead_error hserved hup h (windowRead_unmapped (s := s.accepted) hw)
    · refine exec_shown_aborted hserved hup (exec_windowDataWrite v (windowRegs_of_window (by simp [hw]))) h
        (t := s.accepted) (by decide) ?_
      have hunmapped : s.accepted.window via = .unmapped := hw
      simp [State.windowWrite, hunmapped]

/-- Settles O55: a request of a served device answers as its checks find, level by level. -/
theorem debugUnlocksAndReaches : Obligations.DebugUnlocksAndReaches := ⟨debugUnlocks, debugHaltsAndWindow⟩

end Sys2Proof.Machine
end

section
/-!
StartUpSteps fails at R305: the statement gives every output its own safe value, and the odd channel of a PWM pair takes the
even one's (R298).
-/

namespace Sys2Proof.Machine

open Sys2Proof

/-- A machine in start-up, its G-image verified and its Gauge dies not written yet: channels 0 and 1 of X0 are a pair
(0x5040:05 = 1), and channel 0's safe value is 7 where channel 1's is 0. -/
def pairedStart : State :=
  { State.reset with
    boot := { started := true, gDone := true }
    eff := [(objKey 0 (gPwm 0 0) 5, 1)]
    effT := [(objKey 0 (gPwm 0 0) 8, 7)] }

theorem pairedStart_due : pairedStart.startingUp = true ∧ pairedStart.boot.gDone = true ∧
    pairedStart.boot.gaugeDone = false := ⟨rfl, rfl, rfl⟩

/-- The safe value of channel 1 itself. -/
theorem pairedStart_safeValue : pairedStart.safeValue 0 1 = 0 := by decide +kernel

/-- What G0 writes into channel 1: the value of channel 0. -/
theorem pairedStart_output : (gaugesWritten pairedStart).output 0 1 = ⟨7, true, 7, true⟩ := by decide +kernel

theorem exec_gaugeDiesWritten {s : State} (hup : s.startingUp = true) (hg : s.boot.gDone = true)
    (hgauge : s.boot.gaugeDone = false) : exec .gaugeDiesWritten s = .next (gaugesWritten s) := by
  have hdue : (s.startingUp && s.boot.gDone && !s.boot.gaugeDone) = true := by simp [hup, hg, hgauge]
  exact (congrArg (due s · _) hdue).trans (due_true _ _)

/-- Refutes O59: writing the Gauge dies gives the odd channel of a pair the even channel's safe value (R298), not its own. -/
theorem not_startUpSteps : ¬ Obligations.StartUpSteps := by
  unfold Obligations.StartUpSteps
  intro h
  obtain ⟨-, hgauges, -⟩ := h pairedStart
  obtain ⟨hup, hg, hgauge⟩ := pairedStart_due
  obtain ⟨t, hexec, -, houts⟩ := hgauges hup hg hgauge
  have ht : gaugesWritten pairedStart = t :=
    Host.Outcome.next.inj ((exec_gaugeDiesWritten hup hg hgauge).symm.trans hexec)
  have hout := (houts 0 1 (by decide) (by decide)).2
  rw [← ht, pairedStart_output, pairedStart_safeValue] at hout
  exact absurd (congrArg Output.pend hout) (by decide)

end Sys2Proof.Machine
end

section
/-!
What no command but a tick, the first tick, the writing of the Gauge dies and a reset changes (R33, R55): the frame counter, the
active values of the outputs, whether the first tick has come, and the queue. One lemma for each of the model's operations,
in the order of its files; `grind` follows the matches on what an operation answers beside its state.
-/

namespace Sys2Proof.Machine

open Sys2Proof

/-- What only a tick, the first tick, the writing of the Gauge dies or a reset may change: the queue of waiting commands,
the frame counter, whether the first tick has come, and every output's active value with its SAFE mark. -/
structure Steady where
  pending : List Instr
  counter : BitVec 64
  ticked : Bool
  act : Nat → Nat → Int × Bool

def State.steady (s : State) : Steady where
  pending := s.pending
  counter := s.frame.counter
  ticked := s.boot.ticked
  act d o := ((s.output d o).act, (s.output d o).actSafe)

theorem State.steady_eq_iff {s t : State} : t.steady = s.steady ↔
    t.pending = s.pending ∧ t.frame.counter = s.frame.counter ∧ t.boot.ticked = s.boot.ticked ∧
    ∀ d o, (t.output d o).act = (s.output d o).act ∧ (t.output d o).actSafe = (s.output d o).actSafe := by
  simp [State.steady, funext_iff]

/-- A state whose queue, frame, start-up and Gauge dies are those of another is as steady. -/
theorem State.steady_of_same {s t : State} (hp : t.pending = s.pending) (hf : t.frame = s.frame) (hb : t.boot = s.boot)
    (hg : t.gauges = s.gauges) : t.steady = s.steady := by
  simp [State.steady, State.output, State.gauge, hp, hf, hb, hg]

/-- An update of other parts of State. -/
@[simp] theorem State.steady_with (u : State) (tenants : Tab Tenant) (links : Tab Link) (arb : Tab Arb) (mem host : Tab Byte)
    (poison : List Nat) (memStat : MemStat) (posted : List Posted) (plates : Tab Plate) (rebites : Tab (List Rebite))
    (fabs : Tab Fab) (ops : List Op) (unitHeld : Tab Nat) (ctxs : Tab Ctx) (slotOpsTotal : Nat) (restores : List (Bool × Nat))
    (bundles : List Bundle) (obj eff effT : Tab Nat) (rwt : List Rwt) (net : Net) (power : Power) (sec : Sec)
    (out : List OutMsg) (freeCtr : Nat) :
    State.steady ⟨u.frame, tenants, links, arb, mem, host, poison, memStat, posted, plates, rebites, fabs, ops, unitHeld, ctxs,
      slotOpsTotal, restores, bundles, obj, eff, effT, rwt, net, u.gauges, power, sec, u.boot, out, freeCtr, u.pending⟩ =
    u.steady := State.steady_of_same rfl rfl rfl rfl

@[simp] theorem steady_ite (c : Prop) [Decidable c] (s t : State) :
    (if c then s else t).steady = if c then s.steady else t.steady := apply_ite _ _ _ _

@[simp] theorem foldl_steady {α : Type} (f : State → α → State) (l : List α) (s : State)
    (h : ∀ u x, (f u x).steady = u.steady) : (l.foldl f s).steady = s.steady :=
  fold_holds (fun t : State => t.steady = s.steady) f l s rfl fun t x _ ht => (h t x).trans ht

theorem foldl_pair_steady {α β : Type} (f : β × State → α → β × State) (l : List α) (r : β × State)
    (h : ∀ u x, (f u x).2.steady = u.2.steady) : (l.foldl f r).2.steady = r.2.steady :=
  fold_holds (fun t : β × State => t.2.steady = r.2.steady) f l r rfl fun t x _ ht => (h t x).trans ht

@[simp] theorem State.each_steady (s : State) (l : List Nat) (f : State → Nat → State)
    (h : ∀ u x, (f u x).steady = u.steady) : (s.each l f).steady = s.steady := foldl_steady f l s h

theorem State.modFrame_steady_of (s : State) (f : Frame → Frame) (h : (f s.frame).counter = s.frame.counter) :
    (s.modFrame f).steady = s.steady := by simp [State.steady, State.modFrame, State.output, State.gauge, h]
@[simp] theorem State.modFrame_steady (s : State) (f : Frame → Frame) (h : ∀ x, (f x).counter = x.counter) :
    (s.modFrame f).steady = s.steady := s.modFrame_steady_of f (h _)
@[simp] theorem State.modBoot_steady (s : State) (f : Boot → Boot) (h : ∀ x, (f x).ticked = x.ticked) :
    (s.modBoot f).steady = s.steady := by simp [State.steady, State.modBoot, State.output, State.gauge, h]

theorem State.output_modGauge (s : State) (d e o : Nat) (f : Gauge → Gauge) :
    (s.modGauge d f).output e o = if e = d then tget {} (f (s.gauge d)).outs o else s.output e o := by
  simp only [State.output, State.gauge, State.modGauge, tmod, tget_tset]
  split <;> simp_all

@[simp] theorem State.modGauge_steady (s : State) (d : Nat) (f : Gauge → Gauge)
    (h : ∀ x, (f x).outs = x.outs) : (s.modGauge d f).steady = s.steady := by
  refine State.steady_eq_iff.2 ⟨rfl, rfl, rfl, fun e o => ?_⟩
  rw [State.output_modGauge]
  split
  next he => rw [h, he]; exact ⟨rfl, rfl⟩
  next => exact ⟨rfl, rfl⟩

@[simp] theorem State.modOutput_steady (s : State) (d o : Nat) (f : Output → Output)
    (h : ∀ x, (f x).act = x.act ∧ (f x).actSafe = x.actSafe) : (s.modOutput d o f).steady = s.steady := by
  refine State.steady_eq_iff.2 ⟨rfl, rfl, rfl, fun e p => ?_⟩
  rw [State.modOutput, State.output_modGauge]
  split
  next he =>
    subst he
    by_cases hp : p = o
    · subst hp; simpa [State.output] using h _
    · simp [State.output, tget_tmod_ne _ _ _ hp]
  next => exact ⟨rfl, rfl⟩


@[simp] theorem Frame.goTo_counter (f : Frame) (off : Nat) : (f.goTo off).counter = f.counter := by cases f; rfl
@[simp] theorem Frame.begin_counter (f : Frame) : f.begin.counter = f.counter := by cases f; rfl
@[simp] theorem Frame.openGuard_counter (f : Frame) (off : Nat) : (f.openGuard off).counter = f.counter := by
  cases f; rfl
@[simp] theorem Frame.bad_counter (f : Frame) : f.bad.counter = f.counter := by
  simp only [Frame.bad]; split <;> [skip; split] <;> rfl
@[simp] theorem Frame.acquire_counter (f : Frame) (A : Nat) (err : Int) : (f.acquire A err).counter = f.counter := by
  simp only [Frame.acquire]; split <;> rfl
@[simp] theorem Frame.observe_counter (f : Frame) (A : Nat) (err : Int) (unsync : Bool) :
    (f.observe A err unsync).counter = f.counter := by
  simp only [Frame.observe]
  repeat' split
  all_goals simp
@[simp] theorem Frame.lockStep_counter (f : Frame) (A : Nat) : (f.lockStep A).counter = f.counter := by
  simp only [Frame.lockStep]
  repeat' split
  all_goals rfl

/-! ### Objects -/

@[simp] theorem State.setVal_steady (s : State) (k v : Nat) : (s.setVal k v).steady = s.steady :=
  State.steady_of_same rfl rfl rfl rfl

/-! ### Ops -/

@[simp] theorem State.setCtx_steady (s : State) (c : Nat) (x : Ctx) : (s.setCtx c x).steady = s.steady :=
  State.steady_of_same rfl rfl rfl rfl
@[simp] theorem State.modCtx_steady (s : State) (c : Nat) (f : Ctx → Ctx) :
    (s.modCtx c f).steady = s.steady := by simp [State.modCtx]
@[simp] theorem State.modTen_steady (s : State) (t : Nat) (f : Tenant → Tenant) : (s.modTen t f).steady = s.steady :=
  State.steady_of_same rfl rfl rfl rfl
@[simp] theorem State.modLink_steady (s : State) (l : Nat) (f : Link → Link) : (s.modLink l f).steady = s.steady :=
  State.steady_of_same rfl rfl rfl rfl
@[simp] theorem State.modPlate_steady (s : State) (g : Nat) (f : Plate → Plate) : (s.modPlate g f).steady = s.steady :=
  State.steady_of_same rfl rfl rfl rfl
@[simp] theorem State.modFab_steady (s : State) (m : Nat) (f : Fab → Fab) : (s.modFab m f).steady = s.steady :=
  State.steady_of_same rfl rfl rfl rfl
@[simp] theorem State.modNet_steady (s : State) (f : Net → Net) : (s.modNet f).steady = s.steady :=
  State.steady_of_same rfl rfl rfl rfl
@[simp] theorem State.modSec_steady (s : State) (f : Sec → Sec) : (s.modSec f).steady = s.steady :=
  State.steady_of_same rfl rfl rfl rfl
@[simp] theorem State.modPower_steady (s : State) (f : Power → Power) : (s.modPower f).steady = s.steady :=
  State.steady_of_same rfl rfl rfl rfl
@[simp] theorem State.modOtp_steady (s : State) (f : Otp → Otp) : (s.modOtp f).steady = s.steady := by simp [State.modOtp]
@[simp] theorem State.send_steady (s : State) (m : OutMsg) : (s.send m).steady = s.steady :=
  State.steady_of_same rfl rfl rfl rfl
@[simp] theorem State.modCan_steady (s : State) (p : Nat) (f : CanPort → CanPort) :
    (s.modCan p f).steady = s.steady := by simp [State.modCan]
@[simp] theorem State.modEth_steady (s : State) (p : Nat) (f : EthPort → EthPort) :
    (s.modEth p f).steady = s.steady := by simp [State.modEth]
@[simp] theorem State.modFunc_steady (s : State) (p f : Nat) (g : Func → Func) :
    (s.modFunc p f g).steady = s.steady := by simp [State.modFunc]
@[simp] theorem State.modPart_steady (s : State) (p : Nat) (f : Part → Part) :
    (s.modPart p f).steady = s.steady := by simp [State.modPart]
@[simp] theorem State.modMap_steady (s : State) (n : Nat) (f : CycMap → CycMap) :
    (s.modMap n f).steady = s.steady := by simp [State.modMap]
@[simp] theorem State.modQueue_steady (s : State) (c q : Nat) (f : Queue → Queue) :
    (s.modQueue c q f).steady = s.steady := by simp [State.modQueue]
@[simp] theorem State.takeFree_steady (s : State) : s.takeFree.2.steady = s.steady :=
  State.steady_of_same rfl rfl rfl rfl
@[simp] theorem State.modView_steady (s : State) (w : View) (f : ViewSel → ViewSel) :
    (s.modView w f).steady = s.steady := by simp [State.modView]
@[simp] theorem State.wrPar_steady (s : State) (a n : Nat) : (s.wrPar a n).steady = s.steady := by
  unfold State.wrPar; split <;> simp
@[simp] theorem State.wr_steady (s : State) (a : Nat) (bs : List Byte) : (s.wr a bs).steady = s.steady := by simp [State.wr]
@[simp] theorem State.zero_steady (s : State) (a n : Nat) : (s.zero a n).steady = s.steady :=
  State.steady_of_same rfl rfl rfl rfl
@[simp] theorem State.countCorrected_steady (s : State) (a : Nat) : (s.countCorrected a).steady = s.steady :=
  State.steady_of_same rfl rfl rfl rfl
@[simp] theorem State.noteBad_steady (s : State) (a : Nat) : (s.noteBad a).steady = s.steady :=
  State.steady_of_same rfl rfl rfl rfl
@[simp] theorem State.countBad_steady (s : State) (a : Nat) : (s.countBad a).steady = s.steady :=
  State.steady_of_same rfl rfl rfl rfl
@[simp] theorem State.markPoison_steady (s : State) (a : Nat) :
    (s.markPoison a).steady = s.steady := by simp [State.markPoison]
@[simp] theorem State.findOne_steady (s : State) (e : Nat × Ecc) : (s.findOne e).steady = s.steady := by
  unfold State.findOne; split <;> simp
@[simp] theorem State.findErrors_steady (s : State) (ecc : Found) (a n : Nat) :
    (s.findErrors ecc a n).steady = s.steady := by simp [State.findErrors]
@[simp] theorem State.tableEntry_steady (s : State) (c level pre a : Nat) :
    (s.tableEntry c level pre a).2.steady = s.steady := by
  unfold State.tableEntry; split <;> simp
@[simp] theorem State.translate_steady (s : State) (c a : Nat) (write : Bool) :
    (s.translate c a write).2.steady = s.steady := by
  unfold State.translate
  grind [State.tableEntry_steady]
@[simp] theorem State.readPiece_steady (s : State) (c : Nat) (ecc : Found) (t : Target) (n : Nat) :
    (s.readPiece c ecc t n).2.steady = s.steady := by
  unfold State.readPiece
  grind [State.findErrors_steady, State.noteBad_steady]
@[simp] theorem State.readCtx_steady (s : State) (c : Nat) (ecc : Found) (a n : Nat) :
    (s.readCtx c ecc a n).2.steady = s.steady := by
  unfold State.readCtx
  grind [State.readPiece_steady, State.translate_steady, foldl_pair_steady]
@[simp] theorem State.wrTarget_steady (s : State) (t : Target) (bs : List Byte) : (s.wrTarget t bs).steady = s.steady := by
  unfold State.wrTarget; split <;> simp
@[simp] theorem State.writeTargets_steady (s : State) (c a : Nat) (bs : List Byte) :
    (s.writeTargets c a bs).2.steady = s.steady := by
  unfold State.writeTargets
  grind [State.translate_steady, foldl_pair_steady]
@[simp] theorem State.lateRecord_steady (s : State) (c q cause : Nat) (epoch : BitVec 16) (ca da : Nat) :
    (s.lateRecord c q cause epoch ca da).steady = s.steady := by simp [State.lateRecord]
@[simp] theorem State.lateFault_steady (s : State) (c q cause : Nat) (epoch : BitVec 16) (ca da : Nat) :
    (s.lateFault c q cause epoch ca da).steady = s.steady := by simp [State.lateFault]
@[simp] theorem State.wrOwn_steady (s : State) (c q ca : Nat) (t : Target) (bs : List Byte) :
    (s.wrOwn c q ca t bs).steady = s.steady := by
  unfold State.wrOwn; split <;> simp
@[simp] theorem State.wrCtx_steady (s : State) (c q a : Nat) (bs : List Byte) : (s.wrCtx c q a bs).steady = s.steady := by
  unfold State.wrCtx
  grind [State.wrOwn_steady, State.writeTargets_steady, foldl_steady]
@[simp] theorem State.postAll_steady (s : State) (c q : Nat) (l : List Posted) : (s.postAll c q l).steady = s.steady := by
  unfold State.postAll; split <;> simp
@[simp] theorem State.postWrites_steady (s : State) (c q : Nat) (way : Target → List Nat) (l : List (Nat × Target × List
    Byte)) :
    (s.postWrites c q way l).steady = s.steady := by simp [State.postWrites]
@[simp] theorem State.putRec_steady (s : State) (r : Rec) : (s.putRec r).steady = s.steady := by simp [State.putRec]
@[simp] theorem State.post_steady (s : State) (r : Rec) : (s.post r).steady = s.steady := by simp [State.post]
@[simp] theorem State.postTenant_steady (s : State) (t : Nat) (r : Rec) :
    (s.postTenant t r).steady = s.steady := by simp [State.postTenant]
@[simp] theorem State.postSup_steady (s : State) (r : Rec) : (s.postSup r).steady = s.steady := by simp [State.postSup]
@[simp] theorem State.tickEvent_steady (s : State) : s.tickEvent.steady = s.steady := by simp [State.tickEvent]
@[simp] theorem State.msix_steady (s : State) (port func entry : Nat) :
    (s.msix port func entry).steady = s.steady := by simp [State.msix]
@[simp] theorem State.notifyQueue_steady (s : State) (c q : Nat) : (s.notifyQueue c q).steady = s.steady := by
  unfold State.notifyQueue
  grind [State.modPart_steady, State.modTen_steady, State.msix_steady, State.send_steady]
@[simp] theorem State.notifyCtx_steady (s : State) (c : Nat) :
    (s.notifyCtx c).steady = s.steady := by simp [State.notifyCtx]
@[simp] theorem State.errBit_steady (s : State) (p code : Nat) (bitNo : Nat) (on : Bool) :
    (s.errBit p code bitNo on).steady = s.steady := by simp [State.errBit]
@[simp] theorem State.errAll_steady (s : State) (code bitNo : Nat) (on : Bool) :
    (s.errAll code bitNo on).steady = s.steady := by simp [State.errAll]

/-! ### Operands -/

@[simp] theorem State.setPrm_steady (s : State) (c q r : Nat) (v : BitVec 64) :
    (s.setPrm c q r v).steady = s.steady := by simp [State.setPrm]
@[simp] theorem readList_steady (s : State) (c : Nat) (ecc : Found) (fuel a : Nat) :
    (readList s c ecc fuel a).2.steady = s.steady := by
  fun_induction readList with grind [State.readCtx_steady]
@[simp] theorem fetchLists_steady (s : State) (c : Nat) (ecc : Found) (l : List (Word256 × Mat)) :
    (fetchLists s c ecc l).2.steady = s.steady := by
  fun_induction fetchLists with grind [readList_steady]
@[simp] theorem prepare_steady (s : State) (c q : Nat) (ecc : Found) (ds : List (Nat × Word256)) (hasDst sumlist : Bool)
    (shapes : List Mat → Option Flt) (place : List Mat → Option Flt) :
    (prepare s c q ecc ds hasDst sumlist shapes place).2.steady = s.steady := by
  unfold prepare
  grind [fetchLists_steady]
@[simp] theorem State.spaceTargets_steady (s : State) (c : Nat) (pl : Place) (sp a : Nat) (bs : List Byte) (write : Bool) :
    (s.spaceTargets c pl sp a bs write).2.steady = s.steady := by
  unfold State.spaceTargets
  grind [State.translate_steady, foldl_pair_steady]
@[simp] theorem State.readSpace_steady (s : State) (c : Nat) (e : Engine) (pl : Place) (ecc : Found) (sp a n : Nat) :
    (s.readSpace c e pl ecc sp a n).2.steady = s.steady := by
  unfold State.readSpace
  grind [State.readPiece_steady, State.spaceTargets_steady, foldl_pair_steady]
@[simp] theorem State.readBlock_steady (s : State) (c : Nat) (e : Engine) (pl : Place) (ecc : Found) (m : Mat) (w r0 rn c0
    cn : Nat) :
    (s.readBlock c e pl ecc m w r0 rn c0 cn).2.steady = s.steady := by
  unfold State.readBlock
  grind [State.readSpace_steady, foldl_pair_steady]
@[simp] theorem State.readMat_steady (s : State) (c : Nat) (e : Engine) (pl : Place) (ecc : Found) (m : Mat) (w : Nat) :
    (s.readMat c e pl ecc m w).2.steady = s.steady := by simp [State.readMat]
@[simp] theorem State.blockTargets_steady (s : State) (c : Nat) (e : Engine) (pl : Place) (m : Mat) (w r0 o : Nat) (rows :
    List (List Byte)) :
    (s.blockTargets c e pl m w r0 o rows).2.steady = s.steady := by
  unfold State.blockTargets
  grind [State.spaceTargets_steady, foldl_pair_steady]
@[simp] theorem State.matTargets_steady (s : State) (c : Nat) (e : Engine) (pl : Place) (m : Mat) (w : Nat) (rows : List
    (List Byte)) :
    (s.matTargets c e pl m w rows).2.steady = s.steady := by simp [State.matTargets]
@[simp] theorem State.writeSpace_steady (s : State) (c q : Nat) (e : Engine) (sp : Nat) (l : List (Nat × Target × List
    Byte)) :
    (s.writeSpace c q e sp l).steady = s.steady := by simp [State.writeSpace]

/-! ### Exec -/

@[simp] theorem State.chargeUnit_steady (s : State) (c q u ns : Nat) :
    (s.chargeUnit c q u ns).steady = s.steady := by simp [State.chargeUnit]
@[simp] theorem State.modRun_steady (s : State) (c q : Nat) (f : Run → Run) :
    (s.modRun c q f).steady = s.steady := by simp [State.modRun]
@[simp] theorem State.writeStatus_steady (s : State) (c q : Nat) (w : Word256) (st : Status) (word : BitVec 64) :
    (s.writeStatus c q w st word).steady = s.steady := by simp [State.writeStatus]
@[simp] theorem State.writeResult_steady (s : State) (c q a : Nat) :
    (s.writeResult c q a).steady = s.steady := by simp [State.writeResult]
@[simp] theorem State.endRun_steady (s : State) (c q : Nat) (st : Status) (idx detail : Nat) :
    (s.endRun c q st idx detail).steady = s.steady := by
  unfold State.endRun; split <;> simp
@[simp] theorem State.ran_steady (s : State) (c : Nat) : (s.ran c).steady = s.steady := by simp [State.ran]
@[simp] theorem State.finishNow_steady (s : State) (c q : Nat) :
    (s.finishNow c q).steady = s.steady := by simp [State.finishNow]
@[simp] theorem State.faultNow_steady (s : State) (c q : Nat) (f : Flt) :
    (s.faultNow c q f).steady = s.steady := by simp [State.faultNow]
@[simp] theorem State.issue_steady (s : State) (op : Op) : (s.issue op).steady = s.steady := by simp [State.issue]
@[simp] theorem State.issueDone_steady (s : State) (op : Op) (f : Option Flt) (word : BitVec 64) :
    (s.issueDone op f word).steady = s.steady := by simp [State.issueDone]
@[simp] theorem State.modOp_steady (s : State) (c q idx : Nat) (f : Op → Op) : (s.modOp c q idx f).steady = s.steady :=
  State.steady_of_same rfl rfl rfl rfl
@[simp] theorem State.dropOp_steady (s : State) (c q idx : Nat) : (s.dropOp c q idx).steady = s.steady :=
  State.steady_of_same rfl rfl rfl rfl
@[simp] theorem State.holdWrites_steady (s : State) (c q idx : Nat) (e : Engine) (l : List (Nat × Target × List Byte)) :
    (s.holdWrites c q idx e l).steady = s.steady := by simp [State.holdWrites]
@[simp] theorem State.release_steady (s : State) (o : Op) : (s.release o).steady = s.steady := by simp [State.release]
@[simp] theorem State.settleOp_steady (s : State) (c q idx : Nat) : (s.settleOp c q idx).steady = s.steady := by
  unfold State.settleOp; split <;> simp
@[simp] theorem State.endOp_steady (s : State) (c q idx : Nat) (f : Option Flt) (word : BitVec 64) :
    (s.endOp c q idx f word).steady = s.steady := by simp [State.endOp]
@[simp] theorem State.finishOp_steady (s : State) (c q idx : Nat) (f : Option Flt) (word : BitVec 64) :
    (s.finishOp c q idx f word).steady = s.steady := by simp [State.finishOp]
@[simp] theorem State.retireOp_steady (s : State) (o : Op) (st : Status) :
    (s.retireOp o st).steady = s.steady := by simp [State.retireOp]
theorem State.charge_steady {s t : State} {c q ns : Nat} (h : s.charge c q ns = some t) : t.steady = s.steady := by
  simp only [State.charge, Option.ite_none_right_eq_some, Option.some.injEq] at h
  simp [← h.2]
@[simp] theorem State.demandScrub_steady (s : State) (m : Nat) :
    (s.demandScrub m).steady = s.steady := by simp [State.demandScrub]
@[simp] theorem State.countMismatch_steady (s : State) (m : Nat) (cross : Bool) :
    (s.countMismatch m cross).steady = s.steady := by simp [State.countMismatch]
@[simp] theorem State.rerun_steady (s : State) (c q m k ns : Nat) (cross : Bool) :
    (s.rerun c q m k ns cross).2.2.steady = s.steady := by
  unfold State.rerun
  grind [State.chargeUnit_steady, State.charge_steady, State.countMismatch_steady]

/-! ### Tone -/

@[simp] theorem readWalks_steady (s : State) (c : Nat) (e : Engine) (pl : Place) (ecc : Found) (m : Mat) (n : Nat) :
    (readWalks s c e pl ecc m n).2.steady = s.steady := by
  unfold readWalks
  grind [State.readMat_steady, foldl_pair_steady]
@[simp] theorem writeWalks_steady (s : State) (c q : Nat) (e : Engine) (pl : Place) (m : Mat) (walks : List (List Int)) :
    (writeWalks s c q e pl m walks).2.steady = s.steady := by
  unfold writeWalks
  grind [State.matTargets_steady, State.writeSpace_steady, foldl_pair_steady]
@[simp] theorem toneWrite_steady (s : State) (o : Op) (m e r0 rn cn : Nat) (outs : List (Int × Nat)) :
    (toneWrite s o m e r0 rn cn outs).2.steady = s.steady := by
  unfold toneWrite
  grind [State.blockTargets_steady, State.holdWrites_steady]
@[simp] theorem toneB_steady (s : State) (o : Op) (m : Nat) (ecc : Found) (mB : Option Mat) (e : Nat) :
    (toneB s o m ecc mB e).2.steady = s.steady := by
  unfold toneB
  grind [State.readMat_steady]
@[simp] theorem toneBRow_steady (s : State) (o : Op) (m : Nat) (ecc : Found) (mB : Option Mat) (b : List Int) (e i : Nat) :
    (toneBRow s o m ecc mB b e i).2.steady = s.steady := by
  unfold toneBRow
  grind [State.readBlock_steady]
@[simp] theorem toneRow_steady (s : State) (o : Op) (m : Nat) (red : Bool) (ecc : Found) (mB : Option Mat) (b : List Int) (e
    i free : Nat) :
    (toneRow s o m red ecc mB b e i free).2.steady = s.steady := by
  unfold toneRow
  grind [State.readBlock_steady, toneBRow_steady, toneWrite_steady]
@[simp] theorem addCount_steady (r : Except Flt Nat × State) (f : State → Except Flt Nat × State)
    (h : ∀ u, (f u).2.steady = u.steady) : (addCount r f).2.steady = r.2.steady := by
  unfold addCount
  grind
@[simp] theorem toneEntry_steady (s : State) (o : Op) (m : Nat) (red : Bool) (ecc : Found) (mB : Option Mat) (e free : Nat)
    :
    (toneEntry s o m red ecc mB e free).2.steady = s.steady := by
  unfold toneEntry
  grind [State.readMat_steady, addCount_steady, foldl_pair_steady, toneB_steady, toneRow_steady, toneWrite_steady]
@[simp] theorem toneSumlist_steady (s : State) (o : Op) (m : Nat) (ecc : Found) (n free : Nat) :
    (toneSumlist s o m ecc n free).2.steady = s.steady := by
  unfold toneSumlist
  grind [readWalks_steady, toneWrite_steady]
@[simp] theorem toneCheck_steady (s : State) (c q : Nat) (red : Bool) (ecc : Found) :
    (toneCheck s c q red ecc).2.steady = s.steady := by
  unfold toneCheck
  grind [prepare_steady]
@[simp] theorem toneRun_steady (s : State) (o : Op) (red : Bool) (mB : Option Mat) (ecc : Found) (residue n : Nat) :
    (toneRun s o red mB ecc residue n).2.2.steady = s.steady := by
  have hpass (u : State) (free cnt : Nat) (c : Bool) : (if c then toneSumlist u o (toneDie o.word) ecc n free else
      (List.range n).foldl (fun r e => addCount r fun v =>
        toneEntry v o (toneDie o.word) red ecc mB e (free + e * cnt)) (.ok 0, u)).2.steady = u.steady := by
    split
    · simp
    · exact foldl_pair_steady _ _ _ fun r e => by simp
  have h := hpass { s with freeCtr := s.freeCtr + n * (o.dd.rows * o.dd.cols) } s.freeCtr (o.dd.rows * o.dd.cols)
    (red && decide (toneFunc o.word = 4))
  unfold toneRun
  dsimp only
  split
  next heq => rw [heq] at h; exact h
  next heq =>
    rw [heq] at h
    grind [State.chargeUnit_steady, State.rerun_steady, State.steady_with]
@[simp] theorem toneEffect_steady (s : State) (c q : Nat) (red : Bool) (ecc : Found) (residue : Nat) :
    (toneEffect s c q red ecc residue).steady = s.steady := by
  unfold toneEffect
  grind [State.finishOp_steady, State.issueDone_steady, State.issue_steady, toneCheck_steady, toneRun_steady]

/-! ### Macros -/

@[simp] theorem State.allPieces_steady (s : State) (c : Nat) (pl : Place) (m : Mat) (n : Nat) (write : Bool) :
    (s.allPieces c pl m n write).2.steady = s.steady := by
  unfold State.allPieces
  grind [State.spaceTargets_steady, foldl_pair_steady]
@[simp] theorem State.allTargets_steady (s : State) (c : Nat) (pl : Place) (m : Mat) (n : Nat) (write : Bool) :
    (s.allTargets c pl m n write).2.steady = s.steady := by
  unfold State.allTargets
  grind [State.allPieces_steady]
@[simp] theorem moveCheck_steady (s : State) (c q : Nat) (ecc : Found) : (moveCheck s c q ecc).2.steady = s.steady := by
  unfold moveCheck
  dsimp only
  repeat' split
  all_goals grind [State.allTargets_steady, State.chargeUnit_steady, prepare_steady]
@[simp] theorem moveBlock_steady (s : State) (o : Op) (e : Engine) (pl : Place) (ecc : Found) (w i : Nat) (k : Nat × Nat) :
    (moveBlock s o e pl ecc w i k).2.steady = s.steady := by
  unfold moveBlock
  grind [State.blockTargets_steady, State.holdWrites_steady, State.readSpace_steady]
@[simp] theorem moveRun_steady (s : State) (o : Op) (e : Engine) (ecc : Found) (n : Nat) :
    (moveRun s o e ecc n).2.steady = s.steady := by
  refine foldl_pair_steady _ _ _ fun r x => ?_
  obtain ⟨f | _, u⟩ := r <;> simp
@[simp] theorem moveEffect_steady (s : State) (c q : Nat) (ecc : Found) : (moveEffect s c q ecc).steady = s.steady := by
  unfold moveEffect
  grind [State.finishOp_steady, State.issueDone_steady, State.issue_steady, moveCheck_steady, moveRun_steady]
@[simp] theorem sampleRun_steady (s : State) (c q : Nat) (ecc : Found) : (sampleRun s c q ecc).2.steady = s.steady := by
  unfold sampleRun
  grind [State.allTargets_steady, State.chargeUnit_steady, State.readPiece_steady, prepare_steady, writeWalks_steady]
@[simp] theorem sampleEffect_steady (s : State) (c q : Nat) (ecc : Found) :
    (sampleEffect s c q ecc).steady = s.steady := by simp [sampleEffect]
@[simp] theorem stageOne_steady (s : State) (c q k d o time a : Nat) (ecc : Found) :
    (stageOne s c q k d o time a ecc).2.steady = s.steady := by
  unfold stageOne
  grind [State.post_steady, State.readCtx_steady, State.takeFree_steady, State.wr_steady]
@[simp] theorem actuateRun_steady (s : State) (c q time : Nat) (ecc : Found) :
    (actuateRun s c q time ecc).2.steady = s.steady := by
  unfold actuateRun
  dsimp only
  repeat' split
  all_goals grind [State.allTargets_steady, foldl_pair_steady, prepare_steady, stageOne_steady]
@[simp] theorem actuateEffect_steady (s : State) (c q time : Nat) (ecc : Found) :
    (actuateEffect s c q time ecc).steady = s.steady := by simp [actuateEffect]
@[simp] theorem waitEffect_steady (s : State) (c q : Nat) : (waitEffect s c q).steady = s.steady := by simp [waitEffect]
@[simp] theorem State.bump_steady (s : State) (c k : Nat) (set : Bool) (v : BitVec 32) :
    (s.bump c k set v).steady = s.steady := by simp [State.bump]
@[simp] theorem signalBump_steady (s : State) (c q : Nat) : (signalBump s c q).steady = s.steady := by simp [signalBump]
@[simp] theorem signalRecord_steady (s : State) (c q : Nat) :
    (signalRecord s c q).steady = s.steady := by simp [signalRecord]
@[simp] theorem signalFence_steady (s : State) (c q : Nat) (flush : Bool) :
    (signalFence s c q flush).steady = s.steady := by simp [signalFence]
@[simp] theorem patchReg_steady (s : State) (c q op : Nat) : (patchReg s c q op).steady = s.steady := by simp [patchReg]
@[simp] theorem patchLoad_steady (s : State) (c q : Nat) (ecc : Found) : (patchLoad s c q ecc).steady = s.steady := by
  unfold patchLoad
  grind [State.faultNow_steady, State.finishNow_steady, State.readCtx_steady, State.setPrm_steady]
@[simp] theorem patchStore_steady (s : State) (c q : Nat) : (patchStore s c q).steady = s.steady := by
  unfold patchStore
  grind [State.faultNow_steady, State.finishNow_steady, State.postWrites_steady, State.writeTargets_steady]
@[simp] theorem endEffect_steady (s : State) (c q : Nat) : (endEffect s c q).steady = s.steady := by simp [endEffect]
@[simp] theorem completeEffect_steady (s : State) (c q idx : Nat) : (completeEffect s c q idx).steady = s.steady := by
  unfold completeEffect
  grind [State.retireOp_steady]

/-! ### Plates -/

@[simp] theorem State.plateEvent_steady (s : State) (kind g : Nat) (detail : Nat) (sup : Bool) :
    (s.plateEvent kind g detail sup).steady = s.steady := by
  unfold State.plateEvent
  grind [State.postSup_steady, State.post_steady]
@[simp] theorem loadCheck_steady (s : State) (c q : Nat) (ecc : Found) : (loadCheck s c q ecc).2.steady = s.steady := by
  unfold loadCheck
  dsimp only
  repeat' split
  all_goals grind [State.allTargets_steady, prepare_steady]
@[simp] theorem loadEffect_steady (s : State) (c q : Nat) (ecc : Found) : (loadEffect s c q ecc).steady = s.steady := by
  unfold loadEffect
  grind [State.chargeUnit_steady, State.issueDone_steady, State.issue_steady, State.modPlate_steady, loadCheck_steady]
@[simp] theorem loadCompleteEffect_steady (s : State) (c q idx : Nat) (ecc : Found) :
    (loadCompleteEffect s c q idx ecc).steady = s.steady := by
  unfold loadCompleteEffect
  grind [State.endOp_steady, State.modPlate_steady, State.readMat_steady]
@[simp] theorem swapEffect_steady (s : State) (c q : Nat) : (swapEffect s c q).steady = s.steady := by
  unfold swapEffect
  grind [State.issueDone_steady, State.issue_steady]
@[simp] theorem swapTake_steady (s : State) (c q idx : Nat) : (swapTake s c q idx).steady = s.steady := by
  unfold swapTake; split <;> simp
@[simp] theorem etchCheck_steady (s : State) (c q : Nat) (ecc : Found) : (etchCheck s c q ecc).2.steady = s.steady := by
  unfold etchCheck
  grind [prepare_steady]
@[simp] theorem etchEffect_steady (s : State) (c q : Nat) (ecc : Found) : (etchEffect s c q ecc).steady = s.steady := by
  unfold etchEffect
  grind [State.chargeUnit_steady, State.issueDone_steady, State.issue_steady, etchCheck_steady]
@[simp] theorem State.setEtch_steady (s : State) (c q idx : Nat) (h : EtchRun) :
    (s.setEtch c q idx h).steady = s.steady := by simp [State.setEtch]
@[simp] theorem State.recordPass_steady (s : State) (k c g : Nat) (v : Verdict) :
    (s.recordPass k c g v).steady = s.steady := by simp [State.recordPass]
@[simp] theorem State.modLedgers_steady (s : State) (c g : Nat) (f : Ledger → Ledger) :
    (s.modLedgers c g f).steady = s.steady := by simp [State.modLedgers]
@[simp] theorem refusePass_steady (s : State) (c q idx g round : Nat) (hi : Bool) :
    (refusePass s c q idx g round hi).steady = s.steady := by
  unfold refusePass
  grind [State.endOp_steady, State.modCtx_steady, State.modLedgers_steady, State.setEtch_steady]
@[simp] theorem State.delayStipple_steady (s : State) (m ns : Nat) : (s.delayStipple m ns).steady = s.steady := by
  unfold State.delayStipple
  grind [State.chargeUnit_steady, foldl_steady]
@[simp] theorem tryRebite_steady (s : State) (m : Nat) (r : Rebite) : (tryRebite s m r).2.steady = s.steady := by
  unfold tryRebite
  grind [State.chargeUnit_steady, State.charge_steady, State.delayStipple_steady, refusePass_steady]
@[simp] theorem startRebites_steady (m : Nat) (l : List Rebite) (s : State) : (startRebites m l s).steady = s.steady := by
  fun_induction startRebites with grind [tryRebite_steady, State.steady_with]
@[simp] theorem queueRebite_steady (s : State) (m : Nat) (r : Rebite) : (queueRebite s m r).steady = s.steady := by
  unfold queueRebite; split <;> simp
@[simp] theorem rebitePass_steady (s : State) (c q idx g round : Nat) (hi : Bool) :
    (rebitePass s c q idx g round hi).steady = s.steady := by
  unfold rebitePass; split <;> simp
@[simp] theorem State.saveEtch_steady (s : State) (o : Op) (h : EtchRun) :
    (s.saveEtch o h).steady = s.steady := by simp [State.saveEtch]
@[simp] theorem flightEffect_steady (s : State) (x : Flight) (g : Nat) (raw : Tab Int) (p1 p2 : Int) :
    (flightEffect s x g raw p1 p2).steady = s.steady := by
  unfold flightEffect
  grind [State.modPlate_steady, State.recordPass_steady, State.saveEtch_steady]
@[simp] theorem passEffect_steady (s : State) (c q idx g : Nat) (raw : Tab Int) (p1 p2 : Int) :
    (passEffect s c q idx g raw p1 p2).steady = s.steady := by
  unfold passEffect
  grind [State.recordPass_steady, State.setEtch_steady, flightEffect_steady, rebitePass_steady]
@[simp] theorem rebiteWeights_steady (s : State) (c m : Nat) (ecc : Found) (b : Bank) :
    (rebiteWeights s c m ecc b).2.steady = s.steady := by
  unfold rebiteWeights
  grind [State.readBlock_steady]
@[simp] theorem acceptRebite_steady (s : State) (r : Rebite) (h : EtchRun) (f : FailedPass) (b : Bank) (sums : List Int) :
    (acceptRebite s r h f b sums).steady = s.steady := by simp [acceptRebite]
@[simp] theorem endRebite_steady (s : State) (m : Nat) (r : Rebite) (bad : Bool) (ecc : Found) :
    (endRebite s m r bad ecc).steady = s.steady := by
  unfold endRebite
  grind [State.postSup_steady, State.post_steady, acceptRebite_steady, rebiteWeights_steady, refusePass_steady]
@[simp] theorem rebiteEffect_steady (s : State) (m : Nat) (bad : Bool) (ecc : Found) :
    (rebiteEffect s m bad ecc).steady = s.steady := by
  unfold rebiteEffect; split <;> simp
@[simp] theorem writeOutEffect_steady (s : State) (c q idx : Nat) : (writeOutEffect s c q idx).steady = s.steady := by
  unfold writeOutEffect; split <;> simp
@[simp] theorem bankScrubEffect_steady (s : State) (g bank row : Nat) (mismatch : Bool) :
    (bankScrubEffect s g bank row mismatch).steady = s.steady := by simp [bankScrubEffect]
@[simp] theorem burnishDone_steady (s : State) (g : Nat) (m : BurnishSums) :
    (burnishDone s g m).steady = s.steady := by simp [burnishDone]
@[simp] theorem burnishStepEffect_steady (s : State) (g : Nat) (passes : List (Tab Int)) :
    (burnishStepEffect s g passes).steady = s.steady := by simp [burnishStepEffect]
@[simp] theorem overdueEffect_steady (s : State) (g : Nat) :
    (overdueEffect s g).steady = s.steady := by simp [overdueEffect]

/-! ### Vyton -/

@[simp] theorem hatchPrepare_steady (s : State) (c q : Nat) (stip : Bool) (ecc : Found) :
    (hatchPrepare s c q stip ecc).2.steady = s.steady := by
  unfold hatchPrepare
  grind [prepare_steady]
@[simp] theorem issueStipple_steady (s : State) (op : Op) (m : Nat) (a b d : Mat) :
    (issueStipple s op m a b d).steady = s.steady := by
  unfold issueStipple
  grind [State.chargeUnit_steady, State.issueDone_steady, State.issue_steady]
@[simp] theorem issueHatch_steady (s : State) (op : Op) (m : Nat) (a b d : Mat) :
    (issueHatch s op m a b d).steady = s.steady := by
  unfold issueHatch
  grind [State.chargeUnit_steady, State.issueDone_steady, State.issue_steady]
@[simp] theorem hatchEffect_steady (s : State) (c q : Nat) (stip : Bool) (ecc : Found) :
    (hatchEffect s c q stip ecc).steady = s.steady := by
  unfold hatchEffect
  grind [State.issueDone_steady, hatchPrepare_steady, issueHatch_steady, issueStipple_steady]
@[simp] theorem fetchBlock_steady (s : State) (o : Op) (m : Nat) (ecc : Found) (x : Mat) (sheet : Option (List Int × Nat ×
    Nat × Nat)) (e r0 rn c0 cn : Nat) :
    (fetchBlock s o m ecc x sheet e r0 rn c0 cn).2.steady = s.steady := by
  unfold fetchBlock
  grind [State.readBlock_steady]
@[simp] theorem fetchItem_steady (s : State) (o : Op) (h : HatchRun) (m i : Nat) (x : WalkItem) (ecc : Found) :
    (fetchItem s o h m i x ecc).2.steady = s.steady := by
  unfold fetchItem
  grind [fetchBlock_steady]
@[simp] theorem fetchEffect_steady (s : State) (c q idx item : Nat) (ecc : Found) :
    (fetchEffect s c q idx item ecc).steady = s.steady := by
  unfold fetchEffect
  dsimp only
  repeat' split
  all_goals grind [State.finishOp_steady, State.modOp_steady, State.readBlock_steady, fetchItem_steady]
@[simp] theorem claimEffect_steady (s : State) (c q idx : Nat) : (claimEffect s c q idx).steady = s.steady := by
  unfold claimEffect
  grind [State.modOp_steady]
@[simp] theorem readWells_steady (s : State) (o : Op) (m : Nat) (x : Mat) (e r0 rn c0 cn : Nat) :
    (readWells s o m x e r0 rn c0 cn).2.steady = s.steady := by
  unfold readWells
  grind [State.readBlock_steady]
@[simp] theorem tileOperands_steady (s : State) (o : Op) (h : HatchRun) (m : Nat) (x : WalkItem) :
    (tileOperands s o h m x).2.steady = s.steady := by
  unfold tileOperands
  grind [readWells_steady]
@[simp] theorem tileLedger_steady (s : State) (c : Nat) (rows cols : List Nat) :
    (tileLedger s c rows cols).steady = s.steady := by simp [tileLedger]
@[simp] theorem tileMismatch_steady (s : State) (o : Op) (h : HatchRun) (m : Nat) (x : WalkItem) (rows cols : List Nat) :
    (tileMismatch s o h m x rows cols).steady = s.steady := by
  unfold tileMismatch
  grind [State.chargeUnit_steady, State.charge_steady, State.countMismatch_steady, State.finishOp_steady,
    State.modOp_steady, tileLedger_steady]
@[simp] theorem drainBlock_steady (s : State) (o : Op) (m e r0 rn c0 cn : Nat) (acc : List Nat) :
    (drainBlock s o m e r0 rn c0 cn acc).2.steady = s.steady := by
  unfold drainBlock
  grind [State.blockTargets_steady, State.holdWrites_steady, State.steady_with]
@[simp] theorem tileGood_steady (s : State) (o : Op) (h : HatchRun) (m : Nat) (x : WalkItem) (acc : List Nat) :
    (tileGood s o h m x acc).steady = s.steady := by
  unfold tileGood
  grind [State.finishOp_steady, State.modOp_steady, drainBlock_steady]
@[simp] theorem tileEffect_steady (s : State) (c q idx : Nat) (chk : TileCheck) :
    (tileEffect s c q idx chk).steady = s.steady := by
  unfold tileEffect
  dsimp only
  repeat' split
  all_goals grind [State.finishOp_steady, tileGood_steady, tileMismatch_steady, tileOperands_steady]
@[simp] theorem stipGroups_steady (s : State) (o : Op) (m e r0 rn : Nat) (x : List Int) (chk : TileCheck) (ecc : Found) :
    (stipGroups s o m e r0 rn x chk ecc).2.steady = s.steady := by
  unfold stipGroups
  grind [State.readBlock_steady, drainBlock_steady, foldl_pair_steady]
@[simp] theorem stipMismatch_steady (s : State) (o : Op) (h : StipRun) (m rn : Nat) :
    (stipMismatch s o h m rn).steady = s.steady := by
  unfold stipMismatch
  grind [State.chargeUnit_steady, State.charge_steady, State.countMismatch_steady, State.finishOp_steady,
    State.modOp_steady]
@[simp] theorem stipGood_steady (s : State) (o : Op) (h : StipRun) (sats : Nat) :
    (stipGood s o h sats).steady = s.steady := by simp [stipGood]
@[simp] theorem stipEffect_steady (s : State) (c q idx : Nat) (chk : TileCheck) (ecc : Found) :
    (stipEffect s c q idx chk ecc).steady = s.steady := by
  unfold stipEffect
  dsimp only
  repeat' split
  all_goals grind [State.finishOp_steady, readWells_steady, stipGood_steady, stipGroups_steady, stipMismatch_steady]
@[simp] theorem State.modExt_steady (s : State) (m p : Nat) (f : ExtPort → ExtPort) :
    (s.modExt m p f).steady = s.steady := by simp [State.modExt]
@[simp] theorem State.abortExt_steady (s : State) (m p : Nat) (o : Op) :
    (s.abortExt m p o).steady = s.steady := by simp [State.abortExt]
@[simp] theorem extCheck_steady (s : State) (c q : Nat) (ecc : Found) : (extCheck s c q ecc).2.steady = s.steady := by
  unfold extCheck
  grind [prepare_steady]
@[simp] theorem State.matBytes_steady (s : State) (c : Nat) (e : Engine) (pl : Place) (ecc : Found) (m : Mat) (w : Nat) :
    (s.matBytes c e pl ecc m w).2.steady = s.steady := by
  unfold State.matBytes
  grind [State.readSpace_steady, foldl_pair_steady]
@[simp] theorem extStream_steady (s : State) (o : Op) (m : Nat) (ecc : Found) :
    (extStream s o m ecc).2.steady = s.steady := by
  unfold extStream
  grind [State.matBytes_steady, foldl_pair_steady]
@[simp] theorem extStart_steady (s : State) (o : Op) (m p : Nat) (ecc : Found) :
    (extStart s o m p ecc).steady = s.steady := by
  unfold extStart
  grind [State.endOp_steady, State.modExt_steady, State.send_steady, extStream_steady]
@[simp] theorem extEffect_steady (s : State) (c q : Nat) (ecc : Found) : (extEffect s c q ecc).steady = s.steady := by
  unfold extEffect
  grind [State.issueDone_steady, State.issue_steady, extCheck_steady, extStart_steady]
@[simp] theorem extTargets_steady (s : State) (o : Op) (m : Nat) (beats : List Byte) :
    (extTargets s o m beats).2.steady = s.steady := by
  unfold extTargets
  grind [State.blockTargets_steady, foldl_pair_steady]
@[simp] theorem extWrite_steady (s : State) (o : Op) (m : Nat) (beats : List Byte) :
    (extWrite s o m beats).2.steady = s.steady := by
  unfold extWrite
  grind [State.writeSpace_steady, extTargets_steady]
@[simp] theorem extDoneEffect_steady (s : State) (m p : Nat) (status : BitVec 8) (beats : List Byte) :
    (extDoneEffect s m p status beats).steady = s.steady := by
  unfold extDoneEffect
  grind [State.endOp_steady, State.modExt_steady, extWrite_steady]
@[simp] theorem extFault_steady (s : State) (m p : Nat) (st : Status) : (extFault s m p st).steady = s.steady := by
  unfold extFault; split <;> simp
@[simp] theorem extAckEffect_steady (s : State) (m p : Nat) (beats : List Byte) :
    (extAckEffect s m p beats).steady = s.steady := by
  unfold extAckEffect
  grind [State.modExt_steady, extFault_steady, extWrite_steady]
@[simp] theorem extHungEffect_steady (s : State) (m p : Nat) :
    (extHungEffect s m p).steady = s.steady := by simp [extHungEffect]

/-! ### Queues -/

@[simp] theorem State.answer_steady (s : State) (via : Via) (abort len v : Nat) :
    (s.answer via abort len v).steady = s.steady := by simp [State.answer]
@[simp] theorem State.accepted_steady (s : State) : s.accepted.steady = s.steady := by simp [State.accepted]
@[simp] theorem State.countAbort_steady (s : State) : s.countAbort.steady = s.steady := by simp [State.countAbort]
@[simp] theorem State.respond_steady (s : State) (via : Via) (abort len v : Nat) :
    (s.respond via abort len v).steady = s.steady := by simp [State.respond]
@[simp] theorem State.ignored_steady (s : State) (t : Nat) : (s.ignored t).steady = s.steady := by simp [State.ignored]
@[simp] theorem State.checkHead_steady (s : State) (c q : Nat) : (s.checkHead c q).2.steady = s.steady := by
  unfold State.checkHead
  grind [State.readCtx_steady]
@[simp] theorem State.rejectEntry_steady (s : State) (c q reason : Nat) :
    (s.rejectEntry c q reason).steady = s.steady := by simp [State.rejectEntry]
@[simp] theorem State.applyPatch_steady (s : State) (c q : Nat) (p : BitVec 128) :
    (s.applyPatch c q p).steady = s.steady := by simp [State.applyPatch]
@[simp] theorem State.startEntry_steady (s : State) (c q : Nat) : (s.startEntry c q).steady = s.steady := by
  unfold State.startEntry
  grind [State.applyPatch_steady, State.checkHead_steady, State.modQueue_steady, State.ran_steady, State.rejectEntry_steady,
    foldl_steady]
@[simp] theorem State.headInfo_steady (s : State) (c q : Nat) : (s.headInfo c q).2.steady = s.steady := by
  unfold State.headInfo
  grind [State.readCtx_steady]
@[simp] theorem State.resultArea_steady (s : State) (c q a : Nat) :
    (s.resultArea c q a).steady = s.steady := by simp [State.resultArea]
@[simp] theorem State.retireHead_steady (s : State) (c q : Nat) (i : Bool × Nat × BitVec 64) :
    (s.retireHead c q i).steady = s.steady := by simp [State.retireHead]
@[simp] theorem State.retireReplays_steady (s : State) (c q : Nat) (orphaned : Bool) (n : Nat) :
    (s.retireReplays c q orphaned n).steady = s.steady := by
  fun_induction State.retireReplays with grind [State.headInfo_steady, State.retireHead_steady]
@[simp] theorem State.retireOnce_steady (s : State) (c q : Nat) :
    (s.retireOnce c q).steady = s.steady := by simp [State.retireOnce]
@[simp] theorem State.advanceQueue_steady (s : State) (c q : Nat) :
    (s.advanceQueue c q).steady = s.steady := by simp [State.advanceQueue]
@[simp] theorem State.advanceCtx_steady (s : State) (c : Nat) :
    (s.advanceCtx c).steady = s.steady := by simp [State.advanceCtx]
@[simp] theorem State.askRestore_steady (s : State) (margin : Bool) (c : Nat) :
    (s.askRestore margin c).steady = s.steady := by simp [State.askRestore]
@[simp] theorem State.recheck_steady (s : State) (c q : Nat) : (s.recheck c q).steady = s.steady := by
  unfold State.recheck
  grind [State.checkHead_steady, State.modQueue_steady, State.post_steady]
@[simp] theorem State.ring_steady (s : State) (c q : Nat) (idx : BitVec 16) :
    (s.ring c q idx).steady = s.steady := by simp [State.ring]
@[simp] theorem doorbellQueue_steady (s : State) (via : Via) (w : BitVec 64) :
    (doorbellQueue s via w).steady = s.steady := by
  unfold doorbellQueue; split <;> simp
@[simp] theorem doorbellConsumer_steady (s : State) (via : Via) (w : BitVec 64) :
    (doorbellConsumer s via w).steady = s.steady := by
  unfold doorbellConsumer; split <;> simp
@[simp] theorem heldEffect_steady (s : State) (c : Nat) : (heldEffect s c).steady = s.steady := by
  unfold heldEffect; split <;> simp
@[simp] theorem State.fenceRecord_steady (s : State) (c : Nat) (f : Fence) (st : Status) (detail : Nat) :
    (s.fenceRecord c f st detail).steady = s.steady := by simp [State.fenceRecord]
@[simp] theorem fenceEffect_steady (s : State) (c q : Nat) : (fenceEffect s c q).steady = s.steady := by
  unfold fenceEffect
  grind [State.bump_steady, State.fenceRecord_steady, State.modCtx_steady]
@[simp] theorem flushEffect_steady (s : State) (c q : Nat) (ok : Bool) : (flushEffect s c q ok).steady = s.steady := by
  unfold flushEffect
  grind [State.lateRecord_steady, State.modCtx_steady]
@[simp] theorem State.failPosted_steady (s : State) (p : Posted) (cause : Nat) :
    (s.failPosted p cause).steady = s.steady := by
  unfold State.failPosted; split <;> simp
@[simp] theorem State.performDev_steady (s : State) (p : Posted) (a : Nat) (e : Ecc) :
    (s.performDev p a e).steady = s.steady := by
  unfold State.performDev
  grind [State.countCorrected_steady, State.failPosted_steady, State.markPoison_steady, State.wr_steady]
@[simp] theorem State.performPosted_steady (s : State) (p : Posted) (e : Ecc) :
    (s.performPosted p e).steady = s.steady := by
  unfold State.performPosted
  grind [State.failPosted_steady, State.performDev_steady, State.wrTarget_steady]
@[simp] theorem State.drainPosted_steady (s : State) (c : Nat) :
    (s.drainPosted c).steady = s.steady := by simp [State.drainPosted]
@[simp] theorem State.setCount_steady (s : State) (c : Nat) (n : BitVec 32) (device : Bool) :
    (s.setCount c n device).steady = s.steady := by simp [State.setCount]
@[simp] theorem keepCas_steady (s : State) (via : Via) (c : Nat) (cmp new : BitVec 64) :
    (keepCas s via c cmp new).steady = s.steady := by
  unfold keepCas; split <;> simp
@[simp] theorem keepUpdate_steady (s : State) (t : Nat) (v : BitVec 192) : (keepUpdate s t v).2.steady = s.steady := by
  unfold keepUpdate
  grind [State.ignored_steady, State.setCount_steady]

/-! ### Bundles -/

@[simp] theorem bundleSubmit_steady (s : State) (via : Via) (bytes : List Byte) :
    (bundleSubmit s via bytes).steady = s.steady := by
  unfold bundleSubmit
  repeat' split
  all_goals simp

/-! ### Contexts -/

@[simp] theorem State.countSlotOp_steady (s : State) : s.countSlotOp.steady = s.steady :=
  State.steady_eq_iff.2 ⟨rfl, rfl, rfl, fun _ _ => ⟨rfl, rfl⟩⟩
@[simp] theorem State.preloadBytes_steady (s : State) (c : Nat) (d : Word256) :
    (s.preloadBytes c d).2.steady = s.steady := by
  unfold State.preloadBytes
  grind [State.readCtx_steady, foldl_pair_steady]
@[simp] theorem State.digestFault_steady (s : State) (c : Nat) (b : Bundle) : (s.digestFault c b).2.steady = s.steady := by
  unfold State.digestFault
  grind [State.preloadBytes_steady, foldl_pair_steady]
@[simp] theorem State.admitCheck_steady (s : State) (c : Nat) : (s.admitCheck c).2.steady = s.steady := by
  unfold State.admitCheck
  grind [State.digestFault_steady]
@[simp] theorem State.grant_steady (s : State) (c : Nat) (b : Bundle) :
    (s.grant c b).steady = s.steady := by simp [State.grant]
@[simp] theorem State.refuseAdmission_steady (s : State) (c : Nat) (r : Rej) :
    (s.refuseAdmission c r).steady = s.steady := by simp [State.refuseAdmission]
@[simp] theorem State.admitCtx_steady (s : State) (c : Nat) : (s.admitCtx c).steady = s.steady := by
  unfold State.admitCtx
  grind [State.admitCheck_steady, State.askRestore_steady, State.grant_steady, State.modCtx_steady, State.post_steady,
    State.refuseAdmission_steady]
@[simp] theorem State.restoreCtx_steady (s : State) (c n : Nat) : (s.restoreCtx c n).steady = s.steady := by
  unfold State.restoreCtx
  grind [State.admitCheck_steady, State.refuseAdmission_steady, State.modCtx_steady, State.countSlotOp_steady, State.steady_with]
@[simp] theorem State.doSlotOp_steady (s : State) (o : SlotOp) : (s.doSlotOp o).steady = s.steady := by
  unfold State.doSlotOp; split <;> simp
@[simp] theorem State.revoke_steady (s : State) (c p0 n : Nat) :
    (s.revoke c p0 n).steady = s.steady := by simp [State.revoke]
@[simp] theorem State.invalidateOne_steady (s : State) (c a n : Nat) :
    (s.invalidateOne c a n).steady = s.steady := by simp [State.invalidateOne]
@[simp] theorem State.invalidates_steady (s : State) (c : Nat) :
    (s.invalidates c).steady = s.steady := by simp [State.invalidates]
@[simp] theorem State.releasePlates_steady (s : State) (c : Nat) :
    (s.releasePlates c).steady = s.steady := by simp [State.releasePlates]
@[simp] theorem State.clearPlates_steady (s : State) (c : Nat) :
    (s.clearPlates c).steady = s.steady := by simp [State.clearPlates]
@[simp] theorem State.dropWork_steady (s : State) (c : Nat) : (s.dropWork c).steady = s.steady := by
  simp only [State.dropWork, State.steady_with]
  rw [foldl_steady, State.each_steady]
  · exact fun u m => State.each_steady _ _ _ fun v p => by split <;> simp
  · intro u o
    split <;> simp
@[simp] theorem State.resetFences_steady (s : State) (c : Nat) :
    (s.resetFences c).steady = s.steady := by simp [State.resetFences]
@[simp] theorem State.resetQueue_steady (s : State) (c q : Nat) : (s.resetQueue c q).steady = s.steady := by
  unfold State.resetQueue
  grind [State.endRun_steady, State.modQueue_steady]
@[simp] theorem State.clearRegs_steady (s : State) (c : Nat) :
    (s.clearRegs c).steady = s.steady := by simp [State.clearRegs]
@[simp] theorem State.resetCommon_steady (s : State) (c : Nat) :
    (s.resetCommon c).steady = s.steady := by simp [State.resetCommon]
@[simp] theorem State.resetRecord_steady (s : State) (c : Nat) (sc : Scope) :
    (s.resetRecord c sc).steady = s.steady := by simp [State.resetRecord]
@[simp] theorem State.resetToCreated_steady (s : State) (c : Nat) :
    (s.resetToCreated c).steady = s.steady := by simp [State.resetToCreated]
@[simp] theorem State.resetToEnd_steady (s : State) (c : Nat) (sc : Scope) :
    (s.resetToEnd c sc).steady = s.steady := by simp [State.resetToEnd]
@[simp] theorem State.resetToTeardown_steady (s : State) (c : Nat) :
    (s.resetToTeardown c).steady = s.steady := by simp [State.resetToTeardown]
@[simp] theorem State.resetToNone_steady (s : State) (c : Nat) (sc : Scope) :
    (s.resetToNone c sc).steady = s.steady := by simp [State.resetToNone]
@[simp] theorem State.resetCtx_steady (s : State) (c : Nat) (sc : Scope) : (s.resetCtx c sc).steady = s.steady := by
  unfold State.resetCtx; split <;> simp
@[simp] theorem State.orphanCheck_steady (s : State) (c : Nat) :
    (s.orphanCheck c).steady = s.steady := by simp [State.orphanCheck]
@[simp] theorem State.teardownCtx_steady (s : State) (c : Nat) : (s.teardownCtx c).steady = s.steady := by
  unfold State.teardownCtx
  grind [State.countSlotOp_steady, State.drainPosted_steady, State.modCtx_steady, State.notifyCtx_steady, State.post_steady,
    State.resetCommon_steady, State.resetRecord_steady]
@[simp] theorem State.ackLate_steady (s : State) (c : Nat) : (s.ackLate c).steady = s.steady := by simp [State.ackLate]
@[simp] theorem createCtx_steady (s : State) (via : Via) (t : Nat) (r : BitVec 1024) :
    (createCtx s via t r).2.steady = s.steady := by
  unfold createCtx
  grind [State.modView_steady, State.setCtx_steady]
@[simp] theorem ctxChange_steady (s : State) (c cmd : Nat) (body : BitVec 1024) :
    (ctxChange s c cmd body).2.steady = s.steady := by
  unfold ctxChange
  grind [State.modCtx_steady]
@[simp] theorem contextCommand_steady (s : State) (via : Via) (h : BitVec 128) (body : BitVec 1024) :
    (contextCommand s via h body).2.steady = s.steady := by
  unfold contextCommand
  grind [State.ignored_steady, createCtx_steady, ctxChange_steady]
@[simp] theorem State.requestTenantReset_steady (s : State) (t : Nat) :
    (s.requestTenantReset t).steady = s.steady := by simp [State.requestTenantReset]
@[simp] theorem State.requestWarm_steady (s : State) (cause : Nat) :
    (s.requestWarm cause).steady = s.steady := by simp [State.requestWarm]
@[simp] theorem State.requestCold_steady (s : State) : s.requestCold.steady = s.steady := by simp [State.requestCold]
@[simp] theorem State.resetAtOnce_steady (s : State) : s.resetAtOnce.steady = s.steady := by simp [State.resetAtOnce]
@[simp] theorem State.endGrants_steady (s : State) (p : Grant → Bool) :
    (s.endGrants p).steady = s.steady := by simp [State.endGrants]
@[simp] theorem State.dropEndpoints_steady (s : State) (p : Via → Bool) : (s.dropEndpoints p).steady = s.steady := by
  unfold State.dropEndpoints; split <;> simp
@[simp] theorem State.flrOne_steady (s : State) (port f : Nat) : (s.flrOne port f).steady = s.steady := by
  unfold State.flrOne
  grind [State.dropEndpoints_steady, State.modFunc_steady, State.modTen_steady]
@[simp] theorem partitionRestart_steady (s : State) (part : Nat) : (partitionRestart s part).steady = s.steady := by
  unfold partitionRestart; split <;> simp
@[simp] theorem State.msixPending_steady (s : State) (port func : Nat) :
    (s.msixPending port func).steady = s.steady := by simp [State.msixPending]
@[simp] theorem msixUnmask_steady (s : State) (port func : Nat) (w : CfgWrite) :
    (msixUnmask s port func w).steady = s.steady := by simp [msixUnmask]

/-! ### Links -/

@[simp] theorem State.checkPart_steady (s : State) (p : Nat) (kind : MachineCheck) :
    (s.checkPart p kind).steady = s.steady := by simp [State.checkPart]
@[simp] theorem State.route_steady (s : State) (l d : Nat) (f : Flit) : (s.route l d f).steady = s.steady := by
  unfold State.route
  grind [State.checkPart_steady, State.modLink_steady]
@[simp] theorem flitEffect_steady (s : State) (l dir : Nat) (f : Crossing) (time : Nat) :
    (flitEffect s l dir f time).steady = s.steady := by
  unfold flitEffect
  grind [State.modLink_steady, State.route_steady]
@[simp] theorem State.failWay_steady (s : State) (l : Nat) : (s.failWay l).steady = s.steady := by simp [State.failWay]
@[simp] theorem State.failStores_steady (s : State) (l : Nat) : (s.failStores l).steady = s.steady := by
  unfold State.failStores
  grind [State.checkPart_steady, foldl_steady]
@[simp] theorem State.declareDown_steady (s : State) (l : Nat) :
    (s.declareDown l).steady = s.steady := by simp [State.declareDown]
@[simp] theorem retrainComplete_steady (s : State) (l fail0 fail1 : Nat) (ok : Bool) (time : Nat) :
    (retrainComplete s l fail0 fail1 ok time).steady = s.steady := by simp [retrainComplete]
@[simp] theorem State.scrubBad_steady (s : State) (a die : Nat) :
    (s.scrubBad a die).steady = s.steady := by simp [State.scrubBad]
@[simp] theorem stockScrub_steady (s : State) (k off : Nat) (e : Ecc) (recovers : Bool) :
    (stockScrub s k off e recovers).steady = s.steady := by
  unfold stockScrub; split <;> simp
@[simp] theorem State.takeScrub_steady (s : State) (k : Nat) : (s.takeScrub k).steady = s.steady :=
  State.steady_of_same rfl rfl rfl rfl
@[simp] theorem patrol_steady (s : State) (a : Nat) (e : Ecc) : (patrol s a e).steady = s.steady := by
  unfold patrol; split <;> simp
@[simp] theorem postedEffect_steady (s : State) (i : Nat) (e : Ecc) : (postedEffect s i e).steady = s.steady := by
  unfold postedEffect; split <;> simp

/-! ### Gauge -/

@[simp] theorem State.modPos_steady (s : State) (d i : Nat) (f : PosIf → PosIf) :
    (s.modPos d i f).steady = s.steady := by simp [State.modPos]
@[simp] theorem State.modPwm_steady (s : State) (d c : Nat) (f : Pwm → Pwm) :
    (s.modPwm d c f).steady = s.steady := by simp [State.modPwm]
@[simp] theorem State.modLoad_steady (s : State) (d k : Nat) (f : LoadCh → LoadCh) :
    (s.modLoad d k f).steady = s.steady := by simp [State.modLoad]
@[simp] theorem State.latchGauge_steady (s : State) (d : Nat) (x : GaugeIn) (bits : Nat) :
    (s.latchGauge d x bits).steady = s.steady := by simp [State.latchGauge]
@[simp] theorem State.prepareOutput_steady (s : State) (d o : Nat) (bad : Bool) :
    (s.prepareOutput d o bad).steady = s.steady := by
  refine State.modOutput_steady _ _ _ _ fun x => ?_
  repeat' split
  all_goals exact ⟨rfl, rfl⟩
@[simp] theorem State.clearStaging_steady (s : State) (d k : Nat) :
    (s.clearStaging d k).steady = s.steady := by simp [State.clearStaging]
@[simp] theorem State.reportBlock_steady (s : State) (d k : Nat) :
    (s.reportBlock d k).steady = s.steady := by simp [State.reportBlock]
@[simp] theorem State.prepareGauge_steady (s : State) (d : Nat) :
    (s.prepareGauge d).steady = s.steady := by simp [State.prepareGauge]
@[simp] theorem carrierStart_steady (s : State) (d c : Nat) :
    (carrierStart s d c).steady = s.steady := by simp [carrierStart]
@[simp] theorem pulseEdge_steady (s : State) (d c : Nat) : (pulseEdge s d c).steady = s.steady := by simp [pulseEdge]
@[simp] theorem State.diagnoseAll_steady (s : State) : s.diagnoseAll.steady = s.steady := by simp [State.diagnoseAll]
@[simp] theorem loadPeriodStart_steady (s : State) (d k : Nat) :
    (loadPeriodStart s d k).steady = s.steady := by simp [loadPeriodStart]

/-! ### Fabric -/

@[simp] theorem State.fillWells_steady (s : State) (m : Nat) (w : Tab Byte) :
    (s.fillWells m w).steady = s.steady := by simp [State.fillWells]
@[simp] theorem loadBits_steady (s : State) (m : Nat) (b : Bitstream) (stripesOk : Bool) :
    (loadBits s m b stripesOk).steady = s.steady := by simp [loadBits]
@[simp] theorem configEffect_steady (s : State) (m : Nat) (stripesOk : Bool) :
    (configEffect s m stripesOk).steady = s.steady := by
  unfold configEffect; split <;> simp
@[simp] theorem copyEffect_steady (s : State) (m slot : Nat) (b : Bitstream) :
    (copyEffect s m slot b).steady = s.steady := by simp [copyEffect]
@[simp] theorem State.abortPorts_steady (s : State) (m : Nat) :
    (s.abortPorts m).steady = s.steady := by simp [State.abortPorts]
@[simp] theorem State.reconfigure_steady (s : State) (m : Nat) : (s.reconfigure m).steady = s.steady := by
  unfold State.reconfigure; split <;> simp
@[simp] theorem configScrub_steady (s : State) (m : Nat) (e : Ecc) : (configScrub s m e).steady = s.steady := by
  unfold configScrub; split <;> simp
@[simp] theorem State.portAWrite_steady (s : State) (m w idx : Nat) (v : BitVec 72) :
    (s.portAWrite m w idx v).steady = s.steady := by
  unfold State.portAWrite; split <;> simp
@[simp] theorem wellBus_steady (s : State) (m w a : Nat) (write : Bool) (v : Byte) (portA : Option (Nat × BitVec 72))
    (parityErr : Bool) :
    (wellBus s m w a write v portA parityErr).steady = s.steady := by
  unfold wellBus
  grind [State.modFab_steady, State.portAWrite_steady, State.send_steady, State.wr_steady]
@[simp] theorem State.modCollar_steady (s : State) (m w : Nat) (f : Collar → Collar) :
    (s.modCollar m w f).steady = s.steady := by simp [State.modCollar]
@[simp] theorem fifoRead_steady (s : State) (m w lag : Nat) : (fifoRead s m w lag).steady = s.steady := by simp [fifoRead]

/-! ### Power -/

@[simp] theorem State.urgentWarm_steady (s : State) (cause : Nat) :
    (s.urgentWarm cause).steady = s.steady := by simp [State.urgentWarm]
@[simp] theorem State.modRail_steady (s : State) (r : Nat) (f : Rail → Rail) :
    (s.modRail r f).steady = s.steady := by simp [State.modRail]
@[simp] theorem railUpdate_steady (s : State) (r figure : Nat) (lost : Bool) :
    (railUpdate s r figure lost).steady = s.steady := by simp [railUpdate]
@[simp] theorem droopDetect_steady (s : State) (die : Nat) : (droopDetect s die).steady = s.steady := by simp [droopDetect]
@[simp] theorem State.planStep_steady (s : State) (b0Temp : Int) :
    (s.planStep b0Temp).steady = s.steady := by simp [State.planStep]
@[simp] theorem State.moveLadder_steady (s : State) (energy : Nat) :
    (s.moveLadder energy).steady = s.steady := by simp [State.moveLadder]

/-! ### Views -/

@[simp] theorem State.windowRead_steady (s : State) (via : Via) : (s.windowRead via).2.steady = s.steady := by
  unfold State.windowRead
  grind [State.noteBad_steady, State.takeFree_steady]
@[simp] theorem State.readObj_steady (s : State) (via : Via) (port i sub : Nat) :
    (s.readObj via port i sub).2.steady = s.steady := by
  unfold State.readObj
  grind [State.windowRead_steady]

/-! ### Debug -/

@[simp] theorem wrote_steady (r : Nat × State) : (wrote r).2.steady = r.2.steady := by simp [wrote]
@[simp] theorem State.perform_steady (s : State) (outstanding : Nat) (early : Bool) (f : State → Ans × State)
    (h : ∀ u, (f u).2.steady = u.steady) : (s.perform outstanding early f).2.steady = s.steady := by
  unfold State.perform
  grind [State.accepted_steady, State.countAbort_steady, State.modNet_steady]
@[simp] theorem State.request_steady (s : State) (via : Via) (outstanding : Nat) (early : Bool) (f : State → Ans × State)
    (h : ∀ u, (f u).2.steady = u.steady) : (s.request via outstanding early f).steady = s.steady := by
  unfold State.request
  grind [State.perform_steady, State.answer_steady]
@[simp] theorem State.debugRequest_steady (s : State) (via : Via) (v : Nat) (fresh : BitVec 384) :
    (s.debugRequest via v fresh).2.steady = s.steady := by
  unfold State.debugRequest
  grind [State.modSec_steady]
@[simp] theorem State.granted1_steady (s : State) (c : Challenge) :
    (s.granted1 c).steady = s.steady := by simp [State.granted1]
@[simp] theorem State.debugResponse_steady (s : State) (via : Via) (sig : BitVec 768) (vendor : BitVec 776) :
    (s.debugResponse via sig vendor).2.steady = s.steady := by
  unfold State.debugResponse
  grind [State.granted1_steady, State.modSec_steady]
@[simp] theorem State.relock_steady (s : State) (via : Via) (v : Nat) :
    (s.relock via v).2.steady = s.steady := by simp [State.relock]
@[simp] theorem State.haltQueue_steady (s : State) (via : Via) (v : Nat) : (s.haltQueue via v).2.steady = s.steady := by
  unfold State.haltQueue
  grind [State.modQueue_steady]
@[simp] theorem State.resumeQueue_steady (s : State) (via : Via) (v : Nat) : (s.resumeQueue via v).2.steady = s.steady := by
  unfold State.resumeQueue
  grind [State.modQueue_steady]
@[simp] theorem State.debugOnly_steady (s : State) (via : Via) (need : Nat) (f : State → Nat × State)
    (h : ∀ u, (f u).2.steady = u.steady) : (s.debugOnly via need f).2.steady = s.steady := by
  unfold State.debugOnly
  split
  · rfl
  · exact h s
@[simp] theorem State.setWindow_steady (s : State) (via : Via) (v : Nat) : (s.setWindow via v).2.steady = s.steady := by
  unfold State.setWindow; split <;> simp
@[simp] theorem State.writeMem_steady (s : State) (a : Nat) (v : BitVec 64) : (s.writeMem a v).2.steady = s.steady := by
  unfold State.writeMem
  grind [State.modCtx_steady, State.noteBad_steady, State.wr_steady]
@[simp] theorem State.windowWrite_steady (s : State) (via : Via) (v : BitVec 64) :
    (s.windowWrite via v).2.steady = s.steady := by
  unfold State.windowWrite; split <;> simp

/-! ### Commit -/

@[simp] theorem State.stage_steady (s : State) (x : Session) (r : ObjRow) (port i sub len v : Nat) :
    (s.stage x r port i sub len v).2.steady = s.steady := by
  unfold State.stage; split <;> simp
@[simp] theorem State.openSession_steady (s : State) (via : Via) (slot : Nat) (nonce : BitVec 384) :
    (s.openSession via slot nonce).2.steady = s.steady := by
  unfold State.openSession
  grind [State.modNet_steady]
@[simp] theorem State.closeSession_steady (s : State) (via : Via) (v : Nat) :
    (s.closeSession via v).2.steady = s.steady := by
  unfold State.closeSession; split <;> simp
@[simp] theorem State.fuseKey_steady (s : State) (k v : Nat) : (s.fuseKey k v).steady = s.steady := by simp [State.fuseKey]
@[simp] theorem State.revokeSlot_steady (s : State) (k : Nat) :
    (s.revokeSlot k).steady = s.steady := by simp [State.revokeSlot]
@[simp] theorem State.installWaiver_steady (s : State) (n v : Nat) :
    (s.installWaiver n v).steady = s.steady := by simp [State.installWaiver]
@[simp] theorem State.deviceReset_steady (s : State) (v : Nat) :
    (s.deviceReset v).steady = s.steady := by simp [State.deviceReset]
@[simp] theorem State.powerRequest_steady (s : State) (v : Nat) :
    (s.powerRequest v).steady = s.steady := by simp [State.powerRequest]
@[simp] theorem State.applyOne_steady (s : State) (life : Bool) (k v : Nat) :
    (s.applyOne life k v).steady = s.steady := by simp [State.applyOne]
@[simp] theorem State.applyAll_steady (s : State) (st : List (Nat × Nat)) :
    (s.applyAll st).steady = s.steady := by simp [State.applyAll]
@[simp] theorem State.endSession_steady (s : State) (res fail : Nat) :
    (s.endSession res fail).2.steady = s.steady := by simp [State.endSession]
@[simp] theorem State.writeStore_steady (s : State) : s.writeStore.steady = s.steady := by simp [State.writeStore]
@[simp] theorem State.commit_steady (s : State) (via : Via) (sig : BitVec 768) :
    (s.commit via sig).2.steady = s.steady := by
  unfold State.commit
  grind [State.applyAll_steady, State.endSession_steady, State.writeStore_steady]
@[simp] theorem State.blankKey_steady (s : State) (v : Nat) : (s.blankKey v).2.steady = s.steady := by
  unfold State.blankKey; split <;> simp
@[simp] theorem State.recoveryKey_steady (s : State) (slot v : Nat) : (s.recoveryKey slot v).2.steady = s.steady := by
  unfold State.recoveryKey
  grind [State.modBoot_steady, State.modSec_steady]

/-! ### Dictionary -/

@[simp] theorem State.resumeWrite_steady (s : State) (v : Nat) : (s.resumeWrite v).steady = s.steady := by
  unfold State.resumeWrite; split <;> simp
@[simp] theorem State.rwtWrite_steady (s : State) (i sub v : Nat) : (s.rwtWrite i sub v).2.steady = s.steady := by
  unfold State.rwtWrite; dsimp only; repeat' split
  all_goals simp
@[simp] theorem State.bell_steady (s : State) (via : Via) (w : BitVec 64) :
    (s.bell via w).steady = s.steady := by simp [State.bell]
@[simp] theorem State.keepWrite_steady (s : State) (via : Via) (v : Nat) : (s.keepWrite via v).2.steady = s.steady := by
  unfold State.keepWrite; split <;> simp
@[simp] theorem State.tenantReset_steady (s : State) (via : Via) (sub : Nat) :
    (s.tenantReset via sub).2.steady = s.steady := by
  unfold State.tenantReset; split <;> simp
@[simp] theorem State.clearNotify_steady (s : State) (t v : Nat) :
    (s.clearNotify t v).steady = s.steady := by simp [State.clearNotify]
@[simp] theorem State.sessionWrite_steady (s : State) (via : Via) (sub v : Nat) (nonce : BitVec 384) :
    (s.sessionWrite via sub v nonce).2.steady = s.steady := by
  unfold State.sessionWrite
  grind [State.closeSession_steady, State.commit_steady, State.openSession_steady]
@[simp] theorem State.debugWrite_steady (s : State) (via : Via) (sub v : Nat) (fresh : BitVec 384) :
    (s.debugWrite via sub v fresh).2.steady = s.steady := by
  unfold State.debugWrite
  grind [State.debugRequest_steady, State.debugResponse_steady, State.relock_steady]
@[simp] theorem State.viewWrite_steady (s : State) (w : View) (i sub v : Nat) :
    (s.viewWrite w i sub v).2.steady = s.steady := by
  unfold State.viewWrite
  grind [State.clearNotify_steady, State.modSec_steady, State.modView_steady]
@[simp] theorem State.windowHaltWrite_steady (s : State) (via : Via) (i sub v : Nat) :
    (s.windowHaltWrite via i sub v).2.steady = s.steady := by
  unfold State.windowHaltWrite
  grind [State.haltQueue_steady, State.resumeQueue_steady, State.setWindow_steady, State.windowWrite_steady]
@[simp] theorem State.applyWrite_steady (s : State) (via : Via) (i sub v : Nat) (fresh : BitVec 384) :
    (s.applyWrite via i sub v fresh).2.steady = s.steady := by
  unfold State.applyWrite
  grind [State.bell_steady, State.debugWrite_steady, State.keepWrite_steady, State.sessionWrite_steady,
    State.tenantReset_steady, State.viewWrite_steady, State.windowHaltWrite_steady, contextCommand_steady]
@[simp] theorem State.writeShown_steady (s : State) (via : Via) (r : ObjRow) (i sub len v : Nat) (fresh : BitVec 384) :
    (s.writeShown via r i sub len v fresh).2.steady = s.steady := by
  unfold State.writeShown
  grind [State.applyWrite_steady, State.rwtWrite_steady]
@[simp] theorem State.keyWrite_steady (s : State) (sub len v : Nat) : (s.keyWrite sub len v).2.steady = s.steady := by
  unfold State.keyWrite
  grind [State.blankKey_steady, State.recoveryKey_steady]
@[simp] theorem State.mapWrite_steady (s : State) (w : View) (i sub v : Nat) :
    (s.mapWrite w i sub v).2.steady = s.steady := by
  unfold State.mapWrite
  grind [State.rwtWrite_steady, State.viewWrite_steady]
@[simp] theorem State.writeObj_steady (s : State) (via : Via) (port i sub len v : Nat) (fresh : BitVec 384) :
    (s.writeObj via port i sub len v fresh).2.steady = s.steady := by
  unfold State.writeObj
  grind [State.keyWrite_steady, State.stage_steady, State.writeShown_steady]
@[simp] theorem State.writeFresh_steady (s : State) (via : Via) (port i sub len v : Nat) :
    (s.writeFresh via port i sub len v).2.steady = s.steady := by
  unfold State.writeFresh; split <;> simp
@[simp] theorem State.rowWrite_steady (s : State) (via : Via) (port i sub len v : Nat) (fresh : BitVec 384) :
    (s.rowWrite via port i sub len v fresh).steady = s.steady := by simp [State.rowWrite]

/-! ### Network -/

@[simp] theorem State.sendGram_steady (s : State) (port : Nat) (tag : VlanTag) (ip : BitVec 32) (udp : BitVec 16) (h :
    BitVec 256) (payload : List Byte) :
    (s.sendGram port tag ip udp h payload).steady = s.steady := by simp [State.sendGram]
@[simp] theorem State.sendAnswer_steady (s : State) (port : Nat) (tag : VlanTag) (a : Answer) :
    (s.sendAnswer port tag a).steady = s.steady := by simp [State.sendAnswer]
@[simp] theorem State.pranil_steady (s : State) (port : Nat) (tag : VlanTag) (ip : BitVec 32) (udp : BitVec 16) (h : BitVec 256)
    (payload : List Byte) (f : State → (Nat × Nat × List Byte) × State) (hf : ∀ u, (f u).2.steady = u.steady) :
    (s.pranil port tag ip udp h payload f).steady = s.steady := by
  unfold State.pranil
  grind [State.sendAnswer_steady, State.modEth_steady]
@[simp] theorem State.pranilServed_steady (s : State) (port : Nat) (tag : VlanTag) (ip : BitVec 32) (udp : BitVec 16)
    (h : BitVec 256) (payload : List Byte) (f : State → (Nat × Nat × List Byte) × State)
    (hf : ∀ u, (f u).2.steady = u.steady) : (s.pranilServed port tag ip udp h payload f).steady = s.steady := by
  simp [State.pranilServed, hf]
@[simp] theorem response_steady (r : Ans × State) : (response r).2.steady = r.2.steady := by
  unfold response
  split <;> rfl
@[simp] theorem State.describeAns_steady (s : State) (via : Via) (h : BitVec 256) :
    (s.describeAns via h).2.steady = s.steady := by
  unfold State.describeAns; split <;> simp
@[simp] theorem State.readXfer_steady (s : State) (via : Via) (h : BitVec 256) (outstanding : Nat) :
    (s.readXfer via h outstanding).2.steady = s.steady := by simp [State.readXfer]
@[simp] theorem State.writeXfer_steady (s : State) (via : Via) (h : BitVec 256) (payload : List Byte) (outstanding : Nat) :
    (s.writeXfer via h payload outstanding).2.steady = s.steady := by simp [State.writeXfer]
@[simp] theorem State.describeXfer_steady (s : State) (via : Via) (h : BitVec 256) (outstanding : Nat) :
    (s.describeXfer via h outstanding).2.steady = s.steady := by simp [State.describeXfer]
@[simp] theorem State.setStarted_steady (s : State) (t : Nat) (on : Bool) (udp : BitVec 16) :
    (s.setStarted t on udp).steady = s.steady := by simp [State.setStarted]
@[simp] theorem State.control_steady (s : State) (port : Nat) (ip : BitVec 32) (udp : BitVec 16) (payload : List Byte) :
    (s.control port ip udp payload).2.steady = s.steady := by
  unfold State.control
  grind [State.modEth_steady, State.setStarted_steady]
@[simp] theorem State.controlXfer_steady (s : State) (port : Nat) (ip : BitVec 32) (udp : BitVec 16) (payload : List Byte)
    (outstanding : Nat) :
    (s.controlXfer port ip udp payload outstanding).2.steady = s.steady := by simp [State.controlXfer]
@[simp] theorem State.captureMaps_steady (s : State) : s.captureMaps.steady = s.steady := by simp [State.captureMaps]
@[simp] theorem State.countMissed_steady (s : State) : s.countMissed.steady = s.steady := by simp [State.countMissed]
@[simp] theorem State.mapsDue_steady (s : State) : s.mapsDue.steady = s.steady := by simp [State.mapsDue]
@[simp] theorem State.sendMap_steady (s : State) (n : Nat) : (s.sendMap n).steady = s.steady := by
  unfold State.sendMap; split <;> simp
theorem State.writeEntries_steady {s t : State} {w : View} {l : List (Nat × Nat × Nat)} {bs : List Byte}
    (h : s.writeEntries w l bs = some t) : t.steady = s.steady := by
  fun_induction State.writeEntries s w l bs with grind [State.mapWrite_steady]
@[simp] theorem State.receiveMap_steady (s : State) (port : Nat) (ip : BitVec 32) (n : Nat) (payload : List Byte) :
    (s.receiveMap port ip n payload).steady = s.steady := by
  unfold State.receiveMap
  grind [State.modMap_steady, State.writeEntries_steady]
@[simp] theorem State.mailRequest_steady (s : State) (via : Via) (h : BitVec 256) (payload : List Byte) (outstanding : Nat)
    :
    (s.mailRequest via h payload outstanding).2.steady = s.steady := by
  unfold State.mailRequest
  grind [State.countAbort_steady, State.describeXfer_steady, State.readXfer_steady, State.writeXfer_steady]
@[simp] theorem State.mailbox_steady (s : State) (port func outstanding : Nat) :
    (s.mailbox port func outstanding).steady = s.steady := by simp [State.mailbox]
@[simp] theorem State.mailFill_steady (s : State) (port func : Nat) (vec : BitVec 9) (h : BitVec 256) (payload : List Byte)
    :
    (s.mailFill port func vec h payload).steady = s.steady := by simp [State.mailFill]
@[simp] theorem State.call_steady (s : State) (via : Via) (h : BitVec 256) (payload : List Byte) (outstanding : Nat) :
    (s.call via h payload outstanding).steady = s.steady := by simp [State.call]
@[simp] theorem State.bootUp_steady (s : State) (port : Nat) : (s.bootUp port).steady = s.steady := by simp [State.bootUp]
@[simp] theorem State.nmtSet_steady (s : State) (port : Nat) (x : Nmt) :
    (s.nmtSet port x).steady = s.steady := by simp [State.nmtSet]
@[simp] theorem State.resetNode_steady (s : State) (port node : Nat) : (s.resetNode port node).steady = s.steady := by
  unfold State.resetNode
  grind [State.bootUp_steady, State.requestTenantReset_steady]
@[simp] theorem State.usdo_steady (s : State) (port node : Nat) (write : Bool) (idx sub : Nat) (payload : List Byte)
    (outstanding : Nat) :
    (s.usdo port node write idx sub payload outstanding).steady = s.steady := by simp [State.usdo]
@[simp] theorem State.captureTpdo_steady (s : State) (port n : Nat) :
    (s.captureTpdo port n).steady = s.steady := by simp [State.captureTpdo]
@[simp] theorem State.capturePdos_steady (s : State) : s.capturePdos.steady = s.steady := by simp [State.capturePdos]
@[simp] theorem State.syncTpdo_steady (s : State) (port n : Nat) :
    (s.syncTpdo port n).steady = s.steady := by simp [State.syncTpdo]
@[simp] theorem State.sendTpdo_steady (s : State) (port n : Nat) :
    (s.sendTpdo port n).steady = s.steady := by simp [State.sendTpdo]
@[simp] theorem State.notifyTenant_steady (s : State) (t : Nat) : (s.notifyTenant t).steady = s.steady := by
  unfold State.notifyTenant
  grind [State.modTen_steady, State.sendGram_steady, State.sendTpdo_steady]
@[simp] theorem State.flushNotify_steady (s : State) : s.flushNotify.steady = s.steady := by simp [State.flushNotify]
@[simp] theorem State.receivePdo_steady (s : State) (port n : Nat) (payload : List Byte) :
    (s.receivePdo port n payload).steady = s.steady := by
  unfold State.receivePdo
  grind [State.modCan_steady, State.writeEntries_steady]
@[simp] theorem State.loseBeat_steady (s : State) (port n : Nat) : (s.loseBeat port n).steady = s.steady := by
  unfold State.loseBeat
  grind [State.errBit_steady, State.modCan_steady, State.requestTenantReset_steady]
@[simp] theorem State.beat_steady (s : State) (port n : Nat) : (s.beat port n).steady = s.steady := by simp [State.beat]
@[simp] theorem State.modPcie_steady (s : State) (p : Nat) (f : PciePort → PciePort) :
    (s.modPcie p f).steady = s.steady := by simp [State.modPcie]
@[simp] theorem State.linkLost_steady (s : State) (via : Via) : (s.linkLost via).steady = s.steady := by
  unfold State.linkLost; split <;> simp
@[simp] theorem State.askPdelay_steady (s : State) (port : Nat) :
    (s.askPdelay port).steady = s.steady := by simp [State.askPdelay]
@[simp] theorem State.linkUp_steady (s : State) (via : Via) (speed : Nat) : (s.linkUp via speed).steady = s.steady := by
  unfold State.linkUp; split <;> simp
@[simp] theorem State.gptp_steady (s : State) (port : Nat) (msg : GptpMsg) : (s.gptp port msg).steady = s.steady := by
  unfold State.gptp; split <;> simp

/-! ### Startup -/

@[simp] theorem State.latchStore_steady (s : State) : s.latchStore.steady = s.steady :=
  State.steady_of_same rfl rfl rfl rfl
@[simp] theorem State.keepLp_steady (s : State) (old : Tab Nat) : (s.keepLp old).steady = s.steady :=
  State.steady_of_same rfl rfl rfl rfl
@[simp] theorem State.warmLoss_steady (s : State) (old : Tab Nat) : (s.warmLoss old).steady = s.steady :=
  State.steady_eq_iff.2 ⟨rfl, rfl, rfl, fun _ _ => ⟨rfl, rfl⟩⟩
@[simp] theorem State.begin_steady (s : State) (warm : Bool) (cause : Nat) :
    (s.begin warm cause).steady = s.steady := by simp [State.begin]
@[simp] theorem State.healStore_steady (s : State) : s.healStore.steady = s.steady := by simp [State.healStore]
@[simp] theorem State.recover_steady (s : State) (k : Recovery) : (s.recover k).steady = s.steady := by simp [State.recover]
@[simp] theorem State.gStarted_steady (s : State) (g : Image) (bank : Nat) : (s.gStarted g bank).steady = s.steady := by
  unfold State.gStarted
  grind [State.bootUp_steady, State.each_steady, State.modBoot_steady, State.recover_steady, State.send_steady]
@[simp] theorem gVerify_steady (s : State) (a b : Option Image) : (gVerify s a b).steady = s.steady := by
  unfold gVerify; split <;> simp
@[simp] theorem trained_steady (s : State) (t : BitVec 16) (capacity : Tab Nat) (rate : Nat) :
    (trained s t capacity rate).steady = s.steady := by simp [trained]
@[simp] theorem State.recordPairs_steady (s : State) : s.recordPairs.steady = s.steady := by simp [State.recordPairs]
@[simp] theorem State.loseStore_steady (s : State) : s.loseStore.steady = s.steady :=
  State.steady_eq_iff.2 ⟨rfl, rfl, rfl, fun _ _ => ⟨rfl, rfl⟩⟩
@[simp] theorem imagesChecked_steady (s : State) (b n : Option (Image × Nat)) (lost : Bool) :
    (imagesChecked s b n lost).steady = s.steady := by
  rcases b with _ | ⟨bi, bb⟩ <;> rcases n with _ | ⟨ni, nb⟩ <;> simp [imagesChecked]
@[simp] theorem imageCheck_steady (s : State) (bA bB nA nB : Option Image) (lost : Bool) :
    (imageCheck s bA bB nA nB lost).steady = s.steady := by simp [imageCheck]
@[simp] theorem startBurnish_steady (s : State) (g : Nat) (res : BurnishSums) (temp : Int) :
    (startBurnish s g res temp).steady = s.steady := by simp [startBurnish]
@[simp] theorem burnished_steady (s : State) (res : Tab BurnishSums) (temps : Tab Int) :
    (burnished s res temps).steady = s.steady := by simp [burnished]
@[simp] theorem State.applyLatched_steady (s : State) : s.applyLatched.steady = s.steady := by
  unfold State.applyLatched
  grind [State.each_steady, State.modCan_steady, State.modEth_steady, State.setStarted_steady, foldl_steady]
@[simp] theorem State.settle_steady (s : State) : s.settle.steady = s.steady := by simp [State.settle]
@[simp] theorem State.recDone_steady (s : State) (res : Nat) : (s.recDone res).steady = s.steady := by simp [State.recDone]
@[simp] theorem State.recCommand_steady (s : State) (h : RecoveryHeader) (busy image : Bool) (f : State → State)
    (hf : ∀ u, (f u).steady = u.steady) : (s.recCommand h busy image f).steady = s.steady := by
  simp [State.recCommand, hf]
@[simp] theorem State.touch_steady (s : State) (i : Nat) (on : Bool) :
    (s.touch i on).steady = s.steady := by simp [State.touch]
@[simp] theorem recErase_steady (h : RecoveryHeader) (s : State) : (recErase h s).steady = s.steady := by simp [recErase]
@[simp] theorem recWrite_steady (h : RecoveryHeader) (payload : List Byte) (s : State) :
    (recWrite h payload s).steady = s.steady := by simp [recWrite]
@[simp] theorem recCommit_steady (h : RecoveryHeader) (img : Option Image) (s : State) :
    (recCommit h img s).steady = s.steady := by
  unfold recCommit; split <;> simp

/-! ### Security -/

@[simp] theorem State.eraseWaivers_steady (s : State) : s.eraseWaivers.steady = s.steady := by simp [State.eraseWaivers]
@[simp] theorem State.eraseRecalled_steady (s : State) : s.eraseRecalled.steady = s.steady := by simp [State.eraseRecalled]
@[simp] theorem State.eraseScrapped_steady (s : State) : s.eraseScrapped.steady = s.steady := by simp [State.eraseScrapped]
@[simp] theorem State.erase_steady (s : State) (target : Life) : (s.erase target).steady = s.steady := by
  unfold State.erase; split <;> simp
@[simp] theorem erasureComplete_steady (s : State) (target : Life) : (erasureComplete s target).steady = s.steady := by
  unfold erasureComplete
  generalize herased : ((s.erase target).writeStore.modSec fun x =>
    { x with erasing := false, otp := { x.otp with life := target, target := none } }) = t
  have ht : t.steady = s.steady := by simp [← herased]
  dsimp only
  split <;> simp [ht]
@[simp] theorem erasureEffect_steady (s : State) : (erasureEffect s).steady = s.steady := by
  unfold erasureEffect; split <;> simp
@[simp] theorem State.enterDoze_steady (s : State) : s.enterDoze.steady = s.steady := by
  unfold State.enterDoze
  grind [State.endGrants_steady, State.modNet_steady, State.modSec_steady, State.warmLoss_steady]
@[simp] theorem emberLoss_steady (s : State) : (emberLoss s).steady = s.steady := by
  unfold emberLoss
  grind [State.modBoot_steady, State.modSec_steady]

/-! ### Frame -/

@[simp] theorem State.refEvent_steady (s : State) (time : Nat) (noSync : Bool) :
    (s.refEvent time noSync).steady = s.steady := by
  refine State.modFrame_steady _ _ fun x => ?_
  dsimp only
  split <;> simp
@[simp] theorem State.walkGrid_steady (s : State) : s.walkGrid.steady = s.steady := by
  unfold State.walkGrid
  grind [State.modFrame_steady]
@[simp] theorem State.settleHeld_steady (s : State) : s.settleHeld.steady = s.steady := by simp [State.settleHeld]
@[simp] theorem State.lockTick_steady (s : State) (restart : Bool) : (s.lockTick restart).steady = s.steady := by
  simp only [State.lockTick, steady_ite, State.tickEvent_steady, ite_self]
  exact State.modFrame_steady_of _ _ (by simp)
@[simp] theorem State.tickEmcy_steady (s : State) : s.tickEmcy.steady = s.steady := by simp [State.tickEmcy]
@[simp] theorem State.frameLen_steady (s : State) : s.frameLen.steady = s.steady := by simp [State.frameLen]
@[simp] theorem State.actRwt_steady (s : State) (e : Rwt) : (s.actRwt e).steady = s.steady := by simp [State.actRwt]
@[simp] theorem State.actRwts_steady (s : State) : s.actRwts.steady = s.steady := by simp [State.actRwts]
@[simp] theorem State.tenantsTick_steady (s : State) : s.tenantsTick.steady = s.steady := by simp [State.tenantsTick]
@[simp] theorem State.releaseFuncs_steady (s : State) : s.releaseFuncs.steady = s.steady := by simp [State.releaseFuncs]
@[simp] theorem State.beginFrame_steady (s : State) (x0 x1 : GaugeIn) (bits : Nat) (restart : Bool) :
    (s.beginFrame x0 x1 bits restart).steady = s.steady := by
  have hfab (u : State) : (u.each (List.range 4) fun v m => v.modFab m Fab.tick).steady = u.steady :=
    State.each_steady _ _ _ fun v m => State.modFab_steady v m _
  simp [State.beginFrame, hfab]
@[simp] theorem State.stopTick_steady (s : State) (st : TickState) :
    (s.stopTick st).steady = s.steady := by simp [State.stopTick]
@[simp] theorem State.unready_steady (s : State) : s.unready.steady = s.steady := by simp [State.unready]
@[simp] theorem State.endFrame_steady (s : State) (e : FrameEnd) : (s.endFrame e).steady = s.steady := by
  unfold State.endFrame
  grind [State.modBoot_steady, State.modSec_steady, State.stopTick_steady, State.unready_steady]
@[simp] theorem State.urgentEnd_steady (s : State) : s.urgentEnd.steady = s.steady := by
  have hsafe (u : State) (d : Nat) :
      (u.each (List.range 20) fun v o => v.modOutput d o fun x => x.safe (v.safeValue d o)).steady = u.steady :=
    State.each_steady _ _ _ fun v o => State.modOutput_steady _ _ _ _ fun x => ⟨rfl, rfl⟩
  simp [State.urgentEnd, hsafe]
@[simp] theorem State.land_steady (s : State) : s.land.steady = s.steady :=
  State.steady_of_same rfl rfl rfl rfl
@[simp] theorem State.combCtx_steady (s : State) (c : Nat) : (s.combCtx c).steady = s.steady := by simp [State.combCtx]
@[simp] theorem openingComb_steady (s : State) : (openingComb s).steady = s.steady := by simp [openingComb]
@[simp] theorem State.combStep_steady (s : State) : s.combStep.steady = s.steady := by simp [State.combStep]
@[simp] theorem impressStart_steady (s : State) : (impressStart s).steady = s.steady := by simp [impressStart]
@[simp] theorem reservationEnd_steady (s : State) (t : Nat) :
    (reservationEnd s t).steady = s.steady := by simp [reservationEnd]
@[simp] theorem State.restoreEtch_steady (s : State) (o : Op) (h : EtchRun) :
    (s.restoreEtch o h).steady = s.steady := by simp [State.restoreEtch]
@[simp] theorem State.reissueExt_steady (s : State) (o : Op) (m p : Nat) :
    (s.reissueExt o m p).steady = s.steady := by simp [State.reissueExt]
@[simp] theorem State.resumeOp_steady (s : State) (o : Op) : (s.resumeOp o).steady = s.steady := by
  unfold State.resumeOp; split <;> simp
@[simp] theorem State.marginSlot_steady (s : State) : s.marginSlot.steady = s.steady := by
  unfold State.marginSlot
  grind [State.modOp_steady, State.resumeOp_steady, foldl_steady]
@[simp] theorem State.marginCtx_steady (s : State) (c : Nat) :
    (s.marginCtx c).steady = s.steady := by simp [State.marginCtx]
@[simp] theorem marginStart_steady (s : State) : (marginStart s).steady = s.steady := by simp [marginStart]
@[simp] theorem marginComb_steady (s : State) : (marginComb s).steady = s.steady := by simp [marginComb]
@[simp] theorem State.loseBanks_steady (s : State) (pdie : Nat) :
    (s.loseBanks pdie).steady = s.steady := by simp [State.loseBanks]
@[simp] theorem State.linkEffect_steady (s : State) (l : Nat) :
    (s.linkEffect l).steady = s.steady := by simp [State.linkEffect]
@[simp] theorem State.linkEffects_steady (s : State) : s.linkEffects.steady = s.steady := by simp [State.linkEffects]
@[simp] theorem State.fixScope_steady (s : State) : s.fixScope.steady = s.steady := by simp [State.fixScope]
@[simp] theorem State.dropQueue_steady (s : State) (c q : Nat) : (s.dropQueue c q).steady = s.steady := by
  simp only [State.dropQueue, State.steady_with]
  refine foldl_steady _ _ _ fun u o => ?_
  split <;> simp
@[simp] theorem State.overrunIdle_steady (s : State) (n c q : Nat) :
    (s.overrunIdle n c q).steady = s.steady := by simp [State.overrunIdle]
@[simp] theorem State.overrunQueue_steady (s : State) (n c q : Nat) : (s.overrunQueue n c q).steady = s.steady := by
  unfold State.overrunQueue; split <;> simp
@[simp] theorem State.judgeTenant_steady (s : State) (t : Nat) : (s.judgeTenant t).steady = s.steady := by
  unfold State.judgeTenant; split <;> simp
@[simp] theorem State.stopOp_steady (s : State) (o : Op) : (s.stopOp o).steady = s.steady := by
  unfold State.stopOp; split <;> simp
@[simp] theorem State.stopMargin_steady (s : State) : s.stopMargin.steady = s.steady := by simp [State.stopMargin]
@[simp] theorem State.launch_steady (s : State) : s.launch.steady = s.steady := by
  unfold State.launch
  grind [State.each_steady, State.modPlate_steady, foldl_steady]
@[simp] theorem State.abandonRebites_steady (s : State) : s.abandonRebites.steady = s.steady :=
  State.steady_of_same rfl rfl rfl rfl
@[simp] theorem State.ledgerCtx_steady (s : State) (c : Nat) :
    (s.ledgerCtx c).steady = s.steady := by simp [State.ledgerCtx]
@[simp] theorem State.resetTenant_steady (s : State) (t : Nat) :
    (s.resetTenant t).steady = s.steady := by simp [State.resetTenant]
@[simp] theorem State.doResets_steady (s : State) : s.doResets.steady = s.steady := by
  unfold State.doResets
  grind [State.ackLate_steady, State.each_steady, State.resetCtx_steady, State.resetTenant_steady]
@[simp] theorem State.clearRequests_steady (s : State) : s.clearRequests.steady = s.steady := by simp [State.clearRequests]
@[simp] theorem State.contextsGuard_steady (s : State) : s.contextsGuard.steady = s.steady := by simp [State.contextsGuard]
@[simp] theorem State.platesGuard_steady (s : State) (temps : Tab Int) :
    (s.platesGuard temps).steady = s.steady := by simp [State.platesGuard]
@[simp] theorem State.fabricGuard_steady (s : State) : s.fabricGuard.steady = s.steady := by simp [State.fabricGuard]
@[simp] theorem guardStart_steady (s : State) (temps : Tab Int) (energy : Nat) (b0Temp : Int) :
    (guardStart s temps energy b0Temp).steady = s.steady := by
  have hjudge (u : State) : (u.each (List.range 8) State.judgeTenant).steady = u.steady := by simp
  have hledger (u : State) : (u.each u.liveCtxs State.ledgerCtx).steady = u.steady := by simp
  simp [guardStart, hjudge, hledger]
@[simp] theorem outputPreparation_steady (s : State) :
    (outputPreparation s).steady = s.steady := by simp [outputPreparation]
@[simp] theorem slotOpEffect_steady (s : State) : (slotOpEffect s).steady = s.steady := by
  unfold slotOpEffect; split <;> simp

end Sys2Proof.Machine
end

section
/-!
CounterChangesOnlyAtTicks and OutputsChangeOnlyAtTicks (R33, R55): resets, the commands that are quiet, and the ticks.
-/

namespace Sys2Proof.Machine

open Sys2Proof

/-! ### Resets -/

/-- A reset: the waiting commands and the frame counter stay, and the next first tick is still to come. -/
structure Restarted (s t : State) : Prop where
  pending : t.pending = s.pending
  counter : t.frame.counter = s.frame.counter
  ticked : t.boot.ticked = false

theorem Restarted.of_steady {s t u : State} (h : Restarted s t) (hu : u.steady = t.steady) : Restarted s u := by
  obtain ⟨hp, hc, hb, -⟩ := State.steady_eq_iff.1 hu
  exact ⟨hp.trans h.pending, hc.trans h.counter, hb.trans h.ticked⟩

theorem Restarted.steady {s t u : State} (h : Restarted t u) (ht : t.steady = s.steady) : Restarted s u := by
  obtain ⟨hp, hc, -, -⟩ := State.steady_eq_iff.1 ht
  exact ⟨h.pending.trans hp, h.counter.trans hc, h.ticked⟩

/-- What every command but a tick, the first tick and the writing of the Gauge dies does: it leaves what `Steady` lists, or
it is a reset. -/
def Quiet (s t : State) : Prop := t.steady = s.steady ∨ Restarted s t

theorem Quiet.of_steady {s t u : State} (h : Quiet t u) (ht : t.steady = s.steady) : Quiet s u :=
  h.imp (·.trans ht) (·.steady ht)

theorem Quiet.ite {s t u : State} {c : Prop} [Decidable c] (ht : Quiet s t) (hu : Quiet s u) :
    Quiet s (if c then t else u) := by
  split
  · exact ht
  · exact hu

theorem Quiet.pending {s t : State} (h : Quiet s t) : t.pending = s.pending :=
  h.elim (fun h => (State.steady_eq_iff.1 h).1) (·.pending)

theorem Quiet.counter {s t : State} (h : Quiet s t) : t.frame.counter = s.frame.counter :=
  h.elim (fun h => (State.steady_eq_iff.1 h).2.1) (·.counter)

/-- With the first tick past and no reset since, no active value has changed. -/
theorem Quiet.active {s t : State} (h : Quiet s t) (ht : t.boot.ticked = true) (d o : Nat) :
    (t.output d o).act = (s.output d o).act ∧ (t.output d o).actSafe = (s.output d o).actSafe := by
  obtain h | h := h
  · obtain ⟨-, -, -, hact⟩ := State.steady_eq_iff.1 h
    exact hact d o
  · exact absurd (h.ticked.symm.trans ht) (by decide)

theorem State.coldHold_restarted (s : State) : Restarted s s.coldHold := ⟨rfl, rfl, rfl⟩

theorem State.held_restarted (s : State) (cause : Nat) : Restarted s (s.held cause) :=
  s.coldHold_restarted.of_steady (State.modBoot_steady _ _ fun _ => rfl)

theorem State.coldStart_restarted (s : State) (cause : Nat) : Restarted s (s.coldStart cause) :=
  s.coldHold_restarted.of_steady (by simp [State.coldStart])

theorem State.warmStart_restarted (s : State) (cause : Nat) : Restarted s (s.warmStart cause) := by
  have hloss : (s.latchStore.warmLoss s.eff).steady = s.steady := by simp
  obtain ⟨hp, hc, -, -⟩ := State.steady_eq_iff.1 hloss
  refine Restarted.of_steady ?_ ((State.each_steady _ _ _ fun u p => u.bootUp_steady p).trans (State.begin_steady _ _ _))
  exact ⟨hp, hc, rfl⟩

theorem State.tryCold_quiet (s : State) (cause : Nat) : Quiet s (s.tryCold cause) :=
  Quiet.ite (.inr (s.coldStart_restarted cause)) (.inl (State.modBoot_steady _ _ fun _ => rfl))

theorem brownout_quiet (s : State) : Quiet s (brownout s) := by
  refine Quiet.of_steady (t := s.modBoot fun b => { b with suppliesGood := false }) ?_ (by simp)
  exact Quiet.ite (.inl rfl) (.inr (State.held_restarted _ _))

theorem suppliesGood_quiet (s : State) : Quiet s (suppliesGood s) := by
  refine Quiet.of_steady (t := s.modBoot fun b => { b with suppliesGood := true }) ?_ (by simp)
  exact Quiet.ite (.inl rfl) (State.tryCold_quiet _ _)

theorem sysclkStart_quiet (s : State) : Quiet s (sysclkStart s) :=
  Quiet.ite (.inl rfl) ((State.tryCold_quiet _ _).of_steady (by simp))

theorem State.wakeEmber_quiet (s : State) (cause : Nat) : Quiet s (s.wakeEmber cause) := by
  unfold State.wakeEmber
  generalize hwoken : (s.modSec fun x =>
    { x with wakeCause := cause, wakes := satInc 32 x.wakes, waking := true, wakeWaiting := none }).modBoot
      (fun b => { b with pwrEn := true }) = u
  have hu : u.steady = s.steady := by simp [← hwoken]
  exact Quiet.ite ((u.tryCold_quiet 9).of_steady hu) (.inl hu)

/-- Nothing outlives the entry into EMBER but the ember domain, whether a wake waits or not. -/
theorem State.enterEmber_quiet (s : State) : Quiet s s.enterEmber := by
  have hcold : Restarted s (s.coldHold.modSec fun x => { x with power := .ember }) :=
    s.coldHold_restarted.of_steady (by simp)
  unfold State.enterEmber
  dsimp only
  split
  next k _ =>
    obtain h | h := (s.coldHold.modSec fun x => { x with power := .ember }).wakeEmber_quiet k
    · exact .inr (hcold.of_steady h)
    · exact .inr ⟨h.pending.trans hcold.pending, h.counter.trans hcold.counter, h.ticked⟩
  next => exact .inr hcold

theorem powerDown_quiet (s : State) : Quiet s (powerDown s) :=
  Quiet.ite (.inl s.enterDoze_steady) s.enterEmber_quiet

theorem State.wake_quiet (s : State) (cause : Nat) : Quiet s (s.wake cause) := by
  unfold State.wake
  refine Quiet.ite (.inl ?_) (Quiet.ite (.inl ?_) (Quiet.ite (s.wakeEmber_quiet cause) (.inl rfl)))
  all_goals simp

theorem rtcAlarm_quiet (s : State) : Quiet s (rtcAlarm s) := by
  unfold rtcAlarm
  refine Quiet.ite ((State.wake_quiet _ _).of_steady ?_) (.inl ?_)
  all_goals simp

theorem warmStart_quiet (s : State) : Quiet s (warmStart s) := by
  unfold warmStart
  refine Quiet.ite (.inr (s.coldStart_restarted _)) (Quiet.ite (.inr (s.warmStart_restarted _)) (.inr ?_))
  exact (State.warmStart_restarted _ _).steady (by simp)

theorem State.commitCut_quiet (s : State) (x : Session) (moved : Bool) : Quiet s (s.commitCut x moved) :=
  (brownout_quiet _).of_steady (by simp)


theorem recRestart_quiet (s : State) (h : RecoveryHeader) (busy : Bool) :
    Quiet s (s.recCommand h busy false fun s => (s.recDone 0).coldStart 1) := by
  unfold State.recCommand
  refine Quiet.ite (.inl rfl) (Quiet.ite (.inl (by simp)) (Quiet.ite (.inl (by simp)) (.inr ?_)))
  exact (State.coldStart_restarted _ 1).steady (by simp)

/-! ### Commands -/

/-- What `Steady` lists in the state a command answers, `x` where it answers none. -/
def Out.steady (x : Steady) : Out → Steady
  | .next t => t.steady
  | _ => x

@[simp] theorem due_steady (s t : State) (b : Bool) (x : Steady) :
    Out.steady x (due s b t) = if b then t.steady else s.steady := by cases b <;> rfl
@[simp] theorem Out.next_steady (t : State) (x : Steady) : Out.steady x (.next t) = t.steady := rfl
@[simp] theorem Out.refused_steady (r : Refusal) (x : Steady) : Out.steady x (.refused r) = x := rfl

theorem Quiet.of_due {s t u : State} {b : Bool} (ht : Quiet s t) (h : due s b t = .next u) : Quiet s u := by
  cases b
  · cases h; exact .inl rfl
  · cases h; exact ht

@[simp] theorem Out.ite_steady (c : Prop) [Decidable c] (o p : Out) (x : Steady) :
    Out.steady x (if c then o else p) = if c then Out.steady x o else Out.steady x p := apply_ite _ _ _ _

/-- The commands that are a tick, the first tick, the writing of the Gauge dies, or that may be a reset. -/
def stirs : Instr → Bool
  | .tick _ _ | .holdTickRestart _ _ | .firstTick _ _ | .gaugeDiesWritten | .warmStart | .powerDownComplete | .wakeBall _
  | .canWakeFrame _ | .rtcAlarm | .powerGood | .resetNAssert | .supplyBrownout _ | .suppliesWithinLimits | .sysclkStart
  | .recoveryRestart _ _ | .sessionCommit _ _ => true
  | _ => false

/-- A command outside `stirs` leaves what `Steady` lists. -/
theorem exec_steady (c : Instr) (s : State) (hc : stirs c = false) : Out.steady s.steady (exec c s) = s.steady := by
  cases c
  case tick | holdTickRestart | firstTick | gaugeDiesWritten | warmStart | powerDownComplete | wakeBall | canWakeFrame |
      rtcAlarm | powerGood | resetNAssert | supplyBrownout | suppliesWithinLimits | sysclkStart | recoveryRestart |
      sessionCommit => cases hc
  case openingComb | combTooth | impressStart | reservationEnd | marginStart | marginComb | guardStart | outputPreparation
      | slotOperation | outputSeal | referenceEvent | missingEvent | holdoverExpiry =>
    simp [exec, execOpeningComb, execCombTooth, execImpressStart, execReservationEnd, execMarginStart, execMarginComb,
      execGuardStart, execOutputPreparation, execSlotOperation, execOutputSeal, execReferenceEvent, execMissingEvent,
      execHoldoverExpiry]
  case frequencySwitch | railMeasurementUpdate | droopDetect | droopRecover | averagingWindowBoundary | overTemperature |
      overTemperatureClear =>
    simp [exec, execFrequencySwitch, execRailMeasurementUpdate, execDroopDetect, execDroopRecover,
      execAveragingWindowBoundary, execOverTemperature, execOverTemperatureClear]
  case resumeFromFallback | keepUpdate | tenantResetRequest | notificationClear | overrunLatchClear | objectWrite |
      sessionOpen | sessionStage | sessionClose | waiverInstall | positionRearm | faultClear | ownerKeyWrite | rtcWrite |
      recoveryKeyWrite =>
    simp [exec, execResumeFromFallback, execKeepUpdate, execTenantResetRequest, execNotificationClear,
      execOverrunLatchClear, execObjectWrite, execSessionOpen, execSessionStage, execSessionClose, execWaiverInstall,
      execPositionRearm, execFaultClear, execOwnerKeyWrite, execRtcWrite, execRecoveryKeyWrite]
  case flitReceive | retrainComplete | arbitrationWindow | stockScrub | lpddr5xPatrol | postedWriteComplete =>
    simp [exec, execFlitReceive, execRetrainComplete, execArbitrationWindow, execStockScrub, execLpddr5xPatrol,
      execPostedWriteComplete]
  case bankScrub | passComplete | rebiteComplete | etchWriteOut | loadComplete | swapTakeEffect | burnishDue | burnishStep
      | plateOverdue | etch | load | swap =>
    simp [exec, execBankScrub, execPassComplete, execRebiteComplete, execEtchWriteOut, execLoadComplete,
      execSwapTakeEffect, execBurnishDue, execBurnishStep, execPlateOverdue, execEtch, execLoad, execSwap]
  case hatch | operandFetchComplete | claimGranted | tileDrain | stipple | stippleComplete | ext | extDone | extTimeout |
      extAbortAck | extHung =>
    simp [exec, execHatch, execOperandFetchComplete, execClaimGranted, execTileDrain, execStipple, execStippleComplete,
      execExt, execExtDone, execExtTimeout, execExtAbortAck, execExtHung]
  case moveInk | moveDataMover | sample | actuate | waitCount | waitDrain | waitBoth | waitSatisfied | signalCounter |
      signalEvent | signalFence | signalFlush | patchSet | patchAdd | patchCopy | patchAddreg | patchLoad | patchStore |
      endEntry | macroComplete =>
    simp [exec, execMoveInk, execMoveDataMover, execSample, execActuate, execWaitCount, execWaitDrain, execWaitBoth,
      execWaitSatisfied, execSignalCounter, execSignalEvent, execSignalFence, execSignalFlush, execPatchSet, execPatchAdd,
      execPatchCopy, execPatchAddreg, execPatchLoad, execPatchStore, execEndEntry, execMacroComplete]
  case toneDrain | toneScale | toneAdd | toneSub | toneClamp | toneCmp | toneTable | toneConvert | reduceColumnSum |
      reduceRowSum | reduceColumnMax | reduceRowMax | reduceSumlist =>
    simp [exec, toneExec, execToneDrain, execToneScale, execToneAdd, execToneSub, execToneClamp, execToneCmp,
      execToneTable, execToneConvert, execReduceColumnSum, execReduceRowSum, execReduceColumnMax, execReduceRowMax,
      execReduceSumlist]
  case doorbellQueue | doorbellConsumer | entryStart | marginEntryStart | heldRecordWrite | fenceComplete |
      flushReadCompletion | keepCas | completionTimeout =>
    simp [exec, execDoorbellQueue, execDoorbellConsumer, execEntryStart, execMarginEntryStart, execHeldRecordWrite,
      execFenceComplete, execFlushReadCompletion, execKeepCas, execCompletionTimeout]
  case create | admitCtx | invalidate | releasePlate | teardown | contextReset | ackLate | warmResetRequest |
      coldResetRequest | functionLevelReset | partitionRestart | msixUnmask | burinPendingClear =>
    simp [exec, commandRow, execCreate, execAdmit, execInvalidate, execReleasePlate, execTeardown, execContextReset,
      execAckLate, execWarmResetRequest, execColdResetRequest, execFunctionLevelReset, execPartitionRestart,
      execMsixUnmask, execBurinPendingClear]
  case bundleSubmit =>
    simp [exec, execBundleSubmit]
  case pranilRead | pranilWrite | describe | controlStart | controlStop | discover | rxCyclicReceive | cyclicSend |
      icmpEcho | gptpSync | mailboxGo | mailboxStatusClear | supervisorCall | usdoTransfer | nmtStart | nmtStop |
      nmtEnterPreoperational | nmtResetCommunication | nmtResetNode | rpdoReceive | syncReceive | tpdoTransmit |
      heartbeatProduce | heartbeatLoss | usdoProtocolTimeout | busOffRecovered | endpointLinkLoss | phyLinkUp | arpRequest
      | dhcpv4Reply | gptpAnnounce | heartbeatConsume =>
    simp [exec, execPranilRead, execPranilWrite, execDescribe, execControlStart, execControlStop, execDiscover,
      execRxCyclicReceive, execCyclicSend, execIcmpEcho, execGptpSync, execMailboxGo, execMailboxStatusClear,
      execSupervisorCall, execUsdoTransfer, execNmtStart, execNmtStop, execNmtEnterPreoperational,
      execNmtResetCommunication, execNmtResetNode, execRpdoReceive, execSyncReceive, execTpdoTransmit,
      execHeartbeatProduce, execHeartbeatLoss, execUsdoProtocolTimeout, execBusOffRecovered, execEndpointLinkLoss,
      execPhyLinkUp, execArpRequest, execDhcpv4Reply, execGptpAnnounce, execHeartbeatConsume]
  case sessionTimeout =>
    simp [exec, execSessionTimeout]
  case encoderEdge | encoderIndex | positionError | carrierPeriodStart | loadPeriodStart | loadTurnOff | overcurrentDetect
      | onStateDiagnosis | probeDiagnosis | pwmPulseEdge =>
    simp [exec, execEncoderEdge, execEncoderIndex, execPositionError, execCarrierPeriodStart, execLoadPeriodStart,
      execLoadTurnOff, execOvercurrentDetect, execOnStateDiagnosis, execProbeDiagnosis, execPwmPulseEdge]
  case configurationLoadComplete | releaseStage1 | releaseStage2 | releaseStage3 | configurationScrub | wellBusAccess |
      fifoWrite | fifoRead | collarClear | tapLoad | serialLaneLocked | serialLaneUnlocked | bitstreamCopyComplete =>
    simp [exec, execConfigurationLoadComplete, execReleaseStage1, execReleaseStage2, execReleaseStage3,
      execConfigurationScrub, execWellBusAccess, execFifoWrite, execFifoRead, execCollarClear, execTapLoad,
      execSerialLaneLocked, execSerialLaneUnlocked, execBitstreamCopyComplete]
  case lifecycleErasureComplete | emberSupplyLoss | emberSupplyRestore =>
    simp [exec, execLifecycleErasureComplete, execEmberSupplyLoss, execEmberSupplyRestore]
  case debugRequest | debugResponse | challengeExpiry | lockoutExpiry | relock | halt | resume | windowAddress |
      windowDataRead | windowDataWrite =>
    simp [exec, apply_ite Prod.snd, execDebugRequest, execDebugResponse, execChallengeExpiry, execLockoutExpiry,
      execRelock, execHalt, execResume, execWindowAddress, execWindowDataRead, execWindowDataWrite]
  case gImageVerify | lpddr5xTrainingComplete | imageCheck | startUpBurnishComplete | dictionaryReady | recoveryErase |
      recoveryWrite | recoveryCommit | recoveryStatus | pcieConfigurationRequest | pcieConfigurationReady =>
    simp [exec, execGImageVerify, execLpddr5xTrainingComplete, execImageCheck, execStartUpBurnishComplete,
      execDictionaryReady, execRecoveryErase, execRecoveryWrite, execRecoveryCommit, execRecoveryStatus,
      execPcieConfigurationRequest, execPcieConfigurationReady]


theorem execSessionCommit_quiet (s : State) (via : Via) (x : CommitOf) {t : State}
    (h : execSessionCommit via x s = .next t) : Quiet s t := by
  unfold execSessionCommit at h
  obtain rfl := Host.Outcome.next.inj h
  split
  · exact State.commitCut_quiet _ _ _
  · exact .inl (by simp)

/-- What a command other than a tick, the first tick and the writing of the Gauge dies answers is quiet. -/
theorem exec_quiet {c : Instr} {s t : State} (htick : ∀ x0 x1, c ≠ .tick x0 x1) (hrestart : ∀ x0 x1, c ≠ .holdTickRestart x0 x1)
    (hfirst : ∀ x0 x1, c ≠ .firstTick x0 x1) (hgauge : c ≠ .gaugeDiesWritten) (h : exec c s = .next t) : Quiet s t := by
  by_cases hc : stirs c = false
  · exact .inl (by simpa [h] using exec_steady c s hc)
  cases c
  case tick => exact absurd rfl (htick _ _)
  case holdTickRestart => exact absurd rfl (hrestart _ _)
  case firstTick => exact absurd rfl (hfirst _ _)
  case gaugeDiesWritten => exact absurd rfl hgauge
  case warmStart => exact (warmStart_quiet s).of_due h
  case powerDownComplete => exact (powerDown_quiet s).of_due h
  case wakeBall level => cases h; exact Quiet.ite (s.wake_quiet 2) (.inl rfl)
  case canWakeFrame f => cases h; exact Quiet.ite (s.wake_quiet 3) (.inl rfl)
  case rtcAlarm => exact (rtcAlarm_quiet s).of_due h
  case powerGood =>
    refine Quiet.of_due ?_ h
    exact (State.tryCold_quiet _ _).of_steady (State.modBoot_steady _ _ fun _ => rfl)
  case resetNAssert =>
    refine Quiet.of_due (.inr ?_) h
    exact (State.held_restarted _ 1).steady (State.modBoot_steady _ _ fun _ => rfl)
  case supplyBrownout => exact (brownout_quiet s).of_due h
  case suppliesWithinLimits => exact (suppliesGood_quiet s).of_due h
  case sysclkStart => cases h; exact sysclkStart_quiet s
  case recoveryRestart hdr busy => exact (recRestart_quiet s hdr busy).of_due h
  case sessionCommit via x => exact execSessionCommit_quiet s via x h
  all_goals exact absurd rfl hc

/-! ### Ticks -/

/-- At most the Gauge dies differ. -/
def OnlyGauges (s t : State) : Prop := ∃ g, t = { s with gauges := g }

theorem OnlyGauges.refl (s : State) : OnlyGauges s s := ⟨s.gauges, rfl⟩
theorem OnlyGauges.trans {s t u : State} (h : OnlyGauges s t) (h' : OnlyGauges t u) : OnlyGauges s u := by
  obtain ⟨g, rfl⟩ := h
  obtain ⟨g', rfl⟩ := h'
  exact ⟨g', rfl⟩

theorem State.modGauge_onlyGauges (s : State) (d : Nat) (f : Gauge → Gauge) : OnlyGauges s (s.modGauge d f) := ⟨_, rfl⟩

theorem State.each_onlyGauges (s : State) (l : List Nat) (f : State → Nat → State) (h : ∀ u x, OnlyGauges u (f u x)) :
    OnlyGauges s (s.each l f) :=
  fold_holds (OnlyGauges s) f l s (OnlyGauges.refl s) fun u x _ hu => hu.trans (h u x)

/-- What a tick activates is in the Gauge dies. -/
theorem State.activate_onlyGauges (s : State) (d : Nat) : OnlyGauges s (s.activate d) := by
  unfold State.activate
  dsimp only
  split
  · exact OnlyGauges.refl s
  refine ((s.each_onlyGauges _ _ fun u o => u.modGauge_onlyGauges d _).trans
    (State.each_onlyGauges _ _ _ fun u c => u.modGauge_onlyGauges d _)).trans (State.each_onlyGauges _ _ _ fun u k => ?_)
  split
  · exact u.modGauge_onlyGauges d _
  · exact OnlyGauges.refl u

theorem State.activateAll_onlyGauges (s : State) : OnlyGauges s (s.each [0, 1] State.activate) :=
  s.each_onlyGauges _ _ State.activate_onlyGauges

theorem State.activateAll_frame (s : State) : (s.each [0, 1] State.activate).frame = s.frame := by
  obtain ⟨g, hg⟩ := s.activateAll_onlyGauges
  rw [hg]

/-- The frame is over: time goes on to its end, and it counts. -/
def Frame.over (f : Frame) : Frame := { f with now := f.now - f.elapsed + f.len, elapsed := 0, counter := f.counter + 1 }

/-- The state in which a tick decides whether a frame follows: the frame before is over, its outputs are active. -/
def State.frameOver (s : State) : State := (s.urgentEnd.flushNotify.land.modFrame Frame.over).each [0, 1] State.activate

theorem tickEffect_eq (s : State) (x0 x1 : GaugeIn) : tickEffect s x0 x1 =
    if s.frameEnd = .runs then s.frameOver.beginFrame x0 x1 (s.frame.len / 5) false else s.frameOver.endFrame s.frameEnd := rfl

theorem State.frameOver_counter (s : State) : s.frameOver.frame.counter = s.frame.counter + 1 := by
  have hbefore : s.urgentEnd.flushNotify.land.steady = s.steady := by simp
  rw [← (State.steady_eq_iff.1 hbefore).2.1, State.frameOver, State.activateAll_frame]
  rfl

/-- A tick counts one frame, whether a frame follows it or not. -/
theorem tickEffect_counter (s : State) (x0 x1 : GaugeIn) : (tickEffect s x0 x1).frame.counter = s.frame.counter + 1 := by
  rw [tickEffect_eq, ← s.frameOver_counter]
  split
  · exact (State.steady_eq_iff.1 (s.frameOver.beginFrame_steady _ _ _ _)).2.1
  · exact (State.steady_eq_iff.1 (s.frameOver.endFrame_steady _)).2.1

/-- The state that begins the first frame after HOLD: in RUN, counted, the outputs active. -/
def State.holdOver (s : State) : State :=
  ((s.modSec fun x => { x with power := .run, powerReq := none }).modFrame fun f =>
    { f with elapsed := 0, counter := f.counter + 1 }).each [0, 1] State.activate

theorem holdRestart_eq (s : State) (x0 x1 : GaugeIn) : holdRestart s x0 x1 =
    s.holdOver.beginFrame x0 x1 (s.P / 5) (decide (s.frame.tickState = .fallbackHold)) := rfl

theorem holdRestart_counter (s : State) (x0 x1 : GaugeIn) : (holdRestart s x0 x1).frame.counter = s.frame.counter + 1 := by
  rw [holdRestart_eq, (State.steady_eq_iff.1 (s.holdOver.beginFrame_steady _ _ _ _)).2.1, State.holdOver,
    State.activateAll_frame]
  rfl

theorem firstTick_counter (s : State) (x0 x1 : GaugeIn) : (firstTick s x0 x1).mapsDue.frame.counter = 0 := by
  have hlatched : (firstTick s x0 x1).mapsDue.steady = _ :=
    (State.mapsDue_steady _).trans ((State.latchGauge_steady _ _ _ _).trans (State.latchGauge_steady _ _ _ _))
  refine (State.steady_eq_iff.1 hlatched).2.1.trans ?_
  rw [State.activateAll_frame]
  rfl

theorem State.provisionGauge_onlyGauges (s : State) (d : Nat) : OnlyGauges s (s.provisionGauge d) :=
  ((s.modGauge_onlyGauges d _).trans (State.each_onlyGauges _ _ _ fun u _ => u.modGauge_onlyGauges d _)).trans
    (State.each_onlyGauges _ _ _ fun u _ => u.modGauge_onlyGauges d _)

theorem gaugesWritten_frame (s : State) : (gaugesWritten s).frame = s.frame := by
  obtain ⟨g, hg⟩ := s.each_onlyGauges [0, 1] State.provisionGauge State.provisionGauge_onlyGauges
  simp [gaugesWritten, hg]

theorem due_counter {s t u : State} {b : Bool} (h : due s b t = .next u) :
    u.frame.counter = if b = true then t.frame.counter else s.frame.counter := by
  cases b <;> cases h <;> rfl

/-- Settles O4: a tick counts, the first tick clears, and every other command is quiet or writes the Gauge dies. -/
theorem counterChangesOnlyAtTicks : Obligations.CounterChangesOnlyAtTicks := by
  intro c s t h
  split
  case h_1 x0 x1 =>
    rw [due_counter h, tickEffect_counter]
    simp
  case h_2 x0 x1 => rw [due_counter h, holdRestart_counter]
  case h_3 x0 x1 =>
    rw [due_counter h, firstTick_counter]
    simp [and_assoc]
  case h_4 htick hrestart hfirst =>
    by_cases hgauge : c = .gaugeDiesWritten
    · subst hgauge
      rw [due_counter h, gaugesWritten_frame, ite_self]
    · exact (exec_quiet (htick · · ·) (hrestart · · ·) (hfirst · · ·) hgauge h).counter

/-- Settles O30: what is neither a tick nor the writing of the Gauge dies is quiet. -/
theorem outputsChangeOnlyAtTicks : Obligations.OutputsChangeOnlyAtTicks := by
  intro c s t h _ ht
  split
  case h_5 htick hrestart hfirst hgauge =>
    exact (exec_quiet (htick · · ·) (hrestart · · ·) (hfirst · · ·) hgauge h).active ht
  all_goals trivial

end Sys2Proof.Machine
end

section
/-!
OverrunDecision (R56 to R58): what the decision for one tenant leaves as it is, and its two outcomes.
-/

namespace Sys2Proof.Machine

open Sys2Proof

/-! ### What work on a context of tenant k leaves alone -/

/-- The fields that the overrun decision writes (R52, R56 to R58). -/
def Tenant.judged (x : Tenant) : Bool × Nat × Nat × Bool × Nat := (x.overran, x.overruns, x.consec, x.latch, x.lateFinishes)

/-- What work on a context of tenant k leaves: the objects, the Gauge dies, the other tenants and their contexts, whose each
context is, and what was decided on k itself. -/
structure Aside where
  obj : Tab Nat
  gauges : Tab Gauge
  judged : Bool × Nat × Nat × Bool × Nat
  others : Nat → Option Tenant
  owner : Nat → Nat
  foreign : Nat → Option Ctx

def State.aside (k : Nat) (s : State) : Aside where
  obj := s.obj
  gauges := s.gauges
  judged := (s.ten k).judged
  others j := if j = k then none else some (s.ten j)
  owner c := (s.ctx c).tenant
  foreign c := if (s.ctx c).tenant = k then none else some (s.ctx c)

section
variable {k c : Nat} {s t : State}

theorem owner_of_aside (h : t.aside k = s.aside k) (c : Nat) : (t.ctx c).tenant = (s.ctx c).tenant :=
  congrFun (congrArg Aside.owner h) c

theorem ten_of_aside (h : t.aside k = s.aside k) {j : Nat} (hj : j ≠ k) : t.ten j = s.ten j := by
  simpa [State.aside, hj] using congrFun (congrArg Aside.others h) j

theorem ctx_of_aside (h : t.aside k = s.aside k) (hc : (s.ctx c).tenant ≠ k) : t.ctx c = s.ctx c := by
  have hf := congrFun (congrArg Aside.foreign h) c
  simpa [State.aside, owner_of_aside h, hc] using hf

theorem judged_of_aside (h : t.aside k = s.aside k) : (t.ten k).judged = (s.ten k).judged := congrArg Aside.judged h

theorem State.aside_of_same (ho : t.obj = s.obj) (hg : t.gauges = s.gauges) (ht : t.tenants = s.tenants)
    (hc : t.ctxs = s.ctxs) : t.aside k = s.aside k := by
  cases s; cases t; cases ho; cases hg; cases ht; cases hc; rfl

theorem DataOnly.aside (h : DataOnly s t) : t.aside k = s.aside k := by
  obtain ⟨⟨m, p, f, x, rfl⟩, -, -⟩ := h
  exact State.aside_of_same rfl rfl rfl rfl

theorem State.modCtx_aside (f : Ctx → Ctx) (hc : (s.ctx c).tenant = k) (hf : ∀ x, (f x).tenant = x.tenant) :
    (s.modCtx c f).aside k = s.aside k := by
  have hctx (d : Nat) : (s.modCtx c f).ctx d = if d = c then f (s.ctx c) else s.ctx d := by
    simp [State.ctx, tget_tset]
  simp only [State.aside, hctx, State.ten, State.modCtx_tenants]
  congr 1
  · funext d
    split <;> simp_all
  · funext d
    split <;> simp_all

theorem State.modQueue_aside (q : Nat) (f : Queue → Queue) (hc : (s.ctx c).tenant = k) :
    (s.modQueue c q f).aside k = s.aside k := State.modCtx_aside _ hc fun _ => rfl

theorem State.modTen_aside (f : Tenant → Tenant) (hf : ∀ x, (f x).judged = x.judged) :
    (s.modTen k f).aside k = s.aside k := by
  have hten (j : Nat) : (s.modTen k f).ten j = if j = k then f (s.ten k) else s.ten j := by
    simp only [State.ten, State.modTen, tmod, tget_tset]
  simp only [State.aside, hten, State.ctx, State.modTen_ctxs, if_true, hf]
  congr 1
  funext j
  split <;> simp_all

theorem foldl_aside {α : Type} (f : State → α → State) (l : List α) (s : State) (hc : (s.ctx c).tenant = k)
    (h : ∀ u x, x ∈ l → (u.ctx c).tenant = k → (f u x).aside k = u.aside k) : (l.foldl f s).aside k = s.aside k :=
  fold_holds (fun u : State => u.aside k = s.aside k) f l s rfl fun u x hx hu =>
    (h u x hx ((owner_of_aside hu c).trans hc)).trans hu

theorem foldl_pair_aside {α β : Type} (f : β × State → α → β × State) (l : List α) (r : β × State)
    (hc : (r.2.ctx c).tenant = k) (h : ∀ u x, (u.2.ctx c).tenant = k → (f u x).2.aside k = u.2.aside k) :
    (l.foldl f r).2.aside k = r.2.aside k :=
  fold_holds (fun u : β × State => u.2.aside k = r.2.aside k) f l r rfl fun u x _ hu =>
    (h u x ((owner_of_aside hu c).trans hc)).trans hu

/-! ### Reads and writes of one context -/

theorem State.tableEntry_aside (l p a : Nat) (hc : (s.ctx c).tenant = k) : (s.tableEntry c l p a).2.aside k = s.aside k := by
  unfold State.tableEntry
  split
  · rfl
  · exact State.modCtx_aside _ hc fun _ => rfl

theorem State.translate_aside (a : Nat) (w : Bool) (hc : (s.ctx c).tenant = k) : (s.translate c a w).2.aside k = s.aside k := by
  unfold State.translate
  grind [State.tableEntry_aside, owner_of_aside]

theorem State.findOne_aside (s : State) (e : Nat × Ecc) : (s.findOne e).aside k = s.aside k := by
  obtain ⟨m, p, h⟩ := s.findOne_counts e
  rw [h]
  exact State.aside_of_same rfl rfl rfl rfl

theorem State.findErrors_aside (s : State) (ecc : Found) (a n : Nat) : (s.findErrors ecc a n).aside k = s.aside k :=
  fold_holds (fun u : State => u.aside k = s.aside k) _ _ s rfl fun u e _ hu => (u.findOne_aside e).trans hu

theorem State.noteBad_aside (s : State) (a : Nat) : (s.noteBad a).aside k = s.aside k :=
  State.aside_of_same rfl rfl rfl rfl

theorem State.readPiece_aside (s : State) (d : Nat) (ecc : Found) (t : Target) (n : Nat) :
    (s.readPiece d ecc t n).2.aside k = s.aside k := by
  unfold State.readPiece
  grind [State.findErrors_aside, State.noteBad_aside]

theorem State.readCtx_aside (ecc : Found) (a n : Nat) (hc : (s.ctx c).tenant = k) :
    (s.readCtx c ecc a n).2.aside k = s.aside k := by
  unfold State.readCtx
  refine foldl_pair_aside (c := c) _ _ (Except.ok [], s) hc fun r pc hr => ?_
  grind [State.translate_aside, State.readPiece_aside]

theorem State.writeTargets_aside (a : Nat) (bs : List Byte) (hc : (s.ctx c).tenant = k) :
    (s.writeTargets c a bs).2.aside k = s.aside k := by
  unfold State.writeTargets
  refine foldl_pair_aside (c := c) _ _ (Except.ok [], s) hc fun r pc hr => ?_
  grind [State.translate_aside]

theorem State.lateFault_aside (q cause : Nat) (ep : BitVec 16) (ca da : Nat) (hc : (s.ctx c).tenant = k) :
    (s.lateFault c q cause ep ca da).aside k = s.aside k := by
  have hlate : (s.lateRecord c q cause ep ca da).aside k = s.aside k := by
    unfold State.lateRecord
    dsimp only
    rw [hc]
    refine (State.modTen_aside _ ?_).trans (State.modCtx_aside _ hc ?_)
    all_goals exact fun _ => rfl
  have hc' := (owner_of_aside hlate c).trans hc
  unfold State.lateFault
  dsimp only
  generalize s.lateRecord c q cause ep ca da = u at hlate hc' ⊢
  have hf := State.modCtx_aside (fun x => { x with
    fences := (lateFence q (ep.setWidth 13) ca (u.ctx c).fences).2 }) hc' fun _ => rfl
  split
  · exact hf.trans hlate
  · exact ((State.modQueue_aside q _ ((owner_of_aside hf c).trans hc')).trans hf).trans hlate

theorem State.wrOwn_aside (q ca : Nat) (t : Target) (bs : List Byte) (hc : (s.ctx c).tenant = k) :
    (s.wrOwn c q ca t bs).aside k = s.aside k := by
  unfold State.wrOwn
  repeat' split
  · exact State.lateFault_aside q _ _ _ _ hc
  · exact (s.wr_dataOnly _ _).aside
  · exact (s.wrTarget_dataOnly _ _).aside

theorem State.wrCtx_aside (q a : Nat) (bs : List Byte) (hc : (s.ctx c).tenant = k) : (s.wrCtx c q a bs).aside k = s.aside k := by
  have hw := State.writeTargets_aside a bs hc
  unfold State.wrCtx
  split
  next l u heq =>
    rw [heq] at hw
    exact (foldl_aside (c := c) _ l u ((owner_of_aside hw c).trans hc) fun v e _ hv =>
      State.wrOwn_aside q _ _ _ hv).trans hw
  next heq => rwa [heq] at hw

/-! ### Records and results -/

theorem State.putRec_aside {r : Rec} (hc : (s.ctx r.c).tenant = k) : (s.putRec r).aside k = s.aside k := by
  unfold State.putRec
  have hm := State.modCtx_aside (k := k) (fun x => { x with
    ringWritten := x.ringWritten + 1, lost := false,
    toNotify := if r.q ∈ x.toNotify then x.toNotify else x.toNotify ++ [r.q] }) hc fun _ => rfl
  exact (State.wrCtx_aside _ _ _ ((owner_of_aside hm r.c).trans hc)).trans hm

theorem State.post_aside {r : Rec} (hc : (s.ctx r.c).tenant = k) : (s.post r).aside k = s.aside k := by
  have hput : (s.putRec { r with gen := (s.ctx r.c).gen }).aside k = s.aside k := State.putRec_aside hc
  have hmod (f : Ctx → Ctx) (hf : ∀ x, (f x).tenant = x.tenant) : (s.modCtx r.c f).aside k = s.aside k :=
    State.modCtx_aside f hc hf
  unfold State.post
  dsimp only
  repeat' split
  · rfl
  · rw [hc]
    refine (State.modTen_aside _ ?_).trans (hmod _ ?_)
    all_goals exact fun _ => rfl
  · exact hput
  · exact hmod _ fun _ => rfl
  · exact hput
  · exact hmod _ fun _ => rfl

theorem State.resultArea_aside (q a : Nat) (hc : (s.ctx c).tenant = k) : (s.resultArea c q a).aside k = s.aside k := by
  unfold State.resultArea
  split
  · exact State.wrCtx_aside _ _ _ hc
  · rfl

theorem State.headInfo_aside (q : Nat) (hc : (s.ctx c).tenant = k) : (s.headInfo c q).2.aside k = s.aside k := by
  unfold State.headInfo
  grind [State.readCtx_aside]

/-! ### An entry that overran -/

theorem State.release_aside {o : Op} (hc : (s.ctx o.c).tenant = k) : (s.release o).aside k = s.aside k := by
  unfold State.release
  repeat' split
  · rfl
  · unfold State.postAll
    dsimp only
    split
    · exact (State.modQueue_aside _ _ hc).trans (State.aside_of_same rfl rfl rfl rfl)
    · exact State.aside_of_same rfl rfl rfl rfl
  · exact foldl_aside (c := o.c) _ _ _ hc fun u p _ _ => (u.wrTarget_dataOnly _ _).aside

theorem State.dropQueue_aside (q : Nat) (hc : (s.ctx c).tenant = k) : (s.dropQueue c q).aside k = s.aside k := by
  unfold State.dropQueue
  refine (State.aside_of_same rfl rfl rfl rfl).trans (foldl_aside (c := c) _ _ s hc fun u o ho hu => ?_)
  have hoc : o.c = c := by
    simp only [State.opsOf, List.mem_filter, decide_eq_true_eq] at ho
    exact ho.2.1
  have hr : (u.release o).aside k = u.aside k := State.release_aside (hoc ▸ hu)
  dsimp only
  repeat' split
  all_goals exact hr

theorem State.endRun_aside (q : Nat) (st : Status) (i d : Nat) (hc : (s.ctx c).tenant = k) :
    (s.endRun c q st i d).aside k = s.aside k := by
  unfold State.endRun
  split
  · rfl
  next r _ =>
    have hw : (s.writeResult c q r.result).aside k = s.aside k := State.wrCtx_aside _ _ _ hc
    have hcw := (owner_of_aside hw c).trans hc
    dsimp only
    generalize s.writeResult c q r.result = u at hw hcw ⊢
    have hp : (if (!r.replay || decide (st ≠ .success) || r.notify) = true then u.post
        { u.mkRec (if st = .overrun then 0x04 else 0x01) with
          c := c, q := q, status := st.code, cookie := r.cookie, index := i,
          detail := BitVec.ofNat 64 (st.detailOf d) } else u).aside k = u.aside k := by
      split
      · exact State.post_aside hcw
      · rfl
    have hcp := (owner_of_aside hp c).trans hcw
    split
    all_goals exact ((State.modQueue_aside q _ hcp).trans hp).trans hw

/-- A result area, a record of the context, its queue. -/
theorem State.reported_aside {r : Rec} (hr : r.c = c) (q a : Nat) (f : Queue → Queue) (hc : (s.ctx c).tenant = k) :
    (((s.resultArea c q a).post r).modQueue c q f).aside k = s.aside k := by
  subst hr
  have ha := State.resultArea_aside q a hc
  have hp := (State.post_aside ((owner_of_aside ha r.c).trans hc)).trans ha
  exact (State.modQueue_aside q f ((owner_of_aside hp r.c).trans hc)).trans hp

theorem State.overrunIdle_aside (n q : Nat) (hc : (s.ctx c).tenant = k) : (s.overrunIdle n c q).aside k = s.aside k := by
  have hi := State.headInfo_aside q hc
  unfold State.overrunIdle
  dsimp only
  generalize s.headInfo c q = r at hi ⊢
  obtain ⟨i, u⟩ := r
  have hcu : (u.ctx c).tenant = k := (owner_of_aside hi c).trans hc
  refine (State.reported_aside ?_ q _ _ hcu).trans hi
  rfl

theorem State.overrunQueue_aside (n q : Nat) (hc : (s.ctx c).tenant = k) : (s.overrunQueue n c q).aside k = s.aside k := by
  have hend : (match (s.queue c q).run with
      | some r => (s.dropQueue c q).endRun c q .overrun r.lastDone n
      | none => s.overrunIdle n c q).aside k = s.aside k := by
    split
    · have hd := State.dropQueue_aside q hc
      exact (State.endRun_aside q _ _ _ ((owner_of_aside hd c).trans hc)).trans hd
    · exact State.overrunIdle_aside n q hc
  exact (State.modQueue_aside q _ ((owner_of_aside hend c).trans hc)).trans hend

end

/-! ### The decision -/

theorem State.mem_unfinishedOf {s : State} {k : Nat} {out : List Nat} {e : Nat × Nat} (h : e ∈ s.unfinishedOf k out) :
    (s.ctx e.1).tenant = k := by
  simp only [State.unfinishedOf, List.mem_flatMap, List.mem_filter, List.mem_map, Bool.and_eq_true, decide_eq_true_eq] at h
  obtain ⟨c, ⟨-, hc, -⟩, q, -, rfl⟩ := h
  exact hc

theorem State.judgeTenant_finished {s : State} {k : Nat} (h : s.unfinishedOf k s.frame.resetCtxs = []) :
    s.judgeTenant k = s.modTen k fun x => { x with
      consec := 0, lateFinishes := if bit s.frame.late k then satInc 32 x.lateFinishes else x.lateFinishes } := by
  simp [State.judgeTenant, h]

/-- An overrun: the tenant is judged, and the rest stands aside. -/
theorem State.judgeTenant_overrun {s : State} {k : Nat} (h : s.unfinishedOf k s.frame.resetCtxs ≠ []) :
    (s.judgeTenant k).aside k = (s.modTen k fun x => x.overrun (s.atTick 0x3101 (k + 1))).aside k := by
  have hown : ∀ e ∈ s.unfinishedOf k s.frame.resetCtxs, (s.ctx e.1).tenant = k := fun e he => State.mem_unfinishedOf he
  unfold State.judgeTenant
  generalize s.unfinishedOf k s.frame.resetCtxs = l at h hown
  split
  · exact absurd rfl h
  refine (fold_holds (fun u : State => u.aside k = (s.modTen k fun x => x.overrun (s.atTick 0x3101 (k + 1))).aside k)
    _ l _ rfl fun u e he hu => ?_)
  exact (State.overrunQueue_aside _ _ ((owner_of_aside hu e.1).trans (hown e he))).trans hu

@[simp] theorem State.modTen_ten_same (s : State) (k : Nat) (f : Tenant → Tenant) : (s.modTen k f).ten k = f (s.ten k) := by
  simp [State.ten, State.modTen]

theorem State.modTen_ten_ne (s : State) {k j : Nat} (f : Tenant → Tenant) (h : j ≠ k) : (s.modTen k f).ten j = s.ten j := by
  simp [State.ten, State.modTen, tget_tmod_ne _ _ _ h]

/-- Whatever is decided, the objects, the outputs, the other tenants and their contexts stay. -/
theorem State.judgeTenant_foreign (s : State) (k : Nat) :
    (s.judgeTenant k).obj = s.obj ∧ (s.judgeTenant k).gauges = s.gauges ∧ (∀ j, j ≠ k → (s.judgeTenant k).ten j = s.ten j) ∧
    ∀ c, (s.ctx c).tenant ≠ k → (s.judgeTenant k).ctx c = s.ctx c := by
  by_cases h : s.unfinishedOf k s.frame.resetCtxs = []
  · rw [State.judgeTenant_finished h]
    exact ⟨rfl, rfl, fun j hj => State.modTen_ten_ne _ _ hj, fun _ _ => rfl⟩
  · have ha := State.judgeTenant_overrun h
    exact ⟨congrArg Aside.obj ha, congrArg Aside.gauges ha,
      fun j hj => (ten_of_aside ha hj).trans (State.modTen_ten_ne _ _ hj), fun c hc => (ctx_of_aside ha hc).trans rfl⟩

/-- Settles O10, by what an overrun's work on the tenant's own contexts leaves aside. -/
theorem overrunDecision : Obligations.OverrunDecision := by
  intro s k
  refine ⟨fun h => ?_, fun h => ?_, s.judgeTenant_foreign k⟩
  · rw [State.judgeTenant_finished h, State.modTen_ten_same]
    exact ⟨⟨_, rfl⟩, rfl, rfl, rfl, rfl⟩
  · have hj := judged_of_aside (State.judgeTenant_overrun h)
    rw [State.modTen_ten_same] at hj
    simp only [Tenant.judged, Tenant.overrun, Prod.mk.injEq] at hj
    obtain ⟨hoverran, hoverruns, hconsec, hlatch, hlate⟩ := hj
    exact ⟨hoverran, hoverruns, hconsec, hlate, by simpa using hlatch⟩

end Sys2Proof.Machine
end

section
/-!
ChannelsCountAndLatch (R290, R291, R293): the events of one position interface, and what a channel latches at a tick.
-/

namespace Sys2Proof.Machine

open Sys2Proof

/-! ### One position interface -/

theorem State.gauge_modGauge (s : State) (d e : Nat) (f : Gauge → Gauge) :
    (s.modGauge d f).gauge e = if e = d then f (s.gauge d) else s.gauge e := by
  simp only [State.gauge, State.modGauge, tmod, tget_tset]

theorem State.modPos_output (s : State) (d i e o : Nat) (f : PosIf → PosIf) :
    (s.modPos d i f).output e o = s.output e o := by
  simp only [State.output, State.modPos, State.gauge_modGauge]
  split <;> simp_all

theorem State.modPos_sd (s : State) (d i e c : Nat) (f : PosIf → PosIf) : (s.modPos d i f).sd e c = s.sd e c := by
  simp only [State.sd, State.modPos, State.gauge_modGauge]
  split <;> simp_all

theorem State.modPos_pos_same (s : State) (d i : Nat) (f : PosIf → PosIf) : (s.modPos d i f).pos d i = f (s.pos d i) := by
  simp [State.pos, State.modPos]

theorem State.modPos_pos_ne (s : State) (d : Nat) {i j : Nat} (f : PosIf → PosIf) (h : j ≠ i) :
    (s.modPos d i f).pos d j = s.pos d j := by
  simp [State.pos, State.modPos, tget_tmod_ne _ _ _ h]

/-- An event of one position interface leaves every other part of its Gauge die. -/
theorem State.modPos_frame (s : State) (d i : Nat) (f : PosIf → PosIf) :
    OnlyGauge d s (s.modPos d i f) ∧ (∀ j, j ≠ i → (s.modPos d i f).pos d j = s.pos d j) ∧
    (∀ o, (s.modPos d i f).output d o = s.output d o) ∧ ∀ c, (s.modPos d i f).sd d c = s.sd d c :=
  ⟨s.modPos_only d i f, fun _ h => s.modPos_pos_ne d f h, fun _ => s.modPos_output d i d _ f, fun _ => s.modPos_sd d i d _ f⟩

theorem answers_modPos {c : Instr} {s : State} {d i : Nat} {b : Bool} {f : PosIf → PosIf} {P : PosIf → Prop}
    (hexec : exec c s = due s b (s.modPos d i f)) (hb : b = true) (hP : P (f (s.pos d i))) :
    Answers c s fun t => (OnlyGauge d s t ∧ (∀ j, j ≠ i → t.pos d j = s.pos d j) ∧
      (∀ o, t.output d o = s.output d o) ∧ ∀ c, t.sd d c = s.sd d c) ∧ P (t.pos d i) :=
  answers_due hexec hb ⟨s.modPos_frame d i f, by rwa [State.modPos_pos_same]⟩

theorem encodersCount : Claims.EncodersCount := by
  intro s d i hthere
  refine ⟨fun hmode => ?_, fun hmode => ?_, fun hmode => ?_, fun hmode => ?_⟩
  · exact answers_modPos (P := (· = _)) rfl (by simp [hthere, hmode]) rfl
  · exact answers_modPos (P := (· = _)) rfl (by simp [hthere, hmode]) rfl
  · exact answers_modPos (P := (· = _)) rfl (by simp [hthere, hmode]) rfl
  · exact answers_modPos (P := fun x => x.error = true ∧ x.count = (s.pos d i).count) rfl (by simp [hthere, hmode]) ⟨rfl, rfl⟩

/-! ### What a channel latches at a tick -/

theorem SdCh.latch_full {x : SdCh} {ratio bits : Nat} (v : Int) (hratio : x.ratio = ratio) (h : 3 * ratio ≤ x.bits + bits) :
    (x.latch true ratio bits v).latched = clampS 24 v ∧ (x.latch true ratio bits v).valid = true ∧
    ((x.latch true ratio bits v).overrange = true ↔ clampS 24 v ≠ v) := by
  have hn : min (3 * ratio) (x.bits + bits) = 3 * ratio := min_eq_left h
  simp [SdCh.latch, hratio, hn]

theorem SdCh.latch_filling {x : SdCh} {ratio bits : Nat} (v : Int) (hratio : x.ratio = ratio) (h : x.bits + bits < 3 * ratio) :
    (x.latch true ratio bits v).latched = noSample ∧ (x.latch true ratio bits v).valid = false := by
  simp [SdCh.latch, hratio, h]

theorem PosIf.latch_counting {x : PosIf} (res : Nat) (h : x.error = false) :
    (x.latch 1 res).latched = (x.count.toNat : Int) := by
  simp [PosIf.latch, h]

theorem PosIf.latch_error {x : PosIf} (mode res : Nat) (h : x.error = true) (hrearm : (x.rearm && x.cleared) = false) :
    (x.latch mode res).latched = noSample := by
  simp [PosIf.latch, h, hrearm]

theorem PosIf.latch_rearmed {x : PosIf} (res : Nat) (h : x.error = true) (hr : x.rearm = true) (hc : x.cleared = true) :
    (x.latch 1 res).latched = 0 ∧ (x.latch 1 res).error = false ∧ (x.latch 1 res).count = 0 := by
  simp [PosIf.latch, h, hr, hc]

theorem channelsLatch : Claims.ChannelsLatch :=
  ⟨fun _ _ _ v hratio h => SdCh.latch_full v hratio h, fun _ _ _ v hratio h => SdCh.latch_filling v hratio h,
    fun _ _ _ _ => ⟨rfl, rfl⟩,
    fun x res h => ⟨x.latch_counting res h, by rw [x.latch_counting res h]; omega,
      by rw [x.latch_counting res h]; exact_mod_cast x.count.isLt⟩,
    fun _ mode res h hrearm => PosIf.latch_error mode res h hrearm,
    fun _ res h hr hc => PosIf.latch_rearmed res h hr hc⟩

/-- Settles O32: the events of a position interface, and what the channels latch. -/
theorem channelsCountAndLatch : Obligations.ChannelsCountAndLatch := ⟨encodersCount, channelsLatch⟩

end Sys2Proof.Machine
end

section
/-!
TickActivates (R33, R46, R55, R379): what a tick activates, what begins with SAMPLE and keeps to it, the source's lock, and
the ticks themselves.
-/

namespace Sys2Proof.Machine

open Sys2Proof

/-! ### What a tick activates -/

theorem State.modOutput_output (s : State) (d p e o : Nat) (f : Output → Output) :
    (s.modOutput d p f).output e o = if e = d ∧ o = p then f (s.output d p) else s.output e o := by
  rw [State.modOutput, State.output_modGauge]
  by_cases he : e = d <;> by_cases ho : o = p <;> simp [State.output, he, ho, tget_tmod_ne]

/-- An update of every listed output of a Gauge die. -/
theorem State.each_modOutput (s : State) (d e o : Nat) (l : List Nat) (f : Nat → Output → Output) (hl : l.Nodup) :
    (s.each l fun s o => s.modOutput d o (f o)).output e o =
      if e = d ∧ o ∈ l then f o (s.output d o) else s.output e o := by
  induction l generalizing s with
  | nil => simp [State.each]
  | cons p l ih =>
    rw [List.nodup_cons] at hl
    refine (ih _ hl.2).trans ?_
    rw [State.modOutput_output, State.modOutput_output]
    by_cases he : e = d <;> by_cases ho : o = p <;> simp_all

theorem State.modPwm_output (s : State) (d c e o : Nat) (f : Pwm → Pwm) : (s.modPwm d c f).output e o = s.output e o := by
  rw [State.modPwm, State.output_modGauge]
  split <;> simp_all [State.output]

theorem State.modLoad_output (s : State) (d k e o : Nat) (f : LoadCh → LoadCh) :
    (s.modLoad d k f).output e o = s.output e o := by
  rw [State.modLoad, State.output_modGauge]
  split <;> simp_all [State.output]

/-- A pending value becomes active. -/
def Output.activated (x : Output) : Output := { x with act := x.pend, actSafe := x.pendSafe }

theorem State.activate_output (s : State) (d e o : Nat) :
    (s.activate d).output e o =
      if (s.gauge d).written = true ∧ e = d ∧ o < 20 then (s.output d o).activated else s.output e o := by
  unfold State.activate
  dsimp only
  split
  next h => simp_all
  next h =>
    refine (State.each_keeps _ (fun t : State => t.output e o) _ _ fun u k => ?_).trans
      ((State.each_keeps _ (fun t : State => t.output e o) _ _ fun u c => u.modPwm_output d c e o _).trans
        ((s.each_modOutput d e o _ (fun _ => Output.activated) List.nodup_range).trans ?_))
    · split
      · exact u.modLoad_output d k e o _
      · rfl
    · simp_all

theorem State.modGauge_written (s : State) (d e : Nat) (f : Gauge → Gauge) (hf : ∀ g, (f g).written = g.written) :
    ((s.modGauge d f).gauge e).written = (s.gauge e).written := by
  rw [State.gauge_modGauge]
  split <;> simp_all

theorem State.modOutput_written (s : State) (d o e : Nat) (f : Output → Output) :
    ((s.modOutput d o f).gauge e).written = (s.gauge e).written := s.modGauge_written d e _ fun _ => rfl
theorem State.modPwm_written (s : State) (d c e : Nat) (f : Pwm → Pwm) :
    ((s.modPwm d c f).gauge e).written = (s.gauge e).written := s.modGauge_written d e _ fun _ => rfl
theorem State.modLoad_written (s : State) (d k e : Nat) (f : LoadCh → LoadCh) :
    ((s.modLoad d k f).gauge e).written = (s.gauge e).written := s.modGauge_written d e _ fun _ => rfl

theorem State.activate_written (s : State) (d e : Nat) : ((s.activate d).gauge e).written = (s.gauge e).written := by
  unfold State.activate
  dsimp only
  split
  · rfl
  refine (State.each_keeps _ (fun t : State => (t.gauge e).written) _ _ fun u k => ?_).trans
    ((State.each_keeps _ (fun t : State => (t.gauge e).written) _ _ fun u c => u.modPwm_written d c e _).trans
      (State.each_keeps _ (fun t : State => (t.gauge e).written) _ _ fun u o => u.modOutput_written d o e _))
  split
  · exact u.modLoad_written d k e _
  · rfl

/-- A tick activates every output of both Gauge dies that are provisioned. -/
theorem State.activateAll_output (s : State) {d o : Nat} (hd : d < 2) (ho : o < 20) (h : (s.gauge d).written = true) :
    (s.each [0, 1] State.activate).output d o = (s.output d o).activated := by
  have hd : d = 0 ∨ d = 1 := by omega
  rcases hd with rfl | rfl <;> simp [State.each, State.activate_output, State.activate_written, h, ho]

/-! ### What begins with SAMPLE and keeps to it -/

/-- The frame but for the resume that waits for its tick and the length and rate of the frame. -/
def Frame.shown (f : Frame) : Frame := { f with resumeNow := false, len := 0, slew := 0, rate := 0 }

/-- What the operations of a tick after the source's lock leave as it is. -/
def State.begun (s : State) : Frame × Tab Nat × Sec := (s.frame.shown, s.effT, s.sec)

theorem State.begun_of_same {s t : State} (hf : t.frame = s.frame) (he : t.effT = s.effT) (hs : t.sec = s.sec) :
    t.begun = s.begun := by simp [State.begun, hf, he, hs]

theorem RecordsOnly.begun {s t : State} (h : RecordsOnly s t) : t.begun = s.begun := by
  obtain ⟨⟨m, p, f, x, c, n, rfl⟩, -, -⟩ := h
  exact State.begun_of_same rfl rfl rfl

theorem NotifiesOnly.begun {s t : State} (h : NotifiesOnly s t) : t.begun = s.begun := by
  obtain ⟨c, n, e, o, rfl⟩ := h
  exact State.begun_of_same rfl rfl rfl

theorem State.actRwt_begun (s : State) (e : Rwt) : (s.actRwt e).begun = s.begun := by
  unfold State.actRwt
  dsimp only
  repeat' split
  all_goals rfl

theorem State.actRwts_begun (s : State) : s.actRwts.begun = s.begun :=
  fold_holds (fun t : State => t.begun = s.begun) _ _ _ rfl fun t e _ ht => (t.actRwt_begun e).trans ht

theorem State.frameLen_begun (s : State) : s.frameLen.begun = s.begun := rfl

theorem State.tickEmcy_begun (s : State) : s.tickEmcy.begun = s.begun := by
  unfold State.tickEmcy
  split
  · exact (s.errAll_notifiesOnly _ _ _).begun
  split
  · rfl
  · exact (s.errAll_notifiesOnly _ _ _).begun

theorem State.tenantsTick_begun (s : State) : s.tenantsTick.begun = s.begun :=
  State.each_keeps _ State.begun _ _ fun _ _ => rfl

theorem State.releaseFuncs_begun (s : State) : s.releaseFuncs.begun = s.begun := by
  refine State.each_keeps _ State.begun _ _ fun u p => State.each_keeps _ State.begun _ _ fun v f => ?_
  split <;> rfl

theorem State.eachFab_begun (s : State) (l : List Nat) (f : Fab → Fab) : (s.each l fun s m => s.modFab m f).begun = s.begun :=
  State.each_keeps _ State.begun _ _ fun _ _ => rfl

theorem State.mapsDue_begun (s : State) : s.mapsDue.begun = s.begun :=
  State.each_keeps _ State.begun _ _ fun _ _ => rfl

/-- A Gauge die latched: its own state and the sample records. -/
theorem State.latchGauge_form (s : State) (d : Nat) (x : GaugeIn) (bits : Nat) :
    ∃ g, DataOnly { s with gauges := g } (s.latchGauge d x bits) := by
  unfold State.latchGauge
  split
  · exact ⟨s.gauges, DataOnly.refl s⟩
  refine ⟨_, fold_holds (DataOnly _) _ _ _ (DataOnly.refl _) fun t k _ ht => ?_⟩
  split
  · exact ht
  · exact ht.trans (t.wr_dataOnly _ _)

theorem State.latchGauge_begun (s : State) (d : Nat) (x : GaugeIn) (bits : Nat) : (s.latchGauge d x bits).begun = s.begun := by
  obtain ⟨g, hg⟩ := s.latchGauge_form d x bits
  exact hg.records.begun

/-! ### The source's lock at a tick -/

theorem State.tickEvent_begun (s : State) : s.tickEvent.begun = s.begun := by
  obtain ⟨r, hr⟩ := s.tickEvent_form
  exact hr.begun

theorem Frame.lockStep_timing (f : Frame) (A : Nat) :
    (f.lockStep A).phase = f.phase ∧ (f.lockStep A).ticking = f.ticking ∧ (f.lockStep A).elapsed = f.elapsed := by
  unfold Frame.lockStep
  dsimp only
  repeat' split
  all_goals exact ⟨rfl, rfl, rfl⟩

/-- A frame whose source is locked, with no event to settle, stays as it is. -/
theorem Frame.lockStep_locked {f : Frame} (A : Nat) (hloss : f.lossDue = false) (hreturn : f.returnDue = false)
    (hlock : f.lock = .locked) : f.lockStep A = f := by
  simp [Frame.lockStep, hloss, hreturn, hlock]

/-- The frame with one more frame of holdover, or of the wait for a first lock, counted. -/
def State.waited (s : State) : Frame :=
  let counts := s.external && !s.frame.holding && !s.frame.tickState.isFallback
  { s.frame with holdUsed := if counts then s.frame.holdUsed + 1 else s.frame.holdUsed,
                 holdTotal := if counts then satInc 32 s.frame.holdTotal else s.frame.holdTotal,
                 refPhase := (s.frame.refPhase + 1) % s.refEvery }

/-- The frame as its source's lock stands once a tick has settled it. -/
def State.settled (s : State) (restart : Bool) : Frame :=
  let g := s.waited.lockStep s.lockWindow
  let resume := restart || s.frame.resumeNow
  { g with tickState := g.nextState (Fallback.ofCode (s.atReset 0x3000 8)) resume s.frame.returnDue,
           fallbackDue := false, resumeNow := false, resumeHold := false, holdUsed := if resume then 0 else g.holdUsed }

theorem State.lockTick_eq (s : State) (restart : Bool) : s.lockTick restart =
    if s.frame.lockEvent || (restart || s.frame.resumeNow) ||
        ((s.settled restart).tickState.isFallback && !s.frame.tickState.isFallback) then
      (s.modFrame fun _ => s.settled restart).tickEvent
    else s.modFrame fun _ => s.settled restart := rfl

theorem State.lockTick_begun (s : State) (restart : Bool) :
    (s.lockTick restart).begun = (s.modFrame fun _ => s.settled restart).begun := by
  rw [State.lockTick_eq]
  split
  · exact State.tickEvent_begun _
  · rfl

theorem State.settled_timing (s : State) (restart : Bool) :
    (s.settled restart).phase = s.frame.phase ∧ (s.settled restart).ticking = s.frame.ticking ∧
    (s.settled restart).elapsed = s.frame.elapsed := s.waited.lockStep_timing s.lockWindow

theorem State.settled_restart {s : State} (hfallback : s.frame.fallbackDue = false) (hloss : s.frame.lossDue = false)
    (hreturn : s.frame.returnDue = false) (hlock : s.frame.lock = .locked) : (s.settled true).tickState = .locked := by
  have hstep : s.waited.lockStep s.lockWindow = s.waited := Frame.lockStep_locked _ hloss hreturn hlock
  have hlocked : s.waited.lock = .locked := hlock
  have hdue : s.waited.fallbackDue = false := hfallback
  simp [State.settled, hstep, Frame.nextState, hdue, hlocked]

/-- The state in which a tick settles the source's lock. -/
def State.opened (s : State) : State := ({ s with effT := s.obj }.modFrame Frame.begin).actRwts

theorem State.opened_begun (s : State) : s.opened.begun = (s.frame.begin.shown, s.obj, s.sec) :=
  State.actRwts_begun _

theorem State.beginFrame_opened (s : State) (x0 x1 : GaugeIn) (bits : Nat) (restart : Bool) :
    (s.beginFrame x0 x1 bits restart).begun = (s.opened.lockTick restart).begun := by
  unfold State.beginFrame
  dsimp only
  rw [State.latchGauge_begun, State.latchGauge_begun, State.mapsDue_begun, State.eachFab_begun, State.releaseFuncs_begun,
    State.tenantsTick_begun]
  exact ((State.frameLen _).tickEmcy_begun).trans (State.frameLen_begun _)

/-- SAMPLE begins where the state stands, with the objects of the tick; a restart shows the lock of a source held. -/
theorem State.beginFrame_begins (s : State) (x0 x1 : GaugeIn) (bits : Nat) (restart : Bool) :
    (s.beginFrame x0 x1 bits restart).frame.phase = .sample ∧ (s.beginFrame x0 x1 bits restart).frame.ticking = true ∧
    (s.beginFrame x0 x1 bits restart).frame.elapsed = s.frame.elapsed ∧ (s.beginFrame x0 x1 bits restart).effT = s.obj ∧
    (s.beginFrame x0 x1 bits restart).sec = s.sec ∧
    (s.beginFrame x0 x1 bits restart).frame.tickState = (s.opened.settled restart).tickState := by
  have ht := (s.beginFrame_opened x0 x1 bits restart).trans (s.opened.lockTick_begun restart)
  have ho := s.opened_begun
  obtain ⟨hphase, hticking, helapsed⟩ := s.opened.settled_timing restart
  generalize s.opened.settled restart = g at *
  generalize s.beginFrame x0 x1 bits restart = t at *
  generalize s.opened = u at *
  simp only [State.begun, Frame.shown, Frame.begin, Prod.mk.injEq, Frame.mk.injEq, State.modFrame] at ht ho
  simp_all

/-! ### The ticks -/

/-- The objects, the Gauge dies and the time as a tick finds and leaves them, where no urgent reset ends the frame. -/
theorem State.over_form (s : State) (hurgent : s.power.warmDue = none) :
    ∃ u : State, s.frameOver = u.each [0, 1] State.activate ∧ u.gauges = s.gauges ∧ u.obj = s.obj ∧ u.frame.elapsed = 0 := by
  obtain ⟨c, n, e, m, hn⟩ := s.flushNotify_notifiesOnly
  have hurgent : s.urgentEnd = s := by simp [State.urgentEnd, hurgent]
  refine ⟨_, rfl, ?_, ?_, rfl⟩ <;> rw [hurgent, hn] <;> rfl

theorem State.frameOver_begins (s : State) (hurgent : s.power.warmDue = none) :
    s.frameOver.obj = s.obj ∧ s.frameOver.frame.elapsed = 0 := by
  obtain ⟨u, hover, -, hobj, helapsed⟩ := s.over_form hurgent
  obtain ⟨g, hg⟩ := u.activateAll_onlyGauges
  rw [hover, hg]
  exact ⟨hobj, helapsed⟩

theorem State.frameOver_output (s : State) (hurgent : s.power.warmDue = none) {d o : Nat} (hd : d < 2) (ho : o < 20)
    (hwritten : (s.gauge d).written = true) : s.frameOver.output d o = (s.output d o).activated := by
  obtain ⟨u, hover, hgauges, -, -⟩ := s.over_form hurgent
  have hgauge : u.gauge d = s.gauge d := by rw [State.gauge, hgauges, State.gauge]
  rw [hover, u.activateAll_output hd ho (hgauge ▸ hwritten), State.output, hgauge, State.output]

theorem State.warmDue_of_runs {s : State} (hruns : s.frameEnd = .runs) : s.power.warmDue = none := by
  rw [State.frameEnd] at hruns
  split at hruns <;> simp_all

theorem tickActivatesPending : Claims.TickActivates := by
  intro s x0 x1 hphase hsealed hruns
  have hurgent := State.warmDue_of_runs hruns
  have htick : tickEffect s x0 x1 = _ := (tickEffect_eq s x0 x1).trans (if_pos hruns)
  obtain ⟨hobj, helapsed⟩ := s.frameOver_begins hurgent
  obtain ⟨hsample, hticking, hbegun, heff, -, -⟩ := s.frameOver.beginFrame_begins x0 x1 (s.frame.len / 5) false
  refine answers_due rfl (by simp [hphase, hsealed]) ?_
  refine ⟨htick ▸ hsample, htick ▸ hticking, htick ▸ hbegun.trans helapsed, tickEffect_counter s x0 x1,
    htick ▸ heff.trans hobj, fun d o hd ho hwritten => ?_⟩
  obtain ⟨-, -, -, hactive⟩ := State.steady_eq_iff.1 (s.frameOver.beginFrame_steady x0 x1 (s.frame.len / 5) false)
  specialize hactive d o
  rwa [s.frameOver_output hurgent hd ho hwritten, ← htick] at hactive

/-- The state in which the first tick activates: frame 0 begins. -/
def State.frameZero (s : State) : State :=
  let st : TickState := if s.atReset 0x3000 2 = 0 then .locked else .acquiring
  ({ s with effT := s.obj }.modFrame fun f =>
    { f with tickState := st, lock := st, ticking := true, counter := 0, phase := .sample, elapsed := 0, len := s.P,
             holdUsed := 0 }).modBoot fun b => { b with ticked := true }

theorem firstTick_eq (s : State) (x0 x1 : GaugeIn) : firstTick s x0 x1 =
    ((s.frameZero.each [0, 1] State.activate).latchGauge 0 x0 (s.P / 5)).latchGauge 1 x1 (s.P / 5) := rfl

/-- Latching a Gauge die leaves the state's own contexts and messages. -/
theorem State.latchGauge_keeps (s : State) (d : Nat) (x : GaugeIn) (bits : Nat) :
    (s.latchGauge d x bits).frame = s.frame ∧ (s.latchGauge d x bits).boot = s.boot ∧
    (s.latchGauge d x bits).effT = s.effT ∧ (s.latchGauge d x bits).ctxs = s.ctxs ∧
    (s.latchGauge d x bits).out = s.out := by
  obtain ⟨g, ⟨m, p, f, h, hform⟩, -, -⟩ := s.latchGauge_form d x bits
  rw [hform]
  exact ⟨rfl, rfl, rfl, rfl, rfl⟩

/-- Maps that are due touch the network's own state. -/
theorem State.mapsDue_form (s : State) : ∃ n, s.mapsDue = { s with net := n } := by
  refine fold_holds (fun t : State => ∃ n, t = { s with net := n }) _ _ s ⟨s.net, rfl⟩ ?_
  rintro t k - ⟨n, rfl⟩
  exact ⟨_, rfl⟩

theorem firstTick_keeps (s : State) (x0 x1 : GaugeIn) :
    (firstTick s x0 x1).mapsDue.frame = s.frameZero.frame ∧ (firstTick s x0 x1).mapsDue.boot = s.frameZero.boot ∧
    (firstTick s x0 x1).mapsDue.effT = s.obj ∧ (firstTick s x0 x1).mapsDue.ctxs = s.ctxs ∧
    (firstTick s x0 x1).mapsDue.out = s.out := by
  obtain ⟨g, hg⟩ := s.frameZero.activateAll_onlyGauges
  obtain ⟨n, hn⟩ := (firstTick s x0 x1).mapsDue_form
  rw [hn, firstTick_eq, hg]
  simp only [State.latchGauge_keeps, true_and]
  exact ⟨rfl, rfl, rfl⟩

theorem firstTick_output (s : State) (x0 x1 : GaugeIn) {d o : Nat} (hd : d < 2) (ho : o < 20)
    (hwritten : (s.gauge d).written = true) :
    ((firstTick s x0 x1).mapsDue.output d o).act = (s.output d o).pend ∧
    ((firstTick s x0 x1).mapsDue.output d o).actSafe = (s.output d o).pendSafe := by
  have hlatched : (firstTick s x0 x1).mapsDue.steady = (s.frameZero.each [0, 1] State.activate).steady :=
    (State.mapsDue_steady _).trans ((State.latchGauge_steady _ _ _ _).trans (State.latchGauge_steady _ _ _ _))
  obtain ⟨-, -, -, hactive⟩ := State.steady_eq_iff.1 hlatched
  rw [(hactive d o).1, (hactive d o).2, s.frameZero.activateAll_output hd ho hwritten]
  exact ⟨rfl, rfl⟩

theorem firstTickBegins : Claims.FirstTickBegins := by
  intro s x0 x1 hup hticked hticking hpower
  obtain ⟨hframe, hboot, heff, hctxs, hout⟩ := firstTick_keeps s x0 x1
  refine answers_due rfl (by simp [hup, hticked, hticking, hpower]) ?_
  rw [hframe, hboot]
  exact ⟨rfl, rfl, rfl, rfl, rfl, rfl, rfl, heff, hctxs, hout, fun d o hd ho => firstTick_output s x0 x1 hd ho⟩

/-- Settles O8: a tick activates what is pending and begins SAMPLE; the first one begins frame 0. -/
theorem tickActivates : Obligations.TickActivates := ⟨tickActivatesPending, firstTickBegins⟩

end Sys2Proof.Machine
end

section
/-!
ReferenceEventsJudged (R35 to R42): one event as the frame judges it, the events of a source, and the end of HOLD.
-/

namespace Sys2Proof.Machine

open Sys2Proof

/-! ### One event, as the frame judges it -/

theorem clampS_32_of_range {e : Int} (hhigh : e < 2 ^ 31) (hlow : -(2 ^ 31) ≤ e) : clampS 32 e = e := by
  unfold clampS
  omega

theorem agreeTail_length_le (A : Nat) (l : List Int) : (agreeTail A l).length ≤ l.length := by
  induction l with
  | nil => exact le_rfl
  | cons e rest ih =>
    rw [agreeTail]
    split
    · exact le_rfl
    · exact ih.trans (Nat.le_succ _)

theorem agreeTail_of_agreeing {A : Nat} {l : List Int} (h : agreeing A l = true) : agreeTail A l = l := by
  cases l with
  | nil => rfl
  | cons e rest => exact if_pos h

section
variable {f : Frame} {A : Nat} {err : Int}

theorem Frame.bad_keeps (f : Frame) :
    f.bad.lastErr = f.lastErr ∧ f.bad.lock = f.lock ∧ f.bad.tickState = f.tickState ∧ f.bad.ticking = f.ticking := by
  unfold Frame.bad
  dsimp only
  repeat' split
  all_goals exact ⟨rfl, rfl, rfl, rfl⟩

theorem Frame.acquire_keeps (f : Frame) (A : Nat) (err : Int) :
    (f.acquire A err).lastErr = f.lastErr ∧ (f.acquire A err).lock = f.lock ∧
    (f.acquire A err).tickState = f.tickState ∧ (f.acquire A err).ticking = f.ticking := by
  unfold Frame.acquire
  dsimp only
  split <;> exact ⟨rfl, rfl, rfl, rfl⟩

/-- An event is noted, and decides nothing of lock and tick state before the tick. -/
theorem Frame.observe_keeps (f : Frame) (A : Nat) (err : Int) (unsync : Bool) :
    (f.observe A err unsync).lastErr = clampS 32 err ∧ (f.observe A err unsync).lock = f.lock ∧
    (f.observe A err unsync).tickState = f.tickState ∧ (f.observe A err unsync).ticking = f.ticking := by
  unfold Frame.observe
  dsimp only
  repeat' split
  · exact Frame.bad_keeps _
  · exact ⟨rfl, rfl, rfl, rfl⟩
  · exact Frame.bad_keeps _
  · exact ⟨rfl, rfl, rfl, rfl⟩
  · exact Frame.bad_keeps _
  · exact Frame.acquire_keeps _ _ _
  · exact Frame.acquire_keeps _ _ _

/-- While the source is not being slewed to, an event is bad unsynchronised or beyond the lock window. -/
theorem Frame.isBad_of_not_slewing (h : f.lock ≠ .slewing) (unsync : Bool) :
    f.isBad A err unsync = (unsync || decide (10 * A < err.natAbs)) := by simp [Frame.isBad, h]

theorem Frame.not_slewing_of_not_holding (h : f.holding = false) : f.lock ≠ .slewing := by
  intro hlock
  simp [Frame.holding, hlock] at h

theorem Frame.holding_of_locked (h : f.lock = .locked) : f.holding = true := decide_eq_true (.inl h)

variable (hloss : f.lossDue = false) (hreturn : f.returnDue = false)
include hloss hreturn

/-- The third bad event in a row loses a source held. -/
theorem Frame.bad_held (hheld : f.holding = true) :
    f.bad.badEvents = satInc 32 f.badEvents ∧ f.bad.badRun = f.badRun + 1 ∧
    f.bad.lossDue = decide (f.badRun = 2) ∧ f.bad.slew = f.slew ∧
    f.bad.losses = (if f.badRun = 2 then satInc 16 f.losses else f.losses) := by
  have hlock : f.lock = .locked ∨ f.lock = .slewing := of_decide_eq_true hheld
  simp [Frame.bad, hloss, hreturn, Frame.holding, hlock]

/-- Without a source held, a bad event clears the run of events that agree. -/
theorem Frame.bad_free (hfree : f.holding = false) :
    f.bad.badEvents = satInc 32 f.badEvents ∧ f.bad.agree = [] ∧ f.bad.returnDue = false ∧ f.bad.lossDue = false := by
  have hlock : ¬ (f.lock = .locked ∨ f.lock = .slewing) := of_decide_eq_false hfree
  simp [Frame.bad, hloss, hreturn, Frame.holding, hlock]

theorem Frame.observe_held (hheld : f.holding = true) (unsync : Bool) :
    f.observe A err unsync = if f.isBad A err unsync then Frame.bad { f with lastErr := clampS 32 err }
      else { f with lastErr := clampS 32 err, badRun := 0, slew := err } := by
  have hlock : f.lock = .locked ∨ f.lock = .slewing := of_decide_eq_true hheld
  simp [Frame.observe, hloss, hreturn, Frame.holding, hlock]

theorem Frame.observe_free (hfree : f.holding = false) (unsync : Bool) :
    f.observe A err unsync = if unsync then Frame.bad { f with lastErr := clampS 32 err }
      else { Frame.acquire { f with lastErr := clampS 32 err } A err with
        badEvents := if f.isBad A err unsync then satInc 32 f.badEvents else f.badEvents } := by
  have hlock : ¬ (f.lock = .locked ∨ f.lock = .slewing) := of_decide_eq_false hfree
  simp [Frame.observe, hloss, hreturn, Frame.holding, hlock]

end

/-- Seven events that agree are followed by one more that does: the eighth takes its phase. -/
theorem Frame.acquire_eighth {f : Frame} {A : Nat} {err : Int} (hseven : f.agree.length = 7)
    (hagree : agreeing A (f.agree ++ [err]) = true) :
    (f.acquire A err).returnDue = true ∧ (f.acquire A err).slew = err := by
  simp [Frame.acquire, agreeTail_of_agreeing hagree, hseven]

theorem Frame.acquire_fewer {f : Frame} {A : Nat} {err : Int} (hreturn : f.returnDue = false) (hfewer : f.agree.length < 7) :
    (f.acquire A err).returnDue = false := by
  have hlen := agreeTail_length_le A (f.agree ++ [err])
  rw [List.length_append, List.length_singleton] at hlen
  have hlt : ¬ 8 ≤ (agreeTail A (f.agree ++ [err])).length := by omega
  simp [Frame.acquire, hlt, hreturn]

/-! ### The events -/

theorem State.walkGrid_ticking {s : State} (h : s.frame.ticking = true) : s.walkGrid = s := if_pos h
theorem State.settleHeld_ticking {s : State} (h : s.frame.ticking = true) : s.settleHeld = s := if_pos h

theorem State.refEvent_frame (s : State) (time : Nat) (noSync : Bool) :
    ∃ r, (s.refEvent time noSync).frame =
      { s.frame.observe s.lockWindow (s.refTick time).2 (noSync || s.gptpBad) with refPhase := r } := by
  unfold State.refEvent State.modFrame
  dsimp only
  split
  · exact ⟨_, rfl⟩
  · exact ⟨_, rfl⟩

theorem missingEventIsBad : Claims.MissingEventIsBad := by
  intro s htracks hticking hloss hreturn
  obtain ⟨herr, -, -, hkeeps⟩ := s.frame.bad_keeps
  have hsettled : (s.walkGrid.modFrame Frame.bad).settleHeld = s.modFrame Frame.bad := by
    rw [State.walkGrid_ticking hticking, State.settleHeld_ticking (hkeeps.trans hticking)]
  refine answers_due (t := s.modFrame Frame.bad) (congrArg (due s s.tracks) hsettled) htracks ⟨⟨_, rfl⟩, herr, ?_⟩
  cases hheld : s.frame.holding with
  | true =>
    obtain ⟨hbad, hrun, hlost, -, -⟩ := Frame.bad_held hloss hreturn hheld
    exact ⟨hbad, fun _ => ⟨hrun, hlost⟩, nofun⟩
  | false =>
    obtain ⟨hbad, hagree, -, hlost⟩ := Frame.bad_free hloss hreturn hheld
    exact ⟨hbad, nofun, fun _ => ⟨hagree, hlost⟩⟩

theorem referenceJudged : Claims.ReferenceJudged := by
  intro s time noSync htracks hticking hloss hreturn err unsync hhigh hlow
  obtain ⟨r, hframe⟩ : ∃ r, (s.refEvent time noSync).frame =
      { s.frame.observe s.lockWindow err unsync with refPhase := r } := s.refEvent_frame time noSync
  clear_value err unsync
  obtain ⟨herr, hlock, hstate, hkeeps⟩ := s.frame.observe_keeps s.lockWindow err unsync
  have hsettled : (s.walkGrid.refEvent time noSync).settleHeld = s.refEvent time noSync := by
    rw [State.walkGrid_ticking hticking, State.settleHeld_ticking]
    rw [hframe]
    exact hkeeps.trans hticking
  refine answers_due (t := s.refEvent time noSync) (congrArg (due s s.tracks) hsettled) htracks ?_
  rw [hframe]
  refine ⟨⟨_, rfl⟩, herr.trans (clampS_32_of_range hhigh hlow), hlock, hstate,
    fun hlocked hsync hnear => ?_, fun hlocked hbad => ?_, fun hfree hunsync => ?_,
    fun hfree hsync hseven hagree => ?_, fun hfree hfewer => ?_, fun hfree hsync => ?_⟩
  case refine_1 =>
    have hgood : s.frame.isBad s.lockWindow err unsync = false := by
      rw [Frame.isBad_of_not_slewing (by simp [hlocked]), hsync]
      simpa using hnear
    rw [Frame.observe_held hloss hreturn (Frame.holding_of_locked hlocked), hgood]
    exact ⟨rfl, rfl, rfl, hloss⟩
  case refine_2 =>
    have hbad : s.frame.isBad s.lockWindow err unsync = true := by
      rw [Frame.isBad_of_not_slewing (by simp [hlocked])]
      simpa using hbad
    have hheld := Frame.holding_of_locked hlocked
    rw [Frame.observe_held hloss hreturn hheld, if_pos hbad]
    exact Frame.bad_held (f := { s.frame with lastErr := clampS 32 err }) hloss hreturn hheld
  case refine_3 =>
    rw [Frame.observe_free hloss hreturn hfree, if_pos hunsync]
    obtain ⟨hbad, hagree, hdue, -⟩ := Frame.bad_free (f := { s.frame with lastErr := clampS 32 err }) hloss hreturn hfree
    exact ⟨hbad, hagree, hdue⟩
  case refine_4 =>
    rw [Frame.observe_free hloss hreturn hfree, hsync]
    exact Frame.acquire_eighth (f := { s.frame with lastErr := clampS 32 err }) hseven hagree
  case refine_5 =>
    rw [Frame.observe_free hloss hreturn hfree]
    split
    · obtain ⟨-, -, hdue, -⟩ := Frame.bad_free (f := { s.frame with lastErr := clampS 32 err }) hloss hreturn hfree
      exact hdue
    · exact Frame.acquire_fewer (f := { s.frame with lastErr := clampS 32 err }) hreturn hfewer
  case refine_6 =>
    rw [Frame.observe_free hloss hreturn hfree, hsync,
      Frame.isBad_of_not_slewing (Frame.not_slewing_of_not_holding hfree)]
    simp

/-! ### HOLD ends -/

theorem State.opened_restart (s : State) (hfallback : s.frame.fallbackDue = false) (hloss : s.frame.lossDue = false)
    (hreturn : s.frame.returnDue = false) (hlock : s.frame.lock = .locked) : (s.opened.settled true).tickState = .locked := by
  have ho := congrArg Prod.fst s.opened_begun
  have hfield {α : Type} (p : Frame → α) (hp : ∀ f : Frame, p f.shown = p f) (hb : ∀ f : Frame, p f.begin = p f) :
      p s.opened.frame = p s.frame := by
    rw [← hp s.opened.frame, ← hb s.frame, ← hp s.frame.begin]
    exact congrArg p ho
  refine State.settled_restart ?_ ?_ ?_ ?_
  · rw [hfield (·.fallbackDue) (fun _ => rfl) fun _ => rfl, hfallback]
  · rw [hfield (·.lossDue) (fun _ => rfl) fun _ => rfl, hloss]
  · rw [hfield (·.returnDue) (fun _ => rfl) fun _ => rfl, hreturn]
  · rw [hfield (·.lock) (fun _ => rfl) fun _ => rfl, hlock]

theorem State.holdOver_frame (s : State) : s.holdOver.frame = { s.frame with elapsed := 0, counter := s.frame.counter + 1 } :=
  State.activateAll_frame _

theorem State.holdOver_power (s : State) : s.holdOver.sec.power = .run := by
  obtain ⟨g, hg⟩ := State.activateAll_onlyGauges ((s.modSec fun x => { x with power := .run, powerReq := none }).modFrame fun f =>
    { f with elapsed := 0, counter := f.counter + 1 })
  rw [State.holdOver, hg]
  rfl

theorem holdoverAndResume : Claims.HoldoverAndResume := by
  intro s
  refine ⟨fun hready => ?_, fun hready x0 x1 => ?_⟩
  · exact answers_due rfl hready ⟨⟨_, rfl⟩, rfl, rfl, rfl⟩
  · have hrestart := holdRestart_eq s x0 x1
    obtain ⟨hphase, hticking, -, -, hsec, hstate⟩ :=
      s.holdOver.beginFrame_begins x0 x1 (s.P / 5) (decide (s.frame.tickState = .fallbackHold))
    rw [← hrestart] at hphase hticking hsec hstate
    refine answers_due rfl hready ⟨hphase, hticking, holdRestart_counter s x0 x1,
      (congrArg Sec.power hsec).trans s.holdOver_power, ?_⟩
    intro hhold hfallback hloss hreturn hlock
    rw [hstate, hhold]
    refine State.opened_restart _ ?_ ?_ ?_ ?_ <;> rw [s.holdOver_frame] <;> assumption

/-- Settles O9: events while a source is held and while none is, an event that is missing, and the ends of holdover and HOLD. -/
theorem referenceEventsJudged : Obligations.ReferenceEventsJudged :=
  ⟨referenceJudged, missingEventIsBad, holdoverAndResume⟩

end Sys2Proof.Machine
end

section
/-!
SafeWinsAtPreparation (R54, R59, R294, R295, R298): one output's pending value, the staging blocks, one Gauge die and both.
-/

namespace Sys2Proof.Machine

open Sys2Proof

/-! ### One output's pending value -/

/-- The pending value and its SAFE mark at output preparation (R59, R295). -/
def State.pendingValue (s : State) (d o : Nat) (bad : Bool) (x : Output) : Output :=
  let p := s.valueFrom d o
  let poison := match s.stagedFor d p with | some e => e.poison | none => false
  if s.forcedSafe d p then x.safe (s.safeValue d p)
  else if (s.ten (s.outputTenant d p)).overran || bad || poison then
    (if s.actionSafe d p then x.safe (s.safeValue d p) else x.keep)
  else match s.stagedFor d p with
    | some y => { x with pend := y.v, pendSafe := false }
    | none => x.keep

theorem State.prepareOutput_eq (s : State) (d o : Nat) (bad : Bool) :
    s.prepareOutput d o bad = s.modOutput d o (s.pendingValue d o bad) := rfl

section
variable {s t : State} {d o : Nat}

theorem State.rd_of_same (hmem : t.mem = s.mem) (hctxs : t.ctxs = s.ctxs) (a : Nat) : t.rd a = s.rd a := by
  rw [State.rd, State.ctx, hmem, hctxs, State.rd, State.ctx]

theorem State.linkDown_of_links (hlinks : t.links = s.links) (l : Nat) : t.linkDown l = s.linkDown l := by
  rw [State.linkDown, State.link, hlinks, State.linkDown, State.link]

theorem State.stagedFor_of_same (hframe : t.frame = s.frame) (hlinks : t.links = s.links)
    (hrd : ∀ k, k < 2 → ∀ i, i < 16 → t.rd (stagingAddr k d + 16 * o + i) = s.rd (stagingAddr k d + 16 * o + i)) :
    t.stagedFor d o = s.stagedFor d o := by
  have hstaged : ∀ k, k < 2 → t.stagedAt k d o = s.stagedAt k d o := by
    intro k hk
    have hbytes : t.rdN (stagingAddr k d + 16 * o) 16 = s.rdN (stagingAddr k d + 16 * o) 16 :=
      List.map_congr_left fun i hi => hrd k hk i (List.mem_range.1 hi)
    rw [State.stagedAt, State.stagedAt, hbytes]
  have hdown : ∀ k, t.ioDown d k = s.ioDown d k := by
    intro k
    rw [State.ioDown, State.ioDown, State.linkDown_of_links hlinks, State.linkDown_of_links hlinks]
  rw [State.stagedFor, State.stagedFor, hstaged 0 (by omega), hstaged 1 (by omega), hdown, hdown, hframe]

theorem State.pendingValue_of_same (hframe : t.frame = s.frame) (hlinks : t.links = s.links) (hboot : t.boot = s.boot)
    (heff : t.eff = s.eff) (heffT : t.effT = s.effT) (htenants : t.tenants = s.tenants)
    (hstaged : t.stagedFor d (s.valueFrom d o) = s.stagedFor d (s.valueFrom d o)) (bad : Bool) :
    t.pendingValue d o bad = s.pendingValue d o bad := by
  have hreset : ∀ i sub, t.atReset i sub = s.atReset i sub := by simp [State.atReset, heff]
  have htick : ∀ i sub, t.atTick i sub = s.atTick i sub := by simp [State.atTick, heffT]
  have hfrom : t.valueFrom d o = s.valueFrom d o := by simp [State.valueFrom, State.pairMode, hreset]
  have htenant : ∀ p, t.outputTenant d p = s.outputTenant d p := by simp [State.outputTenant, hreset]
  have hten : ∀ k, t.ten k = s.ten k := by simp [State.ten, htenants]
  have hforced : ∀ p, t.forcedSafe d p = s.forcedSafe d p := by
    simp [State.forcedSafe, htenant, hten, hframe, hboot, State.linkDown_of_links hlinks]
  have hsafe : ∀ p, t.safeValue d p = s.safeValue d p := by simp [State.safeValue, htick]
  have haction : ∀ p, t.actionSafe d p = s.actionSafe d p := by simp [State.actionSafe, htick]
  funext x
  simp only [State.pendingValue, hfrom, hforced, hsafe, haction, hten, htenant, hstaged]

end

/-- No output's value depends on what the Gauge dies hold. -/
theorem OnlyGauges.pendingValue {s t : State} (h : OnlyGauges s t) (d o : Nat) (bad : Bool) :
    t.pendingValue d o bad = s.pendingValue d o bad := by
  obtain ⟨g, rfl⟩ := h
  have hrd := State.rd_of_same (s := s) (t := { s with gauges := g }) rfl rfl
  have hstaged := State.stagedFor_of_same (s := s) (t := { s with gauges := g }) (d := d) (o := s.valueFrom d o) rfl rfl
    fun _ _ _ _ => hrd _
  exact State.pendingValue_of_same rfl rfl rfl rfl rfl rfl hstaged bad

theorem State.each_prepareOutput (s : State) (d : Nat) (bad : Bool) (l : List Nat) :
    (s.each l fun s o => s.prepareOutput d o bad) = s.each l fun t o => t.modOutput d o (s.pendingValue d o bad) := by
  have hgauges : ∀ (l : List Nat) (t : State), OnlyGauges s t →
      (t.each l fun s o => s.prepareOutput d o bad) = t.each l fun t o => t.modOutput d o (s.pendingValue d o bad) := by
    intro l
    induction l with
    | nil => simp [State.each]
    | cons o l ih =>
      intro t ht
      have hstep : t.prepareOutput d o bad = t.modOutput d o (s.pendingValue d o bad) := by
        rw [State.prepareOutput_eq, ht.pendingValue]
      simp only [State.each, List.foldl_cons, hstep]
      exact ih _ (ht.trans (t.modGauge_onlyGauges d _))
  exact hgauges l s (OnlyGauges.refl s)

/-! ### The staging blocks -/

/-- At most the Gauge dies, the messages sent and bytes of the staging blocks of one Gauge die differ. -/
def Prepares (d : Nat) (s t : State) : Prop :=
  (∃ m g o, t = { s with mem := m, gauges := g, out := o }) ∧
  ∀ a, (∀ k, k < 2 → a < stagingAddr k d ∨ stagingAddr k d + 320 ≤ a) → t.rd a = s.rd a

theorem Prepares.refl (d : Nat) (s : State) : Prepares d s s := ⟨⟨s.mem, s.gauges, s.out, rfl⟩, fun _ _ => rfl⟩

theorem Prepares.trans {d : Nat} {s t u : State} (h : Prepares d s t) (h' : Prepares d t u) : Prepares d s u := by
  obtain ⟨⟨m, g, o, rfl⟩, hrd⟩ := h
  obtain ⟨⟨m', g', o', rfl⟩, hrd'⟩ := h'
  exact ⟨⟨m', g', o', rfl⟩, fun a ha => (hrd' a ha).trans (hrd a ha)⟩

theorem OnlyGauges.prepares {s t : State} (d : Nat) (h : OnlyGauges s t) : Prepares d s t := by
  obtain ⟨g, rfl⟩ := h
  exact ⟨⟨s.mem, g, s.out, rfl⟩, fun _ _ => rfl⟩

/-- At most bytes of the staging blocks of one Gauge die differ. -/
def Clears (d : Nat) (s t : State) : Prop :=
  (∃ m, t = { s with mem := m }) ∧
  ∀ a, (∀ k, k < 2 → a < stagingAddr k d ∨ stagingAddr k d + 320 ≤ a) → t.rd a = s.rd a

theorem Clears.refl (d : Nat) (s : State) : Clears d s s := ⟨⟨s.mem, rfl⟩, fun _ _ => rfl⟩
theorem Clears.trans {d : Nat} {s t u : State} (h : Clears d s t) (h' : Clears d t u) : Clears d s u := by
  obtain ⟨⟨m, rfl⟩, hrd⟩ := h
  obtain ⟨⟨m', rfl⟩, hrd'⟩ := h'
  exact ⟨⟨m', rfl⟩, fun a ha => (hrd' a ha).trans (hrd a ha)⟩
theorem Clears.prepares {d : Nat} {s t : State} (h : Clears d s t) : Prepares d s t := by
  obtain ⟨⟨m, rfl⟩, hrd⟩ := h
  exact ⟨⟨m, s.gauges, s.out, rfl⟩, hrd⟩
theorem Clears.gauges {d : Nat} {s t : State} (h : Clears d s t) : t.gauges = s.gauges := by
  obtain ⟨⟨m, rfl⟩, -⟩ := h
  rfl

/-- One byte of a staging block written: no unit is wholly inside it. -/
theorem State.wr_staging (s : State) (k d i : Nat) (hi : i < 320) (hk : k < 2) (hd : d < 2) (b : Byte) :
    Clears d s (s.wr (stagingAddr k d + i) [b]) := by
  have hregion : ∃ j off, s.region (stagingAddr k d + i) = .stock j off := by
    unfold State.region stagingAddr stockBase lpWindow
    rw [if_neg (by omega), if_neg (by omega), if_pos (by omega)]
    exact ⟨_, _, rfl⟩
  obtain ⟨j, off, hregion⟩ := hregion
  have hpoison : unpoison s.poison (stagingAddr k d + i) 1 = s.poison := by
    refine List.filter_eq_self.2 fun p _ => ?_
    have hunit : 8 ≤ eccUnit p := by unfold eccUnit; split <;> omega
    simp
    omega
  refine ⟨⟨tsetRun 0 s.mem (stagingAddr k d + i) [b], ?_⟩, fun a ha => ?_⟩
  · rw [State.wr, State.wrPar, hregion, List.length_singleton, hpoison]
  · refine State.rd_wr_outside s ?_
    have := ha k hk
    rw [List.length_singleton]
    omega

theorem State.clearStaging_clears (s : State) {k d : Nat} (hk : k < 2) (hd : d < 2) : Clears d s (s.clearStaging d k) := by
  refine fold_holds (Clears d s) _ _ _ (Clears.refl d s) fun t o ho ht => ?_
  have ho : o < 20 := List.mem_range.1 ho
  dsimp only
  split
  · exact ht.trans (t.wr_staging k d (16 * o + 9) (by omega) hk hd _)
  · exact ht

theorem State.reportBlock_prepares (s : State) (d k : Nat) : Prepares d s (s.reportBlock d k) := by
  unfold State.reportBlock
  dsimp only
  split <;> exact ⟨⟨s.mem, _, _, rfl⟩, fun _ _ => rfl⟩

/-! ### One Gauge die -/

/-- Is what a Gauge die reads of its staging blocks unusable? With its own link down it reads none. -/
def State.stagingBad (s : State) (d : Nat) : Bool := !s.linkDown (22 + d) && (s.blockBad d 0 || s.blockBad d 1)

theorem State.reportBlock_gauges (s : State) (d k : Nat) :
    (s.reportBlock d k).gauges = (s.modGauge d fun g => { g with unreadable := satInc 32 g.unreadable }).gauges := by
  have hsup : ∀ (u : State) r, (u.postSup r).gauges = u.gauges := fun _ _ => rfl
  unfold State.reportBlock
  dsimp only
  split <;> rw [hsup]

theorem State.reportBlock_shows (s : State) (d k e o : Nat) :
    (s.reportBlock d k).output e o = s.output e o ∧ ((s.reportBlock d k).gauge e).written = (s.gauge e).written := by
  have hgauge := congrArg (fun g => tget ({} : Gauge) g e) (s.reportBlock_gauges d k)
  have hmod := s.gauge_modGauge d e fun g => { g with unreadable := satInc 32 g.unreadable }
  rw [State.output, State.output, State.gauge, hgauge.trans hmod]
  split
  next he => rw [he]; exact ⟨rfl, rfl⟩
  next => exact ⟨rfl, rfl⟩

/-- Once its outputs are prepared, a Gauge die's blocks are cleared or reported. -/
def State.closeBlock (s : State) (d k : Nat) : State := if s.blockBad d k then s.reportBlock d k else s.clearStaging d k

theorem State.closeBlock_prepares (s : State) {d k : Nat} (hk : k < 2) (hd : d < 2) :
    Prepares d s (s.closeBlock d k) := by
  unfold State.closeBlock
  split
  · exact s.reportBlock_prepares d k
  · exact (s.clearStaging_clears hk hd).prepares

theorem State.closeBlock_shows (s : State) {d k : Nat} (hk : k < 2) (hd : d < 2) (e o : Nat) :
    (s.closeBlock d k).output e o = s.output e o ∧ ((s.closeBlock d k).gauge e).written = (s.gauge e).written := by
  unfold State.closeBlock
  split
  · exact s.reportBlock_shows d k e o
  · simp [State.output, State.gauge, (s.clearStaging_clears hk hd).gauges]

theorem State.prepareGauge_written (s : State) {d : Nat} (hwritten : (s.gauge d).written = true) :
    s.prepareGauge d =
      let u := s.each (List.range 20) fun t o => t.modOutput d o (s.pendingValue d o (s.stagingBad d))
      if s.linkDown (22 + d) = true then u else u.each [0, 1] fun v k => v.closeBlock d k := by
  have hthere : ¬ (!(s.gauge d).written) = true := by simp [hwritten]
  rw [State.prepareGauge, if_neg hthere]
  cases hlink : s.linkDown (22 + d) with
  | true => 
    rw [if_pos rfl, s.each_prepareOutput]
    simp [State.stagingBad, hlink]
  | false =>
    rw [if_neg (by decide)]
    have hbad : s.stagingBad d = (s.blockBad d 0 || s.blockBad d 1) := by simp [State.stagingBad, hlink]
    rw [hbad, ← s.each_prepareOutput]
    rfl

/-- What the preparation of one Gauge die does: the pending value of each of its outputs, and no more than it may. -/
theorem State.prepareGauge_does (s : State) {d : Nat} (hd : d < 2) (hwritten : (s.gauge d).written = true) :
    Prepares d s (s.prepareGauge d) ∧ ∀ e o,
      (s.prepareGauge d).output e o = (if e = d ∧ o < 20 then s.pendingValue d o (s.stagingBad d) (s.output d o) else s.output e o) ∧
      ((s.prepareGauge d).gauge e).written = (s.gauge e).written := by
  have hprepared : OnlyGauges s (s.each (List.range 20) fun t o => t.modOutput d o (s.pendingValue d o (s.stagingBad d))) :=
    s.each_onlyGauges _ _ fun t o => t.modGauge_onlyGauges d _
  have hshown : ∀ e o,
      (s.each (List.range 20) fun t o => t.modOutput d o (s.pendingValue d o (s.stagingBad d))).output e o =
        (if e = d ∧ o < 20 then s.pendingValue d o (s.stagingBad d) (s.output d o) else s.output e o) ∧
      ((s.each (List.range 20) fun t o => t.modOutput d o (s.pendingValue d o (s.stagingBad d))).gauge e).written =
        (s.gauge e).written := by
    intro e o
    refine ⟨(s.each_modOutput d e o _ (fun o => s.pendingValue d o (s.stagingBad d)) List.nodup_range).trans
      (by simp only [List.mem_range]), ?_⟩
    exact State.each_keeps s (fun t => (t.gauge e).written) _ _ fun t o => t.modOutput_written d o e _
  rw [s.prepareGauge_written hwritten]
  generalize s.each (List.range 20) (fun t o => t.modOutput d o (s.pendingValue d o (s.stagingBad d))) = u at *
  dsimp only
  split
  · exact ⟨hprepared.prepares d, hshown⟩
  · have h0 := u.closeBlock_shows (k := 0) (by omega) hd
    have h1 := (u.closeBlock d 0).closeBlock_shows (k := 1) (by omega) hd
    refine ⟨((hprepared.prepares d).trans (u.closeBlock_prepares (by omega) hd)).trans
      ((u.closeBlock d 0).closeBlock_prepares (by omega) hd), fun e o => ?_⟩
    obtain ⟨hout, hwritten⟩ := hshown e o
    exact ⟨(h1 e o).1.trans ((h0 e o).1.trans hout), (h1 e o).2.trans ((h0 e o).2.trans hwritten)⟩

theorem State.prepareGauge_unwritten (s : State) {d : Nat} (h : (s.gauge d).written = false) : s.prepareGauge d = s := by
  rw [State.prepareGauge, if_pos (by simp [h])]

/-! ### Both Gauge dies -/

theorem State.prepareGauge_prepares (s : State) {d : Nat} (hd : d < 2) : Prepares d s (s.prepareGauge d) := by
  cases hwritten : (s.gauge d).written with
  | false => rw [s.prepareGauge_unwritten hwritten]; exact Prepares.refl d s
  | true => exact (s.prepareGauge_does hd hwritten).1

theorem State.valueFrom_lt (s : State) (d : Nat) {o : Nat} (ho : o < 20) : s.valueFrom d o < 20 := by
  unfold State.valueFrom
  split <;> omega

section
variable {s t : State} {d e o : Nat}

/-- The parts of State that the values of outputs are read from, but for the staging blocks. -/
structure SameInputs (s t : State) : Prop where
  frame : t.frame = s.frame
  links : t.links = s.links
  boot : t.boot = s.boot
  eff : t.eff = s.eff
  effT : t.effT = s.effT
  tenants : t.tenants = s.tenants
  poison : t.poison = s.poison
  fabs : t.fabs = s.fabs
  memStat : t.memStat = s.memStat

theorem Prepares.keeps (h : Prepares d s t) : SameInputs s t := by
  obtain ⟨⟨m, g, x, rfl⟩, -⟩ := h
  exact ⟨rfl, rfl, rfl, rfl, rfl, rfl, rfl, rfl, rfl⟩

/-- The preparation of one Gauge die leaves what the other reads. -/
theorem Prepares.pendingValue (h : Prepares d s t) (hne : e ≠ d) (he : e < 2) (hd : d < 2) (ho : o < 20) (bad : Bool) :
    t.pendingValue e o bad = s.pendingValue e o bad := by
  have hp := s.valueFrom_lt e ho
  have haway : ∀ k, k < 2 → ∀ i, i < 16 → ∀ j, j < 2 → stagingAddr k e + 16 * s.valueFrom e o + i < stagingAddr j d ∨
      stagingAddr j d + 320 ≤ stagingAddr k e + 16 * s.valueFrom e o + i := by
    intro k hk i hi j hj
    unfold stagingAddr stockBase
    omega
  have hstaged : t.stagedFor e (s.valueFrom e o) = s.stagedFor e (s.valueFrom e o) :=
    State.stagedFor_of_same h.keeps.frame h.keeps.links fun k hk i hi => h.2 _ (haway k hk i hi)
  exact State.pendingValue_of_same h.keeps.frame h.keeps.links h.keeps.boot h.keeps.eff h.keeps.effT h.keeps.tenants hstaged bad

theorem State.blockBad_of_same (hlinks : t.links = s.links) (hpoison : t.poison = s.poison) (hfabs : t.fabs = s.fabs)
    (hstat : t.memStat = s.memStat) (d k : Nat) : t.blockBad d k = s.blockBad d k := by
  have hdown : t.ioDown d k = s.ioDown d k := by
    rw [State.ioDown, State.ioDown, State.linkDown_of_links hlinks, State.linkDown_of_links hlinks]
  have hregion : ∀ a, t.region a = s.region a := by
    intro a
    rw [State.region, State.usable, hstat, State.region, State.usable]
  have hparity : ∀ a n, t.parityBad a n = s.parityBad a n := by
    intro a n
    simp only [State.parityBad, hregion, State.fab, hfabs]
  rw [State.blockBad, State.blockBad, hdown, State.poisoned, State.poisoned, hpoison, hparity]

theorem Prepares.stagingBad (h : Prepares d s t) (e : Nat) : t.stagingBad e = s.stagingBad e := by
  have hblock := State.blockBad_of_same h.keeps.links h.keeps.poison h.keeps.fabs h.keeps.memStat e
  rw [State.stagingBad, State.stagingBad, hblock, hblock, State.linkDown_of_links h.keeps.links]

end

/-- Every output of a provisioned Gauge die has its pending value, whichever die is prepared first. -/
theorem State.prepareBoth_output (s : State) {d o : Nat} (hd : d < 2) (ho : o < 20) (hwritten : (s.gauge d).written = true) :
    ((s.prepareGauge 0).prepareGauge 1).output d o = s.pendingValue d o (s.stagingBad d) (s.output d o) := by
  have hzero := s.prepareGauge_prepares (d := 0) (by omega)
  have hd : d = 0 ∨ d = 1 := by omega
  rcases hd with rfl | rfl
  · obtain ⟨-, hshown⟩ := s.prepareGauge_does (by omega) hwritten
    have hout := (hshown 0 o).1
    rw [if_pos ⟨rfl, ho⟩] at hout
    cases hone : ((s.prepareGauge 0).gauge 1).written with
    | false => rw [State.prepareGauge_unwritten _ hone, hout]
    | true => rw [((State.prepareGauge_does _ (by omega) hone).2 0 o).1, if_neg (by simp), hout]
  · have hkept : (s.prepareGauge 0).output 1 o = s.output 1 o ∧ ((s.prepareGauge 0).gauge 1).written = true := by
      cases hzero : (s.gauge 0).written with
      | false => rw [State.prepareGauge_unwritten _ hzero]; exact ⟨rfl, hwritten⟩
      | true =>
        obtain ⟨hout, hflag⟩ := (s.prepareGauge_does (by omega) hzero).2 1 o
        rw [if_neg (by simp)] at hout
        exact ⟨hout, hflag.trans hwritten⟩
    rw [((State.prepareGauge_does _ (by omega) hkept.2).2 1 o).1, if_pos ⟨rfl, ho⟩, hkept.1, hzero.stagingBad,
      hzero.pendingValue (by omega) (by omega) (by omega) ho]

/-- Beside the Gauge dies, output preparation sets the fabrics' resets and the frame. -/
theorem outputPreparation_rest (s : State) :
    (outputPreparation s).frame.phase = ((s.prepareGauge 0).prepareGauge 1).frame.phase ∧
    (outputPreparation s).mem = ((s.prepareGauge 0).prepareGauge 1).mem ∧
    (outputPreparation s).ctxs = ((s.prepareGauge 0).prepareGauge 1).ctxs ∧
    (outputPreparation s).gauges = ((s.prepareGauge 0).prepareGauge 1).gauges := by
  unfold outputPreparation
  generalize (s.prepareGauge 0).prepareGauge 1 = v
  exact fold_holds (fun t : State => t.frame.phase = v.frame.phase ∧ t.mem = v.mem ∧ t.ctxs = v.ctxs ∧ t.gauges = v.gauges)
    _ _ v ⟨rfl, rfl, rfl, rfl⟩ fun _ _ _ ht => ht

/-- What output preparation leaves: the phase, every byte outside the staging blocks, and each output as it is prepared. -/
theorem outputPreparation_keeps (s : State) :
    (outputPreparation s).frame.phase = s.frame.phase ∧
    (∀ a, (∀ k d, k < 2 → d < 2 → a < stagingAddr k d ∨ stagingAddr k d + 320 ≤ a) → (outputPreparation s).rd a = s.rd a) ∧
    ∀ d o, (outputPreparation s).output d o = ((s.prepareGauge 0).prepareGauge 1).output d o := by
  have hzero := s.prepareGauge_prepares (d := 0) (by omega)
  have hone := (s.prepareGauge 0).prepareGauge_prepares (d := 1) (by omega)
  obtain ⟨hphase, hmem, hctxs, hgauges⟩ := outputPreparation_rest s
  refine ⟨?_, fun a ha => ?_, fun d o => ?_⟩
  · rw [hphase, hone.keeps.frame, hzero.keeps.frame]
  · rw [State.rd_of_same hmem hctxs, hone.2 a fun k hk => ha k 1 hk (by omega), hzero.2 a fun k hk => ha k 0 hk (by omega)]
  · rw [State.output, State.gauge, hgauges, State.output, State.gauge]

/-! ### The claims -/

section
variable {s : State} {d o : Nat} {bad : Bool} {x : Output}

theorem State.pendingValue_forced (h : s.forcedSafe d (s.valueFrom d o) = true) :
    s.pendingValue d o bad x = x.safe (s.safeValue d (s.valueFrom d o)) := if_pos h

variable (hfree : s.forcedSafe d (s.valueFrom d o) = false)
include hfree

/-- A link that is down forces the safe value, so without a rule that does, the blocks decide. -/
theorem State.stagingBad_of_free : s.stagingBad d = (s.blockBad d 0 || s.blockBad d 1) := by
  simp only [State.forcedSafe, Bool.or_eq_false_iff] at hfree
  simp [State.stagingBad, hfree]

theorem State.pendingValue_action
    (h : (s.ten (s.outputTenant d (s.valueFrom d o))).overran = true ∨ bad = true ∨
      (match s.stagedFor d (s.valueFrom d o) with | some e => e.poison | none => false) = true) :
    s.pendingValue d o bad x =
      if s.actionSafe d (s.valueFrom d o) then x.safe (s.safeValue d (s.valueFrom d o)) else x.keep := by
  unfold State.pendingValue
  dsimp only
  rw [if_neg (by simp [hfree]), if_pos (by simpa [or_assoc] using h)]

theorem State.pendingValue_staged (hovr : (s.ten (s.outputTenant d (s.valueFrom d o))).overran = false) (hbad : bad = false)
    (hpoison : (match s.stagedFor d (s.valueFrom d o) with | some e => e.poison | none => false) = false) :
    s.pendingValue d o bad x = match s.stagedFor d (s.valueFrom d o) with
      | some y => { x with pend := y.v, pendSafe := false }
      | none => x.keep := by
  unfold State.pendingValue
  dsimp only
  rw [if_neg (by simp [hfree]), if_neg (by simp [hovr, hbad, hpoison])]

end

theorem whatForcesSafe : Claims.WhatForcesSafe := by
  intro s d o h
  unfold State.forcedSafe
  rcases h with h | h | h | h | h | h | h | h <;> simp [h]

theorem safeValuesWin : Claims.SafeWinsAtPreparation := by
  intro s hphase hprepared
  obtain ⟨-, hcounter, -, hactive⟩ := State.steady_eq_iff.1 (outputPreparation_steady s)
  obtain ⟨hkeeps, hrd, hout⟩ := outputPreparation_keeps s
  have hguard : s.frame.phase = .guardPhase := by
    rw [State.inPhase, Bool.and_eq_true, decide_eq_true_eq] at hphase
    exact hphase.2
  refine answers_due rfl (by simp [hphase, hprepared]) ⟨rfl, hkeeps.trans hguard, hcounter, hactive, hrd,
    fun d o hd ho hwritten => ?_⟩
  rw [hout, s.prepareBoth_output hd ho hwritten]
  refine ⟨fun hforced => ?_, fun hfree haction => ⟨fun hsafe => ?_, fun hkeep => ?_⟩,
    fun hfree hovr hbad hpoison => ⟨fun hnone => ?_, fun e he => ?_⟩⟩
  · rw [State.pendingValue_forced hforced]
    exact ⟨rfl, rfl⟩
  · rw [State.pendingValue_action hfree (by rwa [State.stagingBad_of_free hfree]), if_pos hsafe]
    exact ⟨rfl, rfl⟩
  · rw [State.pendingValue_action hfree (by rwa [State.stagingBad_of_free hfree]), if_neg (by simp [hkeep])]
    exact ⟨rfl, rfl⟩
  · rw [State.pendingValue_staged hfree hovr ((State.stagingBad_of_free hfree).trans hbad) hpoison, hnone]
    exact ⟨rfl, rfl⟩
  · rw [State.pendingValue_staged hfree hovr ((State.stagingBad_of_free hfree).trans hbad) hpoison, he]
    exact ⟨rfl, rfl⟩

/-- Settles O31: the pending value of each output as the order of R59 gives it, and what forces a safe one. -/
theorem safeWinsAtPreparation : Obligations.SafeWinsAtPreparation := ⟨safeValuesWin, whatForcesSafe⟩

end Sys2Proof.Machine
end

section
/-!
ObjectWritesAndControls (R255 to R259, R281): what a view shows, the checks of a write in their order, and the rows of one
object's write.
-/

namespace Sys2Proof.Machine

open Sys2Proof

/-! ### What a view shows of an object -/

/-- An object with a row of its own is shown wherever its view sees it. -/
theorem viewLookup_of_row {chan : Nat → Nat} {w : View} {level i sub : Nat} {r : ObjRow} (hrow : objRow i sub = some r)
    (hsees : viewSees chan w level i sub = true) : viewLookup chan w level i sub = .ok r := by
  have hmem : r ∈ rowsAt i := List.mem_of_find?_eq_some hrow
  have hat := List.find?_some hrow
  obtain ⟨hlow, hhigh, hfirst, hlast⟩ := of_decide_eq_true hat
  have hindex : r ∈ indexRows i := List.mem_filter.2 ⟨hmem, decide_eq_true ⟨hlow, hhigh⟩⟩
  have hany : (indexRows i).any (fun r => (List.range (r.s1 - r.s0 + 1)).any fun k =>
      viewSees chan w level i (r.s0 + k)) = true := by
    refine List.any_eq_true.2 ⟨r, hindex, List.any_eq_true.2 ⟨sub - r.s0, List.mem_range.2 (by omega), ?_⟩⟩
    rwa [Nat.add_sub_cancel' hfirst]
  simp [viewLookup, List.ne_nil_of_mem hindex, hany, hrow, hsees]

theorem viewLookup_error {chan : Nat → Nat} {w : View} {level i sub a : Nat} (h : viewLookup chan w level i sub = .error a) :
    a ≠ 0 := by
  have hcode : a = abObject ∨ a = abSub := by
    unfold viewLookup at h
    dsimp only at h
    repeat' split at h
    all_goals simp_all
  rcases hcode with rfl | rfl <;> decide

/-! ### A request is counted, and finds the state as it is -/

section
variable (s : State) (via : Via) (i sub : Nat)

theorem State.accepted_lookup : s.accepted.lookup via i sub = s.lookup via i sub := rfl
theorem State.accepted_mySession : s.accepted.mySession via = s.mySession via := rfl
theorem State.accepted_mayWriteWide : s.accepted.mayWriteWide via i = s.mayWriteWide via i := rfl

end

/-! ### The checks of a write -/

section
variable (s : State) (via : Via) {r : ObjRow} {i sub len v : Nat} (port : Nat) (fresh : BitVec 384)

theorem State.keyOutside_other (h : i ≠ 0x2210) : s.keyOutside via i sub = false := by simp [State.keyOutside, h]

/-- Outside a session a write goes to what its view shows. -/
theorem State.writeObj_outside (hkey : i ≠ 0x2210) (hnone : s.mySession via = none) (hlookup : s.lookup via i sub = .ok r) :
    s.writeObj via port i sub len v fresh = s.writeShown via r i sub len v fresh := by
  simp [State.writeObj, s.keyOutside_other via hkey, hnone, hlookup]

theorem State.writeObj_unseen {a : Nat} (hkey : i ≠ 0x2210) (hnone : s.mySession via = none)
    (hlookup : s.lookup via i sub = .error a) : s.writeObj via port i sub len v fresh = (a, s) := by
  simp [State.writeObj, s.keyOutside_other via hkey, hnone, hlookup]

/-- In a session or outside, a write to an object with a row that is no rwp object goes to that row where its view shows it. -/
theorem State.writeObj_shown (hkey : i ≠ 0x2210) (hrow : objRow i sub = some r) (hacc : r.acc ≠ .rwp)
    (hlookup : s.lookup via i sub = .ok r) :
    s.writeObj via port i sub len v fresh = s.writeShown via r i sub len v fresh := by
  simp only [State.writeObj, s.keyOutside_other via hkey, hrow, hlookup]
  cases s.mySession via <;> simp [hacc]

theorem State.writeShown_readOnly (h : r.acc = .ro ∨ r.acc = .const) :
    s.writeShown via r i sub len v fresh = (abReadOnly, s) := by
  rcases h with h | h <;> simp [State.writeShown, h]

/-- A device-wide object refuses every sender but its own. -/
theorem State.writeShown_barred (h : (supervisorOnly i && !s.mayWriteWide via i) = true) :
    ∃ a, a ≠ 0 ∧ s.writeShown via r i sub len v fresh = (a, s) := by
  cases hacc : r.acc <;> simp [State.writeShown, hacc, h, abReadOnly, abNoSession, abView]

theorem State.writeShown_rwp (h : r.acc = .rwp) : s.writeShown via r i sub len v fresh = (abNoSession, s) := by
  simp [State.writeShown, h]

variable (hwide : (supervisorOnly i && !s.mayWriteWide via i) = false)
include hwide

theorem State.writeShown_length (hacc : r.acc = .rw ∨ r.acc = .wo ∨ r.acc = .rwt) (hlen : len ≠ r.size) :
    s.writeShown via r i sub len v fresh = (abLength, s) := by
  rcases hacc with h | h | h <;> simp [State.writeShown, h, hwide, hlen]

theorem State.writeShown_range (hacc : r.acc = .rw ∨ r.acc = .wo ∨ r.acc = .rwt) (hlen : len = r.size)
    (hrange : objRange r i sub v = false) : s.writeShown via r i sub len v fresh = (abRange, s) := by
  rcases hacc with h | h | h <;> simp [State.writeShown, h, hwide, hlen, hrange]

theorem State.writeShown_rwt (hacc : r.acc = .rwt) (hlen : len = r.size) (hrange : objRange r i sub v = true) :
    s.writeShown via r i sub len v fresh = s.rwtWrite i sub v := by
  simp [State.writeShown, hacc, hwide, hlen, hrange]

theorem State.writeShown_applied (hacc : r.acc = .rw ∨ r.acc = .wo) (hlen : len = r.size)
    (hrange : objRange r i sub v = true) :
    s.writeShown via r i sub len v fresh = s.applyWrite via i sub v fresh := by
  rcases hacc with h | h <;> simp [State.writeShown, h, hwide, hlen, hrange]

end

/-- An rwt write but a resume is queued for its tick, once, and stored unless the object reads a state. -/
theorem State.rwtWrite_queued (s : State) {i : Nat} (sub v : Nat) (h : i ≠ 0x3002) :
    s.rwtWrite i sub v = (0, if i = 0x3104 then { s with rwt := s.rwt ++ [Rwt.mk (objKey 0 i sub) v s.rwtTicks] }
      else { s with rwt := s.rwt ++ [Rwt.mk (objKey 0 i sub) v s.rwtTicks] }.setVal (objKey 0 i sub) v) := by
  exact if_neg h

/-! ### Requests -/

section
variable {s : State} {via : Via}

/-- A device past start-up performs what its transport admits, whatever it serves early. -/
theorem State.request_admitted (hup : s.up = true) {out : Nat} (hout : out < 4) (early : Bool) (f : State → Ans × State) :
    s.request via out early f = s.request via 0 false f := by
  have hperform : s.perform out early f = s.perform 0 false f := by
    simp [State.perform, Config.transferLimit, hup, hout]
  rw [State.request, State.request, hperform]

theorem State.request_full (hserved : s.served = true) {out : Nat} (hout : 4 ≤ out) (early : Bool) (f : State → Ans × State) :
    s.request via out early f =
      ((s.modNet fun n => { n with xferRefused := satInc 32 n.xferRefused }).countAbort).answer via abState 0 0 := by
  simp [State.request, State.perform, Config.transferLimit, hserved, hout]

theorem State.request_early (hserved : s.served = true) (hdown : s.up = false) {out : Nat} (hout : out < 4)
    (f : State → Ans × State) : s.request via out false f = s.countAbort.answer via abState 0 0 := by
  have hroom : ¬ 4 ≤ out := by omega
  simp [State.request, State.perform, Config.transferLimit, hserved, hroom, hdown]

theorem State.rowWrite_admitted (hup : s.up = true) (port i sub len v : Nat) (fresh : BitVec 384) :
    s.rowWrite via port i sub len v fresh = s.request via 0 false fun u => wrote (u.writeObj via port i sub len v fresh) :=
  State.request_admitted hup (by omega) _ _

/-- Where no nonce or challenge is drawn, a transport's write is a write. -/
theorem State.writeFresh_plain (s : State) (via : Via) (port : Nat) {i : Nat} (sub len v : Nat) (hi : i ≠ 0x1E41)
    (hi' : i ≠ 0x2230) :
    s.writeFresh via port i sub len v = wrote (s.writeObj via port i sub len v 0) := by
  simp [State.writeFresh, hi, hi']

theorem exec_objectWrite {i : Nat} (hlow : 0x3000 ≤ i) (hhigh : i < 0x7000) (port sub len v out : Nat) :
    exec (.objectWrite via port i sub len v out) s =
      .next (s.request via out (s.earlyWrite via i sub) fun u => wrote (u.writeObj via port i sub len v 0)) := by
  have hregs : s.regsWrite via i sub = false := by
    have : i ≠ 0x7001 := by omega
    simp [State.regsWrite, this]
  have hfresh : (fun u : State => u.writeFresh via port i sub len v) = fun u => wrote (u.writeObj via port i sub len v 0) :=
    funext fun u => u.writeFresh_plain via port sub len v (by omega) (by omega)
  rw [exec, execObjectWrite, hregs, hfresh]
  rfl

end

theorem objectWritesAreChecked : Claims.ObjectWritesAreChecked := by
  intro s via port i sub len v out hserved hlow hhigh w no
  have hexec : exec w s = _ := exec_objectWrite (s := s) (via := via) hlow hhigh port sub len v out
  have hkey : i ≠ 0x2210 := by omega
  have hwide : i ≠ 0x3002 → (supervisorOnly i && !s.accepted.mayWriteWide via i) = false := by
    intro h
    have : i ≠ 0x2241 := by omega
    simp [supervisorOnly, h, this]
  refine ⟨fun hout => ?_, fun hout hdown hboot => ?_, fun hout hup => ?_⟩
  · rw [hexec, State.request_full hserved hout]
  · have hearly : s.earlyWrite via i sub = false := by simp [State.earlyWrite, hboot]
    rw [hexec, hearly, State.request_early hserved hdown hout]
  rw [State.request_admitted hup hout] at hexec
  refine ⟨fun a hnone hlookup => ?_, fun r hnone hlookup => ?_⟩
  · exact exec_aborted hserved hup hexec (viewLookup_error hlookup)
      (s.accepted.writeObj_unseen via port 0 hkey hnone hlookup)
  have hshown : s.accepted.writeObj via port i sub len v 0 = s.accepted.writeShown via r i sub len v 0 :=
    s.accepted.writeObj_outside via port 0 hkey hnone hlookup
  refine ⟨fun hacc => ?_, fun hacc => ?_, fun hacc hresume =>
    ⟨fun hlen => ?_, fun hlen hrange => ?_, fun hlen hrange => ?_⟩⟩
  · exact exec_aborted hserved hup hexec (by decide) (hshown.trans (s.accepted.writeShown_readOnly via 0 hacc))
  · exact exec_aborted hserved hup hexec (by decide) (hshown.trans (s.accepted.writeShown_rwp via 0 hacc))
  · exact exec_aborted hserved hup hexec (by decide)
      (hshown.trans (s.accepted.writeShown_length via 0 (hwide hresume) (.inr (.inr hacc)) hlen))
  · exact exec_aborted hserved hup hexec (by decide)
      (hshown.trans (s.accepted.writeShown_range via 0 (hwide hresume) (.inr (.inr hacc)) hlen hrange))
  · rw [exec_wrote hserved hup hexec ((hshown.trans (s.accepted.writeShown_rwt via 0 (hwide hresume) hacc hlen hrange)).trans
      (s.accepted.rwtWrite_queued sub v hresume))]
    dsimp only
    split <;> rfl

/-! ### The rows of one object's write -/

section
variable {s t : State} {via : Via} (hserved : s.served = true) (hup : s.up = true)
include hserved hup

theorem State.rowWrite_wrote {port i sub len v : Nat} {fresh : BitVec 384}
    (h : s.accepted.writeObj via port i sub len v fresh = (0, t)) :
    s.rowWrite via port i sub len v fresh = t.answer via 0 0 0 := by
  have hwrote : wrote (s.accepted.writeObj via port i sub len v fresh) = (.ok (0, 0), t) := by rw [h]; rfl
  rw [State.rowWrite_admitted hup, State.request_answered hserved hup hwrote]

theorem State.rowWrite_aborted {port i sub len v a : Nat} {fresh : BitVec 384} (ha : a ≠ 0)
    (h : s.accepted.writeObj via port i sub len v fresh = (a, t)) :
    s.rowWrite via port i sub len v fresh = t.countAbort.answer via a 0 0 := by
  have hwrote : wrote (s.accepted.writeObj via port i sub len v fresh) = (.error a, t) := by rw [h, wrote, if_neg ha]
  rw [State.rowWrite_admitted hup, State.request_refused hserved hup hwrote]

end

/-- An rwt object of one byte that takes every value. -/
def ByteRow (i sub : Nat) : Prop :=
  ∃ r, objRow i sub = some r ∧ r.acc = .rwt ∧ r.size = 1 ∧ ∀ v, v < 256 → objRange r i sub v = true

/-- The row of such an object, but for the ranges that are no interval. -/
def ObjRow.takesByte (r : ObjRow) : Bool :=
  decide (r.acc = .rwt) && decide (r.size = 1) && decide (r.lo = 0) && decide (r.hi = 255) && decide (r.ty = 5)

theorem byteRow_of_row {i sub : Nat} (hrow : (objRow i sub).any ObjRow.takesByte = true)
    (hset : ∀ v, objSet i sub v = true) : ByteRow i sub := by
  cases hr : objRow i sub with
  | none => simp [hr] at hrow
  | some r =>
    rw [hr] at hrow
    simp only [Option.any_some, ObjRow.takesByte, Bool.and_eq_true, decide_eq_true_eq, and_assoc] at hrow
    obtain ⟨hacc, hsize, hlo, hhi, hty⟩ := hrow
    refine ⟨r, hr, hacc, hsize, fun v hv => ?_⟩
    simp [objRange, objInt, hsize, hlo, hhi, hty, hset]
    omega

theorem rows_overrunLatch : ∀ t, t < 8 → (objRow 0x3104 (t + 1)).any ObjRow.takesByte = true := by decide

theorem rows_faultClear : ∀ d, d < 2 → ∀ k, k < 8 → (objRow (gLoad d k) 0x0F).any ObjRow.takesByte = true := by decide

theorem rows_rearm : ∀ d, d < 2 → ∀ i, i < 4 → (objRow (gPos d i) 7).any ObjRow.takesByte = true := by decide

/-- Of the channel objects, only tenants, kinds and pairings have a range that is no interval. -/
theorem objSet_channel {i sub : Nat} (v : Nat) (hlow : 0x5000 ≤ i) (hhigh : i < 0x6000) (hsub : 5 < sub) :
    objSet i sub v = true := by
  unfold objSet
  dsimp only
  repeat rw [if_neg (by omega)]
  rw [if_pos (by omega), if_neg (by omega), if_neg (by omega)]

theorem byteRow_overrunLatch {t : Nat} (ht : t < 8) : ByteRow 0x3104 (t + 1) :=
  byteRow_of_row (rows_overrunLatch t ht) fun v => by simp [objSet]

theorem gLoad_range (d : Nat) {k : Nat} (hk : k < 8) : 0x5060 ≤ gLoad d k ∧ gLoad d k < 0x6000 := by
  unfold gLoad gaugeBase
  omega

theorem gPos_range (d : Nat) {i : Nat} (hi : i < 4) : 0x5030 ≤ gPos d i ∧ gPos d i < 0x6000 := by
  unfold gPos gaugeBase
  omega

theorem byteRow_faultClear {d k : Nat} (hd : d < 2) (hk : k < 8) : ByteRow (gLoad d k) 0x0F := by
  obtain ⟨hlow, hhigh⟩ := gLoad_range d hk
  exact byteRow_of_row (rows_faultClear d hd k hk) fun v => objSet_channel v (by omega) hhigh (by omega)

theorem byteRow_rearm {d i : Nat} (hd : d < 2) (hi : i < 4) : ByteRow (gPos d i) 7 := by
  obtain ⟨hlow, hhigh⟩ := gPos_range d hi
  exact byteRow_of_row (rows_rearm d hd i hi) fun v => objSet_channel v (by omega) hhigh (by omega)

/-- The view of a channel's tenant, and the supervisor's, show its objects. -/
theorem viewSees_channel {chan : Nat → Nat} {w : View} {level i sub : Nat} (hlow : 0x5000 ≤ i) (hhigh : i < 0x6000)
    (hw : w = .tenant (chan i) ∨ w = .supervisor) : viewSees chan w level i sub = true := by
  have hdebug : debugNeed i = none := by
    unfold debugNeed
    rw [if_neg (by omega), if_neg (by omega)]
  have hsub : bySub i = false := by
    simp [bySub]
    omega
  have hindex : byIndex i = none := by
    unfold byIndex
    rw [if_neg (by omega), if_neg (by omega)]
  rcases hw with rfl | rfl <;> simp [viewSees, hdebug, tenantSees, hsub, hindex, hlow, hhigh]

/-- One byte written to an rwt object that its view shows: queued, and stored. -/
theorem State.rowWrite_byte {s : State} {via : Via} {i sub v : Nat} (hserved : s.served = true) (hup : s.up = true)
    (hrow : ByteRow i sub) (hkey : i ≠ 0x2210) (hwide : supervisorOnly i = false) (hv : v < 256)
    (hsees : viewSees s.channelTenant (s.viewOf via) (s.levelOf via).code i sub = true) :
    s.rowWrite via 0 i sub 1 v 0 = (if i = 0x3104 then { s with rwt := s.rwt ++ [Rwt.mk (objKey 0 i sub) v s.rwtTicks] }
      else { s with rwt := s.rwt ++ [Rwt.mk (objKey 0 i sub) v s.rwtTicks] }.setVal (objKey 0 i sub) v).accepted.answer
        via 0 0 0 := by
  obtain ⟨r, hr, hacc, hsize, hrange⟩ := hrow
  have hresume : i ≠ 0x3002 := by
    rintro rfl
    simp [supervisorOnly] at hwide
  have hshown : s.accepted.writeObj via 0 i sub 1 v 0 = s.accepted.writeShown via r i sub 1 v 0 :=
    s.accepted.writeObj_shown via 0 0 hkey hr (by simp [hacc]) (viewLookup_of_row hr hsees)
  rw [State.rowWrite_wrote hserved hup ((hshown.trans (s.accepted.writeShown_rwt via 0 (by simp [hwide]) hacc hsize.symm
    (hrange v hv))).trans (s.accepted.rwtWrite_queued sub v hresume))]
  split <;> rfl

/-! ### The control rows -/

theorem row_clock : ∃ r, objRow 0x2241 1 = some r ∧ r.acc = .rw ∧ r.size = 8 ∧ r.lo = 0 ∧ r.hi = 18446744073709551615 ∧
    r.ty = 27 := ⟨_, rfl, rfl, rfl, rfl, rfl, rfl⟩

theorem row_keep : ∃ r, objRow 0x3412 0 = some r ∧ r.acc = .wo ∧ r.size = 24 ∧ r.lo = 0 ∧ r.hi = 2 ^ 192 - 1 ∧
    r.ty = 10 := ⟨_, rfl, rfl, rfl, rfl, rfl, rfl⟩

theorem row_resume : ∃ r, objRow 0x3002 0 = some r ∧ r.acc = .rwt ∧ r.size = 1 ∧ objRange r 0x3002 0 1 = true :=
  ⟨_, rfl, rfl, rfl, by decide⟩

theorem State.resumeWrite_safe {u : State} (v : Nat) (h : u.frame.tickState = .fallbackSafe) :
    u.resumeWrite v = { u with rwt := u.rwt ++ [Rwt.mk (objKey 0 0x3002 0) v u.rwtTicks] } := by
  rw [State.resumeWrite, h]

theorem State.resumeWrite_hold {u : State} (v : Nat) (h : u.frame.tickState = .fallbackHold) :
    u.resumeWrite v = u.modFrame fun f => { f with resumeHold := true } := by
  rw [State.resumeWrite, h]

theorem State.resumeWrite_nothing {u : State} (v : Nat) (hsafe : u.frame.tickState ≠ .fallbackSafe)
    (hhold : u.frame.tickState ≠ .fallbackHold) : u.resumeWrite v = u := by
  unfold State.resumeWrite
  split <;> simp_all

theorem State.applyWrite_keep (s : State) (via : Via) (t sub v : Nat) (fresh : BitVec 384) (hawake : s.awake = true)
    (hview : s.viewOf via = .tenant t) :
    s.applyWrite via 0x3412 sub v fresh = keepUpdate s t (BitVec.ofNat 192 v) := by
  have htenant : s.tenantOf via = some t := by
    unfold State.viewOf at hview
    repeat' split at hview
    all_goals simp_all
  simp [State.applyWrite, State.keepWrite, State.bellSender, hawake, htenant]

theorem State.applyWrite_clock (s : State) (via : Via) (sub v : Nat) (fresh : BitVec 384) :
    s.applyWrite via 0x2241 sub v fresh =
      (0, s.modSec fun x => { x with rtc := BitVec.ofNat 64 v, rtcSet := true, rtcAt := s.frame.now }) := by
  simp [State.applyWrite, State.viewWrite]

/-- An update of the keep table is taken from a context's tenant, and judged by the device that performs it. -/
theorem keepUpdate_judged {s : State} (via : Via) (v : BitVec 192) (t : Nat) (hawake : s.awake = true)
    (hview : s.viewOf via = .tenant t) :
    s.accepted.writeObj via 0 0x3412 0 24 v.toNat 0 = keepUpdate s.accepted t v := by
  obtain ⟨r, hr, hacc, hsize, hlo, hhi, hty⟩ := row_keep
  have hrange : objRange r 0x3412 0 v.toNat = true := by
    have := v.isLt
    simp [objRange, objInt, objSet, hsize, hlo, hhi, hty]
    omega
  have hsees : viewSees s.channelTenant (s.viewOf via) (s.levelOf via).code 0x3412 0 = true := by
    simp [hview, viewSees, debugNeed, tenantSees, bySub, byIndex]
  have hshown : s.accepted.writeObj via 0 0x3412 0 24 v.toNat 0 = s.accepted.writeShown via r 0x3412 0 24 v.toNat 0 :=
    s.accepted.writeObj_shown via 0 0 (by decide) hr (by simp [hacc]) (viewLookup_of_row hr hsees)
  have happlied := s.accepted.writeShown_applied via (i := 0x3412) (sub := 0) 0 (by simp [supervisorOnly]) (.inr hacc)
    hsize.symm hrange
  have hkept := s.accepted.applyWrite_keep via t 0 v.toNat 0 hawake hview
  rw [BitVec.ofNat_toNat, BitVec.setWidth_eq] at hkept
  exact (hshown.trans happlied).trans hkept

/-- A resume is written wherever its sender may write it: by the supervisor, or at the session's endpoint. -/
theorem resume_written {s : State} (via : Via) (hwide : s.mayWriteWide via 0x3002 = true) :
    s.accepted.writeObj via 0 0x3002 0 1 1 0 = s.accepted.rwtWrite 0x3002 0 1 := by
  obtain ⟨r, hr, hacc, hsize, hrange⟩ := row_resume
  have hshown : s.accepted.writeObj via 0 0x3002 0 1 1 0 = s.accepted.writeShown via r 0x3002 0 1 1 0 := by
    cases hsession : s.mySession via with
    | some x =>
      have hsession : s.accepted.mySession via = some x := hsession
      simp [State.writeObj, State.keyOutside_other, hr, hsession, hacc]
    | none =>
      have hview : s.viewOf via = .supervisor := by simpa [State.mayWriteWide, hsession] using hwide
      exact s.accepted.writeObj_shown via 0 0 (by decide) hr (by simp [hacc])
        (viewLookup_of_row hr (by rw [show s.accepted.viewOf via = _ from hview]; rfl))
  have hwide : s.accepted.mayWriteWide via 0x3002 = true := hwide
  exact hshown.trans (s.accepted.writeShown_rwt via 0 (by simp [hwide]) hacc hsize.symm hrange)

section
variable {s : State} (hserved : s.served = true) (hup : s.up = true)
include hserved hup

theorem overrunLatchClear_waits (via : Via) (t v : Nat) (ht : t < 8) (hv : v < 256)
    (hview : s.viewOf via = .tenant t ∨ s.viewOf via = .supervisor) :
    exec (.overrunLatchClear via t v) s = .next (({ s with
      rwt := s.rwt ++ [Rwt.mk (objKey 0 0x3104 (t + 1)) v s.rwtTicks] }).accepted.answer via 0 0 0) := by
  have hsees : viewSees s.channelTenant (s.viewOf via) (s.levelOf via).code 0x3104 (t + 1) = true := by
    rcases hview with h | h <;> simp [h, viewSees, debugNeed, tenantSees, bySub]
  exact congrArg _ (State.rowWrite_byte hserved hup (byteRow_overrunLatch ht) (by decide) (by decide) hv hsees)

theorem faultClear_waits (via : Via) (d k v : Nat) (hd : d < 2) (hk : k < 8) (hv : v < 256)
    (hview : s.viewOf via = .tenant (s.channelTenant (gLoad d k)) ∨ s.viewOf via = .supervisor) :
    exec (.faultClear via d k v) s = .next ((({ s with
      rwt := s.rwt ++ [Rwt.mk (objKey 0 (gLoad d k) 0x0F) v s.rwtTicks] }).setVal (objKey 0 (gLoad d k) 0x0F) v).accepted.answer
        via 0 0 0) := by
  obtain ⟨hlow, hhigh⟩ := gLoad_range d hk
  have hrow := State.rowWrite_byte (via := via) hserved hup (byteRow_faultClear hd hk) (by omega)
    (by simp [supervisorOnly]; omega) hv (viewSees_channel (by omega) hhigh hview)
  rw [if_neg (by omega)] at hrow
  have hthere : decide (d < 2 ∧ k < 8) = true := decide_eq_true ⟨hd, hk⟩
  rw [exec, execFaultClear, hthere, due_true, hrow]

theorem positionRearm_waits (via : Via) (d i v : Nat) (cleared : Bool) (hd : d < 2) (hi : i < 4) (hv : v < 256)
    (hview : s.viewOf via = .tenant (s.channelTenant (gPos d i)) ∨ s.viewOf via = .supervisor) :
    Answers (.positionRearm via d i v cleared) s fun t =>
      t.rwt = s.rwt ++ [Rwt.mk (objKey 0 (gPos d i) 7) v s.rwtTicks] ∧ t.out = s.out ++ [.reply via 0 0 0] ∧
      (t.pos d i) = { s.pos d i with cleared := (s.pos d i).cleared || cleared } ∧
      (∀ j, j ≠ i → t.pos d j = s.pos d j) ∧ t.frame = s.frame ∧ t.ctxs = s.ctxs ∧ t.mem = s.mem := by
  obtain ⟨hlow, hhigh⟩ := gPos_range d hi
  have hrow := State.rowWrite_byte (via := via) hserved hup (byteRow_rearm hd hi) (by omega)
    (by simp [supervisorOnly]; omega) hv (viewSees_channel (by omega) hhigh hview)
  rw [if_neg (by omega)] at hrow
  have hrwt := congrArg State.rwt hrow
  have hout := congrArg State.out hrow
  have hpos : ∀ j, (s.rowWrite via 0 (gPos d i) 7 1 v 0).pos d j = s.pos d j := by
    intro j
    rw [hrow]
    rfl
  have hframe := congrArg State.frame hrow
  have hctxs := congrArg State.ctxs hrow
  have hmem := congrArg State.mem hrow
  refine answers_due rfl (by simp [hd, hi]) ?_
  generalize s.rowWrite via 0 (gPos d i) 7 1 v 0 = u at *
  refine ⟨hrwt, hout, ?_, fun j hj => ?_, hframe, hctxs, hmem⟩
  · rw [State.modPos_pos_same, hpos]
  · rw [State.modPos_pos_ne _ _ _ hj, hpos]

theorem rtcWrite_sets (v : BitVec 64) : exec (.rtcWrite .supervisor v) s = .next ((s.modSec fun x =>
    { x with rtc := v, rtcSet := true, rtcAt := s.frame.now }).accepted.answer .supervisor 0 0 0) := by
  obtain ⟨r, hr, hacc, hsize, hlo, hhi, hty⟩ := row_clock
  have hrange : objRange r 0x2241 1 v.toNat = true := by
    have := v.isLt
    simp [objRange, objInt, objSet, hsize, hlo, hhi, hty]
    omega
  have hshown : s.accepted.writeObj .supervisor 0 0x2241 1 8 v.toNat 0 =
      s.accepted.writeShown .supervisor r 0x2241 1 8 v.toNat 0 :=
    s.accepted.writeObj_shown .supervisor 0 0 (by decide) hr (by simp [hacc])
      (viewLookup_of_row hr (by simp [viewSees, debugNeed, State.viewOf]))
  have happlied := s.accepted.writeShown_applied .supervisor (sub := 1) 0 (by simp [State.mayWriteWide, State.viewOf])
    (.inl hacc) hsize.symm hrange
  have hset := s.accepted.applyWrite_clock .supervisor 1 v.toNat 0
  rw [BitVec.ofNat_toNat, BitVec.setWidth_eq] at hset
  exact congrArg _ (State.rowWrite_wrote hserved hup ((hshown.trans happlied).trans hset))

theorem keepUpdate_answered (via : Via) (v : BitVec 192) (t c : Nat) (hawake : s.awake = true) (hview : s.viewOf via = .tenant t)
    (hc : c = fld v 11 0) (hlow : fld v 15 12 = 0) (hmid : fld v 63 32 = 0) (hhigh : fld v 191 160 = 0)
    (hstale : s.keepStale t c (fld v 31 16) = false) :
    let want := BitVec.ofNat 64 (fld v 127 64)
    (s.keepMatch t c want = true → exec (.keepUpdate via v) s =
      .next ((s.setCount c (BitVec.ofNat 32 (fld v 159 128)) false).accepted.answer via 0 0 0)) ∧
    (s.keepMatch t c want = false → (s.ctx c).tenant = t →
      exec (.keepUpdate via v) s = .next (s.accepted.countAbort.answer via abKeep 0 0)) := by
  subst hc
  intro want
  have hwrite := keepUpdate_judged via v t hawake hview
  have hstale : s.accepted.keepStale t (fld v 11 0) (fld v 31 16) = false := hstale
  have hform : ¬ (fld v 15 12 ≠ 0 ∨ fld v 63 32 ≠ 0 ∨ fld v 191 160 ≠ 0) := by simp [hlow, hmid, hhigh]
  refine ⟨fun hmatch => ?_, fun hmatch htenant => ?_⟩
  · have hmatch : s.accepted.keepMatch t (fld v 11 0) want = true := hmatch
    have hkept : keepUpdate s.accepted t v = (0, s.accepted.setCount (fld v 11 0) (BitVec.ofNat 32 (fld v 159 128)) false) := by
      rw [keepUpdate, if_neg hform, hstale, if_neg (by decide), if_pos hmatch]
    exact congrArg _ (State.rowWrite_wrote hserved hup (hwrite.trans hkept))
  · have hmatch : s.accepted.keepMatch t (fld v 11 0) want = false := hmatch
    have htenant : (s.accepted.ctx (fld v 11 0)).tenant = t := htenant
    have hkept : keepUpdate s.accepted t v = (abKeep, s.accepted) := by
      rw [keepUpdate, if_neg hform, hstale, if_neg (by decide), if_neg (by simp only [want] at hmatch; simp [hmatch]),
        if_neg (by simp [htenant])]
    exact congrArg _ (State.rowWrite_aborted hserved hup (by decide) (hwrite.trans hkept))

theorem resume_unlocked (via : Via) (hwide : s.mayWriteWide via 0x3002 = true) (hlock : s.lockHeld = false) :
    exec (.resumeFromFallback via 1) s = .next (s.accepted.countAbort.answer via abState 0 0) := by
  have hlock : s.accepted.lockHeld = false := hlock
  have hwrite : s.accepted.rwtWrite 0x3002 0 1 = (abState, s.accepted) := by simp [State.rwtWrite, hlock]
  exact congrArg _ (State.rowWrite_aborted hserved hup (by decide) ((resume_written via hwide).trans hwrite))

theorem resume_locked (via : Via) (hwide : s.mayWriteWide via 0x3002 = true) (hlock : s.lockHeld = true) :
    exec (.resumeFromFallback via 1) s =
      .next (((s.accepted.setVal (objKey 0 0x3002 0) 1).resumeWrite 1).answer via 0 0 0) := by
  have hlock : s.accepted.lockHeld = true := hlock
  have hwrite : s.accepted.rwtWrite 0x3002 0 1 = (0, (s.accepted.setVal (objKey 0 0x3002 0) 1).resumeWrite 1) := by
    simp [State.rwtWrite, hlock]
  exact congrArg _ (State.rowWrite_wrote hserved hup ((resume_written via hwide).trans hwrite))

theorem resume_taken (via : Via) (hwide : s.mayWriteWide via 0x3002 = true) (hlock : s.lockHeld = true) :
    Answers (.resumeFromFallback via 1) s fun t =>
      (s.frame.tickState = .fallbackSafe → t.frame = s.frame ∧
        t.rwt = s.rwt ++ [Rwt.mk (objKey 0 0x3002 0) 1 s.rwtTicks]) ∧
      (s.frame.tickState = .fallbackHold → t.frame = { s.frame with resumeHold := true } ∧ t.rwt = s.rwt) ∧
      (s.frame.tickState ≠ .fallbackSafe → s.frame.tickState ≠ .fallbackHold → t.frame = s.frame ∧ t.rwt = s.rwt) ∧
      t.out = s.out ++ [.reply via 0 0 0] ∧ t.mem = s.mem ∧ t.gauges = s.gauges ∧ t.ctxs = s.ctxs ∧
      t.tenants = s.tenants ∧ t.net = s.accepted.net := by
  refine ⟨_, resume_locked hserved hup via hwide hlock, ?_⟩
  have hframe : (s.accepted.setVal (objKey 0 0x3002 0) 1).frame = s.frame := rfl
  by_cases hsafe : s.frame.tickState = .fallbackSafe
  · rw [State.resumeWrite_safe 1 (hframe ▸ hsafe)]
    exact ⟨fun _ => ⟨rfl, rfl⟩, by simp [hsafe], fun h => (h hsafe).elim, rfl, rfl, rfl, rfl, rfl, rfl⟩
  by_cases hhold : s.frame.tickState = .fallbackHold
  · rw [State.resumeWrite_hold 1 (hframe ▸ hhold)]
    exact ⟨fun h => (hsafe h).elim, fun _ => ⟨rfl, rfl⟩, fun _ h => (h hhold).elim, rfl, rfl, rfl, rfl, rfl, rfl⟩
  · rw [State.resumeWrite_nothing 1 (hframe ▸ hsafe) (hframe ▸ hhold)]
    exact ⟨fun h => (hsafe h).elim, fun h => (hhold h).elim, fun _ _ => ⟨rfl, rfl⟩, rfl, rfl, rfl, rfl, rfl, rfl⟩

theorem resume_barred (via : Via) (hwide : s.mayWriteWide via 0x3002 = false) : ∃ a, a ≠ 0 ∧
    exec (.resumeFromFallback via 1) s = .next (s.accepted.countAbort.answer via a 0 0) := by
  have hnone : s.mySession via = none := by
    simp [State.mayWriteWide] at hwide
    exact hwide.2
  have hwrite : ∃ a, a ≠ 0 ∧ s.accepted.writeObj via 0 0x3002 0 1 1 0 = (a, s.accepted) := by
    cases hlookup : s.lookup via 0x3002 0 with
    | error a => exact ⟨a, viewLookup_error hlookup, s.accepted.writeObj_unseen via 0 0 (by decide) hnone hlookup⟩
    | ok r =>
      have hwide : s.accepted.mayWriteWide via 0x3002 = false := hwide
      obtain ⟨a, ha, hbarred⟩ := s.accepted.writeShown_barred via (r := r) (sub := 0) (len := 1) (v := 1) 0
        (show (supervisorOnly 0x3002 && !s.accepted.mayWriteWide via 0x3002) = true by simp [supervisorOnly, hwide])
      exact ⟨a, ha, (s.accepted.writeObj_outside via 0 0 (by decide) hnone hlookup).trans hbarred⟩
  obtain ⟨a, ha, hwrite⟩ := hwrite
  exact ⟨a, ha, congrArg _ (State.rowWrite_aborted hserved hup ha hwrite)⟩

end

theorem controlWritesAct : Claims.ControlWritesAct := fun _ hserved hup =>
  ⟨fun via hwide => ⟨resume_taken hserved hup via hwide, resume_unlocked hserved hup via hwide⟩,
    resume_barred hserved hup, rtcWrite_sets hserved hup, overrunLatchClear_waits hserved hup,
    faultClear_waits hserved hup, positionRearm_waits hserved hup, keepUpdate_answered hserved hup⟩

/-- Settles O45: the checks of a write in their order, then the rows of one object's write. -/
theorem objectWritesAndControls : Obligations.ObjectWritesAndControls := ⟨objectWritesAreChecked, controlWritesAct⟩

end Sys2Proof.Machine
end

section
/-!
PhasesFollowWithTheirCombs (R46, R47, R49, R52, R54, R82, R154): what the start of COMB and a margin slot may touch, the
notifications at the end of a phase, the phases, and the bits of teeth and reservations.
-/

namespace Sys2Proof.Machine

open Sys2Proof

/-! ### What the start of COMB leaves but for its own fields -/

/-- The frame, the Gauge dies and the signal counters of every context. -/
def State.sketch (s : State) : Frame × Tab Gauge × (Nat → Tab (BitVec 32)) := (s.frame, s.gauges, fun c => (s.ctx c).counters)

theorem State.sketch_of_same {s t : State} (hf : t.frame = s.frame) (hg : t.gauges = s.gauges)
    (hc : ∀ c, (t.ctx c).counters = (s.ctx c).counters) : t.sketch = s.sketch := by
  simp [State.sketch, hf, hg, hc]

theorem State.sketch_eq_iff {s t : State} : t.sketch = s.sketch ↔
    t.frame = s.frame ∧ t.gauges = s.gauges ∧ ∀ c, (t.ctx c).counters = (s.ctx c).counters := by
  simp [State.sketch, funext_iff]

theorem DataOnly.sketch {s t : State} (h : DataOnly s t) : t.sketch = s.sketch := by
  obtain ⟨⟨m, p, f, x, rfl⟩, -, -⟩ := h
  exact State.sketch_of_same rfl rfl fun _ => rfl

theorem OnlyLooked.sketch {s t : State} (h : OnlyLooked s t) : t.sketch = s.sketch := by
  refine State.sketch_of_same h.system.frame h.system.gauges fun c => ?_
  obtain ⟨-, hctx⟩ := h
  obtain ⟨y, hy⟩ := hctx c
  rw [hy]

section
variable (s : State) (c : Nat)

theorem State.modCtx_sketch (f : Ctx → Ctx) (hf : ∀ x, (f x).counters = x.counters) : (s.modCtx c f).sketch = s.sketch := by
  refine State.sketch_of_same rfl rfl fun d => ?_
  by_cases hd : d = c
  · rw [hd, State.modCtx_same, hf]
  · rw [State.modCtx_ne _ _ hd]

theorem State.modQueue_sketch (q : Nat) (f : Queue → Queue) : (s.modQueue c q f).sketch = s.sketch :=
  s.modCtx_sketch c _ fun _ => rfl

theorem State.modTen_sketch (k : Nat) (f : Tenant → Tenant) : (s.modTen k f).sketch = s.sketch := rfl

theorem State.lateFault_sketch (q cause : Nat) (ep : BitVec 16) (ca da : Nat) :
    (s.lateFault c q cause ep ca da).sketch = s.sketch := by
  have hlate : (s.lateRecord c q cause ep ca da).sketch = s.sketch :=
    (State.modTen_sketch _ _ _).trans (s.modCtx_sketch c _ fun _ => rfl)
  unfold State.lateFault
  dsimp only
  split
  · refine (State.modCtx_sketch _ c _ ?_).trans hlate
    exact fun _ => rfl
  · refine ((State.modQueue_sketch _ c q _).trans (State.modCtx_sketch _ c _ ?_)).trans hlate
    exact fun _ => rfl

theorem State.wrOwn_sketch (q ca : Nat) (t : Target) (bs : List Byte) : (s.wrOwn c q ca t bs).sketch = s.sketch := by
  unfold State.wrOwn
  repeat' split
  · exact s.lateFault_sketch c q _ _ _ _
  · exact (s.wr_dataOnly _ _).sketch
  · exact (s.wrTarget_dataOnly _ _).sketch

theorem State.wrCtx_sketch (q a : Nat) (bs : List Byte) : (s.wrCtx c q a bs).sketch = s.sketch := by
  have hw := (s.writeTargets_looked c a bs).sketch
  unfold State.wrCtx
  split
  next l u heq =>
    rw [heq] at hw
    exact fold_holds (fun t : State => t.sketch = s.sketch) _ l u hw fun t e _ ht => (t.wrOwn_sketch c q _ _ _).trans ht
  next heq => rwa [heq] at hw

theorem State.putRec_sketch (r : Rec) : (s.putRec r).sketch = s.sketch :=
  (State.wrCtx_sketch _ _ _ _ _).trans (s.modCtx_sketch r.c _ fun _ => rfl)

theorem State.post_sketch (r : Rec) : (s.post r).sketch = s.sketch := by
  unfold State.post
  dsimp only
  repeat' split
  · rfl
  · exact (State.modTen_sketch _ _ _).trans (s.modCtx_sketch r.c _ fun _ => rfl)
  · exact s.putRec_sketch _
  · exact s.modCtx_sketch r.c _ fun _ => rfl
  · exact s.putRec_sketch _
  · exact s.modCtx_sketch r.c _ fun _ => rfl

theorem State.resultArea_sketch (q a : Nat) : (s.resultArea c q a).sketch = s.sketch := by
  unfold State.resultArea
  split
  · exact s.wrCtx_sketch _ _ _ _
  · rfl

theorem State.headInfo_sketch (q : Nat) : (s.headInfo c q).2.sketch = s.sketch := by
  have hread := (s.readCtx_looked c [] (s.headAddr c q) 64).sketch
  unfold State.headInfo
  dsimp only
  split
  · rfl
  split
  next heq => rwa [heq] at hread
  next heq => rwa [heq] at hread

theorem State.retireHead_sketch (q : Nat) (i : Bool × Nat × BitVec 64) : (s.retireHead c q i).sketch = s.sketch := by
  unfold State.retireHead
  dsimp only
  split
  · exact ((State.modQueue_sketch _ c q _).trans (State.post_sketch _ _)).trans (s.resultArea_sketch c q _)
  · exact s.modQueue_sketch c q _

theorem State.retireReplays_sketch (q : Nat) (orphaned : Bool) (n : Nat) :
    (s.retireReplays c q orphaned n).sketch = s.sketch := by
  induction n generalizing s with
  | zero => rfl
  | succ n ih =>
    have hhead := s.headInfo_sketch c q
    unfold State.retireReplays
    split
    · rfl
    split
    next i u heq =>
      rw [heq] at hhead
      split
      · exact (ih _).trans ((u.retireHead_sketch c q i).trans hhead)
      · exact hhead
    next u heq => rwa [heq] at hhead

theorem State.retireOnce_sketch (q : Nat) : (s.retireOnce c q).sketch = s.sketch := by
  unfold State.retireOnce
  dsimp only
  split
  · exact s.retireHead_sketch c q _
  · rfl

theorem State.advanceQueue_sketch (q : Nat) : (s.advanceQueue c q).sketch = s.sketch := by
  unfold State.advanceQueue
  dsimp only
  split
  · rfl
  refine (State.modQueue_sketch _ c q _).trans ?_
  split
  · exact (State.retireReplays_sketch _ c q _ _).trans (s.retireOnce_sketch c q)
  · rfl

theorem State.advanceCtx_sketch : (s.advanceCtx c).sketch = s.sketch :=
  State.each_keeps s State.sketch _ _ fun u q => u.advanceQueue_sketch c q

end

/-! ### The counters of a frame (R154) -/

/-- Counters S0 to S7 are gone. -/
def frameCountersCleared (t : Tab (BitVec 32)) : Tab (BitVec 32) := t.filter fun e => decide (8 ≤ e.1)

theorem tget_frameCountersCleared (t : Tab (BitVec 32)) (k : Nat) :
    tget 0 (frameCountersCleared t) k = if 8 ≤ k then tget 0 t k else 0 := by
  have hfilter := tget_filter_keys 0 t (fun k => decide (8 ≤ k)) k
  simpa [frameCountersCleared] using hfilter

theorem State.combCtx_keeps (s : State) (c : Nat) : (s.combCtx c).frame = s.frame ∧ (s.combCtx c).gauges = s.gauges ∧
    ∀ d, ((s.combCtx c).ctx d).counters =
      if d = c then frameCountersCleared (s.ctx c).counters else (s.ctx d).counters := by
  have hadvanced : ((s.each [0, 1, 2, 3] fun s q => s.modQueue c q Queue.lift).advanceCtx c).sketch = s.sketch :=
    (State.advanceCtx_sketch _ c).trans (State.each_keeps s State.sketch _ _ fun u q => u.modQueue_sketch c q _)
  unfold State.combCtx
  dsimp only
  generalize (s.each [0, 1, 2, 3] fun s q => s.modQueue c q Queue.lift).advanceCtx c = u at *
  obtain ⟨hframe, hgauges, hcounters⟩ := State.sketch_eq_iff.1 hadvanced
  refine ⟨hframe, hgauges, fun d => ?_⟩
  by_cases hd : d = c
  · rw [if_pos hd, hd, State.modCtx_same, ← hcounters c]
    rfl
  · rw [if_neg hd, State.modCtx_ne _ _ hd, hcounters]

theorem State.each_cons (s : State) (k : Nat) (l : List Nat) (f : State → Nat → State) :
    s.each (k :: l) f = (f s k).each l f := rfl

/-- COMB of a list of contexts clears the counters of the frame in each of them. -/
theorem State.eachComb_keeps (s : State) (l : List Nat) : (s.each l State.combCtx).frame = s.frame ∧
    (s.each l State.combCtx).gauges = s.gauges ∧ ∀ d,
      (((s.each l State.combCtx).ctx d).counters = (s.ctx d).counters ∧ d ∉ l) ∨
        ((s.each l State.combCtx).ctx d).counters = frameCountersCleared (s.ctx d).counters := by
  induction l generalizing s with
  | nil => exact ⟨rfl, rfl, fun d => .inl ⟨rfl, List.not_mem_nil⟩⟩
  | cons c l ih =>
    obtain ⟨hframe, hgauges, hcounters⟩ := s.combCtx_keeps c
    obtain ⟨ihframe, ihgauges, ihcounters⟩ := ih (s.combCtx c)
    have hclear : frameCountersCleared (frameCountersCleared (s.ctx c).counters) = frameCountersCleared (s.ctx c).counters := by
      simp [frameCountersCleared]
    rw [State.each_cons]
    generalize (s.combCtx c).each l State.combCtx = u at *
    refine ⟨ihframe.trans hframe, ihgauges.trans hgauges, fun d => ?_⟩
    have hd := ihcounters d
    rw [hcounters d] at hd
    by_cases hdc : d = c
    · rw [hdc] at hd ⊢
      rw [if_pos rfl, hclear] at hd
      exact .inr (hd.elim And.left id)
    · rw [if_neg hdc] at hd
      exact hd.imp_left fun ⟨h, hl⟩ => ⟨h, by simp [hdc, hl]⟩

/-! ### The notifications at the end of a phase -/

/-- What the end of a phase changes of contexts: which queues are to be notified. -/
def Told (s t : State) : Prop := ∀ c, ∃ l, t.ctx c = { s.ctx c with toNotify := l }

theorem Told.refl (s : State) : Told s s := fun _ => ⟨_, rfl⟩
theorem Told.trans {s t u : State} (h : Told s t) (h' : Told t u) : Told s u := by
  intro c
  obtain ⟨l, hl⟩ := h c
  obtain ⟨l', hl'⟩ := h' c
  exact ⟨l', by rw [hl', hl]⟩
theorem Told.of_ctxs {s t : State} (h : t.ctxs = s.ctxs) : Told s t := fun c => ⟨(s.ctx c).toNotify, by rw [State.ctx, h]; rfl⟩

section
variable (s : State)

theorem State.notifyQueue_ctxs (c q : Nat) : (s.notifyQueue c q).ctxs = s.ctxs := by
  unfold State.notifyQueue State.msix
  dsimp only
  repeat' split
  all_goals rfl

theorem State.notifyCtx_told (c : Nat) : Told s (s.notifyCtx c) := by
  have hsent : ((s.ctx c).toNotify.foldl (fun s q => s.notifyQueue c q) s).ctxs = s.ctxs :=
    fold_holds (fun t : State => t.ctxs = s.ctxs) _ _ s rfl fun t q _ ht => (t.notifyQueue_ctxs c q).trans ht
  refine (Told.of_ctxs hsent).trans fun d => ?_
  by_cases hd : d = c
  · rw [hd]
    exact ⟨[], State.modCtx_same _ _ _⟩
  · exact ⟨_, State.modCtx_ne _ _ hd⟩

theorem State.notifyTenant_ctxs (t : Nat) : (s.notifyTenant t).ctxs = s.ctxs := by
  unfold State.notifyTenant
  dsimp only
  repeat' split
  all_goals rfl

theorem State.flushNotify_told : Told s s.flushNotify :=
  fold_holds (Told s) _ _ _ (fold_holds (Told s) _ _ _ (Told.refl s) fun u c _ hu => hu.trans (u.notifyCtx_told c))
    fun u t _ hu => hu.trans (Told.of_ctxs (u.notifyTenant_ctxs t))

/-- The end of a phase leaves the frame, memory, the Gauge dies and what contexts show of themselves. -/
theorem State.flushNotify_keeps : s.flushNotify.frame = s.frame ∧ s.flushNotify.gauges = s.gauges ∧
    s.flushNotify.mem = s.mem := by
  obtain ⟨c, n, e, o, h⟩ := s.flushNotify_notifiesOnly
  rw [h]
  exact ⟨rfl, rfl, rfl⟩

end

/-! ### SAMPLE to COMB -/

/-- The state in which COMB begins, before its contexts take it up. -/
def State.combOpened (s : State) : State :=
  (s.flushNotify.modFrame fun f =>
    { f.goTo 4 with phase := .comb, comb := .opening, tooth := 0, resEnded := 0, late := 0 }).each (List.range 4) fun s m =>
      s.modFab m fun f => { f with fabTick := false }

theorem openingComb_eq (s : State) :
    openingComb s = { s.combOpened.each s.combOpened.liveCtxs State.combCtx with unitHeld := [] } := rfl

theorem openingComb_rest (s : State) :
    (openingComb s).frame = (s.combOpened.each s.combOpened.liveCtxs State.combCtx).frame ∧
    (openingComb s).gauges = (s.combOpened.each s.combOpened.liveCtxs State.combCtx).gauges ∧
    (openingComb s).ctxs = (s.combOpened.each s.combOpened.liveCtxs State.combCtx).ctxs := by
  rw [openingComb_eq]
  generalize s.combOpened.each s.combOpened.liveCtxs State.combCtx = u
  exact ⟨rfl, rfl, rfl⟩

theorem State.eachFab_keeps (s : State) (l : List Nat) (f : Fab → Fab) :
    (s.each l fun s m => s.modFab m f).frame = s.frame ∧ (s.each l fun s m => s.modFab m f).gauges = s.gauges ∧
    (s.each l fun s m => s.modFab m f).ctxs = s.ctxs :=
  fold_holds (fun t : State => t.frame = s.frame ∧ t.gauges = s.gauges ∧ t.ctxs = s.ctxs) _ l s ⟨rfl, rfl, rfl⟩
    fun _ _ _ ht => ht

theorem State.combOpened_keeps (s : State) :
    s.combOpened.frame = { s.frame.goTo 4 with phase := .comb, comb := .opening, tooth := 0, resEnded := 0, late := 0 } ∧
    s.combOpened.gauges = s.gauges ∧ s.combOpened.ctxs = s.flushNotify.ctxs := by
  obtain ⟨hframe, hgauges, -⟩ := s.flushNotify_keeps
  unfold State.combOpened
  generalize s.flushNotify = u at *
  obtain ⟨hf, hg, hc⟩ := State.eachFab_keeps (u.modFrame fun f =>
    { f.goTo 4 with phase := .comb, comb := .opening, tooth := 0, resEnded := 0, late := 0 }) (List.range 4)
      fun f => { f with fabTick := false }
  refine ⟨hf.trans ?_, hg.trans hgauges, hc⟩
  rw [← hframe]
  rfl

/-- A context that is not FREE is among the live ones. -/
theorem State.mem_liveCtxs {s : State} {c : Nat} (h : (s.ctx c).state ≠ .free) : c ∈ s.liveCtxs := by
  unfold State.ctx at h
  unfold State.liveCtxs
  generalize s.ctxs = t at h ⊢
  induction t with
  | nil => exact (h rfl).elim
  | cons e t ih =>
    obtain ⟨j, x⟩ := e
    unfold tget at h
    by_cases hj : c = j
    · rw [if_pos hj] at h
      simp [hj, h]
    · rw [if_neg hj] at h
      simp only [List.mem_map, List.mem_filter, List.mem_cons] at ih ⊢
      obtain ⟨e, ⟨he, hp⟩, hc⟩ := ih h
      exact ⟨e, ⟨.inr he, hp⟩, hc⟩

theorem State.combOpened_told (s : State) : Told s s.combOpened := by
  obtain ⟨-, -, hctxs⟩ := s.combOpened_keeps
  exact s.flushNotify_told.trans (Told.of_ctxs hctxs)

theorem openingComb_counters (s : State) (c : Nat) (h : (s.ctx c).state ≠ .free) :
    ((openingComb s).ctx c).counters = frameCountersCleared (s.ctx c).counters := by
  obtain ⟨l, hl⟩ := s.combOpened_told c
  have hlive : c ∈ s.combOpened.liveCtxs := State.mem_liveCtxs (by rw [hl]; exact h)
  obtain ⟨-, -, hcounters⟩ := s.combOpened.eachComb_keeps s.combOpened.liveCtxs
  obtain ⟨-, -, hctxs⟩ := openingComb_rest s
  rw [State.ctx, hctxs, ← State.ctx, (hcounters c).resolve_left fun hc => hc.2 hlive, hl]

theorem frameCountersClearAtComb : Claims.FrameCountersClearAtComb := by
  intro s hsample
  refine answers_due rfl hsample fun c hlive => ?_
  have hcounters := openingComb_counters s c hlive
  unfold State.counter
  rw [hcounters]
  exact ⟨fun k hk => by rw [tget_frameCountersCleared, if_neg (by omega)],
    fun k hk => by rw [tget_frameCountersCleared, if_pos hk]⟩

theorem openingComb_keeps (s : State) : (openingComb s).gauges = s.gauges ∧
    (openingComb s).frame = { s.frame.goTo 4 with phase := .comb, comb := .opening, tooth := 0, resEnded := 0, late := 0 } := by
  obtain ⟨hframe, hgauges, -⟩ := s.combOpened.eachComb_keeps s.combOpened.liveCtxs
  obtain ⟨hsframe, hsgauges, -⟩ := s.combOpened_keeps
  obtain ⟨hrframe, hrgauges, -⟩ := openingComb_rest s
  exact ⟨hrgauges.trans (hgauges.trans hsgauges), hrframe.trans (hframe.trans hsframe)⟩

/-! ### MARGIN -/

/-- What the start of MARGIN and a margin slot may touch: contexts, the operations outstanding, fabrics, what reading
memory notes, and the messages sent. -/
def MarginOnly (s t : State) : Prop :=
  ∃ x m p o f l, t = { s with ctxs := x, memStat := m, poison := p, ops := o, fabs := f, out := l }

theorem MarginOnly.refl (s : State) : MarginOnly s s := ⟨s.ctxs, s.memStat, s.poison, s.ops, s.fabs, s.out, rfl⟩
theorem MarginOnly.trans {s t u : State} (h : MarginOnly s t) (h' : MarginOnly t u) : MarginOnly s u := by
  obtain ⟨x, m, p, o, f, l, rfl⟩ := h
  obtain ⟨x', m', p', o', f', l', rfl⟩ := h'
  exact ⟨x', m', p', o', f', l', rfl⟩
theorem MarginOnly.keeps {s t : State} (h : MarginOnly s t) : t.frame = s.frame ∧ t.gauges = s.gauges ∧ t.mem = s.mem := by
  obtain ⟨x, m, p, o, f, l, rfl⟩ := h
  exact ⟨rfl, rfl, rfl⟩
theorem OnlyLooked.margin {s t : State} (h : OnlyLooked s t) : MarginOnly s t := by
  obtain ⟨⟨x, m, p, rfl⟩, -⟩ := h
  exact ⟨x, m, p, s.ops, s.fabs, s.out, rfl⟩

section
variable (s : State)

theorem State.modOp_margin (c q i : Nat) (f : Op → Op) : MarginOnly s (s.modOp c q i f) :=
  ⟨s.ctxs, s.memStat, s.poison, _, s.fabs, s.out, rfl⟩
theorem State.modCtx_margin (c : Nat) (f : Ctx → Ctx) : MarginOnly s (s.modCtx c f) :=
  ⟨_, s.memStat, s.poison, s.ops, s.fabs, s.out, rfl⟩
theorem State.modQueue_margin (c q : Nat) (f : Queue → Queue) : MarginOnly s (s.modQueue c q f) := s.modCtx_margin c _
theorem State.modFab_margin (m : Nat) (f : Fab → Fab) : MarginOnly s (s.modFab m f) :=
  ⟨s.ctxs, s.memStat, s.poison, s.ops, _, s.out, rfl⟩
theorem State.send_margin (m : OutMsg) : MarginOnly s (s.send m) := ⟨s.ctxs, s.memStat, s.poison, s.ops, s.fabs, _, rfl⟩

theorem State.matBytes_looked (c : Nat) (e : Engine) (pl : Place) (ecc : Found) (m : Mat) (w : Nat) :
    OnlyLooked s (s.matBytes c e pl ecc m w).2 := by
  unfold State.matBytes
  refine foldl_looked _ _ _ s (fun _ _ _ => rfl) fun bs u i => ?_
  dsimp only
  have hr := u.readSpace_looked c e pl ecc m.space (m.at w + i * m.stride) (rowBytes m.ty m.cols)
  split <;> next heq => rwa [heq] at hr

theorem extStream_looked (o : Op) (m : Nat) (ecc : Found) : OnlyLooked s (extStream s o m ecc).2 := by
  unfold extStream
  refine foldl_looked _ _ _ s (fun _ _ _ => rfl) fun bs u x => ?_
  dsimp only
  have hr := u.matBytes_looked o.c (.field m) ⟨u.etchDie o.c, m⟩ ecc x.2 x.1
  split <;> next heq => rwa [heq] at hr

theorem extStart_margin (o : Op) (m p : Nat) (ecc : Found) : MarginOnly s (extStart s o m p ecc) := by
  have hstream := (extStream_looked s o m ecc).margin
  unfold extStart
  split
  next f u heq =>
    rw [heq] at hstream
    exact hstream.trans (u.modOp_margin _ _ _ _)
  next bs u heq =>
    rw [heq] at hstream
    exact (hstream.trans (u.modFab_margin _ _)).trans (State.send_margin _ _)

theorem State.reissueExt_margin (o : Op) (m p : Nat) : MarginOnly s (s.reissueExt o m p) := by
  unfold State.reissueExt
  split
  · exact s.modOp_margin _ _ _ _
  split
  · exact MarginOnly.refl s
  · exact (s.modOp_margin _ _ _ _).trans (extStart_margin _ _ _ _ _)

theorem State.resumeOp_margin (o : Op) : MarginOnly s (s.resumeOp o) := by
  unfold State.resumeOp
  split
  · exact s.reissueExt_margin _ _ _
  · split
    · exact s.modOp_margin _ _ _ _
    · exact s.modOp_margin _ _ _ _
  · exact s.modOp_margin _ _ _ _

theorem State.marginSlot_margin : MarginOnly s s.marginSlot := by
  refine fold_holds (MarginOnly s) _ _ s (MarginOnly.refl s) fun u o _ hu => hu.trans ?_
  split
  · split
    · exact u.resumeOp_margin o
    · exact MarginOnly.refl u
  · split
    · exact MarginOnly.refl u
    · exact u.modOp_margin _ _ _ _

theorem State.each_margin (l : List Nat) (f : State → Nat → State) (hf : ∀ u k, MarginOnly u (f u k)) :
    MarginOnly s (s.each l f) :=
  fold_holds (MarginOnly s) f l s (MarginOnly.refl s) fun u k _ hu => hu.trans (hf u k)

theorem State.marginCtx_margin (c : Nat) : MarginOnly s (s.marginCtx c) := by
  have hlifted : MarginOnly s (s.each [4, 5, 6, 7] fun s q => s.modQueue c q Queue.lift) :=
    s.each_margin _ _ fun u q => u.modQueue_margin c q _
  unfold State.marginCtx
  generalize (s.each [4, 5, 6, 7] fun s q => s.modQueue c q Queue.lift) = u at *
  exact hlifted.trans (u.modCtx_margin c _)

theorem marginStart_keeps : (marginStart s).frame =
    { s.frame.goTo (68 + s.W) with phase := .margin, comb := .closing, tooth := 0, slotOpen := true } ∧
    (marginStart s).gauges = s.gauges ∧ (marginStart s).mem = s.mem := by
  obtain ⟨hframe, hgauges, hmem⟩ := s.flushNotify_keeps
  have hopened : ∀ u : State, MarginOnly u (u.each u.liveCtxs State.marginCtx).marginSlot := fun u =>
    (u.each_margin _ _ State.marginCtx_margin).trans (State.marginSlot_margin _)
  unfold marginStart
  dsimp only
  rw [← hframe, ← hgauges, ← hmem]
  generalize s.flushNotify = u
  exact (hopened _).keeps

theorem marginComb_keeps : (marginComb s).frame =
    { s.frame.goTo s.nextComb with comb := .marginComb, tooth := 0, slot := s.frame.slot + 1,
                                   slotOpen := slotOpenAt s.power.position s.frame.slot } ∧
    (marginComb s).gauges = s.gauges ∧ (marginComb s).mem = s.mem := (State.marginSlot_margin _).keeps

end

/-! ### The phases -/

theorem sameOutputs_of_gauges {s t : State} (h : t.gauges = s.gauges) : SameOutputs s t := by
  intro d o
  rw [State.gauge, h, State.gauge]

/-- IMPRESS begins, every engine at operating level. -/
def Frame.toImpress (f : Frame) : Frame :=
  { f.goTo 68 with phase := .impress, comb := .none, level := tofList 0 (computeDies.map fun _ => 0xFFFF) }

theorem impressStart_eq (s : State) : impressStart s = s.flushNotify.modFrame Frame.toImpress := rfl

/-- A phase ends with its notifications: memory, and what contexts hold of the keep table, stay. -/
theorem impressStart_sameMemory (s : State) : SameMemory s (impressStart s) := by
  intro a
  obtain ⟨-, -, hmem⟩ := s.flushNotify_keeps
  have hctx := s.flushNotify_told ((a - keepBase) / 8)
  obtain ⟨l, hl⟩ := hctx
  rw [impressStart_eq]
  generalize s.flushNotify = u at *
  have hrd : (u.modFrame Frame.toImpress).rd a = u.rd a := rfl
  rw [hrd, State.rd, State.rd, hmem, hl]
  rfl

theorem impressStart_keeps (s : State) :
    (impressStart s).frame = s.frame.toImpress ∧ (impressStart s).gauges = s.gauges := by
  obtain ⟨hframe, hgauges, -⟩ := s.flushNotify_keeps
  rw [impressStart_eq, ← hframe, ← hgauges]
  generalize s.flushNotify = u
  exact ⟨rfl, rfl⟩

theorem phasesFollow : Claims.PhasesFollow := by
  intro s
  refine ⟨fun hphase => ?_, fun hphase => ?_, fun hphase => ?_, fun hphase hroom => ?_⟩
  · obtain ⟨hgauges, hframe⟩ := openingComb_keeps s
    refine answers_due rfl hphase ?_
    rw [hframe]
    exact ⟨rfl, rfl, rfl, rfl, rfl, sameOutputs_of_gauges hgauges⟩
  · obtain ⟨hframe, hgauges⟩ := impressStart_keeps s
    refine answers_due rfl hphase ?_
    rw [hframe]
    exact ⟨rfl, rfl, rfl, rfl, impressStart_sameMemory s, sameOutputs_of_gauges hgauges⟩
  · obtain ⟨hframe, hgauges, hmem⟩ := marginStart_keeps s
    refine answers_due rfl hphase ?_
    rw [hframe]
    exact ⟨rfl, rfl, rfl, rfl, rfl, hmem, sameOutputs_of_gauges hgauges⟩
  · obtain ⟨hframe, hgauges, hmem⟩ := marginComb_keeps s
    refine answers_due rfl (by simp [hphase, hroom]) ?_
    rw [hframe]
    refine ⟨?_, rfl, rfl, rfl, ?_, rfl, hmem, sameOutputs_of_gauges hgauges⟩
    · rw [State.inPhase, Bool.and_eq_true, decide_eq_true_eq] at hphase
      exact hphase.2
    · change s.nextComb = _
      unfold State.nextComb
      split <;> omega

/-! ### Teeth, the seal, the end of a reservation -/

/-- The one bit of a group of engines, or of a tenant. -/
theorem getLsbD_two_pow {w k j : Nat} (hj : j < w) : (BitVec.ofNat w (2 ^ k)).getLsbD j = decide (j = k) := by
  rw [BitVec.getLsbD_ofNat, Nat.testBit_two_pow]
  simp [hj, eq_comm]

theorem tget_foldl_tmod (f : Nat → BitVec 16 → BitVec 16) (l : List Nat) (t : Tab (BitVec 16)) (d : Nat) (hl : l.Nodup) :
    tget 0 (l.foldl (fun t d => tmod 0 t d (f d)) t) d = if d ∈ l then f d (tget 0 t d) else tget 0 t d := by
  induction l generalizing t with
  | nil => simp
  | cons e l ih =>
    rw [List.nodup_cons] at hl
    rw [List.foldl_cons, ih _ hl.2]
    by_cases he : d = e
    · subst he
      simp [hl.1]
    · simp [he, tget_tmod_ne]

/-- The levels of a die after one tooth. -/
def State.levelAfter (s : State) (d : Nat) (x : BitVec 16) : BitVec 16 :=
  if s.groupAfter d then x ||| BitVec.ofNat 16 (2 ^ s.frame.tooth) else x &&& ~~~ BitVec.ofNat 16 (2 ^ s.frame.tooth)

theorem State.combStep_level (s : State) (d : Nat) : tget 0 s.combStep.frame.level d =
    if d < 12 then s.levelAfter d (tget 0 s.frame.level d) else tget 0 s.frame.level d := by
  have hfold := tget_foldl_tmod s.levelAfter computeDies s.frame.level d List.nodup_range
  simp only [computeDies, List.mem_range] at hfold
  exact hfold

theorem State.levelAfter_own (s : State) (d : Nat) (x : BitVec 16) (htooth : s.frame.tooth < 16) :
    (s.levelAfter d x).getLsbD s.frame.tooth = s.groupAfter d := by
  unfold State.levelAfter
  split
  next hgroup => rw [BitVec.getLsbD_or, getLsbD_two_pow htooth, hgroup]; simp
  next hgroup => rw [BitVec.getLsbD_and, BitVec.getLsbD_not, getLsbD_two_pow htooth]; simp [hgroup]

theorem State.levelAfter_other (s : State) (d : Nat) (x : BitVec 16) {k : Nat} (hk : k ≠ s.frame.tooth) :
    (s.levelAfter d x).getLsbD k = x.getLsbD k := by
  by_cases hw : k < 16
  · unfold State.levelAfter
    split
    · rw [BitVec.getLsbD_or, getLsbD_two_pow hw]; simp [hk]
    · rw [BitVec.getLsbD_and, BitVec.getLsbD_not, getLsbD_two_pow hw]; simp [hk, hw]
  · rw [BitVec.getLsbD_of_ge _ _ (by omega), BitVec.getLsbD_of_ge _ _ (by omega)]

theorem teethAndSeal : Claims.TeethAndSeal := by
  intro s
  refine ⟨fun hticking hcomb htooth => ?_, fun hwork => answers_due rfl hwork ⟨⟨_, rfl⟩, rfl, rfl, rfl, rfl⟩⟩
  refine answers_due rfl (by simp [hticking, hcomb, htooth])
    ⟨⟨_, rfl⟩, rfl, fun d k hother => ?_, fun d hd => ?_, rfl, rfl, rfl⟩
  · beta_reduce
    rw [s.combStep_level d]
    split
    next hd => exact s.levelAfter_other d _ (hother.resolve_left (by omega))
    next => rfl
  · beta_reduce
    rw [s.combStep_level d, if_pos hd, s.levelAfter_own d _ htooth]
    refine ⟨fun h => ?_, fun h => ?_, fun h => ?_, fun h => ?_⟩ <;> rw [State.groupAfter, h] <;> rfl

theorem reservationEnds : Claims.ReservationEnds := by
  intro s k hready
  have hk : k < 8 := by
    simp only [reservationReady, Bool.and_eq_true, decide_eq_true_eq] at hready
    obtain ⟨⟨⟨hk, -⟩, -⟩, -⟩ := hready
    exact hk
  have hmark : ∀ (x : BitVec 8) (j : Nat), (x ||| BitVec.ofNat 8 (2 ^ k)).getLsbD j = (x.getLsbD j || decide (j = k)) := by
    intro x j
    rw [BitVec.getLsbD_or]
    by_cases hj : j < 8
    · rw [getLsbD_two_pow hj]
    · have : j ≠ k := by omega
      simp [BitVec.getLsbD_of_ge _ _ (Nat.le_of_not_lt hj), this]
  have hlate : ∀ j, (reservationEnd s k).frame.late.getLsbD j =
      (s.frame.late.getLsbD j || (decide (j = k) && decide (s.unfinishedOf k [] ≠ []))) := by
    intro j
    have hdef : (reservationEnd s k).frame.late =
        if s.unfinishedOf k [] ≠ [] then s.frame.late ||| BitVec.ofNat 8 (2 ^ k) else s.frame.late := rfl
    rw [hdef]
    split
    next h => rw [hmark]; simp [h]
    next h => simp [h]
  have hended : ∀ j, (reservationEnd s k).frame.resEnded.getLsbD j = (s.frame.resEnded.getLsbD j || decide (j = k)) :=
    fun j => hmark _ j
  refine answers_due rfl hready ⟨⟨_, rfl⟩, ?_, fun j hj => ⟨?_, ?_⟩, ?_, rfl, rfl⟩
  · rw [hended]; simp
  · rw [hended]; simp [hj]
  · rw [hlate]; simp [hj]
  · rw [hlate]; simp

/-- Settles O6: the phases at their offsets, the counters of a frame, the teeth and the seal, and the end of a reservation. -/
theorem phasesFollowWithTheirCombs : Obligations.PhasesFollowWithTheirCombs :=
  ⟨phasesFollow, frameCountersClearAtComb, teethAndSeal, reservationEnds⟩

end Sys2Proof.Machine
end

section
/-!
ProofsAndRounding (R73, R74, R79, R95, R96, R124, R147): rounding to the nearest, the ranges that stores saturate to, and the
class that the accumulator stage gives a pass.
-/

namespace Sys2Proof.Machine

open Sys2Proof

/-! ### Rounding (R73, R124) -/

theorem rndDiv_neg (a : Int) (b : Nat) : rndDiv (-a) b = -rndDiv a b := by
  unfold rndDiv
  rcases lt_trichotomy a 0 with ha | rfl | ha
  · rw [if_pos (by omega), if_neg (by omega), neg_neg]
  · have hzero : (b : Int) / (2 * b) = 0 := by
      rcases Nat.eq_zero_or_pos b with rfl | hb
      · rfl
      · exact Int.ediv_eq_zero_of_lt (by omega) (by omega)
    simp [hzero]
  · rw [if_neg (by omega), if_pos (by omega), neg_neg]

/-- A quotient that is not negative is at most half a divisor below its nearest integer, and less above it. -/
theorem rndDiv_near {a : Int} {b : Nat} (hb : 0 < b) (ha : 0 ≤ a) :
    -(b : Int) < 2 * (b * rndDiv a b - a) ∧ 2 * (b * rndDiv a b - a) ≤ b := by
  have hdiv := Int.mul_ediv_add_emod (2 * a + b) (2 * b)
  have hlow := Int.emod_nonneg (2 * a + b) (b := 2 * b) (by omega)
  have hhigh := Int.emod_lt_of_pos (2 * a + b) (b := 2 * b) (by omega)
  rw [rndDiv, if_pos ha]
  rw [mul_assoc] at hdiv
  omega

theorem roundsToNearest : Claims.RoundsToNearest := by
  intro a b hb
  have hneg := rndDiv_neg a b
  rcases le_total 0 a with ha | ha
  · have hnear := rndDiv_near hb ha
    refine ⟨?_, ?_, hneg⟩ <;> omega
  · have hnear := rndDiv_near hb (neg_nonneg.2 ha)
    rw [hneg, mul_neg] at hnear
    refine ⟨?_, ?_, hneg⟩ <;> omega

/-! ### Saturation (R79, R147) -/

theorem saturation_eq_zero {v w : Int} : (if w = v then 0 else 1) = 0 ↔ w = v := by split <;> simp_all

theorem saturation_le_one {v w : Int} : (if w = v then 0 else 1) ≤ 1 := by split <;> simp

theorem clampS_24_range (v : Int) : -(2 ^ 23) ≤ clampS 24 v ∧ clampS 24 v < 2 ^ 23 ∧
    (clampS 24 v = v ↔ -(2 ^ 23) ≤ v ∧ v < 2 ^ 23) := by
  unfold clampS
  omega

theorem storeInt_integer {ty : Nat} (v : Int) (h : isFloat ty = false) :
    storeInt ty v = (clampTy ty v, if clampTy ty v = v then 0 else 1) := by
  obtain ⟨h4, h5⟩ : ty ≠ 4 ∧ ty ≠ 5 := by simpa [isFloat] using h
  rw [storeInt, if_neg h5, if_neg h4]

theorem storesSaturate : Claims.StoresSaturate := by
  intro ty v hty
  obtain ⟨hlow, hhigh, hsame⟩ := clampS_24_range v
  rw [storeInt_integer v hty]
  exact ⟨rfl, saturation_eq_zero, saturation_le_one, hlow, hhigh, saturation_eq_zero.trans hsame⟩

/-! ### The class of a pass (R95 to R97) -/

theorem tget_tofList (l : List Int) (j : Nat) : tget 0 (tofList 0 l) j = l.getD j 0 := by
  rw [tofList, tget_tsetRun]
  split
  · simp
  · rw [List.getD_eq_default _ _ (by omega)]
    rfl

theorem classify_named (d d2 dp dq : Int) (clamped : Bool) (n : Nat) :
    (classify d d2 dp dq clamped n).1 = 1 ∨ (classify d d2 dp dq clamped n).1 = 2 ∨
      (classify d d2 dp dq clamped n).1 = 3 := by
  unfold classify
  repeat' split
  all_goals simp

section
variable (s : State) (k : Nat) (b : Bank) (h : EtchRun) (g : Nat) (x : List Nat) (raw : Tab Int) (p1 p2 : Int)

theorem judge_codes {j : Nat} (hj : j < h.n) : tget 0 (judge s k b h g x raw p1 p2).codes j = clampS 10 (tget 0 raw j) := by
  unfold judge
  dsimp only
  rw [tget_tofList, List.getD_eq_getElem _ _ (by simpa using hj)]
  simp

/-- The number of clipped codes. -/
def clipCount (n : Nat) (raw : Tab Int) : Nat :=
  ((List.range n).filter fun j => decide (clampS 10 (tget 0 raw j) ≠ tget 0 raw j)).length

theorem clipCount_pos {n : Nat} {raw : Tab Int} :
    0 < clipCount n raw ↔ ∃ j, j < n ∧ clampS 10 (tget 0 raw j) ≠ tget 0 raw j := by
  simp [clipCount, List.length_pos_iff_exists_mem]

/-- R96: the class by precedence: OUT, UPSET, CLIP, then the burr that the pass shows against its limit. -/
theorem judge_class : ∃ beta named, (named = 1 ∨ named = 2 ∨ named = 3) ∧
    let v := judge s k b h g x raw p1 p2
    v.cls = (if s.plateOut g = true then 6 else if b.state = .activeUpset then 5 else if 0 < clipCount h.n raw then 4
      else if s.burrLimit k h.n < beta then named else 0) ∧
    v.beta = if v.cls = 6 ∨ v.cls = 4 then 0xFFFF else beta := by
  simp only [judge, clipCount, decide_eq_true_eq]
  exact ⟨_, _, classify_named _ _ _ _ _ _, rfl, rfl⟩

theorem proofsJudge : Claims.ProofsJudge := by
  intro s k b h g x raw p1 p2
  obtain ⟨beta, named, hnamed, hcls, hbeta⟩ := judge_class s k b h g x raw p1 p2
  refine ⟨fun hout => by rw [hcls, if_pos hout], fun hin hupset => by simp [hcls, hin, hupset],
    fun hin hactive => ⟨fun hclip => ?_, fun hclean => ?_⟩, fun j hj => judge_codes s k b h g x raw p1 p2 hj⟩
  · simp [hcls, hin, hactive, clipCount_pos.2 hclip]
  · have hnone : ¬ 0 < clipCount h.n raw := fun hc => by
      obtain ⟨j, hj, hne⟩ := clipCount_pos.1 hc
      exact hne (hclean j hj)
    have hjudged : (judge s k b h g x raw p1 p2).cls = if s.burrLimit k h.n < beta then named else 0 := by
      simp [hcls, hin, hactive, hnone]
    have hshown : (judge s k b h g x raw p1 p2).beta = beta := by
      rw [hbeta, if_neg]
      rw [hjudged]
      split <;> omega
    rw [hshown, hjudged]
    exact ⟨fun hle => if_neg (by omega), fun hlt => by rwa [if_pos hlt]⟩

end

/-- Settles O22: the class by precedence, rounding by its distance to the quotient, saturation by the clamp. -/
theorem proofsAndRounding : Obligations.ProofsAndRounding := ⟨proofsJudge, roundsToNearest, storesSaturate⟩

end Sys2Proof.Machine
end

section
/-!
BurnishesRun (R84, R86 to R88): how a burnish falls due, what its steps and its last step make of the plate, and the two events
of a plate that the supervisor hears of.
-/

namespace Sys2Proof.Machine

open Sys2Proof

/-! ### An event of a plate that the supervisor is told -/

/-- The supervisor gets one message of the kind; what the owner hears is a record, and no plate changes. -/
theorem State.plateEvent_told (s : State) (kind g d : Nat) :
    (s.plateEvent kind g d true).plates = s.plates ∧
    ∃ e : Rec, (s.plateEvent kind g d true).out = s.out ++ [.superEvent e] ∧ e.kind = kind := by
  have hposted (u : State) (r : Rec) : (u.post r).plates = u.plates ∧ (u.post r).out = u.out := by
    obtain ⟨⟨m, p, f, x, c, n, hform⟩, -, -⟩ := u.post_recordsOnly r
    rw [hform]
    exact ⟨rfl, rfl⟩
  unfold State.plateEvent
  dsimp only
  split
  · obtain ⟨hplates, hout⟩ := hposted
      (s.postSup { s.mkRec kind with die := 4 + g / 4, detail := BitVec.ofNat 64 d }) _
    exact ⟨hplates, _, hout, rfl⟩
  · exact ⟨rfl, _, rfl, rfl⟩

/-- A change of one plate and the event that tells of it. -/
theorem State.modPlate_told (s : State) (g : Nat) (f : Plate → Plate) (kind d : Nat) :
    let t := (s.modPlate g f).plateEvent kind g d true
    t.plate g = f (s.plate g) ∧ (∃ e : Rec, t.out = s.out ++ [.superEvent e] ∧ e.kind = kind) ∧
    ∀ j, j ≠ g → t.plate j = s.plate j := by
  intro t
  obtain ⟨hplates, htold⟩ := (s.modPlate g f).plateEvent_told kind g d
  have hplate (j : Nat) : t.plate j = (s.modPlate g f).plate j := by rw [State.plate, hplates]; rfl
  exact ⟨(hplate g).trans (s.modPlate_same g f), htold, fun j hj => (hplate j).trans (s.modPlate_ne f hj)⟩

/-! ### A burnish falls due (R86) -/

section
variable (p : Plate) (timed : Bool)

theorem Plate.fallDue_due : (p.fallDue timed).dueTimed = (p.dueTimed || timed) ∧
    (p.fallDue timed).dueTemp = (p.dueTemp || !timed) := by
  unfold Plate.fallDue
  cases timed <;> grind

theorem Plate.fallDue_keeps : (p.fallDue timed).bankA = p.bankA ∧ (p.fallDue timed).bankB = p.bankB ∧
    (p.fallDue timed).state = p.state ∧ (p.fallDue timed).ledger = p.ledger ∧ (p.fallDue timed).flight = p.flight := by
  unfold Plate.fallDue
  grind

theorem Plate.fallDue_starts (h : p.due = false) : (p.fallDue timed).steps = 0 ∧ (p.fallDue timed).measured = {} := by
  unfold Plate.due at h
  unfold Plate.fallDue
  grind

/-- A burnish that is due already goes on where it stands. -/
theorem Plate.fallDue_goes_on (h : p.due = true) :
    (p.fallDue timed).steps = p.steps ∧ (p.fallDue timed).measured = p.measured := by
  unfold Plate.due at h
  unfold Plate.fallDue
  grind

end

/-! ### The steps (R84) -/

/-- The trims in effect and the banks stay when a burnish ends. -/
theorem Plate.burnished_keeps (p : Plate) (m : BurnishSums) (now : Nat) : (p.burnished m now).offTrim = p.offTrim ∧
    (p.burnished m now).bankA = p.bankA ∧ (p.burnished m now).bankB = p.bankB := by
  simp only [Plate.burnished, Plate.keepBurnish, and_self]

/-- Where the state of the plate goes at the last step (R87, R88). -/
theorem Plate.burnished_state (p : Plate) (m : BurnishSums) (now : Nat) : (p.burnished m now).state =
    if p.beyond m = true then .failed else if p.state = .overdue then .inService else p.state := by
  simp only [Plate.burnished]

theorem State.modPlate_only (s : State) (g : Nat) (f : Plate → Plate) : OnlyPlate g s (s.modPlate g f) :=
  ⟨f (s.plate g), rfl⟩

theorem State.modPlate_modPlate (s : State) (g : Nat) (f h : Plate → Plate) :
    (s.modPlate g f).modPlate g h = s.modPlate g fun p => h (f p) := by
  simp [State.modPlate, tmod]

section
variable {s : State} {g : Nat} (passes : List (Tab Int))

theorem burnishStepEffect_before_last (h : (s.plate g).steps + 1 < 8) :
    burnishStepEffect s g passes = s.modPlate g fun p => p.measure passes := by
  unfold burnishStepEffect
  dsimp only
  rw [State.modPlate_same]
  exact if_pos h

/-- The eighth step ends the burnish: one change of the plate, and where a trim lies beyond its range, the event. -/
theorem burnishStepEffect_last (h : (s.plate g).steps = 7) :
    let p := (s.plate g).measure passes
    let t := s.modPlate g fun x => (x.measure passes).burnished p.measured s.frame.now
    burnishStepEffect s g passes = if p.beyond p.measured = true then t.plateEvent 0x0B g g true else t := by
  unfold burnishStepEffect burnishDone
  dsimp only
  rw [State.modPlate_same, State.modPlate_modPlate, State.modPlate_frame]
  exact if_neg (by simp [Plate.measure, h])

end

/-- Settles O26: the two events change one plate, and by its own figures; the failed and the overdue one tell the supervisor. -/
theorem burnishesRun : Obligations.BurnishesRun := by
  intro s g
  refine ⟨fun timed hready => answers_due rfl hready ?_, fun passes hready hsteps => answers_due rfl hready ?_,
    fun passes hready hsteps => ⟨fun hin => answers_due rfl hready ?_, fun hout => answers_due rfl hready ?_⟩,
    fun hready => answers_due rfl hready ?_⟩
  · obtain ⟨htimed, htemp⟩ := (s.plate g).fallDue_due timed
    obtain ⟨hbankA, hbankB, hstate, hledger, -⟩ := (s.plate g).fallDue_keeps timed
    rw [State.modPlate_same]
    exact ⟨s.modPlate_only g _, htimed, htemp, (s.plate g).fallDue_starts timed, (s.plate g).fallDue_goes_on timed,
      hbankA, hbankB, hstate, hledger⟩
  · rw [burnishStepEffect_before_last passes hsteps, State.modPlate_same]
    exact ⟨s.modPlate_only g _, rfl, rfl, rfl⟩
  · rw [burnishStepEffect_last passes hsteps, if_neg (Bool.eq_false_iff.1 hin), State.modPlate_same]
    obtain ⟨htrim, hbankA, hbankB⟩ := ((s.plate g).measure passes).burnished_keeps
      ((s.plate g).measure passes).measured s.frame.now
    refine ⟨s.modPlate_only g _, rfl, rfl, rfl, rfl, rfl, rfl, htrim, hbankA, hbankB, ?_⟩
    rw [Plate.burnished_state, if_neg (Bool.eq_false_iff.1 hin)]
    rfl
  · rw [burnishStepEffect_last passes hsteps, if_pos hout]
    obtain ⟨hplate, htold, hothers⟩ := s.modPlate_told g
      (fun x => (x.measure passes).burnished ((s.plate g).measure passes).measured s.frame.now) 0x0B g
    refine ⟨?_, ?_, htold, hothers⟩
    · rw [hplate, Plate.burnished_state, if_pos hout]
    · rw [hplate, Plate.burnished, hout, Bool.or_true]
  · obtain ⟨hplate, htold, hothers⟩ := s.modPlate_told g (fun p =>
      { p with overdues := satInc 32 p.overdues, state := if p.state = .inService then .overdue else p.state,
               overdueToo := decide (p.state ≠ .inService) }) 0x0A g
    refine ⟨?_, fun hserves => ?_, htold, hothers⟩
    · exact congrArg Plate.overdues hplate
    · exact (congrArg Plate.state hplate).trans (if_pos hserves)

end Sys2Proof.Machine
end

section
/-!
PassesArrive (R109, R240): what a record leaves of contexts, how a pass is counted in the two ledgers, and what the start or the
refusal of a rebite leaves of banks and counts.
-/

namespace Sys2Proof.Machine

open Sys2Proof

/-! ### What a record leaves of contexts (R211 to R214) -/

/-- A context without what the device's own writes into it may change: its table cache, its late faults, the place in its ring
and what it holds for it. -/
def Ctx.unrecorded (x : Ctx) : Ctx :=
  { x with tlb := [], late := {}, fences := [], queues := [], lost := false, hold := [], ringWritten := 0, toNotify := [] }

def State.unrecorded (s : State) (c : Nat) : Ctx := (s.ctx c).unrecorded

theorem State.modCtx_unrecorded (s : State) (c : Nat) (f : Ctx → Ctx) (hf : ∀ x, (f x).unrecorded = x.unrecorded) :
    (s.modCtx c f).unrecorded = s.unrecorded := by
  funext d
  unfold State.unrecorded
  by_cases hd : d = c
  · rw [hd, State.modCtx_same, hf]
  · rw [State.modCtx_ne _ _ hd]

theorem State.modQueue_unrecorded (s : State) (c q : Nat) (f : Queue → Queue) :
    (s.modQueue c q f).unrecorded = s.unrecorded := s.modCtx_unrecorded c _ fun _ => rfl

theorem State.modTen_unrecorded (s : State) (k : Nat) (f : Tenant → Tenant) : (s.modTen k f).unrecorded = s.unrecorded := rfl

theorem State.unrecorded_of_ctxs {s t : State} (h : t.ctxs = s.ctxs) : t.unrecorded = s.unrecorded := by
  funext d
  rw [State.unrecorded, State.ctx, h]
  rfl

theorem DataOnly.ctxs {s t : State} (h : DataOnly s t) : t.ctxs = s.ctxs := by
  obtain ⟨⟨m, p, f, x, rfl⟩, -, -⟩ := h
  rfl

theorem OnlyLooked.unrecorded {s t : State} (h : OnlyLooked s t) : t.unrecorded = s.unrecorded := by
  funext d
  obtain ⟨-, hctx⟩ := h
  obtain ⟨y, hy⟩ := hctx d
  rw [State.unrecorded, hy]
  rfl

section
variable (s : State)

theorem State.lateFault_unrecorded (c q cause : Nat) (ep : BitVec 16) (ca da : Nat) :
    (s.lateFault c q cause ep ca da).unrecorded = s.unrecorded := by
  have hlate : (s.lateRecord c q cause ep ca da).unrecorded = s.unrecorded :=
    (State.modTen_unrecorded _ _ _).trans (s.modCtx_unrecorded c _ fun _ => rfl)
  have hfences (u : State) (l : List Fence) : (u.modCtx c fun x => { x with fences := l }).unrecorded = u.unrecorded :=
    u.modCtx_unrecorded c _ fun _ => rfl
  unfold State.lateFault
  dsimp only
  split
  · exact (hfences _ _).trans hlate
  · exact ((State.modQueue_unrecorded _ c q _).trans (hfences _ _)).trans hlate

theorem State.wrOwn_unrecorded (c q ca : Nat) (t : Target) (bs : List Byte) :
    (s.wrOwn c q ca t bs).unrecorded = s.unrecorded := by
  unfold State.wrOwn
  repeat' split
  · exact s.lateFault_unrecorded c q _ _ _ _
  · exact State.unrecorded_of_ctxs (s.wr_dataOnly _ _).ctxs
  · exact State.unrecorded_of_ctxs (s.wrTarget_dataOnly _ _).ctxs

theorem State.wrCtx_unrecorded (c q a : Nat) (bs : List Byte) : (s.wrCtx c q a bs).unrecorded = s.unrecorded := by
  have hw := (s.writeTargets_looked c a bs).unrecorded
  unfold State.wrCtx
  split
  next l u heq =>
    rw [heq] at hw
    exact (foldl_keeps State.unrecorded l _ (fun t e => t.wrOwn_unrecorded c q e.1 e.2.1 e.2.2) u).trans hw
  next heq => rwa [heq] at hw

theorem State.putRec_unrecorded (r : Rec) : (s.putRec r).unrecorded = s.unrecorded :=
  (State.wrCtx_unrecorded _ _ _ _ _).trans (s.modCtx_unrecorded r.c _ fun _ => rfl)

theorem State.post_unrecorded (r : Rec) : (s.post r).unrecorded = s.unrecorded := by
  unfold State.post
  dsimp only
  repeat' split
  · rfl
  · exact (State.modTen_unrecorded _ _ _).trans (s.modCtx_unrecorded r.c _ fun _ => rfl)
  · exact s.putRec_unrecorded _
  · exact s.modCtx_unrecorded r.c _ fun _ => rfl
  · exact s.putRec_unrecorded _
  · exact s.modCtx_unrecorded r.c _ fun _ => rfl

end

/-- What records and messages to the supervisor leave. -/
structure Announced (s t : State) : Prop where
  plates : t.plates = s.plates
  rebites : t.rebites = s.rebites
  ops : t.ops = s.ops
  ctxs : t.unrecorded = s.unrecorded

theorem Announced.refl (s : State) : Announced s s := ⟨rfl, rfl, rfl, rfl⟩
theorem Announced.trans {s t u : State} (h : Announced s t) (h' : Announced t u) : Announced s u :=
  ⟨h'.plates.trans h.plates, h'.rebites.trans h.rebites, h'.ops.trans h.ops, h'.ctxs.trans h.ctxs⟩

theorem State.postSup_announced (s : State) (r : Rec) : Announced s (s.postSup r) := ⟨rfl, rfl, rfl, rfl⟩
theorem State.post_announced (s : State) (r : Rec) : Announced s (s.post r) := by
  have hctxs := s.post_unrecorded r
  obtain ⟨⟨m, p, f, x, c, n, hform⟩, -, -⟩ := s.post_recordsOnly r
  rw [hform] at hctxs ⊢
  exact ⟨rfl, rfl, rfl, hctxs⟩

theorem Announced.plate {s t : State} (h : Announced s t) (g : Nat) : t.plate g = s.plate g := by
  rw [State.plate, h.plates]
  rfl
theorem Announced.ctx {s t : State} (h : Announced s t) (c : Nat) : (t.ctx c).unrecorded = (s.ctx c).unrecorded :=
  congrFun h.ctxs c
theorem Announced.ledger {s t : State} (h : Announced s t) (c : Nat) : (t.ctx c).ledger = (s.ctx c).ledger := by
  have hledger := congrArg Ctx.ledger (h.ctx c)
  exact hledger
theorem Announced.refused {s t : State} (h : Announced s t) (c : Nat) : (t.ctx c).refused = (s.ctx c).refused := by
  have hrefused := congrArg Ctx.refused (h.ctx c)
  exact hrefused

/-! ### A pass in the ledgers (R109, R110) -/

/-- Ledger `m` is ledger `l` after it took a pass. -/
structure Counted (v : Verdict) (l m : Ledger) : Prop where
  proven : v.cls = 0 → m.proven = satInc 32 l.proven ∧ m.failed = l.failed
  failed : v.cls ≠ 0 → m.failed = satInc 32 l.failed ∧ m.proven = l.proven
  burr : m.lastBurr = v.beta

/-- The check of the drift sets the alarm alone. -/
theorem Ledger.driftCheck_alarm (l : Ledger) (limit : Nat) :
    ∃ a, (l.driftCheck limit).2 = { l with driftAlarm := a } := by
  unfold Ledger.driftCheck
  repeat' split
  · exact ⟨_, rfl⟩
  · exact ⟨_, rfl⟩
  · exact ⟨l.driftAlarm, rfl⟩

theorem Ledger.pass_counted (l : Ledger) (v : Verdict) (frame g c limit : Nat) :
    Counted v l ((l.pass v.cls v.beta v.d v.line frame g c).driftCheck limit).2 := by
  obtain ⟨a, ha⟩ := (l.pass v.cls v.beta v.d v.line frame g c).driftCheck_alarm limit
  rw [ha]
  unfold Ledger.pass
  by_cases hv : v.cls = 0
  · rw [if_pos hv]
    exact ⟨fun _ => ⟨rfl, rfl⟩, fun h => absurd hv h, rfl⟩
  · rw [if_neg hv]
    exact ⟨fun h => absurd h hv, fun _ => ⟨rfl, rfl⟩, rfl⟩

/-- R109: both ledgers take the pass; its plate keeps its banks and what flies on it, and no other plate changes. -/
structure PassRecorded (c g : Nat) (v : Verdict) (s t : State) : Prop where
  plate : Counted v (s.plate g).ledger (t.plate g).ledger
  ctx : Counted v (s.ctx c).ledger (t.ctx c).ledger
  bankA : (t.plate g).bankA = (s.plate g).bankA
  bankB : (t.plate g).bankB = (s.plate g).bankB
  flight : (t.plate g).flight = (s.plate g).flight
  others : ∀ j, j ≠ g → t.plate j = s.plate j
  rebites : t.rebites = s.rebites

theorem PassRecorded.announced {c g : Nat} {v : Verdict} {s t u : State} (h : PassRecorded c g v s t)
    (h' : Announced t u) : PassRecorded c g v s u := by
  obtain ⟨hplate, hctx, hbankA, hbankB, hflight, hothers, hrebites⟩ := h
  rw [← h'.plate] at hplate hbankA hbankB hflight
  rw [← h'.ledger] at hctx
  exact ⟨hplate, hctx, hbankA, hbankB, hflight, fun j hj => (h'.plate j).trans (hothers j hj), h'.rebites.trans hrebites⟩

/-- Both ledgers change, and a plate may fall due for a burnish (R110). -/
def State.setLedgers (s : State) (c g : Nat) (drifts : Bool) (pl cl : Ledger) : State :=
  (s.modPlate g fun p => (if drifts = true then p.fallDue false else p).withLedger pl).modCtx c fun x =>
    { x with ledger := cl }

theorem State.setLedgers_recorded {s : State} {c g : Nat} {v : Verdict} {pl cl : Ledger} (drifts : Bool)
    (hpl : Counted v (s.plate g).ledger pl) (hcl : Counted v (s.ctx c).ledger cl) :
    PassRecorded c g v s (s.setLedgers c g drifts pl cl) := by
  have hplate : (s.setLedgers c g drifts pl cl).plate g =
      (if drifts = true then (s.plate g).fallDue false else s.plate g).withLedger pl :=
    s.modPlate_same g fun p => (if drifts = true then p.fallDue false else p).withLedger pl
  obtain ⟨hbankA, hbankB, -, -, hflight⟩ := (s.plate g).fallDue_keeps false
  refine ⟨?_, ?_, ?_, ?_, ?_, fun j hj => ?_, rfl⟩
  · rw [hplate]
    exact hpl
  · rw [State.setLedgers, State.modCtx_same]
    exact hcl
  · refine (congrArg Plate.bankA hplate).trans ?_
    cases drifts <;> [rfl; exact hbankA]
  · refine (congrArg Plate.bankB hplate).trans ?_
    cases drifts <;> [rfl; exact hbankB]
  · refine (congrArg Plate.flight hplate).trans ?_
    cases drifts <;> [rfl; exact hflight]
  · exact s.modPlate_ne (fun p => (if drifts = true then p.fallDue false else p).withLedger pl) hj

theorem State.recordPass_recorded (s : State) (k c g : Nat) (v : Verdict) :
    PassRecorded c g v s (s.recordPass k c g v) := by
  have hpl := (s.plate g).ledger.pass_counted v s.frameLo g c (s.atTick 0x4520 1)
  have hcl := (s.ctx c).ledger.pass_counted v s.frameLo g c (s.cls k 8)
  unfold State.recordPass
  dsimp only
  have hset := State.setLedgers_recorded
    (((s.plate g).ledger.pass v.cls v.beta v.d v.line s.frameLo g c).driftCheck (s.atTick 0x4520 1)).1 hpl hcl
  have htold (u : State) (b : Bool) (r : Rec) : Announced u (if b = true then u.postSup r else u) := by
    split
    · exact u.postSup_announced r
    · exact Announced.refl u
  split
  · exact ((hset.announced (htold _ _ _)).announced (State.postSup_announced _ _)).announced (State.post_announced _ _)
  · exact hset.announced (htold _ _ _)

/-! ### What a rebite that starts, waits or is refused leaves (R100 to R102) -/

/-- The banks of a plate and what its ledger counts of passes. -/
def Plate.tally (p : Plate) : Bank × Bank × Nat × Nat × Nat :=
  (p.bankA, p.bankB, p.ledger.proven, p.ledger.failed, p.ledger.lastBurr)

/-- The tallies of the plates, and what each context's ledger counts of passes. -/
def State.tally (s : State) : (Nat → Bank × Bank × Nat × Nat × Nat) × (Nat → Nat × Nat) :=
  (fun g => (s.plate g).tally, fun c => ((s.ctx c).ledger.proven, (s.ctx c).ledger.failed))

section
variable (s : State) (c q i g round : Nat) (hi : Bool)

theorem State.tally_of_same {s t : State} (hp : t.plates = s.plates) (hc : t.ctxs = s.ctxs) : t.tally = s.tally := by
  simp [State.tally, State.plate, State.ctx, hp, hc]

theorem OnlyOps.tally {s t : State} (h : OnlyOps s t) : t.tally = s.tally := by
  obtain ⟨-, -, -, hctxs, hplates, -⟩ := h.same
  exact State.tally_of_same hplates hctxs

theorem State.modCtx_tally (f : Ctx → Ctx)
    (hf : ∀ x, (f x).ledger.proven = x.ledger.proven ∧ (f x).ledger.failed = x.ledger.failed) :
    (s.modCtx c f).tally = s.tally := by
  refine Prod.ext rfl (funext fun d => ?_)
  unfold State.tally
  dsimp only
  by_cases hd : d = c
  · obtain ⟨hproven, hfailed⟩ := hf (s.ctx c)
    rw [hd, State.modCtx_same, hproven, hfailed]
  · rw [State.modCtx_ne _ _ hd]

theorem State.modPlate_tally (f : Plate → Plate) (hf : ∀ p, (f p).tally = p.tally) : (s.modPlate g f).tally = s.tally := by
  refine Prod.ext (funext fun j => ?_) rfl
  unfold State.tally
  dsimp only
  by_cases hj : j = g
  · rw [hj, State.modPlate_same, hf]
  · rw [State.modPlate_ne _ _ hj]

theorem State.modLedgers_tally (f : Ledger → Ledger)
    (hf : ∀ l, (f l).proven = l.proven ∧ (f l).failed = l.failed ∧ (f l).lastBurr = l.lastBurr) :
    (s.modLedgers c g f).tally = s.tally := by
  have hctx (u : State) : (u.modCtx c fun x => { x with ledger := { f x.ledger with changed := true } }).tally = u.tally :=
    u.modCtx_tally c _ fun x => by
      obtain ⟨hproven, hfailed, -⟩ := hf x.ledger
      exact ⟨hproven, hfailed⟩
  refine (hctx _).trans (s.modPlate_tally g (fun p => { p with ledger := f p.ledger }) fun p => ?_)
  obtain ⟨hproven, hfailed, hburr⟩ := hf p.ledger
  simp only [Plate.tally, hproven, hfailed, hburr]

/-- A refusal counts itself, in other counters. -/
theorem refusePass_tally : (refusePass s c q i g round hi).tally = s.tally := by
  have hcount : ((s.modLedgers c g fun l => { l with refused := satInc 16 l.refused }).modCtx c
      fun x => { x with refused := satInc 32 x.refused }).tally = s.tally :=
    (State.modCtx_tally _ c (fun x => { x with refused := satInc 32 x.refused }) fun _ => ⟨rfl, rfl⟩).trans
      (s.modLedgers_tally c g (fun l => { l with refused := satInc 16 l.refused }) fun _ => ⟨rfl, rfl, rfl⟩)
  unfold refusePass
  split
  · rfl
  split
  · rfl
  dsimp only
  split
  · exact (State.setEtch_only _ c q i _).tally.trans hcount
  · exact (State.endOp_only _ c q i _ 0).tally.trans hcount

theorem State.charge_tally {ns : Nat} {t : State} (h : s.charge c q ns = some t) : t.tally = s.tally := by
  unfold State.charge at h
  dsimp only at h
  split at h
  · cases h
    exact s.modCtx_tally c _ fun x => by split <;> exact ⟨rfl, rfl⟩
  · cases h

theorem State.chargeUnit_tally (u ns : Nat) : (s.chargeUnit c q u ns).tally = s.tally := by
  unfold State.chargeUnit
  split <;> rfl

theorem State.delayStipple_tally (m ns : Nat) : (s.delayStipple m ns).tally = s.tally := by
  refine foldl_keeps State.tally s.ops _ (fun u o => ?_) s
  split
  · split
    · exact u.chargeUnit_tally o.c o.q _ ns
    · rfl
  · rfl

theorem tryRebite_tally (m : Nat) (r : Rebite) : (tryRebite s m r).2.tally = s.tally := by
  unfold tryRebite
  split
  · rfl
  split
  · rfl
  split
  · exact refusePass_tally s _ _ _ _ _ _
  split
  next t hcharge =>
    exact ((State.delayStipple_tally _ _ _).trans (t.chargeUnit_tally _ _ _ _)).trans (s.charge_tally _ _ hcharge)
  · exact refusePass_tally s _ _ _ _ _ _

theorem startRebites_tally (m : Nat) (l : List Rebite) : (startRebites m l s).tally = s.tally := by
  induction l generalizing s with
  | nil => rfl
  | cons r l ih =>
    have htry := tryRebite_tally s m r
    unfold startRebites
    split
    next heq => rw [heq] at htry; exact htry
    next heq => rw [heq] at htry; exact (ih _).trans htry

theorem rebitePass_tally : (rebitePass s c q i g round hi).tally = s.tally := by
  unfold rebitePass
  split
  · unfold queueRebite
    split
    · exact startRebites_tally s _ _
    · rfl
  · exact refusePass_tally s c q i g round hi

theorem State.plate_of_tally {s t : State} (h : t.tally = s.tally) (j : Nat) :
    (t.plate j).bankA = (s.plate j).bankA ∧ (t.plate j).bankB = (s.plate j).bankB ∧
    (t.plate j).ledger.proven = (s.plate j).ledger.proven ∧ (t.plate j).ledger.failed = (s.plate j).ledger.failed ∧
    (t.plate j).ledger.lastBurr = (s.plate j).ledger.lastBurr := by
  simpa [State.tally, Plate.tally] using congrFun (congrArg Prod.fst h) j

theorem State.ctx_of_tally {s t : State} (h : t.tally = s.tally) (d : Nat) :
    (t.ctx d).ledger.proven = (s.ctx d).ledger.proven ∧ (t.ctx d).ledger.failed = (s.ctx d).ledger.failed := by
  simpa [State.tally] using congrFun (congrArg Prod.snd h) d

end

/-! ### PASS_COMPLETE -/

theorem State.etchOp_op {s : State} {c q i : Nat} {o : Op} {h : EtchRun} (hop : s.etchOp c q i = some (o, h)) :
    s.op c q i = some o := by
  unfold State.etchOp at hop
  split at hop
  · split at hop
    · cases hop
      assumption
    · cases hop
  · cases hop

theorem State.op_names {s : State} {c q i : Nat} {o : Op} (h : s.op c q i = some o) : o.c = c ∧ o.q = q ∧ o.idx = i := by
  have hnames := List.find?_some h
  exact of_decide_eq_true hnames

theorem passEffect_current {s : State} {c q i g round : Nat} {hi : Bool} {o : Op} {h : EtchRun}
    (hflight : s.flightOf c q i g = none) (hop : s.etchOp c q i = some (o, h)) (hpass : h.passOf g = some (round, hi, false))
    (raw : Tab Int) (p1 p2 : Int) :
    let r := takePass s o h g round hi false raw p1 p2
    let t := (s.setEtch c q i r.2).recordPass (s.clsOf c) c g r.1
    passEffect s c q i g raw p1 p2 = if r.1.cls = 0 then t else rebitePass t c q i g round hi := by
  simp only [passEffect, hflight, hop, hpass]

/-- The group of a pass that ends in GUARD goes to its save slot: memory and its own operation. -/
theorem State.saveEtch_parts (s : State) (o : Op) (h : EtchRun) :
    (s.saveEtch o h).plates = s.plates ∧ (s.saveEtch o h).rebites = s.rebites := by
  unfold State.saveEtch
  obtain ⟨⟨m, p, f, x, hform⟩, -, -⟩ := s.wr_dataOnly (s.saveSlot o.c o.q h.pdie)
    (h.saveWords.flatMap fun v => leBytes 4 (unsigned 32 v))
  rw [hform]
  exact ⟨rfl, rfl⟩

/-- The pass in flight is recorded once, whatever became of its ETCH. -/
theorem flightEffect_recorded {s : State} {x : Flight} {g : Nat} {h : EtchRun} {p : Nat × Bool × Bool}
    (hrun : x.op.etchRun = some h) (hpass : h.passOf g = some p) (raw : Tab Int) (p1 p2 : Int) :
    ∃ v t, PassRecorded x.op.c g v (s.modPlate g fun y => { y with flight := none }) t ∧
      (flightEffect s x g raw p1 p2).plates = t.plates ∧ (flightEffect s x g raw p1 p2).rebites = t.rebites := by
  obtain ⟨round, hi, again⟩ := p
  unfold flightEffect
  simp only [hrun, hpass]
  split
  · obtain ⟨hplates, hrebites⟩ := State.saveEtch_parts
      ((s.modPlate g fun y => { y with flight := none }).recordPass x.cls x.op.c g _) _ _
    exact ⟨_, _, State.recordPass_recorded _ x.cls x.op.c g _, hplates, hrebites⟩
  · exact ⟨_, _, State.recordPass_recorded _ x.cls x.op.c g _, rfl, rfl⟩

theorem passesArrive : Claims.PassesArrive := by
  intro s c q i g raw p1 p2
  refine ⟨fun o h round hi hready hflight hop hpass => answers_due rfl hready ?_,
    fun x h p hflight hrun hpass => answers_due rfl (by simp [passReady, hflight]) ?_⟩
  · obtain ⟨rfl, -, -⟩ := State.op_names (State.etchOp_op hop)
    rw [passEffect_current hflight hop hpass]
    have hv : (takePass s o h g round hi false raw p1 p2).1 = judge s (s.clsOf o.c) (s.plate g).active (h.carryIn s o round) g
        ((h.carryIn s o round).codes (g, round, hi)) raw p1 p2 := rfl
    rw [← hv]
    generalize takePass s o h g round hi false raw p1 p2 = r
    obtain ⟨hplate, hctx, hbankA, hbankB, -, hothers, hrebites⟩ :=
      (s.setEtch o.c q i r.2).recordPass_recorded (s.clsOf o.c) o.c g r.1
    by_cases hcls : r.1.cls = 0
    · rw [if_pos hcls]
      obtain ⟨hproven, hfailed⟩ := hplate.proven hcls
      exact ⟨fun _ => ⟨hproven, (hctx.proven hcls).1, hfailed, hrebites⟩, fun hne => absurd hcls hne, hplate.burr,
        hbankA, hbankB, fun j hj => congrArg (fun y : Plate => y.ledger.proven) (hothers j hj)⟩
    · rw [if_neg hcls]
      have htally := rebitePass_tally ((s.setEtch o.c q i r.2).recordPass (s.clsOf o.c) o.c g r.1) o.c q i g round hi
      obtain ⟨hA, hB, hproven, hfailed, hburr⟩ := State.plate_of_tally htally g
      obtain ⟨-, hctxFailed⟩ := State.ctx_of_tally htally o.c
      obtain ⟨hcount, hsame⟩ := hplate.failed hcls
      refine ⟨fun heq => absurd heq hcls, fun _ => ⟨hfailed.trans hcount, hctxFailed.trans (hctx.failed hcls).1,
        hproven.trans hsame⟩, hburr.trans hplate.burr, hA.trans hbankA, hB.trans hbankB, fun j hj => ?_⟩
      obtain ⟨-, -, hother, -, -⟩ := State.plate_of_tally htally j
      exact hother.trans (congrArg (fun y : Plate => y.ledger.proven) (hothers j hj))
  · have heff : passEffect s c q i g raw p1 p2 = flightEffect s x g raw p1 p2 := by simp only [passEffect, hflight]
    rw [heff]
    obtain ⟨v, t, ⟨hplate, -, hbankA, hbankB, hgone, -, hrebites⟩, hplates, hqueue⟩ :=
      flightEffect_recorded (s := s) hrun hpass raw p1 p2
    have ht : (flightEffect s x g raw p1 p2).plate g = t.plate g := by rw [State.plate, hplates]; rfl
    rw [State.modPlate_same] at hplate hbankA hbankB hgone
    rw [ht]
    refine ⟨hgone, hqueue.trans hrebites, hbankA, hbankB, ?_⟩
    by_cases hcls : v.cls = 0
    · exact .inl (hplate.proven hcls)
    · exact .inr (hplate.failed hcls)

end Sys2Proof.Machine
end

section
/-!
RebitesAreChecked (R99 to R103): the read of a rebite's weights, the accepted and the rejected rebite.
-/

namespace Sys2Proof.Machine

open Sys2Proof

/-! ### The weights (R99) -/

theorem State.readBlock_looked (s : State) (c : Nat) (e : Engine) (pl : Place) (ecc : Found) (m : Mat) (w r0 rn c0 cn : Nat) :
    OnlyLooked s (s.readBlock c e pl ecc m w r0 rn c0 cn).2 := by
  unfold State.readBlock
  refine foldl_looked _ _ _ s (fun _ _ _ => rfl) fun vs u i => ?_
  dsimp only
  have hread := u.readSpace_looked c e pl ecc m.space (m.at w + (r0 + i) * m.stride + c0 * eltBits m.ty / 8)
    (rowBytes m.ty (c0 * (if m.ty = 0 then 1 else 0) % 2 + cn))
  split <;> next heq => rwa [heq] at hread

/-- What an answered look leaves. -/
theorem OnlyLooked.of_answer {α : Type} {s t : State} {r : α × State} {a : α} (h : OnlyLooked s r.2) (heq : r = (a, t)) :
    OnlyLooked s t := by rwa [heq] at h

theorem rebiteWeights_looked (s : State) (c m : Nat) (ecc : Found) (b : Bank) :
    OnlyLooked s (rebiteWeights s c m ecc b).2 := by
  have hblock (u : State) (x : Mat) (r0 rn : Nat) : OnlyLooked u (u.readBlock c (.field m) ⟨0, m⟩ ecc x 0 r0 rn 0 b.n).2 :=
    u.readBlock_looked c (.field m) ⟨0, m⟩ ecc x 0 r0 rn 0 b.n
  unfold rebiteWeights
  dsimp only
  split
  next heq => exact (hblock s _ _ _).of_answer heq
  next a u heq =>
    have hfirst : OnlyLooked s u := (hblock s _ _ _).of_answer heq
    split
    · exact hfirst
    · split <;> next heq' => exact hfirst.trans ((hblock u _ _ _).of_answer heq')

/-- Looking up and reading leave the ledgers, the refused passes and the messages. -/
theorem OnlyLooked.accounts {s t : State} (h : OnlyLooked s t) (d : Nat) :
    (t.ctx d).ledger = (s.ctx d).ledger ∧ (t.ctx d).refused = (s.ctx d).refused ∧ t.out = s.out := by
  obtain ⟨⟨x, m, p, rfl⟩, hctx⟩ := h
  obtain ⟨y, hy⟩ := hctx d
  rw [hy]
  exact ⟨rfl, rfl, rfl⟩

/-! ### The ETCH of a pass -/

theorem State.etchOp_of_ops {s t : State} (h : t.ops = s.ops) (c q i : Nat) : t.etchOp c q i = s.etchOp c q i := by
  rw [State.etchOp, State.op, h]
  rfl

theorem State.etchOp_setEtch {s : State} {c q i : Nat} {o : Op} (hop : s.op c q i = some o) (h : EtchRun) :
    (s.setEtch c q i h).etchOp c q i = some ({ o with prog := .etch h }, h) := by
  have hset : (s.setEtch c q i h).op c q i = some { o with prog := .etch h } := by
    refine (s.op_modOp c q i (fun o => { o with prog := .etch h }) fun _ => ⟨rfl, rfl, rfl⟩).trans ?_
    rw [hop]
    rfl
  simp only [State.etchOp, hset, Op.etchRun]

/-- A group takes contributions: registers and saturations alone. -/
theorem EtchRun.addGroup_form (h : EtchRun) (round : Nat) (adds : Tab Int) :
    ∃ a n, h.addGroup round adds = { h with acc := a, sat := n } :=
  fold_holds (fun t : EtchRun => ∃ a n, t = { h with acc := a, sat := n }) _ _ h ⟨h.acc, h.sat, rfl⟩ fun t j _ ht => by
    obtain ⟨a, n, rfl⟩ := ht
    exact ⟨_, _, rfl⟩

theorem State.modLedgers_ledger (s : State) (c g : Nat) (f : Ledger → Ledger) :
    ((s.modLedgers c g f).ctx c).ledger = { f (s.ctx c).ledger with changed := true } := by
  rw [State.modLedgers, State.modCtx_same]
  rfl

/-! ### The rebite accepted (R103) -/

theorem acceptRebite_gives {s : State} {r : Rebite} {o : Op} (hop : s.op r.c r.q r.idx = some o) (h : EtchRun)
    (f : FailedPass) (b : Bank) (sums : List Int) :
    (∃ o' h', (acceptRebite s r h f b sums).etchOp r.c r.q r.idx = some (o', h') ∧ h'.rebitten = h.rebitten + 1 ∧
      h'.fails = h.fails.filter fun x => !x.is r.g r.round r.hi) ∧
    ((acceptRebite s r h f b sums).ctx r.c).ledger.rebitten = satInc 32 (s.ctx r.c).ledger.rebitten ∧
    (acceptRebite s r h f b sums).mem = s.mem ∧ (acceptRebite s r h f b sums).out = s.out := by
  unfold acceptRebite
  dsimp only
  generalize tofList 0 ((idealCodes h.s sums).map (clampS 10)) = codes
  generalize (if f.out = true then _ else 0 : Nat) = clips
  refine ⟨?_, ?_, rfl, rfl⟩
  · refine ⟨_, _, (State.etchOp_of_ops rfl _ _ _).trans (State.etchOp_setEtch hop _), ?_⟩
    obtain ⟨a, n, hform⟩ := EtchRun.addGroup_form { h with
      fails := h.fails.filter (fun x => !x.is r.g r.round r.hi), rebitten := h.rebitten + 1, clip := h.clip + clips } r.round
      (passAdds { h with
        fails := h.fails.filter (fun x => !x.is r.g r.round r.hi), rebitten := h.rebitten + 1, clip := h.clip + clips }
        b r.hi codes)
    rw [hform]
    exact ⟨rfl, rfl⟩
  · rw [State.modLedgers_ledger]
    rfl

/-! ### The rebite rejected (R102, R103) -/

theorem refusePass_counts {s : State} {c q i g round : Nat} {hi : Bool} {o : Op} {h : EtchRun} {f : FailedPass}
    (hop : s.etchOp c q i = some (o, h)) (hf : h.fails.find? (fun x => x.is g round hi) = some f) :
    ((refusePass s c q i g round hi).ctx c).refused = satInc 32 (s.ctx c).refused ∧
    ((refusePass s c q i g round hi).ctx c).ledger.rebitten = (s.ctx c).ledger.rebitten ∧
    (refusePass s c q i g round hi).out = s.out := by
  let u := (s.modLedgers c g fun l => { l with refused := satInc 16 l.refused }).modCtx c
    fun x => { x with refused := satInc 32 x.refused }
  obtain ⟨hrefused, hrebitten⟩ :
      (u.ctx c).refused = satInc 32 (s.ctx c).refused ∧ (u.ctx c).ledger.rebitten = (s.ctx c).ledger.rebitten := by
    simp [u, State.modLedgers, State.ctx]
  have hended (t : State) (ht : OnlyOps u t) : (t.ctx c).refused = satInc 32 (s.ctx c).refused ∧
      (t.ctx c).ledger.rebitten = (s.ctx c).ledger.rebitten ∧ t.out = s.out := by
    obtain ⟨l, rfl⟩ := ht
    exact ⟨hrefused, hrebitten, rfl⟩
  unfold refusePass
  simp only [hop, hf]
  split
  · exact hended _ (State.setEtch_only _ c q i _)
  · exact hended _ (State.endOp_only _ c q i _ 0)

/-- The supervisor is told of a rebite that is rejected, and its pass is refused. -/
theorem rebite_rejected {s : State} {c q i g round : Nat} {hi : Bool} {o : Op} {h : EtchRun} {f : FailedPass} (e : Rec)
    (hop : s.etchOp c q i = some (o, h)) (hf : h.fails.find? (fun x => x.is g round hi) = some f) :
    let t := refusePass ((s.postSup e).post { e with q := 15 }) c q i g round hi
    t.out = s.out ++ [.superEvent { e with q := 15 }] ∧ (t.ctx c).refused = satInc 32 (s.ctx c).refused ∧
    (t.ctx c).ledger.rebitten = (s.ctx c).ledger.rebitten := by
  have htold := (s.postSup_announced e).trans ((s.postSup e).post_announced { e with q := 15 })
  have hout : ((s.postSup e).post { e with q := 15 }).out = s.out ++ [.superEvent { e with q := 15 }] := by
    obtain ⟨⟨m, p, b, x, d, n, hform⟩, -, -⟩ := (s.postSup e).post_recordsOnly { e with q := 15 }
    rw [hform]
    rfl
  obtain ⟨hrefused, hrebitten, hsent⟩ := refusePass_counts ((State.etchOp_of_ops htold.ops c q i).trans hop) hf
  rw [htold.refused] at hrefused
  rw [htold.ledger] at hrebitten
  exact ⟨hsent.trans hout, hrefused, hrebitten⟩

/-! ### REBITE_COMPLETE -/

/-- With no rebite behind it, the end of a rebite leaves its die's queue empty. -/
theorem rebiteEffect_alone {s : State} {m : Nat} {r : Rebite} (h : tget [] s.rebites m = [r]) (bad : Bool) (ecc : Found) :
    ∃ x, rebiteEffect s m bad ecc = { endRebite s m r bad ecc with rebites := x } ∧ tget [] x m = [] := by
  simp only [rebiteEffect, h, startRebites]
  exact ⟨_, rfl, tget_tset_same _ _ _ _⟩

section
variable {s u : State} {m : Nat} {bad : Bool} {ecc : Found} {r : Rebite} {o : Op} {h : EtchRun} {f : FailedPass}
  {w : List Int} (hop : s.etchOp r.c r.q r.idx = some (o, h)) (hfin : o.fin = none)
  (hf : h.fails.find? (fun x => x.is r.g r.round r.hi) = some f)
  (hw : rebiteWeights s r.c m ecc (s.plate r.g).active = (.ok w, u))
include hop hfin hf hw

theorem endRebite_checked :
    let b := (s.plate r.g).active
    let sums := exactSums b (dacCodes u o h (r.g, r.round, r.hi)) w
    let e := { u.mkRec 0x0D with c := r.c, die := 4 + r.g / 4, detail := BitVec.ofNat 64 r.g }
    endRebite s m r bad ecc =
      if (!bad && sumCheck f sums) = true then acceptRebite u r h f (if b.lost then mkBank b w else b) sums
      else refusePass ((u.postSup e).post { e with q := 15 }) r.c r.q r.idx r.g r.round r.hi := by
  simp only [endRebite, hop, hf, hw, hfin, ne_eq, not_true_eq_false, if_false]

end

theorem rebitesAreChecked : Claims.RebitesAreChecked := by
  intro s u m bad ecc r o h f w hqueue hop hfin hf hw
  have hready : rebiteReady s m = true := by simp [rebiteReady, hqueue]
  have hlook : OnlyLooked s u := (rebiteWeights_looked s r.c m ecc (s.plate r.g).active).of_answer hw
  obtain ⟨hmem, -, -, hops, -⟩ := hlook.data
  obtain ⟨hledger, hrefused, hout⟩ := hlook.accounts r.c
  have hopu : u.etchOp r.c r.q r.idx = some (o, h) := (State.etchOp_of_ops hops _ _ _).trans hop
  obtain ⟨x, heff, hempty⟩ := rebiteEffect_alone hqueue bad ecc
  refine ⟨fun hgood hsums => answers_due rfl hready ?_, fun hreject => answers_due rfl hready ?_⟩
  · rw [heff, endRebite_checked hop hfin hf hw, if_pos (by simp [hgood, hsums])]
    obtain ⟨⟨o', h', hop', hgiven⟩, hcount, hmem', hout'⟩ := acceptRebite_gives (State.etchOp_op hopu) h f
      (if (s.plate r.g).active.lost then mkBank (s.plate r.g).active w else (s.plate r.g).active)
      (exactSums (s.plate r.g).active (dacCodes u o h (r.g, r.round, r.hi)) w)
    refine ⟨⟨o', h', (State.etchOp_of_ops rfl _ _ _).trans hop', hgiven⟩, ?_, hempty,
      hmem'.trans hmem, hout'.trans hout⟩
    exact hcount.trans (by rw [hledger])
  · rw [heff, endRebite_checked hop hfin hf hw, if_neg (by rcases hreject with h | h <;> simp [h])]
    obtain ⟨htold, hcount, hrebitten⟩ := rebite_rejected
      { u.mkRec 0x0D with c := r.c, die := 4 + r.g / 4, detail := BitVec.ofNat 64 r.g } hopu hf
    exact ⟨⟨_, htold.trans (by rw [hout]), rfl⟩, hcount.trans (by rw [hrefused]), hrebitten.trans (by rw [hledger]),
      hempty⟩

end Sys2Proof.Machine
end

section
/-!
EtchWritesOut (R79, R80, R104, Table 3-4): the rows an ETCH writes into its etch share, the flags it leaves in ledgers, and its
end.
-/

namespace Sys2Proof.Machine

open Sys2Proof

/-! ### Rows in the etch share -/

/-- The etch shares lie above the keep table (Table 1-9). -/
theorem State.etchAddr_outside_keep (s : State) (c p off k : Nat) : inKeep (s.etchAddr c p off + k) = false := by
  have hkeep : keepBase + 0x8000 ≤ etchBaseOf 0 := by decide
  have hbase : etchBaseOf 0 ≤ s.etchAddr c p off := by
    rw [State.etchAddr, etchBaseOf, etchBaseOf, Nat.zero_mul, Nat.add_zero]
    exact (Nat.le_add_right _ _).trans ((Nat.le_add_right _ _).trans (Nat.le_add_right _ _))
  refine decide_eq_false fun hin => ?_
  omega

/-- Where row `r` of the output of an ETCH stands, and its bytes. -/
def State.outBase (s : State) (c : Nat) (o : Op) (h : EtchRun) (r : Nat) : Nat :=
  s.etchAddr c h.pdie (roundRow o.dd o.dd.rows r)
def EtchRun.outBytes (h : EtchRun) (o : Op) (r : Nat) : List Byte := encodeRow o.dd.ty ((h.outRow o.dd.ty r).map (·.1))

/-- The rows written, one after the other. -/
def State.writeRows (s : State) (c : Nat) (o : Op) (h : EtchRun) : State :=
  (List.range h.rounds).foldl (fun u r => u.wr (u.outBase c o h r) (h.outBytes o r)) s

theorem State.wr_form (s : State) (a : Nat) (bs : List Byte) :
    ∃ m p f, s.wr a bs = { s with mem := m, poison := p, fabs := f } := by
  obtain ⟨f, hf⟩ := s.wrPar_form a bs.length
  rw [State.wr, hf]
  exact ⟨_, _, f, rfl⟩

theorem State.writeRows_form (s : State) (c : Nat) (o : Op) (h : EtchRun) :
    ∃ m p f, s.writeRows c o h = { s with mem := m, poison := p, fabs := f } :=
  fold_holds (fun u : State => ∃ m p f, u = { s with mem := m, poison := p, fabs := f }) _ _ s
    ⟨s.mem, s.poison, s.fabs, rfl⟩ fun u r _ hu => by
      obtain ⟨m, p, f, rfl⟩ := hu
      obtain ⟨m', p', f', hwr⟩ := State.wr_form { s with mem := m, poison := p, fabs := f }
        (State.outBase { s with mem := m, poison := p, fabs := f } c o h r) (h.outBytes o r)
      exact ⟨m', p', f', hwr⟩

/-- Bytes outside the rows read as before. -/
theorem State.writeRows_outside (s : State) (c : Nat) (o : Op) (h : EtchRun) {a : Nat}
    (ha : ∀ r, r < h.rounds → a < s.outBase c o h r ∨ s.outBase c o h r + (h.outBytes o r).length ≤ a) :
    (s.writeRows c o h).rd a = s.rd a := by
  obtain ⟨-, hread⟩ : (s.writeRows c o h).ctxs = s.ctxs ∧ (s.writeRows c o h).rd a = s.rd a := by
    refine fold_holds (fun u : State => u.ctxs = s.ctxs ∧ u.rd a = s.rd a) _ _ s ⟨rfl, rfl⟩ ?_
    rintro u r hr ⟨hctxs, hread⟩
    have hbase : u.outBase c o h r = s.outBase c o h r := by
      rw [State.outBase, State.etchAddr, State.ctx, hctxs]
      rfl
    rw [hbase]
    exact ⟨(u.wr_dataOnly _ _).ctxs.trans hctxs, (State.rd_wr_outside u (ha r (List.mem_range.1 hr))).trans hread⟩
  exact hread

theorem State.writeRows_single (s : State) (c : Nat) (o : Op) {h : EtchRun} (hone : h.rounds = 1) {k : Nat}
    (hk : k < (h.outBytes o 0).length) : (s.writeRows c o h).rd (s.outBase c o h 0 + k) = (h.outBytes o 0).getD k 0 := by
  have hrows : s.writeRows c o h = s.wr (s.outBase c o h 0) (h.outBytes o 0) := by
    rw [State.writeRows, hone]
    rfl
  rw [hrows, State.rd_wr, if_pos ⟨s.etchAddr_outside_keep c h.pdie _ k, Nat.le_add_right _ k, Nat.add_lt_add_left hk _⟩,
    Nat.add_sub_cancel_left]

/-! ### Flags in ledgers (R102, R109) -/

/-- The ledgers of plates count a flagged output. -/
def State.flagPlateLedgers (s : State) (gs : List Nat) : State :=
  s.each gs fun s g => s.modPlate g fun p => { p with ledger := { p.ledger with flagged := satInc 16 p.ledger.flagged } }

theorem State.flagPlateLedgers_form (s : State) (gs : List Nat) : ∃ x, s.flagPlateLedgers gs = { s with plates := x } :=
  fold_holds (fun u : State => ∃ x, u = { s with plates := x }) _ _ s ⟨s.plates, rfl⟩ fun u g _ hu => by
    obtain ⟨x, rfl⟩ := hu
    exact ⟨_, rfl⟩

/-- The ledgers of the plates of a flagged output and of its context count it. -/
def State.flagLedgers (s : State) (c : Nat) (gs : List Nat) : State :=
  if gs = [] then s else
    (s.flagPlateLedgers gs).modCtx c fun x =>
      { x with ledger := { x.ledger with flagged := satInc 16 x.ledger.flagged, changed := true } }

theorem State.flagLedgers_form (s : State) (c : Nat) (gs : List Nat) :
    ∃ x y, s.flagLedgers c gs = { s with plates := x, ctxs := y } := by
  obtain ⟨x, hx⟩ := s.flagPlateLedgers_form gs
  rw [State.flagLedgers, hx]
  split
  · exact ⟨s.plates, s.ctxs, rfl⟩
  · exact ⟨x, _, rfl⟩

/-- A ledger is no part of the keep table. -/
theorem State.flagLedgers_keep (s : State) (c : Nat) (gs : List Nat) (d : Nat) :
    ((s.flagLedgers c gs).ctx d).keep = (s.ctx d).keep := by
  obtain ⟨x, hx⟩ := s.flagPlateLedgers_form gs
  rw [State.flagLedgers, hx]
  split
  · rfl
  · by_cases hd : d = c
    · rw [hd, State.modCtx_same]
      rfl
    · rw [State.modCtx_ne _ _ hd]
      rfl

/-- Every byte of memory reads as before. -/
theorem State.flagLedgers_rd (s : State) (c : Nat) (gs : List Nat) (a : Nat) : (s.flagLedgers c gs).rd a = s.rd a := by
  obtain ⟨x, y, hform⟩ := s.flagLedgers_form c gs
  have hmem : (s.flagLedgers c gs).mem = s.mem := by rw [hform]
  unfold State.rd
  rw [State.flagLedgers_keep, hmem]

/-! ### ETCH_WRITE_OUT -/

theorem zipIdx_map_range {α : Type} (f : Nat → α) (n : Nat) :
    ((List.range n).map f).zipIdx = (List.range n).map fun r => (f r, r) := by
  refine List.ext_getElem (by simp) fun i _ _ => ?_
  simp

theorem writeOutEffect_ends {s : State} {c q i : Nat} {o : Op} {h : EtchRun} (hop : s.etchOp c q i = some (o, h)) :
    ∃ w, writeOutEffect s c q i = ((s.writeRows c o h).flagLedgers c h.flagPlates).endOp c q i none w := by
  simp only [writeOutEffect, hop, zipIdx_map_range, List.foldl_map]
  exact ⟨_, rfl⟩

theorem etchWritesOut : Claims.EtchWritesOut := by
  intro s c q i o h hready hop
  refine answers_due rfl hready ?_
  obtain ⟨w, heff⟩ := writeOutEffect_ends hop
  obtain ⟨x, y, hflags⟩ := (s.writeRows c o h).flagLedgers_form c h.flagPlates
  obtain ⟨m, p, f, hrows⟩ := s.writeRows_form c o h
  have hread (a : Nat) : (writeOutEffect s c q i).rd a = (s.writeRows c o h).rd a := by
    rw [heff]
    exact State.flagLedgers_rd _ c h.flagPlates a
  have hfound : ((s.writeRows c o h).flagLedgers c h.flagPlates).op c q i = some o := by
    rw [hflags, hrows]
    exact State.etchOp_op hop
  refine ⟨fun a ha => (hread a).trans (s.writeRows_outside c o h ha),
    fun hone k hk => (hread _).trans (s.writeRows_single c o hone hk), ?_⟩
  rw [heff]
  refine ⟨⟨_, State.op_endOp_success hfound w, rfl⟩, ?_⟩
  rw [hflags, hrows]
  refine ⟨rfl, rfl, ?_⟩
  constructor <;> rfl

/-- Settles O25: a pass is one record in both ledgers, a rebite ends by its sums, and the rows of an ETCH are all it writes. -/
theorem passesRebitesAndWriteOut : Obligations.PassesRebitesAndWriteOut := ⟨passesArrive, rebitesAreChecked, etchWritesOut⟩

end Sys2Proof.Machine
end

section
/-!
What draining a product into its destination, releasing the writes of an operation and counting a mismatch may touch
(R22, R107, R140, R163), said once for the tiles of a HATCH and the operations of Stipple.
-/

namespace Sys2Proof.Machine

open Sys2Proof

/-! ### An outstanding operation -/

theorem State.op_of_ops {s t : State} (h : t.ops = s.ops) (c q i : Nat) : t.op c q i = s.op c q i := by
  rw [State.op, h]
  rfl

/-- What the operation under (c, q, i) does next, its names and its outcome kept. -/
theorem State.op_modOp_prog {s : State} {c q i : Nat} {o : Op} (h : s.op c q i = some o) (p : Prog) :
    (s.modOp c q i fun x => { x with prog := p }).op c q i = some { o with prog := p } := by
  rw [s.op_modOp c q i (fun x => { x with prog := p }) fun _ => ⟨rfl, rfl, rfl⟩, h]
  rfl

theorem State.op_holdWrites {s : State} {c q i : Nat} {o : Op} (h : s.op c q i = some o) (e : Engine)
    (l : List (Nat × Target × List Byte)) : (s.holdWrites c q i e l).op c q i =
      some { o with held := o.held ++ l.map (mkPosted c q (s.wayOf e)) } := by
  refine (s.op_modOp c q i (fun x => { x with held := x.held ++ l.map (mkPosted c q (s.wayOf e)) })
    fun _ => ⟨rfl, rfl, rfl⟩).trans ?_
  rw [h]
  rfl

theorem State.runningOp_op {s : State} {c q i : Nat} {o : Op} (h : s.runningOp c q i = some o) : s.op c q i = some o := by
  unfold State.runningOp at h
  split at h
  · next x hx =>
    split at h
    · cases h
      exact hx
    · cases h
  · cases h

/-! ### A block of a product drained (R163, R165) -/

/-- At most table caches, memory error counters, poison, the counter of free values and the outstanding operations differ: what
draining blocks of a product leaves. -/
def OnlyDrained (s t : State) : Prop :=
  ∃ x m p n l, t = { s with ctxs := x, memStat := m, poison := p, freeCtr := n, ops := l }

theorem OnlyDrained.refl (s : State) : OnlyDrained s s := ⟨s.ctxs, s.memStat, s.poison, s.freeCtr, s.ops, rfl⟩

theorem OnlyDrained.trans {s t u : State} (h : OnlyDrained s t) (h' : OnlyDrained t u) : OnlyDrained s u := by
  obtain ⟨x, m, p, n, l, rfl⟩ := h
  obtain ⟨x', m', p', n', l', rfl⟩ := h'
  exact ⟨x', m', p', n', l', rfl⟩

theorem OnlyLooked.drained {s t : State} (h : OnlyLooked s t) : OnlyDrained s t := by
  obtain ⟨⟨x, m, p, rfl⟩, -⟩ := h
  exact ⟨x, m, p, s.freeCtr, s.ops, rfl⟩

theorem OnlyOps.drained {s t : State} (h : OnlyOps s t) : OnlyDrained s t := by
  obtain ⟨l, rfl⟩ := h
  exact ⟨s.ctxs, s.memStat, s.poison, s.freeCtr, l, rfl⟩

theorem OnlyDrained.data {s t : State} (h : OnlyDrained s t) :
    t.mem = s.mem ∧ t.host = s.host ∧ t.posted = s.posted ∧ t.fabs = s.fabs ∧ SameSystem s t := by
  obtain ⟨x, m, p, n, l, rfl⟩ := h
  refine ⟨rfl, rfl, rfl, rfl, ?_⟩
  constructor <;> rfl

theorem State.blockTargets_looked (s : State) (c : Nat) (e : Engine) (pl : Place) (m : Mat) (w r0 b : Nat)
    (rows : List (List Byte)) : OnlyLooked s (s.blockTargets c e pl m w r0 b rows).2 := by
  unfold State.blockTargets
  refine foldl_looked _ _ _ s (fun _ _ _ => rfl) fun l u row => ?_
  dsimp only
  have htargets := u.spaceTargets_looked c pl m.space (m.at w + (r0 + row.2) * m.stride + b) row.1 true
  split
  next heq => exact htargets.of_answer heq
  next heq => split <;> exact htargets.of_answer heq

/-- Where a block drains, its writes are added to those the operation holds. -/
theorem drainBlock_holds {s t : State} {o : Op} {m e r0 rn c0 cn n : Nat} {acc : List Nat}
    (h : drainBlock s o m e r0 rn c0 cn acc = (.ok n, t)) :
    ∃ k u l, OnlyLooked { s with freeCtr := k } u ∧ t = u.holdWrites o.c o.q o.idx (.field m) l := by
  unfold drainBlock at h
  dsimp only at h
  split at h
  · cases h
  next l u heq =>
    cases h
    exact ⟨_, u, l, (State.blockTargets_looked _ _ _ _ _ _ _ _ _).of_answer heq, rfl⟩

theorem drainBlock_drained (s : State) (o : Op) (m e r0 rn c0 cn : Nat) (acc : List Nat) :
    OnlyDrained s (drainBlock s o m e r0 rn c0 cn acc).2 := by
  have hfree (k : Nat) : OnlyDrained s { s with freeCtr := k } := ⟨s.ctxs, s.memStat, s.poison, k, s.ops, rfl⟩
  unfold drainBlock
  dsimp only
  split
  next heq => exact (hfree _).trans ((State.blockTargets_looked _ _ _ _ _ _ _ _ _).of_answer heq).drained
  next heq =>
    exact ((hfree _).trans ((State.blockTargets_looked _ _ _ _ _ _ _ _ _).of_answer heq).drained).trans
      (State.holdWrites_only _ _ _ _ _ _).drained

/-! ### The writes of an operation stand (R140) -/

theorem State.postAll_form (s : State) (c q : Nat) (l : List Posted) :
    ∃ ps x, s.postAll c q l = { s with posted := ps, ctxs := x } := by
  unfold State.postAll
  dsimp only
  split
  · exact ⟨_, _, rfl⟩
  · exact ⟨_, s.ctxs, rfl⟩

/-- What is released goes to memory, to host memory or to the posted writes. -/
theorem State.release_keeps (s : State) (o : Op) : (s.release o).ops = s.ops ∧ SameSystem s (s.release o) := by
  unfold State.release
  split
  · exact ⟨rfl, by constructor <;> rfl⟩
  split
  · obtain ⟨ps, x, hpost⟩ := s.postAll_form o.c o.q o.held
    rw [hpost]
    exact ⟨rfl, by constructor <;> rfl⟩
  · have hdata : DataOnly s (o.held.foldl (fun s p => s.wrTarget p.target p.bytes) s) :=
      fold_holds (DataOnly s) _ _ s (DataOnly.refl s) fun u p _ h => h.trans (u.wrTarget_dataOnly p.target p.bytes)
    obtain ⟨⟨m, p, f, x, hform⟩, -, -⟩ := hdata
    rw [hform]
    exact ⟨rfl, by constructor <;> rfl⟩

/-- An operation that succeeds: it ends with its status word, and what it held stands. -/
theorem State.finishOp_success {s : State} {c q i : Nat} {o : Op} (hop : s.op c q i = some o) (w : BitVec 64) :
    let t := s.finishOp c q i none w
    t.op c q i = some { o with fin := some .success, sword := w, held := [] } ∧
    t.mem = (s.release o).mem ∧ t.host = (s.release o).host ∧ t.posted = (s.release o).posted ∧ SameSystem s t := by
  intro t
  have ht : t = (s.release o).endOp c q i none w := by
    simp only [t, State.finishOp, State.settleOp, hop, if_true]
  obtain ⟨hops, hsys⟩ := s.release_keeps o
  obtain ⟨hmem, hhost, hposted, -, -, hsys'⟩ := ((s.release o).endOp_only c q i none w).same
  rw [ht]
  exact ⟨State.op_endOp_success ((State.op_of_ops hops c q i).trans hop) w, hmem, hhost, hposted, hsys.trans hsys'⟩

/-- An operation that faults: it ends with its fault, and nothing it held stands. -/
theorem State.finishOp_fails {s : State} {c q i : Nat} {o : Op} (hop : s.op c q i = some o) (f : Flt) (w : BitVec 64) :
    let t := s.finishOp c q i (some f) w
    t.op c q i = some { o with fin := some f.1, detail := BitVec.ofNat 64 f.2, held := [] } ∧
    t.mem = s.mem ∧ t.posted = s.posted ∧ t.fabs = s.fabs ∧ SameSystem s t := by
  intro t
  have ht : t = s.endOp c q i (some f) w := rfl
  obtain ⟨hmem, -, hposted, hfabs, hsys⟩ := (s.endOp_only c q i (some f) w).drained.data
  rw [ht]
  exact ⟨State.op_endOp_fault hop f w, hmem, hposted, hfabs, hsys⟩

/-! ### A mismatch counted (R107, R332) -/

theorem State.fab_of_fabs {s t : State} (h : t.fabs = s.fabs) (m : Nat) : t.fab m = s.fab m := by
  rw [State.fab, h]
  rfl

/-- A mismatch is counted on its die, whose scrub starts from stripe 0; nothing but that die differs. -/
theorem State.countMismatch_counts (s : State) (m : Nat) (cross : Bool) :
    (∃ f, s.countMismatch m cross = { s with fabs := f }) ∧
    ((s.countMismatch m cross).fab m).mismX = (if cross then satInc 32 (s.fab m).mismX else (s.fab m).mismX) ∧
    ((s.countMismatch m cross).fab m).mismS = (if cross then (s.fab m).mismS else satInc 32 (s.fab m).mismS) ∧
    ((s.countMismatch m cross).fab m).stripe = 0 ∧ ((s.countMismatch m cross).fab m).demanded = true ∧
    ((s.countMismatch m cross).fab m).desc = (s.fab m).desc := by
  refine ⟨⟨_, rfl⟩, ?_⟩
  cases cross <;> simp [State.countMismatch, State.demandScrub]

end Sys2Proof.Machine
end

section
/-!
FetchesAndClaims (R163, R164, R165, R175): a fetch that ends and a claim that is granted change the operation they belong to and
nothing else but what a read leaves.
-/

namespace Sys2Proof.Machine

open Sys2Proof

/-! ### Fetches -/

theorem fetchBlock_looked (s : State) (o : Op) (m : Nat) (ecc : Found) (x : Mat)
    (sheet : Option (List Int × Nat × Nat × Nat)) (e r0 rn c0 cn : Nat) :
    OnlyLooked s (fetchBlock s o m ecc x sheet e r0 rn c0 cn).2 := by
  unfold fetchBlock
  split
  · exact OnlyLooked.refl s
  split
  · exact OnlyLooked.refl s
  · exact s.readBlock_looked _ _ _ _ _ _ _ _ _ _

theorem fetchItem_looked (s : State) (o : Op) (h : HatchRun) (m i : Nat) (x : WalkItem) (ecc : Found) :
    OnlyLooked s (fetchItem s o h m i x ecc).2 := by
  have hstaged (u : State) (b : Bool) (y : Mat) (e r0 rn c0 cn : Nat) :
      OnlyLooked u (if b then fetchBlock u o m ecc y none e r0 rn c0 cn else (.ok [], u)).2 := by
    split
    · exact fetchBlock_looked u o m ecc y none e r0 rn c0 cn
    · exact OnlyLooked.refl u
  unfold fetchItem
  dsimp only
  split
  · split
    next heq => exact (hstaged s _ _ _ _ _ _ _).of_answer heq
    next heq =>
      have hfirst := (hstaged s _ _ _ _ _ _ _).of_answer heq
      split <;> next heq' => exact hfirst.trans ((hstaged _ _ _ _ _ _ _ _).of_answer heq')
  · split
    next heq => exact (fetchBlock_looked s o m ecc _ _ _ _ _ _ _).of_answer heq
    next heq =>
      have hfirst := (fetchBlock_looked s o m ecc _ _ _ _ _ _ _).of_answer heq
      split <;> next heq' => exact hfirst.trans ((fetchBlock_looked _ o m ecc _ _ _ _ _ _ _).of_answer heq')

/-- After a look, the operation under (c, q, i) takes its next step; no data and nothing of the system differs. -/
theorem OnlyLooked.steps {s u : State} (h : OnlyLooked s u) {c q i : Nat} {o : Op} (hop : s.op c q i = some o) (p : Prog) :
    let t := u.modOp c q i fun x => { x with prog := p }
    (t.mem = s.mem ∧ t.host = s.host ∧ t.posted = s.posted ∧ t.plates = s.plates ∧ SameSystem s t) ∧
    t.op c q i = some { o with prog := p } := by
  intro t
  obtain ⟨hmem, hhost, hposted, hops, hplates⟩ := h.data
  obtain ⟨hmem', hhost', hposted', -, hplates', hsys⟩ := (u.modOp_only c q i fun x => { x with prog := p }).same
  exact ⟨⟨hmem'.trans hmem, hhost'.trans hhost, hposted'.trans hposted, hplates'.trans hplates, h.system.trans hsys⟩,
    State.op_modOp_prog ((State.op_of_ops hops c q i).trans hop) p⟩

/-- No fetch of a tile is ready: a tile takes what its panel or slices fetched. -/
theorem fetchReady_not_tile {s : State} {c q i item : Nat} {o : Op} {h : HatchRun} {x : WalkItem}
    (hready : fetchReady s c q i item = true) (hop : s.op c q i = some o) (hprog : o.prog = .hatch h)
    (hx : h.walk[item]? = some x) : x.isTile = false := by
  unfold fetchReady at hready
  split at hready
  next r hr =>
    cases hop.symm.trans (State.runningOp_op hr)
    rw [hprog] at hready
    simp only [HatchRun.mayFetch, hx, Bool.and_eq_true, Bool.not_eq_true'] at hready
    obtain ⟨⟨⟨⟨htile, -⟩, -⟩, -⟩, -⟩ := hready
    exact htile
  next => cases hready

theorem fetchEffect_hatch {s u : State} {c q i item : Nat} {ecc : Found} {o : Op} {h : HatchRun} {x : WalkItem}
    {b : FetchBuf} (hop : s.op c q i = some o) (hprog : o.prog = .hatch h) (hx : h.walk[item]? = some x)
    (hclaim : x.kind = .sheet ∨ wellFault s c (hatchDie o.word) (h.claim * 8192) = none)
    (hfetch : fetchItem s o h (hatchDie o.word) item x ecc = (.ok b, u)) :
    fetchEffect s c q i item ecc = u.modOp c q i fun o => { o with prog := .hatch { h with bufs := h.bufs ++ [b] } } := by
  have hnone : (if x.kind = .sheet then none else wellFault s c (hatchDie o.word) (h.claim * 8192)) = none := by
    rcases hclaim with hc | hc <;> simp [hc]
  simp only [fetchEffect, hop, hprog, hx, hnone, hfetch]

theorem fetchEffect_stip {s u : State} {c q i item : Nat} {ecc : Found} {o : Op} {h : StipRun} {v : List Int}
    (hop : s.op c q i = some o) (hprog : o.prog = .stip h)
    (hread : s.readBlock c (.field (hatchDie o.word)) ⟨s.etchDie c, hatchDie o.word⟩ ecc o.da (stipBatch o h).1
      (stipBatch o h).2.1 (stipBatch o h).2.2 0 o.da.cols = (.ok v, u)) :
    fetchEffect s c q i item ecc = u.modOp c q i fun o => { o with prog := .stip { h with fetched := true, bufX := v } } := by
  simp only [fetchEffect, hop, hprog, hread]

/-! ### Claims (R175) -/

theorem claimEffect_hatch {s : State} {c q i : Nat} {o : Op} {h : HatchRun} (hop : s.op c q i = some o)
    (hprog : o.prog = .hatch h) :
    claimEffect s c q i = s.modOp c q i fun o' => { o' with prog := .hatch { h with
      sheetWait := h.sheetWait && !sheetFree s o.c h.pages (s.earlier c q i)
      waiting := h.waiting && !claimFree s o.c (hatchDie o.word) h.claim (s.earlier c q i) } } := by
  have htaken (a b : Bool) : (a && !(a && b)) = (a && !b) := by cases a <;> rfl
  simp only [claimEffect, hop, hprog, HatchRun.grants, htaken]

theorem claimEffect_stip {s : State} {c q i : Nat} {o : Op} {h : StipRun} (hop : s.op c q i = some o)
    (hprog : o.prog = .stip h) :
    claimEffect s c q i = s.modOp c q i fun o => { o with prog := .stip { h with waiting := false } } := by
  simp only [claimEffect, hop, hprog]

/-- A claim is granted to a HATCH on the array or to an operation of Stipple. -/
theorem claimReady_prog {s : State} {c q i : Nat} {o : Op} (hready : claimReady s c q i = true)
    (hop : s.op c q i = some o) : (∃ h, o.prog = .hatch h) ∨ ∃ h, o.prog = .stip h := by
  simp only [claimReady, hop, Bool.and_eq_true] at hready
  obtain ⟨-, hfree⟩ := hready
  split at hfree
  next h hprog => exact .inl ⟨h, hprog⟩
  next h hprog => exact .inr ⟨h, hprog⟩
  next => cases hfree

theorem fetchesAndClaims : Claims.FetchesAndClaims := by
  intro s c q i item ecc o hop
  refine ⟨fun hready => ⟨fun h x b u hprog hx hclaim hfetch => answers_due rfl hready ?_,
    fun h v u hprog hread => answers_due rfl hready ?_⟩, fun hready => answers_due rfl hready ?_⟩
  · have hlook : OnlyLooked s u := (fetchItem_looked s o h (hatchDie o.word) item x ecc).of_answer hfetch
    obtain ⟨hstill, hfound⟩ := hlook.steps hop (.hatch { h with bufs := h.bufs ++ [b] })
    rw [fetchEffect_hatch hop hprog hx hclaim hfetch]
    exact ⟨hstill, fetchReady_not_tile hready hop hprog hx, hfound⟩
  · have hlook : OnlyLooked s u := (s.readBlock_looked _ _ _ _ _ _ _ _ _ _).of_answer hread
    rw [fetchEffect_stip hop hprog hread]
    exact hlook.steps hop (.stip { h with fetched := true, bufX := v })
  · rcases claimReady_prog hready hop with ⟨h, hprog⟩ | ⟨h, hprog⟩
    · obtain ⟨hstill, hfound⟩ := (OnlyLooked.refl s).steps hop (.hatch { h with
        sheetWait := h.sheetWait && !sheetFree s o.c h.pages (s.earlier c q i)
        waiting := h.waiting && !claimFree s o.c (hatchDie o.word) h.claim (s.earlier c q i) })
      rw [claimEffect_hatch hop hprog]
      refine ⟨hstill, fun h' hprog' => ?_, fun h' hprog' => ?_⟩
      · cases hprog.symm.trans hprog'
        exact hfound
      · cases hprog.symm.trans hprog'
    · obtain ⟨hstill, hfound⟩ := (OnlyLooked.refl s).steps hop (.stip { h with waiting := false })
      rw [claimEffect_stip hop hprog]
      refine ⟨hstill, fun h' hprog' => ?_, fun h' hprog' => ?_⟩
      · cases hprog.symm.trans hprog'
      · cases hprog.symm.trans hprog'
        exact hfound

end Sys2Proof.Machine
end

section
/-!
TilesDrain (R106, R107, R119, R163): a tile whose check lines agree is drained and makes way for the next or ends its HATCH; one
that does not is counted and runs once more or ends its HATCH with HATCH_CHECK.
-/

namespace Sys2Proof.Machine

open Sys2Proof

/-! ### The operands of a tile (R163, R119) -/

theorem readWells_looked (s : State) (o : Op) (m : Nat) (x : Mat) (e r0 rn c0 cn : Nat) :
    OnlyLooked s (readWells s o m x e r0 rn c0 cn).2 := by
  have hread := s.readBlock_looked o.c (.field m) ⟨s.etchDie o.c, m⟩ [] x e r0 rn c0 cn
  unfold readWells
  split <;> next heq => exact hread.of_answer heq

theorem tileOperands_looked (s : State) (o : Op) (h : HatchRun) (m : Nat) (x : WalkItem) :
    OnlyLooked s (tileOperands s o h m x).2 := by
  have hpart (u : State) (y : Mat) (l : List Int) (r0 rn c0 cn : Nat) : OnlyLooked u
      (if y.space = 2 then readWells u o m y x.entry r0 rn c0 cn else (.ok (some l), u)).2 := by
    split
    · exact readWells_looked u o m y x.entry r0 rn c0 cn
    · exact OnlyLooked.refl u
  unfold tileOperands
  split
  next heq => exact (hpart s _ _ _ _ _ _).of_answer heq
  next heq =>
    have hfirst := (hpart s _ _ _ _ _ _).of_answer heq
    split
    next heq' => exact hfirst.trans ((hpart _ _ _ _ _ _ _).of_answer heq')
    next heq' => split <;> exact hfirst.trans ((hpart _ _ _ _ _ _ _).of_answer heq')

/-! ### What a tile does, by its check lines (R106) -/

/-- Every line of a tile agrees, and no operand failed its parity. -/
def TileSums.Agrees (t : TileSums) (chk : TileCheck) : Prop :=
  t.rows = [] ∧ t.cols = [] ∧ t.corner = false ∧ chk.parity = false

section
variable {s u : State} {c q i : Nat} {chk : TileCheck} {o : Op} {h : HatchRun} {x : WalkItem}
  (hop : s.op c q i = some o) (hprog : o.prog = .hatch h) (hx : h.walk[h.tileAt]? = some x)
include hop hprog hx

theorem tileEffect_operands {a b : List Int} (hread : tileOperands s o h (hatchDie o.word) x = (.ok (some (a, b)), u)) :
    let t := tileSums o.da.ty x.rn x.kn x.cn a b chk
    (t.Agrees chk → tileEffect s c q i chk = tileGood u o h (hatchDie o.word) x t.acc) ∧
    (¬ t.Agrees chk → tileEffect s c q i chk = tileMismatch u o h (hatchDie o.word) x t.rows t.cols) := by
  intro t
  have heff : tileEffect s c q i chk =
      if t.rows ≠ [] ∨ t.cols ≠ [] ∨ t.corner = true ∨ chk.parity = true then
        tileMismatch u o h (hatchDie o.word) x t.rows t.cols
      else tileGood u o h (hatchDie o.word) x t.acc := by
    simp only [tileEffect, hop, Op.hatchRun, hprog, hx, hread, t]
  have hagrees : t.Agrees chk ↔ ¬ (t.rows ≠ [] ∨ t.cols ≠ [] ∨ t.corner = true ∨ chk.parity = true) := by
    simp [TileSums.Agrees]
  rw [heff, hagrees]
  exact ⟨fun hg => if_neg hg, fun hb => if_pos (not_not.1 hb)⟩

theorem tileEffect_parity (hread : tileOperands s o h (hatchDie o.word) x = (.ok none, u)) :
    tileEffect s c q i chk = tileMismatch u o h (hatchDie o.word) x [] [] := by
  simp only [tileEffect, hop, Op.hatchRun, hprog, hx, hread]

/-- A tile with an operand that fails its parity, or with a line that does not agree, is a mismatch. -/
theorem tileEffect_mismatch
    (hbad : (∃ u, tileOperands s o h (hatchDie o.word) x = (.ok none, u)) ∨
      ∃ a b u, tileOperands s o h (hatchDie o.word) x = (.ok (some (a, b)), u) ∧
        ¬ (tileSums o.da.ty x.rn x.kn x.cn a b chk).Agrees chk) :
    ∃ u rows cols, OnlyLooked s u ∧ tileEffect s c q i chk = tileMismatch u o h (hatchDie o.word) x rows cols := by
  have hlook := tileOperands_looked s o h (hatchDie o.word) x
  rcases hbad with ⟨u, hread⟩ | ⟨a, b, u, hread, hdiffer⟩
  · exact ⟨u, [], [], hlook.of_answer hread, tileEffect_parity hop hprog hx hread⟩
  · obtain ⟨-, heff⟩ := tileEffect_operands hop hprog hx hread (chk := chk)
    exact ⟨u, _, _, hlook.of_answer hread, heff hdiffer⟩

end

/-! ### A tile that agrees (R163, R165) -/

/-- The walk of a HATCH behind a tile that drained with `n` saturations: its buffers are released with their last consumer. -/
def HatchRun.behind (h : HatchRun) (n : Nat) : HatchRun :=
  let next := nextItem WalkItem.isTile h.walk (h.tileAt + 1)
  let keep := (h.feeds next) ++ (match h.sheetAt next with | some j => [j] | none => [])
  { h with tileAt := next, rerun := false, sats := h.sats + n,
           bufs := h.bufs.filter (fun b => decide (h.tileAt < b.item) || decide (b.item ∈ keep)) }

theorem tileGood_drained {u v : State} {o : Op} {h : HatchRun} {m : Nat} {x : WalkItem} {acc : List Nat} {n : Nat}
    (hdrain : drainBlock u o m x.entry x.r0 x.rn x.c0 x.cn acc = (.ok n, v)) :
    tileGood u o h m x acc =
      if nextItem WalkItem.isTile h.walk (h.tileAt + 1) < h.walk.length then
        v.modOp o.c o.q o.idx fun p => { p with prog := .hatch (h.behind n) }
      else v.finishOp o.c o.q o.idx none (countWord (h.sats + n) h.reruns) := by
  simp only [tileGood, hdrain]
  rfl

/-- Draining only adds to the writes that an operation holds. -/
theorem drainBlock_held {s t : State} {o o1 : Op} {m e r0 rn c0 cn n : Nat} {acc : List Nat}
    (hop : s.op o.c o.q o.idx = some o) (h : drainBlock s o m e r0 rn c0 cn acc = (.ok n, t))
    (hop1 : t.op o.c o.q o.idx = some o1) : o.held.length ≤ o1.held.length := by
  obtain ⟨k, u, l, hlook, rfl⟩ := drainBlock_holds h
  obtain ⟨-, -, -, hops, -⟩ := hlook.data
  have hopu : u.op o.c o.q o.idx = some o := (State.op_of_ops hops _ _ _).trans hop
  cases (State.op_holdWrites hopu (.field m) l).symm.trans hop1
  simp

/-! ### A tile that does not agree (R107) -/

theorem OnlyLooked.allowance {s t : State} (h : OnlyLooked s t) (c q : Nat) : t.allowance c q = s.allowance c q := by
  obtain ⟨-, hctx⟩ := h
  obtain ⟨y, hy⟩ := hctx c
  rw [State.allowance, hy]
  rfl

theorem State.modCtx_allowance (s : State) (c q : Nat) (f : Ctx → Ctx)
    (hf : ∀ x, (f x).impAllow = x.impAllow ∧ (f x).marAllow = x.marAllow) :
    (s.modCtx c f).allowance c q = s.allowance c q := by
  obtain ⟨himp, hmar⟩ := hf (s.ctx c)
  rw [State.allowance, State.modCtx_same, himp, hmar]
  rfl

/-- A context whose allowance for the class of queue q is charged with `n`. -/
def Ctx.charged (q n : Nat) (x : Ctx) : Ctx :=
  if q < 4 then { x with impAllow := x.impAllow - n } else { x with marAllow := x.marAllow - n }

/-- A charge that the allowance covers is taken from it. -/
theorem State.charge_covered {s : State} {c q ns : Nat} (h : ceilDiv ns 10 ≤ s.allowance c q) :
    s.charge c q ns = some (s.modCtx c (Ctx.charged q (ceilDiv ns 10))) ∧
    (s.modCtx c (Ctx.charged q (ceilDiv ns 10))).allowance c q = s.allowance c q - ceilDiv ns 10 := by
  refine ⟨if_pos h, ?_⟩
  unfold State.allowance
  rw [State.modCtx_same, Ctx.charged]
  split <;> rfl

theorem State.chargeUnit_form (s : State) (c q u ns : Nat) : ∃ x, s.chargeUnit c q u ns = { s with unitHeld := x } := by
  unfold State.chargeUnit
  split
  · exact ⟨_, rfl⟩
  · exact ⟨s.unitHeld, rfl⟩

/-- The operation under (c, q, i) takes a step that the allowance covers: its context and its unit are charged. -/
theorem State.charge_steps {s : State} {c q i ns : Nat} {o : Op} (hop : s.op c q i = some o)
    (h : ceilDiv ns 10 ≤ s.allowance c q) (u : Nat) (p : Prog) :
    ∃ r, s.charge c q ns = some r ∧
      let t := (r.chargeUnit c q u ns).modOp c q i fun x => { x with prog := p }
      t.op c q i = some { o with prog := p } ∧ t.allowance c q = s.allowance c q - ceilDiv ns 10 ∧ t.fabs = s.fabs ∧
      t.mem = s.mem ∧ SameSystem s t := by
  obtain ⟨hcharge, hleft⟩ := State.charge_covered h
  refine ⟨_, hcharge, ?_⟩
  have hfound : (s.modCtx c (Ctx.charged q (ceilDiv ns 10))).op c q i = some o :=
    (State.op_of_ops rfl c q i).trans hop
  have hkept : SameSystem s (s.modCtx c (Ctx.charged q (ceilDiv ns 10))) := by constructor <;> rfl
  obtain ⟨n, hunit⟩ := (s.modCtx c (Ctx.charged q (ceilDiv ns 10))).chargeUnit_form c q u ns
  rw [hunit]
  refine ⟨State.op_modOp_prog hfound p, hleft, rfl, rfl, hkept.trans ?_⟩
  constructor <;> rfl

/-- `w` is `s` with a mismatch of the array recorded in the ledger of context c and counted on die m. -/
structure TileMismatched (c m : Nat) (s w : State) : Prop where
  ops : w.ops = s.ops
  mem : w.mem = s.mem
  posted : w.posted = s.posted
  system : SameSystem s w
  allowance : ∀ q, w.allowance c q = s.allowance c q
  count : (w.fab m).mismX = satInc 32 (s.fab m).mismX
  stripe : (w.fab m).stripe = 0
  demanded : (w.fab m).demanded = true
  desc : (w.fab m).desc = (s.fab m).desc

theorem tile_mismatched {s u : State} (h : OnlyLooked s u) (c m : Nat) (rows cols : List Nat) :
    TileMismatched c m s ((tileLedger u c rows cols).countMismatch m true) := by
  obtain ⟨hmem, -, hposted, hops, -⟩ := h.data
  obtain ⟨-, -, -, hfabs, -⟩ := h.drained.data
  have hallow (q : Nat) : (tileLedger u c rows cols).allowance c q = s.allowance c q := by
    rw [← h.allowance]
    exact u.modCtx_allowance c q _ fun _ => ⟨rfl, rfl⟩
  obtain ⟨x, hledger⟩ : ∃ x, tileLedger u c rows cols = { u with ctxs := x } := ⟨_, rfl⟩
  rw [hledger] at hallow ⊢
  obtain ⟨⟨f, hform⟩, hcount, -, hstripe, hdemanded, hdesc⟩ :=
    ({ u with ctxs := x } : State).countMismatch_counts m true
  have hfab : ({ u with ctxs := x } : State).fab m = s.fab m := State.fab_of_fabs hfabs m
  rw [hfab] at hcount hdesc
  rw [hform] at hcount hstripe hdemanded hdesc ⊢
  refine ⟨hops, hmem, hposted, h.system.trans ?_, hallow, hcount, hstripe, hdemanded, hdesc⟩
  constructor <;> rfl

theorem tileMismatch_twice {s : State} {o : Op} {h : HatchRun} (hagain : h.rerun = true) (m : Nat) (x : WalkItem)
    (rows cols : List Nat) : tileMismatch s o h m x rows cols =
      ((tileLedger s o.c rows cols).countMismatch m true).finishOp o.c o.q o.idx (some (.hatchCheck, 0)) 0 := by
  simp only [tileMismatch, hagain, if_true]

/-- The walk of a HATCH whose tile runs once more, its operands fetched afresh. -/
def HatchRun.again (h : HatchRun) : HatchRun :=
  { h with rerun := true, reruns := h.reruns + 1, bufs := h.bufs.filter (fun b => !decide (b.item ∈ h.feeds h.tileAt)) }

theorem tileMismatch_once {s w t : State} {o : Op} {h : HatchRun} (hfirst : h.rerun = false) {m ns : Nat} (x : WalkItem)
    {rows cols : List Nat} (hw : (tileLedger s o.c rows cols).countMismatch m true = w)
    (hns : xclkNs (w.fab m).desc (tileCycles o.da.ty x.kn h.ch) = ns) (hcharge : w.charge o.c o.q ns = some t) :
    tileMismatch s o h m x rows cols =
      (t.chargeUnit o.c o.q m ns).modOp o.c o.q o.idx fun p => { p with prog := .hatch h.again } := by
  simp only [tileMismatch, hw, hns, hfirst, Bool.false_eq_true, if_false, hcharge]
  rfl

theorem tilesDrain : Claims.TilesDrain := by
  intro s c q i chk o h x hready hop hprog hx m good bad next ns
  obtain ⟨rfl, rfl, rfl⟩ := State.op_names hop
  refine ⟨fun a b u n v o1 hread hgood hdrain hop1 => ?_, fun hbad hagain => answers_due rfl hready ?_,
    fun hbad hfirst hcovered => answers_due rfl hready ?_⟩
  · have hlook : OnlyLooked s u := (tileOperands_looked s o h m x).of_answer hread
    obtain ⟨-, -, -, hops, -⟩ := hlook.data
    have hdrained : OnlyDrained s v := by
      have hblock := drainBlock_drained u o m x.entry x.r0 x.rn x.c0 x.cn
        (tileSums o.da.ty x.rn x.kn x.cn a b chk).acc
      rw [hdrain] at hblock
      exact hlook.drained.trans hblock
    obtain ⟨hmem, hhost, hposted, -, hsys⟩ := hdrained.data
    obtain ⟨heff, -⟩ := tileEffect_operands hop hprog hx hread (chk := chk)
    refine ⟨fun hmore => answers_due rfl hready ?_, fun hlast => answers_due rfl hready ?_⟩
    · rw [heff hgood, tileGood_drained hdrain, if_pos hmore]
      obtain ⟨hmem', hhost', hposted', -, -, hsys'⟩ :=
        (v.modOp_only o.c o.q o.idx fun p => { p with prog := .hatch (h.behind n) }).same
      exact ⟨h.behind n, State.op_modOp_prog hop1 _, rfl, rfl, rfl,
        drainBlock_held ((State.op_of_ops hops _ _ _).trans hop) hdrain hop1, hmem'.trans hmem, hhost'.trans hhost,
        hposted'.trans hposted, hsys.trans hsys'⟩
    · rw [heff hgood, tileGood_drained hdrain, if_neg (Nat.not_lt.2 hlast)]
      obtain ⟨hfin, hmem', hhost', hposted', hsys'⟩ :=
        State.finishOp_success hop1 (countWord (h.sats + n) h.reruns)
      exact ⟨hfin, hmem', hhost', hposted', hsys.trans hsys'⟩
  · obtain ⟨u, rows, cols, hlook, heff⟩ := tileEffect_mismatch hop hprog hx hbad
    rw [heff, tileMismatch_twice hagain]
    obtain ⟨hops, hmem, hposted, hsys, -, hcount, hstripe, hdemanded, -⟩ := tile_mismatched hlook o.c m rows cols
    obtain ⟨hfound, hmem', hposted', hfabs, hsys'⟩ :=
      State.finishOp_fails ((State.op_of_ops hops o.c o.q o.idx).trans hop) (.hatchCheck, 0) 0
    rw [State.fab_of_fabs hfabs m]
    exact ⟨hfound, hcount, hstripe, hdemanded, hmem'.trans hmem, hposted'.trans hposted, hsys.trans hsys'⟩
  · obtain ⟨u, rows, cols, hlook, heff⟩ := tileEffect_mismatch hop hprog hx hbad
    obtain ⟨hops, hmem, hposted, hsys, hallow, hcount, hstripe, hdemanded, hdesc⟩ :=
      tile_mismatched hlook o.c m rows cols
    generalize hw : (tileLedger u o.c rows cols).countMismatch m true = w at *
    have hns : xclkNs (w.fab m).desc (tileCycles o.da.ty x.kn h.ch) = ns := by rw [hdesc]
    obtain ⟨r, hcharge, hfound, hleft, hfabs, hmem', hsys'⟩ := State.charge_steps
      ((State.op_of_ops hops o.c o.q o.idx).trans hop) (hcovered.trans_eq (hallow o.q).symm) m (.hatch h.again)
    have hfab := State.fab_of_fabs hfabs m
    rw [heff, tileMismatch_once hfirst x hw hns hcharge, hfab]
    exact ⟨⟨h.again, hfound, rfl, rfl, rfl, fun b hb => by simpa using List.of_mem_filter hb⟩,
      hleft.trans (by rw [hallow]), hcount, hdemanded, hmem'.trans hmem, hsys.trans hsys'⟩

end Sys2Proof.Machine
end

section
/-!
StippleOperationsEnd (R120, R123, R165): a Stipple operation whose checksum lanes agree makes way for the next or ends its
STIPPLE; a second mismatch of one ends it with HATCH_CHECK.
-/

namespace Sys2Proof.Machine

open Sys2Proof

/-- The groups of a Stipple operation read weights and drain blocks. -/
theorem stipGroups_drained (s : State) (o : Op) (m e r0 rn : Nat) (x : List Int) (chk : TileCheck) (ecc : Found) :
    OnlyDrained s (stipGroups s o m e r0 rn x chk ecc).2 := by
  unfold stipGroups
  dsimp only
  refine fold_holds (fun r : Except Flt (List (Nat × List Nat) × List (List Int) × Nat) × State => OnlyDrained s r.2)
    _ _ _ (OnlyDrained.refl s) ?_
  rintro ⟨f | ⟨outs, rho, sats⟩, u⟩ g - hu
  · exact hu
  have hread := u.readBlock_looked o.c (.field m) ⟨u.etchDie o.c, m⟩ ecc o.db e 0 o.da.cols g.1 g.2
  dsimp only
  split
  next heq => exact hu.trans (hread.of_answer heq).drained
  next w v heq =>
    have hv : OnlyDrained s v := hu.trans (hread.of_answer heq).drained
    have hdrain := drainBlock_drained v o m e r0 rn g.1 g.2 (laneSums o.da.ty rn o.da.cols g.2 x w chk g.1 o.db.cols)
    split <;> next heq' =>
      rw [heq'] at hdrain
      exact hv.trans hdrain

/-- The checksum lanes that differ decide whether a Stipple operation agrees (R123). -/
theorem stipEffect_groups {s u : State} {c q i : Nat} {chk : TileCheck} {ecc : Found} {o : Op} {h : StipRun}
    {outs : List (Nat × List Nat)} {rho : List (List Int)} {n : Nat} (hop : s.op c q i = some o)
    (hprog : o.prog = .stip h) (hspace : o.da.space ≠ 2)
    (hgroups : stipGroups s o (hatchDie o.word) (stipBatch o h).1 (stipBatch o h).2.1 (stipBatch o h).2.2 h.bufX chk ecc =
      (.ok (outs, rho, n), u)) :
    let bad := laneBad o.da.ty (stipBatch o h).2.2 o.da.cols h.bufX rho
      (fun k => outs.flatMap (fun g => (g.2.drop (k * g.1)).take g.1)) chk
    stipEffect s c q i chk ecc =
      if bad ≠ [] ∨ chk.parity = true then stipMismatch u o h (hatchDie o.word) (stipBatch o h).2.2
      else stipGood u o h n := by
  simp only [stipEffect, hop, Op.stipRun, hprog, hspace, if_false, hgroups]

/-- A Stipple program behind an operation that ended with `n` saturations; the next batch is to be fetched, where none
stands in the panel wells. -/
def StipRun.behind (h : StipRun) (o : Op) (n : Nat) : StipRun :=
  { h with opAt := h.opAt + 1, rerun := false, fetched := decide (o.da.space = 2), sats := h.sats + n }

theorem stipGood_eq (s : State) (o : Op) (h : StipRun) (n : Nat) :
    stipGood s o h n =
      if h.opAt + 1 < h.ops then s.modOp o.c o.q o.idx fun p => { p with prog := .stip (h.behind o n) }
      else s.finishOp o.c o.q o.idx none (countWord (h.sats + n) h.reruns) := rfl

theorem stipMismatch_twice {s : State} {o : Op} {h : StipRun} (hagain : h.rerun = true) (m rn : Nat) :
    stipMismatch s o h m rn = (s.countMismatch m false).finishOp o.c o.q o.idx (some (.hatchCheck, 0)) 0 := by
  simp only [stipMismatch, hagain, if_true]

theorem stippleOperationsEnd : Claims.StippleOperationsEnd := by
  intro s c q i chk ecc o h outs rho n u o1 hready hop hprog hspace m b hgroups hop1 bad
  obtain ⟨rfl, rfl, rfl⟩ := State.op_names hop
  have hdrained : OnlyDrained s u := by
    have hfold := stipGroups_drained s o m b.1 b.2.1 b.2.2 h.bufX chk ecc
    rwa [hgroups] at hfold
  obtain ⟨hmem, -, hposted, hfabs, hsys⟩ := hdrained.data
  have heff := stipEffect_groups hop hprog hspace hgroups
  have hagrees (hlanes : bad = []) (hparity : chk.parity = false) :
      stipEffect s o.c o.q o.idx chk ecc = stipGood u o h n :=
    heff.trans (if_neg (not_or.2 ⟨not_not.2 hlanes, by simp [hparity]⟩))
  refine ⟨fun hlanes hparity hmore => answers_due rfl hready ?_, fun hlanes hparity hlast => answers_due rfl hready ?_,
    fun hbad hagain => answers_due rfl hready ?_⟩
  · rw [hagrees hlanes hparity, stipGood_eq, if_pos hmore]
    obtain ⟨hmem', -, hposted', -, -, hsys'⟩ :=
      (u.modOp_only o.c o.q o.idx fun p => { p with prog := .stip (h.behind o n) }).same
    exact ⟨h.behind o n, State.op_modOp_prog hop1 _, rfl, decide_eq_false hspace, rfl, rfl, hmem'.trans hmem,
      hposted'.trans hposted, hsys.trans hsys'⟩
  · rw [hagrees hlanes hparity, stipGood_eq, if_neg (Nat.not_lt.2 hlast)]
    obtain ⟨hfin, hmem', hhost', hposted', hsys'⟩ := State.finishOp_success hop1 (countWord (h.sats + n) h.reruns)
    exact ⟨hfin, hmem', hhost', hposted', hsys.trans hsys'⟩
  · obtain ⟨⟨f, hcounted⟩, -, hcount, -, hdemanded, -⟩ := u.countMismatch_counts m false
    rw [heff.trans (if_pos hbad), stipMismatch_twice hagain]
    obtain ⟨hfin, hmem', hposted', hfabs', hsys'⟩ := State.finishOp_fails
      (s := u.countMismatch m false) ((State.op_of_ops (by rw [hcounted]) o.c o.q o.idx).trans hop1) (.hatchCheck, 0) 0
    have hkept : SameSystem u (u.countMismatch m false) := by
      rw [hcounted]
      constructor <;> rfl
    rw [State.fab_of_fabs hfabs' m]
    refine ⟨hfin, ?_, hdemanded, ?_, ?_, (hsys.trans hkept).trans hsys'⟩
    · rw [hcount, State.fab_of_fabs hfabs m]
      rfl
    · rw [hmem', hcounted]
      exact hmem
    · rw [hposted', hcounted]
      exact hposted

/-- Settles O23: a fetch or a grant changes its own operation, what a tile or a Stipple operation that agrees writes is held until
its instruction succeeds (log 52), and a mismatch is counted and run once more or ends its instruction. -/
theorem arrayOperationsAdvance : Obligations.ArrayOperationsAdvance := ⟨fetchesAndClaims, tilesDrain, stippleOperationsEnd⟩

end Sys2Proof.Machine
end

section
/-!
ExtensionPortsEnd (R127 to R129, R140): what writing the result beats of a port may touch, and the ends of its command.
-/

namespace Sys2Proof.Machine

open Sys2Proof

/-! ### A port of a Field die -/

@[simp] theorem State.ext_modExt_same (s : State) (m p : Nat) (f : ExtPort → ExtPort) :
    (s.modExt m p f).ext m p = f (s.ext m p) := by simp [State.ext, State.modExt]

theorem State.ext_of_fabs {s t : State} (h : t.fabs = s.fabs) (m p : Nat) : t.ext m p = s.ext m p := by
  rw [State.ext, State.fab_of_fabs h, State.ext]

/-- Commands of ports stand beside the outstanding operations, all data and the system. -/
theorem State.modExt_keeps (s : State) (m p : Nat) (f : ExtPort → ExtPort) :
    (s.modExt m p f).ops = s.ops ∧ (s.modExt m p f).mem = s.mem ∧ (s.modExt m p f).host = s.host ∧
    (s.modExt m p f).posted = s.posted ∧ SameSystem s (s.modExt m p f) := by
  refine ⟨rfl, rfl, rfl, rfl, ?_⟩
  constructor <;> rfl

/-! ### The result beats in the destination (R127) -/

/-- A write into wells changes ninth bits of their die alone. -/
theorem State.wrPar_ext (s : State) (a n m p : Nat) : (s.wrPar a n).ext m p = s.ext m p := by
  unfold State.wrPar
  split
  · next k off _ =>
    split
    · rfl
    · by_cases hm : m = k
      · subst hm
        simp [State.ext]
      · rw [State.ext, State.modFab_ne _ _ hm, State.ext]
  · rfl

theorem State.wrTarget_ext (s : State) (t : Target) (bs : List Byte) (m p : Nat) :
    (s.wrTarget t bs).ext m p = s.ext m p := by
  unfold State.wrTarget
  split
  · next a => exact s.wrPar_ext a bs.length m p
  · split <;> rfl

/-- At most data, posted writes, ninth bits of wells and contexts differ: no outstanding operation, no port and nothing of the
system. -/
structure OnlyStored (s t : State) : Prop where
  ops : t.ops = s.ops
  ext : ∀ m p, t.ext m p = s.ext m p
  system : SameSystem s t

theorem OnlyStored.refl (s : State) : OnlyStored s s := ⟨rfl, fun _ _ => rfl, by constructor <;> rfl⟩

theorem OnlyStored.trans {s t u : State} (h : OnlyStored s t) (h' : OnlyStored t u) : OnlyStored s u :=
  ⟨h'.ops.trans h.ops, fun m p => (h'.ext m p).trans (h.ext m p), h.system.trans h'.system⟩

theorem OnlyLooked.stored {s t : State} (h : OnlyLooked s t) : OnlyStored s t := by
  obtain ⟨-, -, -, hops, -⟩ := h.data
  obtain ⟨-, -, -, hfabs, -⟩ := h.drained.data
  exact ⟨hops, State.ext_of_fabs hfabs, h.system⟩

theorem State.wrTarget_stored (s : State) (t : Target) (bs : List Byte) : OnlyStored s (s.wrTarget t bs) := by
  have hext := s.wrTarget_ext t bs
  obtain ⟨⟨m, p, f, x, hform⟩, -, -⟩ := s.wrTarget_dataOnly t bs
  refine ⟨by rw [hform], hext, ?_⟩
  rw [hform]
  constructor <;> rfl

theorem State.writeSpace_stored (s : State) (c q : Nat) (e : Engine) (sp : Nat) (l : List (Nat × Target × List Byte)) :
    OnlyStored s (s.writeSpace c q e sp l) := by
  unfold State.writeSpace
  split
  · obtain ⟨ps, x, hpost⟩ := s.postAll_form c q (l.map (mkPosted c q (s.wayOf e)))
    rw [State.postWrites, hpost]
    exact ⟨rfl, fun _ _ => rfl, by constructor <;> rfl⟩
  · exact fold_holds (OnlyStored s) _ l s (OnlyStored.refl s) fun u e _ h => h.trans (u.wrTarget_stored e.2.1 e.2.2)

theorem extTargets_looked (s : State) (o : Op) (m : Nat) (beats : List Byte) :
    OnlyLooked s (extTargets s o m beats).2 := by
  unfold extTargets
  refine foldl_looked _ _ _ s (fun _ _ _ => rfl) fun l u x => ?_
  dsimp only
  split <;> next heq => exact (State.blockTargets_looked _ _ _ _ _ _ _ _ _).of_answer heq

theorem extWrite_stored (s : State) (o : Op) (m : Nat) (beats : List Byte) : OnlyStored s (extWrite s o m beats).2 := by
  have htargets := extTargets_looked s o m beats
  unfold extWrite
  split
  next heq => exact (htargets.of_answer heq).stored
  next heq => exact (htargets.of_answer heq).stored.trans (State.writeSpace_stored _ _ _ _ _ _)

/-- A result that cannot be written is not written in part (R140). -/
theorem extWrite_fails {s u : State} {o : Op} {m : Nat} {beats : List Byte} {f : Flt}
    (h : extWrite s o m beats = (some f, u)) : OnlyLooked s u := by
  have htargets := extTargets_looked s o m beats
  unfold extWrite at h
  split at h
  next heq =>
    cases h
    exact htargets.of_answer heq
  next => cases h

/-! ### The command of a port -/

section
variable {s : State} {m p c q i : Nat} {o : Op} (hcmd : (s.ext m p).cmd = some (c, q, i))
include hcmd

theorem extDoneEffect_zero {u : State} {f : Option Flt} {beats : List Byte} (hop : s.op c q i = some o)
    (hwrite : extWrite (s.modExt m p fun x => { x with cmd := none }) o m beats = (f, u)) :
    extDoneEffect s m p 0 beats = u.endOp c q i f 0 := by
  simp [extDoneEffect, hcmd, hop, hwrite]

theorem extDoneEffect_status {status : BitVec 8} (beats : List Byte) (hop : s.op c q i = some o) (hstatus : status ≠ 0) :
    extDoneEffect s m p status beats =
      (s.modExt m p fun x => { x with cmd := none }).endOp c q i (some (.extFail status.toNat, 0)) 0 := by
  simp only [extDoneEffect, hcmd, hop, if_pos hstatus]

theorem extFault_eq (st : Status) : extFault s m p st = s.endOp c q i (some (st, 0)) 0 := by
  simp only [extFault, hcmd]

/-- The command of a port that is given up faults, and the port is free again. -/
theorem extFault_frees (hop : s.op c q i = some o) (st : Status) :
    let t := (extFault s m p st).modExt m p fun _ => {}
    t.op c q i = some { o with fin := some st, detail := 0, held := [] } ∧ t.ext m p = {} ∧ t.mem = s.mem ∧
      t.posted = s.posted ∧ SameSystem s t := by
  obtain ⟨hmem, -, hposted, -, -, hsys⟩ := (s.endOp_only c q i (some (st, 0)) 0).same
  obtain ⟨hops', hmem', -, hposted', hsys'⟩ := (s.endOp c q i (some (st, 0)) 0).modExt_keeps m p fun _ => {}
  rw [extFault_eq hcmd]
  exact ⟨(State.op_of_ops hops' c q i).trans (State.op_endOp_fault hop (st, 0) 0), State.ext_modExt_same _ _ _ _,
    hmem'.trans hmem, hposted'.trans hposted, hsys.trans hsys'⟩

end

/-- DONE behind which the command faults: the port is free, and no data differ. -/
theorem extDone_faults {s u : State} {m p c q i : Nat} {o : Op} (hop : s.op c q i = some o)
    (hlook : OnlyLooked (s.modExt m p fun x => { x with cmd := none }) u) (f : Flt) :
    let t := u.endOp c q i (some f) 0
    t.op c q i = some { o with fin := some f.1, detail := BitVec.ofNat 64 f.2, held := [] } ∧ (t.ext m p).cmd = none ∧
      t.mem = s.mem ∧ t.host = s.host ∧ t.posted = s.posted ∧ SameSystem s t := by
  intro t
  obtain ⟨hops, hext, hsys⟩ := hlook.stored
  obtain ⟨hmem, hhost, hposted, -⟩ := hlook.data
  obtain ⟨-, -, -, -, hport⟩ := s.modExt_keeps m p fun x => { x with cmd := none }
  obtain ⟨hmem', hhost', hposted', -, -, hsys'⟩ := (u.endOp_only c q i (some f) 0).same
  refine ⟨State.op_endOp_fault ((State.op_of_ops hops c q i).trans hop) f 0, ?_, hmem'.trans hmem, hhost'.trans hhost,
    hposted'.trans hposted, (hport.trans hsys).trans hsys'⟩
  rw [show t.ext m p = u.ext m p from rfl, hext, State.ext_modExt_same]

/-- The acknowledgement of a command aborted before its time was over: the result beats it has written stand (R129). -/
theorem extAckEffect_job {s : State} {m p : Nat} {j : Op} (beats : List Byte) (h : (s.ext m p).timedOut = false)
    (hjob : (s.ext m p).job = some j) :
    extAckEffect s m p beats = (extWrite s j m beats).2.modExt m p fun _ => {} := by
  simp [extAckEffect, h, hjob]

theorem extAckEffect_no_job {s : State} {m p : Nat} (beats : List Byte) (h : (s.ext m p).timedOut = false)
    (hjob : (s.ext m p).job = none) : extAckEffect s m p beats = s.modExt m p fun _ => {} := by
  simp [extAckEffect, h, hjob]

theorem extAckEffect_timedOut {s : State} {m p : Nat} (beats : List Byte) (h : (s.ext m p).timedOut = true) :
    extAckEffect s m p beats = (extFault s m p .extTimeout).modExt m p fun _ => {} := by
  simp [extAckEffect, h]

/-- The ports of a die that are disabled are no part of a port's own state; a disabled one is absent (R129). -/
theorem State.disable_port (s : State) (m p : Nat) (hp : p < 8) :
    let t := s.modFab m fun f => { f with disabled := f.disabled ||| BitVec.ofNat 8 (2 ^ (p % 8)) }
    (t.fab m).disabled.getLsbD p = true ∧ t.extThere m p = false ∧ t.ext m p = s.ext m p := by
  intro t
  have hset : (t.fab m).disabled.getLsbD p = true := by
    simp only [t, State.modFab_same, BitVec.getLsbD_or, BitVec.getLsbD_ofNat, Nat.mod_eq_of_lt hp]
    simp [hp]
  refine ⟨hset, ?_, ?_⟩
  · rw [State.extThere, bit, hset]
    simp
  · simp [t, State.ext]

/-- Settles O27: a port's command ends by DONE, by the acknowledgement of an abort or by its absence; that a timed-out command
faults at the acknowledgement and leaves none of its beats is log 19. -/
theorem extensionPortsEnd : Obligations.ExtensionPortsEnd := by
  intro s m p c q i o hcmd hop
  refine ⟨fun beats u hready hwrite => answers_due rfl hready ?_, fun status beats f hready hfault =>
    answers_due rfl hready ?_, fun hready => answers_due rfl hready ?_, fun beats habort htimed => answers_due rfl habort ?_,
    fun beats habort htimed => answers_due rfl habort ?_, fun habort hp => answers_due rfl habort ?_⟩
  · obtain ⟨hops, hext, hsys⟩ : OnlyStored (s.modExt m p fun x => { x with cmd := none }) u := by
      have hstored := extWrite_stored (s.modExt m p fun x => { x with cmd := none }) o m beats
      rwa [hwrite] at hstored
    obtain ⟨hops', -, -, -, hport⟩ := s.modExt_keeps m p fun x => { x with cmd := none }
    obtain ⟨hmem, hhost, hposted, -, -, hsys'⟩ := (u.endOp_only c q i none 0).same
    rw [extDoneEffect_zero hcmd hop hwrite]
    refine ⟨State.op_endOp_success ((State.op_of_ops (hops.trans hops') c q i).trans hop) 0, ?_, hmem, hhost, hposted,
      (hport.trans hsys).trans hsys'⟩
    rw [show (u.endOp c q i none 0).ext m p = u.ext m p from rfl, hext, State.ext_modExt_same]
  · rcases hfault with ⟨hstatus, rfl⟩ | ⟨rfl, u, hwrite⟩
    · rw [extDoneEffect_status hcmd beats hop hstatus]
      exact extDone_faults hop (OnlyLooked.refl _) _
    · rw [extDoneEffect_zero hcmd hop hwrite]
      exact extDone_faults hop (extWrite_fails hwrite) f
  · exact ⟨s.modExt_only m p _, by simp, by simp, by simpa using hcmd⟩
  · rw [extAckEffect_timedOut beats htimed]
    exact extFault_frees hcmd hop .extTimeout
  · cases hjob : (s.ext m p).job with
    | none =>
      rw [extAckEffect_no_job beats htimed hjob]
      obtain ⟨hops, -, -, -, hsys⟩ := s.modExt_keeps m p fun _ => {}
      exact ⟨hops, State.ext_modExt_same _ _ _ _, hsys, fun _ => s.modExt_only m p _, fun k hk => nomatch hk⟩
    | some j =>
      rw [extAckEffect_job beats htimed hjob]
      obtain ⟨hops, -, hsys⟩ := extWrite_stored s j m beats
      obtain ⟨hops', hmem', -, hposted', hsys'⟩ := (extWrite s j m beats).2.modExt_keeps m p fun _ => {}
      refine ⟨hops'.trans hops, State.ext_modExt_same _ _ _ _, hsys.trans hsys', (fun hnone => nomatch hnone), fun k hk => ?_⟩
      cases hk
      exact ⟨hmem', hposted'⟩
  · obtain ⟨hfound, hfree, hmem, -, hsys⟩ := extFault_frees hcmd hop .extHung
    obtain ⟨hset, hgone, hext⟩ := ((extFault s m p .extHung).modExt m p fun _ => {}).disable_port m p hp
    refine ⟨hfound, hext.trans hfree, hset, hgone, hmem, hsys.trans ?_⟩
    constructor <;> rfl

end Sys2Proof.Machine
end

section
/-!
What the checks of an instruction may touch, and what its issue changes (R139, R140, Table 7-7): its checks only look;
issued, it is outstanding and its queue stands at the next one.
-/

namespace Sys2Proof.Machine

open Sys2Proof

/-! ### What a look leaves of programs and parameters (R143, R145) -/

theorem OnlyLooked.bundleOf {s t : State} (h : OnlyLooked s t) (c : Nat) : t.bundleOf c = s.bundleOf c := by
  obtain ⟨⟨x, m, p, rfl⟩, hctx⟩ := h
  obtain ⟨y, hy⟩ := hctx c
  rw [State.bundleOf, hy]
  rfl

theorem OnlyLooked.progOf {s t : State} (h : OnlyLooked s t) (c q : Nat) : t.progOf c q = s.progOf c q := by
  rw [State.progOf, h.queue, h.bundleOf]
  rfl

theorem OnlyLooked.actual {s t : State} (h : OnlyLooked s t) (c q : Nat) (d : Word256) :
    t.actual c q d = s.actual c q d := by
  rw [State.actual, h.prm]
  rfl

theorem State.plate_of_plates {s t : State} (h : t.plates = s.plates) (g : Nat) : t.plate g = s.plate g := by
  rw [State.plate, h]
  rfl

theorem OnlyLooked.plate {s t : State} (h : OnlyLooked s t) (g : Nat) : t.plate g = s.plate g := by
  obtain ⟨-, -, -, -, hplates⟩ := h.data
  exact State.plate_of_plates hplates g

theorem OnlyLooked.tenant {s t : State} (h : OnlyLooked s t) (d : Nat) : (t.ctx d).tenant = (s.ctx d).tenant := by
  obtain ⟨-, hctx⟩ := h
  obtain ⟨y, hy⟩ := hctx d
  rw [hy]

/-! ### The checks of Table 7-7 only look -/

theorem readList_looked (s : State) (c : Nat) (ecc : Found) (n a : Nat) : OnlyLooked s (readList s c ecc n a).2 := by
  induction n generalizing s a with
  | zero => exact OnlyLooked.refl s
  | succ n ih =>
    have hread := s.readCtx_looked c ecc a 8
    unfold readList
    split
    next heq => exact hread.of_answer heq
    next u heq =>
      have hentry := hread.of_answer heq
      dsimp only
      split
      · exact hentry
      split
      · exact hentry
      · split <;> next heq' => exact hentry.trans ((ih u (a + 8)).of_answer heq')

theorem fetchLists_looked (s : State) (c : Nat) (ecc : Found) (l : List (Word256 × Mat)) :
    OnlyLooked s (fetchLists s c ecc l).2 := by
  induction l generalizing s with
  | nil => exact OnlyLooked.refl s
  | cons e rest ih =>
    obtain ⟨d, m⟩ := e
    unfold fetchLists
    split
    · have hlist := readList_looked s c ecc (dPlen d) (m.bases.getD 0 0)
      split
      next heq => exact hlist.of_answer heq
      next u heq => split <;> next heq' => exact (hlist.of_answer heq).trans ((ih u).of_answer heq')
    · split <;> next heq => exact (ih s).of_answer heq

theorem prepare_looked (s : State) (c q : Nat) (ecc : Found) (ds : List (Nat × Word256)) (dst sumlist : Bool)
    (shapes place : List Mat → Option Flt) : OnlyLooked s (prepare s c q ecc ds dst sumlist shapes place).2 := by
  unfold prepare
  dsimp only
  split
  · exact OnlyLooked.refl s
  split
  · exact OnlyLooked.refl s
  split
  next heq => exact (fetchLists_looked s c ecc _).of_answer heq
  next heq =>
    have hlists := (fetchLists_looked s c ecc _).of_answer heq
    split
    · exact hlists
    · split <;> exact hlists

theorem hatchPrepare_looked (s : State) (c q : Nat) (stip : Bool) (ecc : Found) :
    OnlyLooked s (hatchPrepare s c q stip ecc).2 := by
  unfold hatchPrepare
  dsimp only
  split
  · exact OnlyLooked.refl s
  · split <;> next heq => exact (prepare_looked _ _ _ _ _ _ _ _ _).of_answer heq

theorem etchCheck_looked (s : State) (c q : Nat) (ecc : Found) : OnlyLooked s (etchCheck s c q ecc).2 := by
  unfold etchCheck
  dsimp only
  split
  next heq => exact (prepare_looked _ _ _ _ _ _ _ _ _).of_answer heq
  next heq => split <;> exact (prepare_looked _ _ _ _ _ _ _ _ _).of_answer heq

theorem extCheck_looked (s : State) (c q : Nat) (ecc : Found) : OnlyLooked s (extCheck s c q ecc).2 := by
  unfold extCheck
  dsimp only
  split
  · exact OnlyLooked.refl s
  · split <;> next heq => exact (prepare_looked _ _ _ _ _ _ _ _ _).of_answer heq

theorem toneCheck_looked (s : State) (c q : Nat) (red : Bool) (ecc : Found) :
    OnlyLooked s (toneCheck s c q red ecc).2 := by
  unfold toneCheck
  dsimp only
  split
  · exact OnlyLooked.refl s
  split
  next heq => exact (prepare_looked _ _ _ _ _ _ _ _ _).of_answer heq
  next heq => split <;> exact (prepare_looked _ _ _ _ _ _ _ _ _).of_answer heq

theorem State.allTargets_looked (s : State) (c : Nat) (pl : Place) (m : Mat) (n : Nat) (write : Bool) :
    OnlyLooked s (s.allTargets c pl m n write).2 := by
  have hpieces : OnlyLooked s (s.allPieces c pl m n write).2 := by
    unfold State.allPieces
    refine foldl_looked _ _ _ s (fun _ _ _ => rfl) fun l u a => ?_
    dsimp only
    split <;> next heq => exact (State.spaceTargets_looked _ _ _ _ _ _ _).of_answer heq
  unfold State.allTargets
  split <;> next heq => exact hpieces.of_answer heq

theorem loadCheck_looked (s : State) (c q : Nat) (ecc : Found) : OnlyLooked s (loadCheck s c q ecc).2 := by
  unfold loadCheck
  dsimp only
  split
  next heq => exact (prepare_looked _ _ _ _ _ _ _ _ _).of_answer heq
  next ms u heq =>
    have hprepared : OnlyLooked s u := (prepare_looked _ _ _ _ _ _ _ _ _).of_answer heq
    split
    · exact hprepared
    split
    · exact hprepared
    split
    · exact hprepared
    split
    next heq' => exact hprepared.trans ((State.allTargets_looked _ _ _ _ _ _).of_answer heq')
    next heq' =>
      have hsource := hprepared.trans ((State.allTargets_looked _ _ _ _ _ _).of_answer heq')
      split
      · exact hsource
      split
      · exact hsource
      split
      · exact hsource
      split
      next heq'' => exact hsource.trans ((State.allTargets_looked _ _ _ _ _ _).of_answer heq'')
      next heq'' => split <;> exact hsource.trans ((State.allTargets_looked _ _ _ _ _ _).of_answer heq'')

/-! ### A queue that may issue (R139) -/

/-- It runs an entry, and none of its outstanding operations has the index of the next instruction. -/
theorem State.canIssue_next {s : State} {c q : Nat} (h : s.canIssue c q = true) :
    (∃ r, (s.queue c q).run = some r) ∧ ∀ o ∈ s.ops, ¬ (o.c = c ∧ o.q = q ∧ o.idx = s.nextIdx c q) := by
  cases hrun : (s.queue c q).run with
  | none => simp [State.canIssue, show ((s.ctx c).queue q).run = none from hrun] at h
  | some r =>
    refine ⟨⟨r, rfl⟩, fun o ho => ?_⟩
    rintro ⟨hc, hq, hi⟩
    have hmine : o ∈ s.opsOf c q := List.mem_filter.2 ⟨ho, decide_eq_true ⟨hc, hq⟩⟩
    have hidx : o.idx = r.pc := by rw [hi, State.nextIdx, hrun]
    simp only [State.canIssue, show ((s.ctx c).queue q).run = some r from hrun, Bool.and_eq_true, List.all_eq_true] at h
    obtain ⟨-, hops⟩ := h
    obtain ⟨-, hne⟩ := hops o hmine
    exact of_decide_eq_true hne hidx

theorem State.ready_canIssue {s : State} {c q code : Nat} (h : s.ready c q code = true) : s.canIssue c q = true := by
  simp only [State.ready, Bool.and_eq_true] at h
  obtain ⟨⟨hissue, -⟩, -⟩ := h
  exact hissue

/-! ### What stands beside the issue of an instruction -/

/-- No outstanding operation, no queue, no data and nothing of the system differs. -/
structure SameWork (s t : State) : Prop where
  ops : t.ops = s.ops
  queue : ∀ c q, t.queue c q = s.queue c q
  mem : t.mem = s.mem
  host : t.host = s.host
  posted : t.posted = s.posted
  system : SameSystem s t

theorem SameWork.trans {s t u : State} (h : SameWork s t) (h' : SameWork t u) : SameWork s u :=
  ⟨h'.ops.trans h.ops, fun c q => (h'.queue c q).trans (h.queue c q), h'.mem.trans h.mem, h'.host.trans h.host,
    h'.posted.trans h.posted, h.system.trans h'.system⟩

theorem SameWork.refl (s : State) : SameWork s s := ⟨rfl, fun _ _ => rfl, rfl, rfl, rfl, by constructor <;> rfl⟩

theorem OnlyLooked.sameWork {s t : State} (h : OnlyLooked s t) : SameWork s t := by
  obtain ⟨hmem, hhost, hposted, hops, -⟩ := h.data
  exact ⟨hops, h.queue, hmem, hhost, hposted, h.system⟩

theorem State.chargeUnit_sameWork (s : State) (c q u ns : Nat) : SameWork s (s.chargeUnit c q u ns) := by
  obtain ⟨x, hx⟩ := s.chargeUnit_form c q u ns
  rw [hx]
  exact ⟨rfl, fun _ _ => rfl, rfl, rfl, rfl, by constructor <;> rfl⟩

theorem State.modPlate_sameWork (s : State) (g : Nat) (f : Plate → Plate) : SameWork s (s.modPlate g f) :=
  ⟨rfl, fun _ _ => rfl, rfl, rfl, rfl, by constructor <;> rfl⟩

theorem State.modExt_sameWork (s : State) (m p : Nat) (f : ExtPort → ExtPort) : SameWork s (s.modExt m p f) :=
  ⟨rfl, fun _ _ => rfl, rfl, rfl, rfl, by constructor <;> rfl⟩

theorem State.send_sameWork (s : State) (x : OutMsg) : SameWork s (s.send x) :=
  ⟨rfl, fun _ _ => rfl, rfl, rfl, rfl, by constructor <;> rfl⟩

theorem SameWork.nextIdx {s t : State} (h : SameWork s t) (c q : Nat) : t.nextIdx c q = s.nextIdx c q := by
  rw [State.nextIdx, h.queue]
  rfl

/-! ### The issue (R139, R199) -/

/-- The operation is outstanding and its queue stands at the next instruction; no data and nothing of the system
differ. -/
structure Issued (s : State) (o : Op) (t : State) : Prop where
  ops : t.ops = s.ops ++ [o]
  nextIdx : t.nextIdx o.c o.q = s.nextIdx o.c o.q + 1
  mem : t.mem = s.mem
  host : t.host = s.host
  posted : t.posted = s.posted
  system : SameSystem s t

theorem Issued.beside {s t u : State} {o : Op} (h : Issued s o t) (h' : SameWork t u) : Issued s o u :=
  ⟨h'.ops.trans h.ops, (h'.nextIdx o.c o.q).trans h.nextIdx, h'.mem.trans h.mem, h'.host.trans h.host,
    h'.posted.trans h.posted, h.system.trans h'.system⟩

theorem State.issue_form (s : State) (o : Op) : ∃ x, s.issue o = { s with ctxs := x, ops := s.ops ++ [o] } := by
  unfold State.issue State.modRun State.modQueue State.ran State.modCtx State.setCtx
  exact ⟨_, rfl⟩

theorem State.issue_plates (s : State) (o : Op) : (s.issue o).plates = s.plates := by
  obtain ⟨x, hx⟩ := s.issue_form o
  rw [hx]

theorem State.issue_out (s : State) (o : Op) : (s.issue o).out = s.out := by
  obtain ⟨x, hx⟩ := s.issue_form o
  rw [hx]

theorem State.issue_queue (s : State) (o : Op) :
    (s.issue o).queue o.c o.q =
      { s.queue o.c o.q with run := (s.queue o.c o.q).run.map fun r => { r with pc := r.pc + 1 } } := by
  have hran : (s.ran o.c).queue o.c o.q = s.queue o.c o.q := by simp [State.queue, State.ran, Ctx.queue]
  have hissue : (s.issue o).queue o.c o.q =
      ((s.ran o.c).modRun o.c o.q fun r => { r with pc := r.pc + 1 }).queue o.c o.q := rfl
  rw [hissue, State.modRun, State.modQueue_same, hran]

theorem State.issue_tenant (s : State) (o : Op) (d : Nat) : ((s.issue o).ctx d).tenant = (s.ctx d).tenant := by
  have hissue : (s.issue o).ctx d = ((s.ran o.c).modRun o.c o.q fun r => { r with pc := r.pc + 1 }).ctx d := rfl
  rw [hissue, State.modRun, State.modQueue, State.ran, State.modCtx_modCtx]
  by_cases hd : d = o.c
  · rw [hd, State.modCtx_same]
    rfl
  · rw [State.modCtx_ne _ _ hd]

/-- What looked, charged its unit or marked its plate before, issues. -/
theorem SameWork.issue {s u : State} (h : SameWork s u) {o : Op} (hissue : s.canIssue o.c o.q = true) :
    Issued s o (u.issue o) := by
  obtain ⟨⟨r, hrun⟩, -⟩ := State.canIssue_next hissue
  have hnext : (u.issue o).nextIdx o.c o.q = s.nextIdx o.c o.q + 1 := by
    rw [State.nextIdx, State.issue_queue, h.queue, State.nextIdx, hrun]
    rfl
  obtain ⟨x, hform⟩ := u.issue_form o
  rw [hform] at hnext ⊢
  refine ⟨congrArg (· ++ [o]) h.ops, hnext, h.mem, h.host, h.posted, h.system.trans ?_⟩
  constructor <;> rfl

/-! ### A check that fails (R140) -/

/-- The next instruction is outstanding with its fault; no data, no plate and nothing of the system differ. -/
def StoppedBy (s : State) (c q : Nat) (f : Flt) (t : State) : Prop :=
  ∃ o, t.ops = s.ops ++ [o] ∧ o.idx = s.nextIdx c q ∧ o.fin = some f.1 ∧ o.detail = BitVec.ofNat 64 f.2 ∧
    t.mem = s.mem ∧ t.host = s.host ∧ t.posted = s.posted ∧ t.plates = s.plates ∧ SameSystem s t

theorem OnlyLooked.stops {s u : State} (h : OnlyLooked s u) {c q : Nat} (hissue : s.canIssue c q = true) (k : Nat)
    (f : Flt) : StoppedBy s c q f (u.issueDone (s.newOp c q k) (some f) 0) := by
  obtain ⟨-, -, -, -, hplates⟩ := h.data
  obtain ⟨hops, -, hmem, hhost, hposted, hsys⟩ := h.sameWork.issue
    (o := { s.newOp c q k with fin := some f.1, detail := BitVec.ofNat 64 f.2 }) hissue
  exact ⟨_, hops, rfl, rfl, rfl, hmem, hhost, hposted, (u.issue_plates _).trans hplates, hsys⟩

end Sys2Proof.Machine
end

section
/-!
EnginesAcceptOrFault (R120, R140, R148 to R150, R159): what each engine's unit accepts, and the checks that stop it.
-/

namespace Sys2Proof.Machine

open Sys2Proof

/-! ### Accepted by a unit -/

/-- `o` is the next instruction of the queue, and not finished. -/
def IsNext (s : State) (c q : Nat) (o : Op) : Prop :=
  o.c = c ∧ o.q = q ∧ o.idx = s.nextIdx c q ∧ o.word = s.nextMacro c q ∧ o.reserved = decide (q < 4) ∧ o.fin = none

/-- The next instruction is outstanding, and the queue stands at the one after it. -/
def AcceptedAs (s : State) (c q : Nat) (o : Op) (t : State) : Prop :=
  t.ops = s.ops ++ [o] ∧ o.c = c ∧ o.q = q ∧ o.idx = s.nextIdx c q ∧ o.word = s.nextMacro c q ∧
  o.reserved = decide (q < 4) ∧ o.fin = none ∧ t.nextIdx c q = s.nextIdx c q + 1 ∧ t.mem = s.mem ∧ t.host = s.host ∧
  t.posted = s.posted ∧ SameSystem s t

theorem Issued.accepted {s t : State} {c q : Nat} {o : Op} (h : Issued s o t) (ho : IsNext s c q o) :
    AcceptedAs s c q o t := by
  obtain ⟨rfl, rfl, hidx, hword, hres, hfin⟩ := ho
  obtain ⟨hops, hnext, hmem, hhost, hposted, hsys⟩ := h
  exact ⟨hops, rfl, rfl, hidx, hword, hres, hfin, hnext, hmem, hhost, hposted, hsys⟩

/-- What looked, charged its unit or marked its plate before is accepted. -/
theorem SameWork.accepts {s u : State} (h : SameWork s u) {c q : Nat} {o : Op} (ho : IsNext s c q o)
    (hissue : s.canIssue c q = true) : AcceptedAs s c q o (u.issue o) := by
  refine (h.issue ?_).accepted ho
  obtain ⟨rfl, rfl, -⟩ := ho
  exact hissue

theorem State.charged_issue_plates (s : State) (c q j ns : Nat) (o : Op) :
    ((s.chargeUnit c q j ns).issue o).plates = s.plates := by
  obtain ⟨x, hx⟩ := s.chargeUnit_form c q j ns
  rw [State.issue_plates, hx]

/-- The same behind the charge of its unit, which touches no plate. -/
theorem SameWork.accepts_charged {s u : State} (h : SameWork s u) {c q : Nat} {o : Op} (ho : IsNext s c q o)
    (hissue : s.canIssue c q = true) (d p j ns : Nat) :
    AcceptedAs s c q o ((u.chargeUnit d p j ns).issue o) ∧ ((u.chargeUnit d p j ns).issue o).plates = u.plates :=
  ⟨(h.trans (u.chargeUnit_sameWork d p j ns)).accepts ho hissue, u.charged_issue_plates d p j ns o⟩

/-! ### The readiness of each engine asks for a queue that may issue -/

theorem hatchReady_canIssue {s : State} {c q : Nat} {stip : Bool} (h : hatchReady s c q stip = true) :
    s.canIssue c q = true := by
  simp only [hatchReady, Bool.and_eq_true] at h
  obtain ⟨hready, -⟩ := h
  exact State.ready_canIssue hready

theorem etchReady_canIssue {s : State} {c q : Nat} (h : etchReady s c q = true) : s.canIssue c q = true := by
  simp only [etchReady, Bool.and_eq_true] at h
  obtain ⟨⟨⟨hready, -⟩, -⟩, -⟩ := h
  exact State.ready_canIssue hready

theorem loadReady_canIssue {s : State} {c q : Nat} (h : loadReady s c q = true) : s.canIssue c q = true := by
  simp only [loadReady, Bool.and_eq_true] at h
  obtain ⟨⟨⟨hready, -⟩, -⟩, -⟩ := h
  exact State.ready_canIssue hready

theorem extReady_canIssue {s : State} {c q : Nat} (h : extReady s c q = true) : s.canIssue c q = true := by
  simp only [extReady, Bool.and_eq_true] at h
  obtain ⟨⟨⟨⟨⟨⟨hissue, -⟩, -⟩, -⟩, -⟩, -⟩, -⟩ := h
  exact hissue

/-! ### HATCH and STIPPLE (R120, R148) -/

theorem hatchEffect_fault {s u : State} {c q : Nat} {stip : Bool} {ecc : Found} {f : Flt}
    (h : hatchPrepare s c q stip ecc = (.error f, u)) :
    hatchEffect s c q stip ecc = u.issueDone (s.newOp c q (s.hatchUnit c q stip)) (some f) 0 := by
  simp only [hatchEffect, h]

/-- An output wider than 8 goes to the Crosshatch array. -/
theorem hatchEffect_array {s u : State} {c q : Nat} {ecc : Found} {a b d : Mat}
    (h : hatchPrepare s c q false ecc = (.ok (a, b, d), u)) (hwide : 8 < d.cols) :
    hatchEffect s c q false ecc =
      issueHatch u (s.newOp c q (s.hatchUnit c q false)) (hatchDie (s.nextMacro c q)) a b d := by
  simp [hatchEffect, h, onStipple, hwide]

theorem hatchEffect_stipple {s u : State} {c q : Nat} {stip : Bool} {ecc : Found} {a b d : Mat}
    (h : hatchPrepare s c q stip ecc = (.ok (a, b, d), u)) (hstip : stip = true ∨ d.cols ≤ 8) :
    hatchEffect s c q stip ecc =
      issueStipple u (s.newOp c q (s.hatchUnit c q stip)) (hatchDie (s.nextMacro c q)) a b d := by
  have hon : onStipple stip d = true := by simpa [onStipple] using hstip
  simp only [hatchEffect, h, hon, if_true]

/-- A command of one FUNC or the other is one effect. -/
theorem exec_hatch_or_stipple (s : State) (c q : Nat) (stip : Bool) (ecc : Found) :
    exec (if stip then .stipple c q ecc else .hatch c q ecc) s =
      due s (hatchReady s c q stip) (hatchEffect s c q stip ecc) := by cases stip <;> rfl

/-- A HATCH within its build whose first claim fits its share charges the array and issues with its walk. -/
theorem issueHatch_claimed {s u : State} {c q m : Nat} {a b d : Mat} (k : Nat) :
    let v := planVariant ((u.progOf c q).plans.getD (hatchPlan (s.nextMacro c q)) 0) a.bucket ((u.bundleOf c).rp m)
      ((u.bundleOf c).cp m)
    let sheet := decide (v.sheet ≠ 0) && (decide (u.lpInk c a ≠ none) || decide (u.lpInk c b ≠ none))
    let panel := decide (a.space ≠ 2 ∨ b.space ≠ 2)
    (u.bundleOf c).rp m ≤ buildRows (u.fab m).desc → (u.bundleOf c).cp m ≤ buildCols (u.fab m).desc →
    firstClaimFault u c m v a b sheet = none →
    ∃ o h ns, issueHatch u (s.newOp c q k) m a b d = (u.chargeUnit c q m ns).issue o ∧ IsNext s c q o ∧
      o.prog = .hatch h ∧ o.da = a ∧ o.db = b ∧ o.dd = d ∧
      h.walk = (List.range (walks [a, b, d])).flatMap (fun e => hatchWalk v sheet panel e a.rows a.cols b.cols) ∧
      h.tileAt = nextItem WalkItem.isTile h.walk 0 ∧ h.bufs = [] ∧ h.sats = 0 ∧ h.reruns = 0 := by
  intro v sheet panel hrows hcols hclaim
  have hbuild : ¬ (buildRows (u.fab m).desc < (u.bundleOf c).rp m ∨ buildCols (u.fab m).desc < (u.bundleOf c).cp m) := by
    omega
  unfold issueHatch State.newOp
  dsimp only
  simp only [v, sheet] at hclaim
  rw [if_neg hbuild, hclaim]
  exact ⟨_, _, _, rfl, ⟨rfl, rfl, rfl, rfl, rfl, rfl⟩, rfl, rfl, rfl, rfl, rfl, rfl, rfl, rfl, rfl⟩

/-- A STIPPLE within its build whose panel fits its share charges Stipple and issues with its operations. -/
theorem issueStipple_claimed {s u : State} {c q m : Nat} {a b d : Mat} (k : Nat) (hwidth : d.cols ≤ 1024) :
    let n := walks [a, b, d] * ceilDiv a.rows 64
    let bytes := if a.space = 2 then 0 else (if 1 < n then 2 else 1) * eltBytes a.ty (min 64 a.rows * a.cols)
    wellFault u c m bytes = none →
    ∃ o h ns, issueStipple u (s.newOp c q k) m a b d = (u.chargeUnit c q (4 + m) ns).issue o ∧ IsNext s c q o ∧
      o.prog = .stip h ∧ o.da = a ∧ o.db = b ∧ o.dd = d ∧
      h.ops = n ∧ h.opAt = 0 ∧ h.claim = ceilDiv bytes 8192 ∧ h.fetched = decide (a.space = 2) := by
  intro n bytes hwell
  simp only [n, bytes] at hwell
  simp only [issueStipple, State.newOp, if_neg (Nat.not_lt.2 hwidth), hwell]
  exact ⟨_, _, _, rfl, ⟨rfl, rfl, rfl, rfl, rfl, rfl⟩, rfl, rfl, rfl, rfl, rfl, rfl, rfl, rfl⟩

theorem issueStipple_too_wide {s : State} {o : Op} {m : Nat} {a b d : Mat} (hwidth : 1024 < d.cols) :
    issueStipple s o m a b d = s.issueDone o (some (.buildMismatch, 0)) 0 := if_pos hwidth

/-! ### ETCH (R149) -/

theorem etchEffect_fault {s u : State} {c q : Nat} {ecc : Found} {f : Flt} (h : etchCheck s c q ecc = (.error f, u)) :
    etchEffect s c q ecc = u.issueDone (s.newOp c q 0xFF) (some f) 0 := by
  simp only [etchEffect, h]

/-- An ETCH that passes its checks charges its die and issues with its pass slots. -/
theorem etchEffect_checked {s u : State} {c q : Nat} {ecc : Found} {x dc y : Mat}
    (h : etchCheck s c q ecc = (.ok (x, dc, y), u)) :
    ∃ o e k ns, etchEffect s c q ecc = (u.chargeUnit c q k ns).issue o ∧ IsNext s c q o ∧ o.prog = .etch e ∧ o.da = x ∧
      o.dd = y ∧ e.plates = etchPlates (s.nextMacro c q) ∧ e.rounds = x.rows * walks [x, y] ∧ e.round = 0 ∧
      e.acc = [] ∧ e.fails = [] := by
  simp only [etchEffect, State.newOp, h]
  exact ⟨_, _, _, _, rfl, ⟨rfl, rfl, rfl, rfl, rfl, rfl⟩, rfl, rfl, rfl, rfl, rfl, rfl, rfl, rfl⟩

/-! ### LOAD and SWAP (R150) -/

theorem loadEffect_fault {s u : State} {c q : Nat} {ecc : Found} {f : Flt} (h : loadCheck s c q ecc = (.error f, u)) :
    loadEffect s c q ecc = u.issueDone (s.newOp c q (loadUnit (loadDie (s.nextMacro c q)))) (some f) 0 := by
  simp only [loadEffect, h]

/-- A LOAD that passes its checks marks its target bank LOADING and issues. -/
theorem loadEffect_checked {s u : State} {c q : Nat} {ecc : Found} {src : Mat} {mir : Option Mat}
    (h : loadCheck s c q ecc = (.ok (src, mir), u)) :
    let g := loadPlate (s.nextMacro c q)
    let b := (s.plate g).targetB
    let kn := s.actual c q ((s.progOf c q).desc (fld (s.nextMacro c q) 39 32)).2
    ∃ o k ns, loadEffect s c q ecc = ((u.modPlate g fun p => p.setBank b
        { state := .loading, k := kn.1, n := kn.2, src := src, mirror := mir }).chargeUnit c q k ns).issue o ∧
      IsNext s c q o ∧ o.da = src ∧ o.prog = .load { g := g, toB := b, k := kn.1, n := kn.2 } := by
  intro g b kn
  have hlook : OnlyLooked s u := (loadCheck_looked s c q ecc).of_answer h
  simp only [loadEffect, State.newOp, h, hlook.plate, hlook.progOf, hlook.actual]
  exact ⟨_, _, _, rfl, ⟨rfl, rfl, rfl, rfl, rfl, rfl⟩, rfl, rfl⟩

/-- Of the plates only the marked bank differs. -/
theorem State.setBank_plates {s t : State} {g : Nat} {b : Bool} {k : Bank}
    (h : t.plates = (s.modPlate g fun p => p.setBank b k).plates) :
    (t.plate g).bank b = k ∧ (t.plate g).bank (!b) = (s.plate g).bank (!b) ∧ ∀ j, j ≠ g → t.plate j = s.plate j := by
  rw [State.plate_of_plates h, State.modPlate_same]
  refine ⟨Plate.bank_setBank_same _ _ _, Plate.bank_setBank_other _ _ _, fun j hj => ?_⟩
  rw [State.plate_of_plates h, State.modPlate_ne _ _ hj]

theorem swapEffect_fault {s : State} {c q : Nat} {f : Flt} (h : swapCheck s c (swapPlates (s.nextMacro c q)) = some f) :
    swapEffect s c q = s.issueDone (s.newOp c q 0xFF) (some f) 0 := by
  simp only [swapEffect, h]

theorem swapEffect_checked {s : State} {c q : Nat} (h : swapCheck s c (swapPlates (s.nextMacro c q)) = none) :
    swapEffect s c q = s.issue { s.newOp c q 0xFF with prog := .swap (swapPlates (s.nextMacro c q)) } := by
  simp only [swapEffect, h]

/-! ### EXT (R130, R159) -/

theorem extEffect_fault {s u : State} {c q : Nat} {ecc : Found} {f : Flt} (h : extCheck s c q ecc = (.error f, u)) :
    extEffect s c q ecc = u.issueDone
      (s.newOp c q (extUnit (extDie (s.nextMacro c q)) (extPort (s.nextMacro c q)))) (some f) 0 := by
  simp only [extEffect, h]

theorem extEffect_checked {s u : State} {c q : Nat} {ecc : Found} {ms : List Mat} {d : Mat}
    (h : extCheck s c q ecc = (.ok (ms, d), u)) :
    let m := extDie (s.nextMacro c q)
    let p := extPort (s.nextMacro c q)
    let o := { s.newOp c q (extUnit m p) with prog := .ext m p, dd := d, da := ms.headD {}, db := ms.getLastD {} }
    extEffect s c q ecc = extStart (u.issue o) o m p ecc := by
  simp only [extEffect, h]

/-- The port takes the command with its operand stream. -/
theorem extStart_streamed {s v : State} {o : Op} {m p : Nat} {ecc : Found} {bs : List Byte}
    (h : extStream s o m ecc = (.ok bs, v)) :
    extStart s o m p ecc = (v.modExt m p fun _ => { cmd := some (o.c, o.q, o.idx) }).send
      (.extCommand m p o.c (s.ctx o.c).tenant o.word bs) := by
  have htenant := ((extStream_looked s o m ecc).of_answer h).tenant o.c
  simp only [extStart, h, ← htenant]

/-! ### The six engines -/

theorem enginesAccept : Claims.EnginesAccept := by
  intro s c q ecc w i taken
  refine ⟨fun hready a b d u hprep hwide => ?_, fun stip hready a b d u hprep hstip hwidth => ?_,
    fun hready x dc y u hcheck => answers_due rfl hready ?_, fun hready src mir u hcheck => answers_due rfl hready ?_,
    fun hready hcheck => answers_due rfl hready ?_, fun hready ms d u hcheck => ?_⟩
  · intro m v sheet panel hrows hcols hclaim
    refine answers_due rfl hready ?_
    have hlook : OnlyLooked s u := (hatchPrepare_looked s c q false ecc).of_answer hprep
    obtain ⟨-, -, -, -, hplates⟩ := hlook.data
    obtain ⟨o, h, ns, hissue, ho, hprog, hda, hdb, hdd, hwalk⟩ :=
      issueHatch_claimed (d := d) (s.hatchUnit c q false) hrows hcols hclaim
    obtain ⟨htaken, hplates'⟩ := hlook.sameWork.accepts_charged ho (hatchReady_canIssue hready) c q m ns
    rw [hatchEffect_array hprep hwide, hissue]
    exact ⟨o, h, htaken, hprog, hda, hdb, hdd, hwalk.imp_right fun ⟨htile, hbufs, hsats, hreruns⟩ =>
      ⟨htile, hbufs, hsats, hreruns, hplates'.trans hplates⟩⟩
  · intro n bytes hwell
    refine answers_due (exec_hatch_or_stipple s c q stip ecc) hready ?_
    have hlook : OnlyLooked s u := (hatchPrepare_looked s c q stip ecc).of_answer hprep
    obtain ⟨-, -, -, -, hplates⟩ := hlook.data
    obtain ⟨o, h, ns, hissue, ho, hprog, hda, hdb, hdd, hops, hat, hclaim, hfetched⟩ :=
      issueStipple_claimed (d := d) (s.hatchUnit c q stip) hwidth hwell
    obtain ⟨htaken, hplates'⟩ := hlook.sameWork.accepts_charged ho (hatchReady_canIssue hready) c q (4 + hatchDie w) ns
    rw [hatchEffect_stipple hprep hstip, hissue]
    exact ⟨o, h, htaken, hprog, hda, hdb, hdd, hops, hat, hclaim, hfetched, hplates'.trans hplates⟩
  · have hlook : OnlyLooked s u := (etchCheck_looked s c q ecc).of_answer hcheck
    obtain ⟨-, -, -, -, hplates⟩ := hlook.data
    obtain ⟨o, e, k, ns, hissue, ho, hprog, hda, hdd, hslots, hrounds, hround, hacc, hfails⟩ := etchEffect_checked hcheck
    obtain ⟨htaken, hplates'⟩ := hlook.sameWork.accepts_charged ho (etchReady_canIssue hready) c q k ns
    rw [hissue]
    exact ⟨o, e, htaken, hprog, hda, hdd, hslots, hrounds, hround, hacc, hfails, hplates'.trans hplates⟩
  · have hlook : OnlyLooked s u := (loadCheck_looked s c q ecc).of_answer hcheck
    obtain ⟨o, k, ns, hissue, ho, hda, hprog⟩ := loadEffect_checked hcheck
    obtain ⟨htaken, hplates⟩ := (hlook.sameWork.trans (u.modPlate_sameWork _ _)).accepts_charged ho
      (loadReady_canIssue hready) c q k ns
    rw [hissue]
    obtain ⟨hbank, hother, hrest⟩ := State.setBank_plates hplates
    exact ⟨o, htaken, hda, hprog, congrArg Bank.state hbank, congrArg Bank.k hbank, congrArg Bank.n hbank,
      hother.trans (congrArg (Plate.bank · _) (hlook.plate _)), fun j hj => (hrest j hj).trans (hlook.plate j)⟩
  · rw [swapEffect_checked hcheck]
    exact ⟨_, (SameWork.refl s).accepts ⟨rfl, rfl, rfl, rfl, rfl, rfl⟩ (State.ready_canIssue hready), rfl,
      s.issue_plates _⟩
  · intro m p o bs v hstream
    refine answers_due rfl hready ?_
    have hlook : OnlyLooked s u := (extCheck_looked s c q ecc).of_answer hcheck
    have hsent : OnlyLooked (u.issue o) v := (extStream_looked _ _ _ _).of_answer hstream
    obtain ⟨-, -, -, -, hplates⟩ := hlook.data
    obtain ⟨-, -, -, -, hplates'⟩ := hsent.data
    obtain ⟨-, -, hout⟩ := hlook.accounts c
    obtain ⟨-, -, hout'⟩ := hsent.accounts c
    have hissued := (hlook.sameWork.issue (o := o) (extReady_canIssue hready)).beside
      ((hsent.sameWork.trans (v.modExt_sameWork m p fun _ => { cmd := some (c, q, i) })).trans
        (State.send_sameWork _ (.extCommand m p c (s.ctx c).tenant w bs)))
    have htenant : ((u.issue o).ctx o.c).tenant = (s.ctx o.c).tenant :=
      (u.issue_tenant o o.c).trans (hlook.tenant o.c)
    rw [extEffect_checked hcheck, extStart_streamed hstream, htenant]
    refine ⟨hissued.accepted ⟨rfl, rfl, rfl, rfl, rfl, rfl⟩, ?_, ?_, ?_, hplates'.trans ((u.issue_plates o).trans hplates)⟩
    · exact congrArg ExtPort.cmd (v.ext_modExt_same m p _)
    · exact congrArg ExtPort.aborting (v.ext_modExt_same m p _)
    · exact congrArg (· ++ _) (hout'.trans ((u.issue_out o).trans hout))

theorem checksFaultWithoutEffect : Claims.ChecksFaultWithoutEffect := by
  intro s c q ecc f stopped
  refine ⟨fun hready ⟨u, hcheck⟩ => answers_due rfl hready ?_, fun hready ⟨u, hcheck⟩ => answers_due rfl hready ?_,
    fun hready ⟨u, hcheck⟩ => answers_due rfl hready ?_, fun hready ⟨u, hcheck⟩ => answers_due rfl hready ?_,
    fun hready hcheck => answers_due rfl hready ?_, fun hready ⟨u, hcheck⟩ => answers_due rfl hready ?_, ?_⟩
  · rw [hatchEffect_fault hcheck]
    exact ((hatchPrepare_looked s c q false ecc).of_answer hcheck).stops (hatchReady_canIssue hready) _ f
  · rw [hatchEffect_fault hcheck]
    exact ((hatchPrepare_looked s c q true ecc).of_answer hcheck).stops (hatchReady_canIssue hready) _ f
  · rw [etchEffect_fault hcheck]
    exact ((etchCheck_looked s c q ecc).of_answer hcheck).stops (etchReady_canIssue hready) _ f
  · rw [loadEffect_fault hcheck]
    exact ((loadCheck_looked s c q ecc).of_answer hcheck).stops (loadReady_canIssue hready) _ f
  · rw [swapEffect_fault hcheck]
    exact (OnlyLooked.refl s).stops (State.ready_canIssue hready) _ f
  · rw [extEffect_fault hcheck]
    exact ((extCheck_looked s c q ecc).of_answer hcheck).stops (extReady_canIssue hready) _ f
  · rintro stip hready ⟨a, b, d, u, hprep, hstip, hwidth⟩ rfl
    refine answers_due (exec_hatch_or_stipple s c q stip ecc) hready ?_
    rw [hatchEffect_stipple hprep hstip, issueStipple_too_wide hwidth]
    exact ((hatchPrepare_looked s c q stip ecc).of_answer hprep).stops (hatchReady_canIssue hready) _ _

/-- Settles O19: the checks only look, so that what a unit accepts is the issue of the next instruction, and a fault
leaves nothing else. -/
theorem enginesAcceptOrFault : Obligations.EnginesAcceptOrFault := ⟨enginesAccept, checksFaultWithoutEffect⟩

end Sys2Proof.Machine
end

section
/-!
What an instruction that runs at its issue may touch before its writes stand (R140, R152): it looks, holds writes and charges;
then it ends, and its queue stands at the next one.
-/

namespace Sys2Proof.Machine

open Sys2Proof

/-! ### The writes of an operation in the making (R163, R165) -/

/-- The outstanding operations, those under (c, q, i) holding the writes `g` besides. -/
def holdMore (c q i : Nat) (g : List Posted) (l : List Op) : List Op :=
  l.map fun o => if o.c = c ∧ o.q = q ∧ o.idx = i then { o with held := o.held ++ g } else o

theorem holdMore_nil (c q i : Nat) (l : List Op) : holdMore c q i [] l = l := by simp [holdMore]

theorem holdMore_append (c q i : Nat) (g g' : List Posted) (l : List Op) :
    holdMore c q i g' (holdMore c q i g l) = holdMore c q i (g ++ g') l := by
  rw [holdMore, holdMore, holdMore, List.map_map]
  refine List.map_congr_left fun o _ => ?_
  by_cases ho : o.c = c ∧ o.q = q ∧ o.idx = i <;> simp [ho]

/-- The operation under (c, q, i) may hold more writes; no other operation, no queue, no data, no plate and nothing of the
system differs. -/
structure OnlyHolds (c q i : Nat) (s t : State) : Prop where
  ops : ∃ g, t.ops = holdMore c q i g s.ops
  queue : ∀ d p, t.queue d p = s.queue d p
  mem : t.mem = s.mem
  host : t.host = s.host
  posted : t.posted = s.posted
  plates : t.plates = s.plates
  system : SameSystem s t

section
variable {c q i : Nat} {s t u : State}

theorem OnlyHolds.trans (h : OnlyHolds c q i s t) (h' : OnlyHolds c q i t u) : OnlyHolds c q i s u := by
  obtain ⟨g, hg⟩ := h.ops
  obtain ⟨g', hg'⟩ := h'.ops
  exact ⟨⟨g ++ g', by rw [hg', hg, holdMore_append]⟩, fun d p => (h'.queue d p).trans (h.queue d p), h'.mem.trans h.mem,
    h'.host.trans h.host, h'.posted.trans h.posted, h'.plates.trans h.plates, h.system.trans h'.system⟩

theorem SameWork.holds (h : SameWork s t) (hplates : t.plates = s.plates) : OnlyHolds c q i s t :=
  ⟨⟨[], h.ops.trans (holdMore_nil c q i s.ops).symm⟩, h.queue, h.mem, h.host, h.posted, hplates, h.system⟩

theorem OnlyHolds.refl (s : State) : OnlyHolds c q i s s := (SameWork.refl s).holds rfl

theorem OnlyLooked.holds (h : OnlyLooked s t) : OnlyHolds c q i s t := by
  obtain ⟨-, -, -, -, hplates⟩ := h.data
  exact h.sameWork.holds hplates

theorem State.holdWrites_holds (s : State) (c q i : Nat) (e : Engine) (l : List (Nat × Target × List Byte)) :
    OnlyHolds c q i s (s.holdWrites c q i e l) := by
  obtain ⟨hmem, hhost, hposted, hctxs, hplates, hsys⟩ := (s.holdWrites_only c q i e l).same
  refine ⟨⟨_, rfl⟩, fun d p => ?_, hmem, hhost, hposted, hplates, hsys⟩
  rw [State.queue, State.ctx, hctxs]
  rfl

theorem OnlyHolds.of_answer {α : Type} {r : α × State} {a : α} (h : OnlyHolds c q i s r.2) (heq : r = (a, t)) :
    OnlyHolds c q i s t := by rwa [heq] at h

/-! ### Charges and reruns (R51, R101, R107) -/

theorem State.chargeUnit_holds (s : State) (d p u ns : Nat) : OnlyHolds c q i s (s.chargeUnit d p u ns) := by
  refine (s.chargeUnit_sameWork d p u ns).holds ?_
  obtain ⟨x, hx⟩ := s.chargeUnit_form d p u ns
  rw [hx]

theorem State.countMismatch_holds (s : State) (m : Nat) (cross : Bool) : OnlyHolds c q i s (s.countMismatch m cross) := by
  obtain ⟨⟨f, hform⟩, -⟩ := s.countMismatch_counts m cross
  rw [hform]
  refine SameWork.holds ⟨rfl, fun _ _ => rfl, rfl, rfl, rfl, ?_⟩ rfl
  constructor <;> rfl

/-- A charge takes from the allowance of its context alone. -/
theorem State.charge_holds {d p ns : Nat} (h : s.charge d p ns = some t) : OnlyHolds c q i s t := by
  unfold State.charge at h
  dsimp only at h
  split at h
  · cases h
    refine SameWork.holds ⟨rfl, fun e r => ?_, rfl, rfl, rfl, ?_⟩ rfl
    · by_cases he : e = d
      · subst he
        rw [State.queue, State.modCtx_same]
        split <;> rfl
      · rw [State.queue, State.modCtx_ne _ _ he]
        rfl
    · constructor <;> rfl
  · cases h

theorem State.rerun_holds (s : State) (d p m k ns : Nat) (cross : Bool) :
    OnlyHolds c q i s (s.rerun d p m k ns cross).2.2 := by
  unfold State.rerun
  dsimp only
  split
  · exact OnlyHolds.refl s
  split
  · exact s.countMismatch_holds m cross
  next v hcharge =>
    have hcharged : OnlyHolds c q i s v := (s.countMismatch_holds m cross).trans (State.charge_holds hcharge)
    split
    · exact hcharged.trans (v.chargeUnit_holds d p _ ns)
    · exact hcharged.trans (v.countMismatch_holds m cross)

theorem State.rerun_answers {d p m k ns n : Nat} {cross : Bool} {f : Option Flt} (h : s.rerun d p m k ns cross = (n, f, t)) :
    OnlyHolds c q i s t := by
  have hrerun : OnlyHolds c q i s (s.rerun d p m k ns cross).2.2 := s.rerun_holds d p m k ns cross
  rwa [h] at hrerun

end

/-! ### A run at issue ends (R140) -/

/-- What stands of the writes of an operation moves no queue. -/
theorem State.release_nextIdx (s : State) (o : Op) : (s.release o).nextIdx o.c o.q = s.nextIdx o.c o.q := by
  unfold State.release
  split
  · rfl
  split
  · unfold State.postAll
    dsimp only
    split
    · exact State.nextIdx_modQueue _ _ _ _ fun _ => rfl
    · rfl
  · have hctxs : (o.held.foldl (fun s p => s.wrTarget p.target p.bytes) s).ctxs = s.ctxs :=
      foldl_keeps State.ctxs o.held _ (fun u p => (u.wrTarget_dataOnly p.target p.bytes).ctxs) s
    rw [State.nextIdx, State.queue, State.ctx, hctxs]
    rfl

theorem State.release_plates (s : State) (o : Op) : (s.release o).plates = s.plates := by
  unfold State.release
  split
  · rfl
  split
  · obtain ⟨ps, x, hpost⟩ := s.postAll_form o.c o.q o.held
    rw [hpost]
  · exact foldl_keeps State.plates o.held _ (fun u p => by
      obtain ⟨⟨m, l, f, x, hform⟩, -⟩ := u.wrTarget_dataOnly p.target p.bytes
      rw [hform]) s

/-- A change of the operation under the names of the last, new one changes that one alone. -/
theorem map_named_last {l : List Op} {x : Op} (hnew : ∀ o ∈ l, ¬ (o.c = x.c ∧ o.q = x.q ∧ o.idx = x.idx)) (f : Op → Op) :
    (l ++ [x]).map (fun o => if o.c = x.c ∧ o.q = x.q ∧ o.idx = x.idx then f o else o) = l ++ [f x] := by
  have hold : l.map (fun o => if o.c = x.c ∧ o.q = x.q ∧ o.idx = x.idx then f o else o) = l :=
    (List.map_congr_left fun o ho => if_neg (hnew o ho)).trans l.map_id
  rw [List.map_append, hold]
  simp

theorem State.op_last {s : State} {l : List Op} {x : Op} (hops : s.ops = l ++ [x])
    (hnew : ∀ o ∈ l, ¬ (o.c = x.c ∧ o.q = x.q ∧ o.idx = x.idx)) : s.op x.c x.q x.idx = some x := by
  have hnone : l.find? (fun o => decide (o.c = x.c ∧ o.q = x.q ∧ o.idx = x.idx)) = none :=
    List.find?_eq_none.2 fun o ho => by simpa using hnew o ho
  rw [State.op, hops, List.find?_append, hnone]
  simp

/-- The new operation, whatever it holds by now, is the last one. -/
theorem OnlyHolds.last {s u v : State} {o : Op} (hissued : Issued s o u) (hran : OnlyHolds o.c o.q o.idx u v)
    (hnew : ∀ p ∈ s.ops, ¬ (p.c = o.c ∧ p.q = o.q ∧ p.idx = o.idx)) :
    ∃ x, x.c = o.c ∧ x.q = o.q ∧ x.idx = o.idx ∧ v.ops = s.ops ++ [x] := by
  obtain ⟨g, hg⟩ := hran.ops
  refine ⟨{ o with held := o.held ++ g }, rfl, rfl, rfl, ?_⟩
  rw [hg, hissued.ops]
  exact map_named_last hnew fun p => { p with held := p.held ++ g }

section
variable {s v : State} {l : List Op} {x : Op} (hops : v.ops = l ++ [x])
  (hnew : ∀ o ∈ l, ¬ (o.c = x.c ∧ o.q = x.q ∧ o.idx = x.idx))
include hops hnew

theorem State.finishOp_last_success (word : BitVec 64) :
    v.finishOp x.c x.q x.idx none word = (v.release x).endOp x.c x.q x.idx none word ∧
    (v.finishOp x.c x.q x.idx none word).ops = l ++ [{ x with fin := some .success, sword := word, held := [] }] := by
  have hends : v.finishOp x.c x.q x.idx none word = (v.release x).endOp x.c x.q x.idx none word := by
    simp only [State.finishOp, State.settleOp, State.op_last hops hnew, if_true]
  obtain ⟨hrel, -⟩ := v.release_keeps x
  rw [hends]
  exact ⟨rfl, (congrArg (List.map _) (hrel.trans hops)).trans
    (map_named_last hnew fun o => { o with fin := some .success, sword := word, held := [] })⟩

theorem State.finishOp_last_fault (e : Flt) (word : BitVec 64) :
    (v.finishOp x.c x.q x.idx (some e) word).ops =
      l ++ [{ x with fin := some e.1, detail := BitVec.ofNat 64 e.2, held := [] }] :=
  (congrArg (List.map _) hops).trans
    (map_named_last hnew fun o => { o with fin := some e.1, detail := BitVec.ofNat 64 e.2, held := [] })

end

theorem State.nextIdx_of_ctxs {s t : State} (h : t.ctxs = s.ctxs) (c q : Nat) : t.nextIdx c q = s.nextIdx c q := by
  have hqueue : t.queue c q = s.queue c q := by
    rw [State.queue, State.ctx, h]
    rfl
  rw [State.nextIdx, hqueue]
  rfl

/-- An instruction that was issued, ran and held its writes ends: with success they stand, with a fault none does. -/
theorem OnlyHolds.ranAtIssue {s u v : State} {o : Op} (hissue : s.canIssue o.c o.q = true)
    (hidx : o.idx = s.nextIdx o.c o.q) (hissued : Issued s o u) (hplates : u.plates = s.plates)
    (hran : OnlyHolds o.c o.q o.idx u v) (f : Option Flt) (word : BitVec 64) :
    RanAtIssue s o.c o.q f word v (v.finishOp o.c o.q o.idx f word) := by
  obtain ⟨-, hnew⟩ := State.canIssue_next hissue
  rw [← hidx] at hnew
  obtain ⟨x, hc, hq, hi, hops⟩ := hran.last hissued hnew
  have hnext : v.nextIdx o.c o.q = s.nextIdx o.c o.q + 1 := by
    rw [State.nextIdx, hran.queue]
    exact hissued.nextIdx
  have hsys : SameSystem s v := hissued.system.trans hran.system
  have hkept : v.plates = s.plates := hran.plates.trans hplates
  rw [← hc, ← hq, ← hi] at hnew
  rw [← hi] at hidx
  rw [← hc, ← hq] at hidx hnext
  rw [← hc, ← hq, ← hi]
  have hfound : v.op x.c x.q (s.nextIdx x.c x.q) = some x := hidx ▸ State.op_last hops hnew
  cases f with
  | none =>
    obtain ⟨hends, hlast⟩ := State.finishOp_last_success hops hnew word
    obtain ⟨-, hmem, hhost, hposted, hsys'⟩ := State.finishOp_success (State.op_last hops hnew) word
    obtain ⟨-, -, -, hctxs, hplates', -⟩ := ((v.release x).endOp_only x.c x.q x.idx none word).same
    refine ⟨?_, ?_, hsys.trans hsys', x, hfound, hlast, hmem, hhost, hposted⟩
    · rw [hends, State.nextIdx_of_ctxs hctxs, v.release_nextIdx, hnext]
    · rw [hends, hplates', v.release_plates, hkept]
  | some e =>
    obtain ⟨hmem, hhost, hposted, hctxs, hplates', hsys'⟩ := (v.finishOp_fault x.c x.q x.idx e word).same
    exact ⟨(State.nextIdx_of_ctxs hctxs _ _).trans hnext, hplates'.trans hkept, hsys.trans hsys', x, hfound,
      State.finishOp_last_fault hops hnew e word, hmem.trans (hran.mem.trans hissued.mem),
      hhost.trans (hran.host.trans hissued.host), hposted.trans (hran.posted.trans hissued.posted)⟩

end Sys2Proof.Machine
end

section
/-!
ToneOperations (R124, R125, R140, R152): what the walk of a Tone instruction may touch, its end, and the elementwise
functions on integers.
-/

namespace Sys2Proof.Machine

open Sys2Proof

/-! ### The walk (R165, R173) -/

theorem readWalks_looked (s : State) (c : Nat) (e : Engine) (pl : Place) (ecc : Found) (m : Mat) (n : Nat) :
    OnlyLooked s (readWalks s c e pl ecc m n).2 := by
  unfold readWalks
  refine foldl_looked _ _ _ s (fun _ _ _ => rfl) fun l u i => ?_
  dsimp only
  split <;> next heq => exact (u.readMat_looked c e pl ecc m i).of_answer heq

theorem toneB_looked (s : State) (o : Op) (m : Nat) (ecc : Found) (mB : Option Mat) (e : Nat) :
    OnlyLooked s (toneB s o m ecc mB e).2 := by
  unfold toneB
  split
  · exact OnlyLooked.refl s
  · split
    · exact OnlyLooked.refl s
    · exact s.readMat_looked _ _ _ _ _ _

theorem toneBRow_looked (s : State) (o : Op) (m : Nat) (ecc : Found) (mB : Option Mat) (b : List Int) (e i : Nat) :
    OnlyLooked s (toneBRow s o m ecc mB b e i).2 := by
  unfold toneBRow
  split
  · exact OnlyLooked.refl s
  · split
    · exact s.readBlock_looked _ _ _ _ _ _ _ _ _ _
    · exact OnlyLooked.refl s

section
variable (s : State) (o : Op) (m : Nat) (red : Bool) (ecc : Found) (mB : Option Mat)

theorem toneWrite_holds (e r0 rn cn : Nat) (outs : List (Int × Nat)) :
    OnlyHolds o.c o.q o.idx s (toneWrite s o m e r0 rn cn outs).2 := by
  unfold toneWrite
  split
  next heq => exact ((State.blockTargets_looked _ _ _ _ _ _ _ _ _).of_answer heq).holds
  next heq =>
    exact ((State.blockTargets_looked _ _ _ _ _ _ _ _ _).of_answer heq).holds.trans (State.holdWrites_holds _ _ _ _ _ _)

theorem toneRow_holds (b : List Int) (e i free : Nat) :
    OnlyHolds o.c o.q o.idx s (toneRow s o m red ecc mB b e i free).2 := by
  unfold toneRow
  dsimp only
  split
  next heq => exact ((s.readBlock_looked _ _ _ _ _ _ _ _ _ _).of_answer heq).holds
  next u heq =>
    have hread : OnlyLooked s u := (s.readBlock_looked _ _ _ _ _ _ _ _ _ _).of_answer heq
    split
    · exact hread.holds.trans (toneWrite_holds _ _ _ _ _ _ _ _)
    split
    next heq' => exact (hread.trans ((toneBRow_looked _ _ _ _ _ _ _ _).of_answer heq')).holds
    next heq' =>
      exact (hread.trans ((toneBRow_looked _ _ _ _ _ _ _ _).of_answer heq')).holds.trans (toneWrite_holds _ _ _ _ _ _ _ _)

/-- A count that goes on over steps that only hold writes. -/
theorem foldl_addCount_holds {c q i : Nat} {β : Type} (f : State → β → Except Flt Nat × State)
    (hf : ∀ u x, OnlyHolds c q i u (f u x).2) (l : List β) (n : Nat) :
    OnlyHolds c q i s (l.foldl (fun r x => addCount r fun u => f u x) (.ok n, s)).2 := by
  refine fold_holds (fun r : Except Flt Nat × State => OnlyHolds c q i s r.2) _ l _ (OnlyHolds.refl s) ?_
  rintro ⟨r, u⟩ x - h
  unfold addCount
  cases r with
  | error e => exact h
  | ok k =>
    dsimp only
    split <;> next heq => exact h.trans ((hf u x).of_answer heq)

theorem toneEntry_holds (e free : Nat) : OnlyHolds o.c o.q o.idx s (toneEntry s o m red ecc mB e free).2 := by
  unfold toneEntry
  dsimp only
  split
  · split
    next heq => exact ((s.readMat_looked _ _ _ _ _ _).of_answer heq).holds
    next heq => exact ((s.readMat_looked _ _ _ _ _ _).of_answer heq).holds.trans (toneWrite_holds _ _ _ _ _ _ _ _)
  · split
    next heq => exact ((toneB_looked _ _ _ _ _ _).of_answer heq).holds
    next b u heq =>
      exact ((toneB_looked _ _ _ _ _ _).of_answer heq).holds.trans
        (foldl_addCount_holds u _ (fun v i => toneRow_holds v o m red ecc mB b e i free) _ _)

theorem toneSumlist_holds (n free : Nat) : OnlyHolds o.c o.q o.idx s (toneSumlist s o m ecc n free).2 := by
  unfold toneSumlist
  split
  next heq => exact ((readWalks_looked _ _ _ _ _ _ _).of_answer heq).holds
  next heq => exact ((readWalks_looked _ _ _ _ _ _ _).of_answer heq).holds.trans (toneWrite_holds _ _ _ _ _ _ _ _)

theorem State.freeCtr_holds {c q i : Nat} (k : Nat) : OnlyHolds c q i s { s with freeCtr := k } := by
  refine SameWork.holds ⟨rfl, fun _ _ => rfl, rfl, rfl, rfl, ?_⟩ rfl
  constructor <;> rfl

/-- The whole run: the walk, then the residue check (R125). -/
theorem toneRun_holds (residue n : Nat) : OnlyHolds o.c o.q o.idx s (toneRun s o red mB ecc residue n).2.2 := by
  have hwalk (u : State) (b : Bool) (k : Nat) (free : Nat → Nat) : OnlyHolds o.c o.q o.idx u
      (if b then toneSumlist u o (toneDie o.word) ecc n k
        else (List.range n).foldl (fun r e => addCount r fun s =>
          toneEntry s o (toneDie o.word) red ecc mB e (free e)) (.ok 0, u)).2 := by
    split
    · exact toneSumlist_holds u o (toneDie o.word) ecc n k
    · exact foldl_addCount_holds u _ (fun v e => toneEntry_holds v o _ red ecc mB e _) _ _
  unfold toneRun
  dsimp only
  have hfree : OnlyHolds o.c o.q o.idx s { s with freeCtr := s.freeCtr + n * (o.dd.rows * o.dd.cols) } := s.freeCtr_holds _
  split
  next heq => exact hfree.trans ((hwalk _ _ _ fun e => s.freeCtr + e * (o.dd.rows * o.dd.cols)).of_answer heq)
  next heq =>
    have hwalked := hfree.trans ((hwalk _ _ _ fun e => s.freeCtr + e * (o.dd.rows * o.dd.cols)).of_answer heq)
    split <;> next heq' =>
      exact (hwalked.trans (State.chargeUnit_holds _ _ _ _ _)).trans (State.rerun_answers heq')

end

/-! ### The thirteen operations -/

theorem toneReady_canIssue {s : State} {c q code fn : Nat} (h : toneReady s c q code fn = true) :
    s.canIssue c q = true := by
  simp only [toneReady, Bool.and_eq_true] at h
  obtain ⟨⟨⟨hready, -⟩, -⟩, -⟩ := h
  exact State.ready_canIssue hready

/-- Behind its checks a Tone instruction issues, runs and ends. -/
theorem toneEffect_checked {s u : State} {c q : Nat} {red : Bool} {ecc : Found} {ms : List Mat} (residue : Nat)
    (h : toneCheck s c q red ecc = (.ok ms, u)) :
    let o := { s.newOp c q (8 + toneDie (s.nextMacro c q)) with da := ms.headD {}, dd := ms.getLastD {} }
    let mB := if !red && toneBen (s.nextMacro c q) then some (ms.getD 1 {}) else none
    let r := toneRun (u.issue o) o red mB ecc residue (walks ms)
    toneEffect s c q red ecc residue = r.2.2.finishOp c q (s.nextIdx c q) r.1 r.2.1 := by
  simp only [toneEffect, h]
  rfl

theorem toneOperationsComplete : Claims.ToneOperationsComplete := by
  intro s c q ecc residue ran
  have hran (code fn : Nat) (cmd : Instr) (hexec : exec cmd s = toneExec s c q code fn ecc residue)
      (hready : toneReady s c q code fn = true) : ran (decide (code = 8)) cmd := by
    intro ms u hcheck o mB
    have hissue : s.canIssue c q = true := toneReady_canIssue hready
    have hlook : OnlyLooked s u := (toneCheck_looked s c q _ ecc).of_answer hcheck
    obtain ⟨-, -, -, -, hplates⟩ := hlook.data
    have hends (f : Option Flt) (word : BitVec 64) (v : State)
        (hrun : toneRun (u.issue o) o (decide (code = 8)) mB ecc residue (walks ms) = (f, word, v)) :
        Answers cmd s (RanAtIssue s c q f word v) := by
      have hholds : OnlyHolds o.c o.q o.idx (u.issue o) v := by
        have hwhole := toneRun_holds (u.issue o) o (decide (code = 8)) ecc mB residue (walks ms)
        rwa [hrun] at hwhole
      refine answers_due hexec hready ?_
      rw [toneEffect_checked residue hcheck, hrun]
      exact hholds.ranAtIssue hissue rfl (hlook.sameWork.issue hissue) ((u.issue_plates o).trans hplates) f word
    exact ⟨fun word v => hends none word v, fun f word v => hends (some f) word v⟩
  exact ⟨hran 7 0 _ rfl, hran 7 1 _ rfl, hran 7 2 _ rfl, hran 7 3 _ rfl, hran 7 4 _ rfl, hran 7 5 _ rfl, hran 7 6 _ rfl,
    hran 7 7 _ rfl, hran 8 0 _ rfl, hran 8 1 _ rfl, hran 8 2 _ rfl, hran 8 3 _ rfl, hran 8 4 _ rfl⟩

/-! ### The elementwise functions on integers (Table 5-5) -/

theorem Val.of_integer {ty : Nat} (h : isFloat ty = false) (v : Int) : Val.of ty v = .int v := by simp [Val.of, h]

theorem bound_integer {ty : Nat} (h : isFloat ty = false) (v : Nat) : bound ty v = .int (signed 32 v) := by
  simp [bound, h]

theorem Val.store_integer {ty : Nat} (h : isFloat ty = false) (free v : Int) :
    ((Val.int v).store ty free).1 = clampTy ty v := by
  rw [Val.store, storeInt_integer v h]

/-- Raised to the lower bound, then cut to the upper one. -/
theorem Val.clamp_integer {a lo hi : Int} (h : lo ≤ hi) :
    let x : Val := if (Val.int lo).gt (.int a) then .int lo else .int a
    (if x.gt (.int hi) then .int hi else x) = .int (max lo (min a hi)) := by
  by_cases hlow : a < lo
  · have hcut : ¬ hi < lo := not_lt.2 h
    have hmax : max lo (min a hi) = lo := by omega
    simp [Val.gt, hlow, hcut, hmax]
  · by_cases hhigh : hi < a
    · have hmax : max lo (min a hi) = hi := by omega
      simp [Val.gt, hlow, hhigh, hmax]
    · have hmax : max lo (min a hi) = a := by omega
      simp [Val.gt, hlow, hhigh, hmax]

section
variable {w : Word256} {tyA tyD : Nat} {a free : Int} {tab : List Int} (hA : isFloat tyA = false)
  (hD : isFloat tyD = false)
include hA hD

theorem toneElt_drain : (toneElt 0 w tyA tyD a none tab free).1 = clampTy tyD (rndDiv a (2 ^ toneU w)) := by
  rw [toneElt, Val.of_integer hA]
  exact Val.store_integer hD free _

theorem toneElt_scale : (toneElt 1 w tyA tyD a none tab free).1 = clampTy tyD (rndDiv (a * toneM w) (2 ^ toneU w)) := by
  rw [toneElt, Val.of_integer hA]
  exact Val.store_integer hD free _

theorem toneElt_add {tyB : Nat} (hB : isFloat tyB = false) (b : Int) :
    (toneElt 2 w tyA tyD a (some (tyB, b)) tab free).1 = clampTy tyD (a + b) := by
  simp only [toneElt, Val.of_integer hA, Val.of_integer hB]
  exact Val.store_integer hD free _

theorem toneElt_sub {tyB : Nat} (hB : isFloat tyB = false) (b : Int) :
    (toneElt 3 w tyA tyD a (some (tyB, b)) tab free).1 = clampTy tyD (a - b) := by
  simp only [toneElt, Val.of_integer hA, Val.of_integer hB, Int.sub_eq_add_neg]
  exact Val.store_integer hD free _

/-- CLAMP takes the lower bound first, then the upper one (Table 5-5). -/
theorem toneElt_clamp (hbounds : signed 32 (fld w 127 96) ≤ signed 32 (fld w 159 128)) :
    (toneElt 4 w tyA tyD a none tab free).1 =
      clampTy tyD (max (signed 32 (fld w 127 96)) (min a (signed 32 (fld w 159 128)))) := by
  simp only [toneElt, Val.of_integer hA, bound_integer hA, Val.isNan, Bool.or_self, Bool.false_eq_true, if_false]
  rw [Val.clamp_integer hbounds]
  exact Val.store_integer hD free _

theorem toneElt_convert : (toneElt 7 w tyA tyD a none tab free).1 = clampTy tyD a := by
  have hstored : toneElt 7 w tyA tyD a none tab free = (Val.of tyA a).store tyD free := rfl
  rw [hstored, Val.of_integer hA]
  exact Val.store_integer hD free _

end

theorem toneElt_cmp {w : Word256} {tyA : Nat} {a free : Int} {tab : List Int} (hA : isFloat tyA = false) :
    (toneElt 5 w tyA 3 a none tab free).1 = if signed 32 (fld w 127 96) < a then 1 else 0 := by
  have hone : (storeInt 3 1).1 = 1 := by decide
  have hzero : (storeInt 3 0).1 = 0 := by decide
  simp only [toneElt, Val.of_integer hA, bound_integer hA, Val.gt, decide_eq_true_eq, gt_iff_lt]
  split
  · exact hone
  · exact hzero

/-- At a point of the table the two neighbours are not mixed (Table 5-6). -/
theorem tableAt_point (tab : List Int) (i : Nat) : tableAt tab (64 * (i : Int) - 32768) = clampS 16 (tab.getD i 0) := by
  have hx : ((64 * (i : Int) - 32768) + 32768).toNat = 64 * i := by omega
  have hzero : rndDiv 0 64 = 0 := by decide
  rw [tableAt, hx]
  simp [hzero]

theorem toneArithmetic : Claims.ToneArithmetic := by
  intro w tyA tyB a b free tab elt hA hB tyD hD
  exact ⟨toneElt_drain hA hD, toneElt_scale hA hD, toneElt_add hA hD hB b, toneElt_sub hA hD hB b, toneElt_clamp hA hD,
    toneElt_cmp hA, toneElt_convert hA hD, fun i _ _ => tableAt_point tab i⟩

/-- Settles O21: a Tone operation only holds writes until it ends, and on integers each function is its formula before the
clamp. -/
theorem toneOperations : Obligations.ToneOperations := ⟨toneOperationsComplete, toneArithmetic⟩

end Sys2Proof.Machine
end

section
/-!
What the device's own writes into a context leave of it and of the others (R140, R211 to R214, R247): records, result areas and
the late failures they meet; the entry of a queue runs on behind them.
-/

namespace Sys2Proof.Machine

open Sys2Proof

/-! ### What records and results of a context leave -/

/-- A queue but for the late failure that no fence covers yet. -/
def Queue.unlate (x : Queue) : Queue := { x with lateAt := none }

/-- A fence but for the late failure it reports. -/
def Fence.unlate (f : Fence) : Fence := { f with late := none }

/-- What the device's own writes into one context, made for one queue, leave: the other contexts, the other queues, and of this
queue and the fences all but their late failures. -/
structure Standing where
  others : Nat → Option Ctx
  queues : Nat → Queue
  fences : List Fence

def State.standing (c q : Nat) (s : State) : Standing where
  others d := if d = c then none else some (s.ctx d)
  queues j := if j = q then (s.queue c j).unlate else s.queue c j
  fences := (s.ctx c).fences.map Fence.unlate

section
variable {c q : Nat} {s t : State}

theorem ctx_of_standing (h : t.standing c q = s.standing c q) {d : Nat} (hd : d ≠ c) : t.ctx d = s.ctx d := by
  simpa [State.standing, hd] using congrFun (congrArg Standing.others h) d

theorem queue_ne_of_standing (h : t.standing c q = s.standing c q) {j : Nat} (hj : j ≠ q) : t.queue c j = s.queue c j := by
  simpa [State.standing, hj] using congrFun (congrArg Standing.queues h) j

theorem queue_of_standing (h : t.standing c q = s.standing c q) (j : Nat) :
    (t.queue c j).unlate = (s.queue c j).unlate := by
  by_cases hj : j = q
  · simpa [State.standing, hj] using congrFun (congrArg Standing.queues h) j
  · rw [queue_ne_of_standing h hj]

theorem fences_of_standing (h : t.standing c q = s.standing c q) :
    (t.ctx c).fences.map Fence.unlate = (s.ctx c).fences.map Fence.unlate :=
  congrArg Standing.fences h

theorem State.standing_of_ctxs (h : t.ctxs = s.ctxs) : t.standing c q = s.standing c q := by
  have hctx (d : Nat) : t.ctx d = s.ctx d := by
    rw [State.ctx, h]
    rfl
  simp only [State.standing, State.queue, hctx]

theorem State.modCtx_standing (f : Ctx → Ctx) (hq : ∀ j, (f (s.ctx c)).queue j = (s.ctx c).queue j)
    (hf : (f (s.ctx c)).fences.map Fence.unlate = (s.ctx c).fences.map Fence.unlate) :
    (s.modCtx c f).standing c q = s.standing c q := by
  simp only [State.standing, State.queue, State.modCtx_same, hq, hf]
  congr 1
  funext d
  by_cases hd : d = c
  · simp only [hd, if_true]
  · rw [State.modCtx_ne _ _ hd]

theorem State.tableEntry_standing (l p a : Nat) : (s.tableEntry c l p a).2.standing c q = s.standing c q := by
  unfold State.tableEntry
  split
  · rfl
  · exact State.modCtx_standing _ (fun _ => rfl) rfl

theorem State.translate_standing (a : Nat) (w : Bool) : (s.translate c a w).2.standing c q = s.standing c q := by
  unfold State.translate
  grind [State.tableEntry_standing]

theorem State.writeTargets_standing (a : Nat) (bs : List Byte) : (s.writeTargets c a bs).2.standing c q = s.standing c q := by
  unfold State.writeTargets
  refine fold_holds (fun r : Except Nat (List (Nat × Target × List Byte)) × State =>
    r.2.standing c q = s.standing c q) _ _ _ rfl fun r pc _ hr => ?_
  grind [State.translate_standing]

/-- Whichever fence reports a late failure, the fences are the same but for it. -/
theorem lateFence_unlate (q : Nat) (seq : BitVec 13) (ca : Nat) (l : List Fence) :
    (lateFence q seq ca l).2.map Fence.unlate = l.map Fence.unlate := by
  induction l with
  | nil => rfl
  | cons f l ih =>
    unfold lateFence
    split
    · rfl
    · simpa using ih

theorem State.lateRecord_standing (cause : Nat) (ep : BitVec 16) (ca da : Nat) :
    (s.lateRecord c q cause ep ca da).standing c q = s.standing c q :=
  (State.standing_of_ctxs rfl).trans (State.modCtx_standing (fun x => { x with late := _ }) (fun _ => rfl) rfl)

theorem State.modQueue_queue_ne (s : State) (c : Nat) {q j : Nat} (f : Queue → Queue) (hj : j ≠ q) :
    (s.modQueue c q f).queue c j = s.queue c j := by
  simp [State.queue, State.modQueue, Ctx.queue, Ctx.modQueue, tget_tmod_ne _ _ _ hj]

/-- A late failure that no fence covers is kept in its queue alone. -/
theorem State.modLateAt_standing (f : Queue → Option Nat) :
    (s.modQueue c q fun y => { y with lateAt := f y }).standing c q = s.standing c q := by
  have hctx (d : Nat) (hd : d ≠ c) : (s.modQueue c q fun y => { y with lateAt := f y }).ctx d = s.ctx d :=
    State.modCtx_ne s _ hd
  have hfences : ((s.modQueue c q fun y => { y with lateAt := f y }).ctx c).fences = (s.ctx c).fences := by
    rw [State.modQueue, State.modCtx_same]
    rfl
  simp only [State.standing, hfences]
  congr 1
  · funext d
    by_cases hd : d = c
    · simp only [hd, if_true]
    · rw [hctx d hd]
  · funext j
    by_cases hj : j = q
    · simp only [hj, if_true, State.modQueue_same]
      rfl
    · rw [s.modQueue_queue_ne c _ hj]

theorem State.lateFault_standing (cause : Nat) (ep : BitVec 16) (ca da : Nat) :
    (s.lateFault c q cause ep ca da).standing c q = s.standing c q := by
  have hlate : (s.lateRecord c q cause ep ca da).standing c q = s.standing c q := State.lateRecord_standing cause ep ca da
  unfold State.lateFault
  dsimp only
  generalize s.lateRecord c q cause ep ca da = u at hlate ⊢
  have hfences := (State.modCtx_standing (s := u)
    (fun x => { x with fences := (lateFence q (ep.setWidth 13) ca (u.ctx c).fences).2 }) (fun _ => rfl)
    (lateFence_unlate q (ep.setWidth 13) ca (u.ctx c).fences)).trans hlate
  split
  · exact hfences
  · exact (State.modLateAt_standing _).trans hfences

theorem State.wrOwn_standing (ca : Nat) (t : Target) (bs : List Byte) :
    (s.wrOwn c q ca t bs).standing c q = s.standing c q := by
  unfold State.wrOwn
  repeat' split
  · exact State.lateFault_standing _ _ _ _
  · exact State.standing_of_ctxs (s.wr_dataOnly _ _).ctxs
  · exact State.standing_of_ctxs (s.wrTarget_dataOnly _ _).ctxs

theorem State.wrCtx_standing (a : Nat) (bs : List Byte) : (s.wrCtx c q a bs).standing c q = s.standing c q := by
  have htargets : (s.writeTargets c a bs).2.standing c q = s.standing c q := State.writeTargets_standing a bs
  unfold State.wrCtx
  split
  next l u heq =>
    rw [heq] at htargets
    exact (foldl_keeps (State.standing c q) l _ (fun _ e => State.wrOwn_standing e.1 e.2.1 e.2.2) u).trans htargets
  next heq => rwa [heq] at htargets

theorem State.putRec_standing (s : State) (r : Rec) : (s.putRec r).standing r.c (r.q % 15) = s.standing r.c (r.q % 15) :=
  (State.wrCtx_standing _ _).trans (State.modCtx_standing _ (fun _ => rfl) rfl)

/-- A record written, held or dropped: its write is one of the queue it names. -/
theorem State.post_standing (s : State) (r : Rec) : (s.post r).standing r.c (r.q % 15) = s.standing r.c (r.q % 15) := by
  have hput := State.putRec_standing s { r with gen := (s.ctx r.c).gen }
  have hhold (f : Ctx → List Rec) :
      (s.modCtx r.c fun x => { x with hold := f x }).standing r.c (r.q % 15) = s.standing r.c (r.q % 15) :=
    State.modCtx_standing _ (fun _ => rfl) rfl
  unfold State.post
  dsimp only
  repeat' split
  · rfl
  · exact (State.standing_of_ctxs rfl).trans (State.modCtx_standing (fun x => { x with lost := true }) (fun _ => rfl) rfl)
  · exact hput
  · exact hhold _
  · exact hput
  · exact hhold _

end

/-! ### The entry of a queue behind them -/

theorem RecordsOnly.system {s t : State} (h : RecordsOnly s t) : SameSystem s t := by
  obtain ⟨⟨m, p, f, x, c, n, rfl⟩, -, -⟩ := h
  constructor <;> rfl

theorem RecordsOnly.bundles {s t : State} (h : RecordsOnly s t) : t.bundles = s.bundles := by
  obtain ⟨⟨m, p, f, x, c, n, rfl⟩, -, -⟩ := h
  rfl

theorem RecordsOnly.plates {s t : State} (h : RecordsOnly s t) : t.plates = s.plates := by
  obtain ⟨⟨m, p, f, x, c, n, rfl⟩, -, -⟩ := h
  rfl

/-- A queue whose run and whose context's bundle stay is at the same word. -/
theorem State.nextMacro_of_run {s t : State} {c q : Nat} (hrun : (t.queue c q).run = (s.queue c q).run)
    (hbundles : t.bundles = s.bundles) (hcopy : (t.ctx c).copy = (s.ctx c).copy) : t.nextMacro c q = s.nextMacro c q := by
  have hbundle : t.bundleOf c = s.bundleOf c := by rw [State.bundleOf, hbundles, hcopy]; rfl
  have hidx : t.nextIdx c q = s.nextIdx c q := by rw [State.nextIdx, hrun]; rfl
  have hprog : t.progOf c q = s.progOf c q := by rw [State.progOf, hrun, hbundle]; rfl
  rw [State.nextMacro, State.macroAt, hprog, hidx]
  rfl

/-- Every queue of the context runs on in its entry. -/
theorem entry_of_standing {c q : Nat} {s t : State} (h : t.standing c q = s.standing c q) (j : Nat) :
    (t.queue c j).run = (s.queue c j).run ∧ (t.queue c j).head = (s.queue c j).head ∧
    (t.queue c j).tail = (s.queue c j).tail ∧ (t.queue c j).seq = (s.queue c j).seq ∧
    (t.queue c j).prm = (s.queue c j).prm ∧ (t.queue c j).halted = (s.queue c j).halted := by
  have hqueue := queue_of_standing h j
  exact ⟨(congrArg Queue.run hqueue :), (congrArg Queue.head hqueue :), (congrArg Queue.tail hqueue :),
    (congrArg Queue.seq hqueue :), (congrArg Queue.prm hqueue :), (congrArg Queue.halted hqueue :)⟩

theorem State.post_sameEntry (s : State) {r : Rec} {c : Nat} (hr : r.c = c) (q : Nat) : SameEntry c q s (s.post r) := by
  subst hr
  obtain ⟨hrun, hhead, htail, hseq, -⟩ := entry_of_standing (s.post_standing r) q
  have hcopy : ((s.post r).ctx r.c).copy = (s.ctx r.c).copy := (congrArg Ctx.copy (congrFun (s.post_unrecorded r) r.c) :)
  exact ⟨State.nextMacro_of_run hrun (s.post_recordsOnly r).bundles hcopy, hrun, hhead, htail, hseq⟩

end Sys2Proof.Machine
end

section
/-!
WaitsHoldTheQueue and SignalsUpdateOrFence (R154 to R156, R215): what the queue engine does with a WAIT and a SIGNAL.
-/

namespace Sys2Proof.Machine

open Sys2Proof

/-! ### WAIT (R155) -/

theorem SameEntry.refl (c q : Nat) (s : State) : SameEntry c q s s := ⟨rfl, rfl, rfl, rfl, rfl⟩

/-- An instruction of the queue engine that changes nothing else completes. -/
theorem State.finishNow_done (s : State) (c q : Nat) : OnlyRan c q s (s.finishNow c q) ∧ movedOn s (s.finishNow c q) c q := by
  refine ⟨?_, (SameEntry.refl c q s).finishNow⟩
  rw [State.finishNow_eq]
  exact s.modQueue_onlyRan c q _ _

/-- A WAIT that is not met: its entry waits in its queue. -/
def heldBy (s : State) (c q : Nat) (t : State) : Prop :=
  OnlyQueue c q s t ∧ (t.queue c q).run = (s.queue c q).run.map (fun r => { r with waiting := true }) ∧
  (t.queue c q).prm = (s.queue c q).prm

theorem State.modRun_held (s : State) (c q : Nat) : heldBy s c q (s.modRun c q fun r => { r with waiting := true }) := by
  have hqueue : (s.modRun c q fun r => { r with waiting := true }).queue c q =
      { s.queue c q with run := (s.queue c q).run.map fun r => { r with waiting := true } } := s.modQueue_same c q _
  exact ⟨⟨_, rfl⟩, by rw [hqueue], by rw [hqueue]⟩

theorem waitMode_of_ready {s : State} {c q mode : Nat} (h : waitReady s c q mode = true) :
    waitMode (s.nextMacro c q) = mode := by
  simp only [waitReady, Bool.and_eq_true, decide_eq_true_eq] at h
  obtain ⟨-, hmode⟩ := h
  exact hmode

/-- The condition of a WAIT by its mode (Table 6-13). -/
theorem State.waitMet_iff (s : State) (c q : Nat) :
    let w := s.nextMacro c q
    let count : Prop := 0 ≤ (s.counter c (ctrOf w) - s.ctrValue c q w).toInt
    let drain : Prop := s.opsOf c q = []
    (waitMode w = 0 → (s.waitMet c q = true ↔ count)) ∧ (waitMode w = 1 → (s.waitMet c q = true ↔ drain)) ∧
    (waitMode w = 2 → (s.waitMet c q = true ↔ count ∧ drain)) := by
  refine ⟨fun h => ?_, fun h => ?_, fun h => ?_⟩
  all_goals simp [State.waitMet, h]

/-- A WAIT that is next completes where its condition holds and holds its queue elsewhere. -/
theorem wait_completes_or_holds {s : State} {c q mode : Nat} {i : Instr} {met : Prop}
    (hexec : exec i s = due s (waitReady s c q mode) (waitEffect s c q)) (hready : waitReady s c q mode = true)
    (hmet : s.waitMet c q = true ↔ met) :
    (met → Answers i s fun t => OnlyRan c q s t ∧ movedOn s t c q) ∧ (¬ met → Answers i s (heldBy s c q)) := by
  refine ⟨fun h => answers_due hexec hready ?_, fun h => answers_due hexec hready ?_⟩
  · rw [waitEffect, if_pos (hmet.2 h)]
    exact s.finishNow_done c q
  · rw [waitEffect, if_neg fun hm => h (hmet.1 hm)]
    exact s.modRun_held c q

/-- Settles O12: by the mode its word gives, a WAIT that is next either finishes or marks its entry as waiting. -/
theorem waitsHoldTheQueue : Obligations.WaitsHoldTheQueue := by
  intro s c q
  obtain ⟨hcount, hdrain, hboth⟩ := s.waitMet_iff c q
  refine ⟨fun h => ?_, fun h => ?_, fun h => ?_, fun hwaiting hphase hmet => ?_⟩
  · exact wait_completes_or_holds rfl h (hcount (waitMode_of_ready h))
  · exact wait_completes_or_holds rfl h (hdrain (waitMode_of_ready h))
  · exact wait_completes_or_holds rfl h (hboth (waitMode_of_ready h))
  · exact answers_due rfl (by simp [hwaiting, hphase, hmet]) (s.finishNow_done c q)

/-! ### SIGNAL: the counter (R154) -/

/-- A change of a context that keeps its queues and its bundle keeps every queue in its entry. -/
theorem State.modCtx_sameEntry (s : State) (c q : Nat) (f : Ctx → Ctx) (hqueues : ∀ x, (f x).queues = x.queues)
    (hcopy : ∀ x, (f x).copy = x.copy) : SameEntry c q s (s.modCtx c f) := by
  have hqueue : (s.modCtx c f).queue c q = s.queue c q := by
    rw [State.queue, State.modCtx_same, Ctx.queue, hqueues]
    rfl
  refine ⟨State.nextMacro_of_run (by rw [hqueue]) rfl ?_, by rw [hqueue], by rw [hqueue], by rw [hqueue], by rw [hqueue]⟩
  rw [State.modCtx_same, hcopy]

theorem State.bump_sameEntry (s : State) (c q k : Nat) (set : Bool) (v : BitVec 32) :
    SameEntry c q s (s.bump c k set v) := s.modCtx_sameEntry c q _ (fun _ => rfl) fun _ => rfl

theorem State.counter_bump_same (s : State) (c k : Nat) (set : Bool) (v : BitVec 32) :
    (s.bump c k set v).counter c k = if set = true then v else s.counter c k + v := by
  simp [State.counter, State.bump]

theorem State.counter_bump_ne (s : State) (c : Nat) {k j : Nat} (set : Bool) (v : BitVec 32) (h : j ≠ k) :
    (s.bump c k set v).counter c j = s.counter c j := by
  simp [State.counter, State.bump, tget_tmod_ne _ _ _ h]

theorem State.counter_post (s : State) (r : Rec) (k : Nat) : (s.post r).counter r.c k = s.counter r.c k := by
  have hcounters : ((s.post r).ctx r.c).counters = (s.ctx r.c).counters :=
    (congrArg Ctx.counters (congrFun (s.post_unrecorded r) r.c) :)
  rw [State.counter, hcounters]
  rfl

/-- The end of an instruction of the queue engine is a change of its context: of this queue, and of the frame it ran in. -/
theorem State.finishNow_modCtx (s : State) (c q : Nat) :
    s.finishNow c q = s.modCtx c fun x =>
      { x.modQueue q (Queue.finished (s.nextMacro c q) (s.nextIdx c q)) with lastRun := s.frame.counter.toNat } := by
  rw [State.finishNow_eq, State.modQueue, State.modCtx_modCtx]

@[simp] theorem State.counter_finishNow (s : State) (c q k : Nat) : (s.finishNow c q).counter c k = s.counter c k := by
  rw [State.finishNow_modCtx, State.counter, State.modCtx_same]
  rfl

/-- Changed in one context and then completed: the context is all that differs. -/
theorem State.modCtx_finishNow_onlyCtx (s : State) (c q : Nat) (f : Ctx → Ctx) :
    OnlyCtx c s ((s.modCtx c f).finishNow c q) := by
  rw [State.finishNow_modCtx, State.modCtx_modCtx]
  exact ⟨_, rfl⟩

theorem signalCounter_updates (s : State) (c q : Nat) :
    let w := s.nextMacro c q
    let t := (signalBump s c q).finishNow c q
    OnlyCtx c s t ∧
    t.counter c (ctrOf w) = (if bit w 36 = true then s.ctrValue c q w else s.counter c (ctrOf w) + s.ctrValue c q w) ∧
    (∀ j, j ≠ ctrOf w → t.counter c j = s.counter c j) ∧ movedOn s t c q := by
  refine ⟨s.modCtx_finishNow_onlyCtx c q _, ?_, fun j hj => ?_, (s.bump_sameEntry c q _ _ _).finishNow⟩
  · rw [State.counter_finishNow]
    exact s.counter_bump_same c _ _ _
  · rw [State.counter_finishNow]
    exact s.counter_bump_ne c _ _ hj

/-! ### SIGNAL: the event record (Table 9-9) -/

/-- The record carries the counter after the update, and the index of the SIGNAL. -/
theorem signalRecord_bump (s : State) (c q : Nat) :
    let w := s.nextMacro c q
    let v := if bit w 36 = true then s.ctrValue c q w else s.counter c (ctrOf w) + s.ctrValue c q w
    signalRecord (signalBump s c q) c q = (signalBump s c q).post
      { s.mkRec 2 with c := c, q := q, cookie := BitVec.ofNat 64 (fld w 191 128), index := s.nextIdx c q,
                       detail := v.setWidth 64 } := by
  have hentry : SameEntry c q s (signalBump s c q) := s.bump_sameEntry c q _ _ _
  have hidx : (signalBump s c q).nextIdx c q = s.nextIdx c q := by
    rw [State.nextIdx, hentry.run]
    rfl
  have hcounter : (signalBump s c q).counter c (ctrOf (s.nextMacro c q)) = _ := s.counter_bump_same c _ _ _
  simp only [signalRecord, hentry.word, hidx, hcounter]
  rfl

theorem signalEvent_posts (s : State) (c q : Nat) :
    let w := s.nextMacro c q
    let v := if bit w 36 = true then s.ctrValue c q w else s.counter c (ctrOf w) + s.ctrValue c q w
    let t := (signalRecord (signalBump s c q) c q).finishNow c q
    t.counter c (ctrOf w) = v ∧ (∀ j, j ≠ ctrOf w → t.counter c j = s.counter c j) ∧ movedOn s t c q := by
  intro w v t
  have hcounter (j : Nat) : t.counter c j = (signalBump s c q).counter c j :=
    (State.counter_finishNow _ c q j).trans (State.counter_post _ _ j)
  refine ⟨?_, fun j hj => ?_, ?_⟩
  · rw [hcounter]
    exact s.counter_bump_same c _ _ _
  · rw [hcounter]
    exact s.counter_bump_ne c _ _ hj
  · have hposted : SameEntry c q (signalBump s c q) (signalRecord (signalBump s c q) c q) := by
      refine State.post_sameEntry (signalBump s c q) ?_ q
      rfl
    exact ((s.bump_sameEntry c q _ _ _).trans hposted).finishNow

/-! ### SIGNAL: FENCE and FLUSH (R156, R215) -/

theorem signalFence_queue (s : State) (c q : Nat) (flush : Bool) :
    (signalFence s c q flush).queue c q = { s.queue c q with seq := (s.queue c q).seq + 1, lateAt := none } := by
  rw [signalFence, State.modQueue_same, State.queue, State.modCtx_same]
  rfl

/-- The fence that a SIGNAL leaves behind (R215). -/
def fenceOf (s : State) (c q : Nat) (flush : Bool) : Fence :=
  let w := s.nextMacro c q
  { q := q, seq := (s.queue c q).seq, ctr := ctrOf w, set := bit w 36, value := s.ctrValue c q w, event := true,
    flush := flush, cookie := BitVec.ofNat 64 (fld w 191 128), idx := s.nextIdx c q,
    reads := if flush then (s.queue c q).hostFuncs else [], late := (s.queue c q).lateAt,
    host := if flush then (s.queue c q).lastHost else none }

theorem signalFence_eq (s : State) (c q : Nat) (flush : Bool) :
    signalFence s c q flush = s.modCtx c fun x =>
      { x with fences := x.fences ++ [fenceOf s c q flush] }.modQueue q fun y => { y with seq := y.seq + 1, lateAt := none } := by
  rw [signalFence, State.modQueue, State.modCtx_modCtx]
  rfl

theorem signalFence_pends (s : State) (c q : Nat) (flush : Bool) :
    let t := (signalFence s c q flush).finishNow c q
    OnlyCtx c s t ∧ (∀ j, t.counter c j = s.counter c j) ∧ (t.queue c q).seq = (s.queue c q).seq + 1 ∧
    (t.ctx c).fences = (s.ctx c).fences ++ [fenceOf s c q flush] ∧
    (∀ r, (s.queue c q).run = some r →
      (t.queue c q).run = some { r with pc := r.pc + 1, lastDone := r.pc, waiting := false }) := by
  refine ⟨?_, fun j => ?_, ?_, ?_, fun r hr => ?_⟩
  · rw [signalFence_eq]
    exact s.modCtx_finishNow_onlyCtx c q _
  · rw [State.counter_finishNow, signalFence_eq, State.counter, State.modCtx_same]
    rfl
  · rw [State.finishNow_queue, signalFence_queue]
    rfl
  · rw [State.finishNow_modCtx, State.modCtx_same, signalFence_eq, State.modCtx_same]
    rfl
  · have hidx : (signalFence s c q flush).nextIdx c q = r.pc := by rw [State.nextIdx, signalFence_queue, hr]
    rw [State.finishNow_queue, signalFence_queue, Queue.finished, hidx, hr]
    rfl

/-- Settles O13: the update of the counter, the record behind it, or the fence that holds the update back. -/
theorem signalsUpdateOrFence : Obligations.SignalsUpdateOrFence := by
  intro s c q w k v cookie fenced
  have hfence (flush : Bool) : fenced flush ((signalFence s c q flush).finishNow c q) := by
    obtain ⟨hctx, hcounter, hseq, hfences, hrun⟩ := signalFence_pends s c q flush
    refine ⟨hctx, hcounter, hseq, fenceOf s c q flush, hfences, rfl, rfl, rfl, rfl, rfl, rfl, rfl, fun r hr => ⟨?_, hrun r hr⟩⟩
    have hidx : s.nextIdx c q = r.pc := by rw [State.nextIdx, hr]
    exact hidx
  refine ⟨fun h => answers_due rfl h (signalCounter_updates s c q), fun h => answers_due rfl h ?_,
    fun h => answers_due rfl h (hfence false), fun h => answers_due rfl h (hfence true)⟩
  obtain ⟨hsame, hother, hmoved⟩ := signalEvent_posts s c q
  exact ⟨hsame, hother, hmoved, congrArg (State.finishNow · c q) (signalRecord_bump s c q)⟩

end Sys2Proof.Machine
end

section
/-!
EntriesStartWithTheirPatches (R146, R206, R210): the start of an entry, its rejection, and the operations of a patch record.
-/

namespace Sys2Proof.Machine

open Sys2Proof

/-! ### The start of an entry (R206) -/

/-- Checking the head entry reads its ring and its patch records. -/
theorem State.checkHead_looked (s : State) (c q : Nat) : OnlyLooked s (s.checkHead c q).2 := by
  have hring := s.readCtx_looked c [] (s.headAddr c q) 64
  unfold State.checkHead
  split
  next heq => exact hring.of_answer heq
  next bs u heq =>
    have hentry := hring.of_answer heq
    dsimp only
    split
    · exact hentry
    have hrecords := hentry.trans (u.readCtx_looked c [] (entPatch (BitVec.ofNat 512 (leNat bs)))
      (16 * entNpatch (BitVec.ofNat 512 (leNat bs))))
    split
    next heq' => rwa [heq'] at hrecords
    next heq' =>
      rw [heq'] at hrecords
      split <;> exact hrecords

theorem State.applyPatch_queue (s : State) (c q : Nat) (p : BitVec 128) :
    (s.applyPatch c q p).queue c q = { s.queue c q with
      prm := tset 0 (s.queue c q).prm (fld p 5 0) (patchRecord (tget 0 (s.queue c q).prm (fld p 5 0)) p) } :=
  s.modQueue_same c q _

/-- The registers after patch records depend on the queue alone. -/
theorem applyPatches_queue {s t : State} {c q : Nat} (h : t.queue c q = s.queue c q) (ps : List (BitVec 128)) :
    (ps.foldl (fun x p => x.applyPatch c q p) t).queue c q = (ps.foldl (fun x p => x.applyPatch c q p) s).queue c q := by
  induction ps generalizing s t with
  | nil => exact h
  | cons p ps ih =>
    refine ih ?_
    rw [State.applyPatch_queue, State.applyPatch_queue, h]

/-- Patch records change registers. -/
theorem applyPatches_head (s : State) (c q : Nat) (ps : List (BitVec 128)) :
    ((ps.foldl (fun x p => x.applyPatch c q p) s).queue c q).head = (s.queue c q).head :=
  foldl_keeps (fun x => (x.queue c q).head) ps _ (fun x p => by rw [State.applyPatch_queue]) s

theorem State.modCtx_system (s : State) (c : Nat) (f : Ctx → Ctx) : SameSystem s (s.modCtx c f) := by
  constructor <;> rfl

theorem SameSystem.refl (s : State) : SameSystem s s := by constructor <;> rfl

theorem applyPatches_system (s : State) (c q : Nat) (ps : List (BitVec 128)) :
    SameSystem s (ps.foldl (fun x p => x.applyPatch c q p) s) :=
  fold_holds (SameSystem s) _ ps s (SameSystem.refl s) fun u p _ h => by
    refine h.trans ?_
    constructor <;> rfl

/-- What an accepted entry's fields say of its run (Table 9-6a). -/
def runOf (e : BitVec 512) : Run :=
  { prog := entProg e, replay := entReplay e, notify := entNotify e, result := entResult e, cookie := entCookie e }

theorem State.startEntry_accepted {s u : State} {c q : Nat} {e : BitVec 512} {ps : List (BitVec 128)}
    (h : s.checkHead c q = (.ok (e, ps), u)) :
    let t := s.startEntry c q
    (t.queue c q).run = some (runOf e) ∧
    (t.queue c q).prm = ((ps.foldl (fun x p => x.applyPatch c q p) s).queue c q).prm ∧
    (t.queue c q).eligible = false ∧ (t.queue c q).head = (s.queue c q).head ∧ SameSystem s t := by
  intro t
  have hlook : OnlyLooked s u := (s.checkHead_looked c q).of_answer h
  let v := ps.foldl (fun x p => x.applyPatch c q p) u
  have hstart : t = (v.modQueue c q fun x => { x with
      run := some (runOf e), eligible := false, started := true, mode := entReplay e, cookie := entCookie e,
      result := entResult e, lastIdx := 0 }).ran c := by
    simp only [t, State.startEntry, h]
    rfl
  have hqueue : t.queue c q = { v.queue c q with
      run := some (runOf e), eligible := false, started := true, mode := entReplay e, cookie := entCookie e,
      result := entResult e, lastIdx := 0 } := by
    rw [hstart, State.queue, State.ran, State.modCtx_same]
    exact v.modQueue_same c q _
  rw [hqueue]
  refine ⟨rfl, (congrArg Queue.prm (applyPatches_queue (hlook.queue c q) ps) :), rfl, ?_, ?_⟩
  · exact (applyPatches_head u c q ps).trans (congrArg Queue.head (hlook.queue c q))
  · rw [hstart]
    exact ((hlook.system.trans (applyPatches_system u c q ps)).trans (v.modCtx_system c _)).trans (State.modCtx_system _ c _)

/-! ### Its rejection (R210) -/

theorem State.rejectEntry_halts (s : State) (c q reason : Nat) :
    let t := s.rejectEntry c q reason
    (t.queue c q).run = (s.queue c q).run ∧ (t.queue c q).halted = true ∧ (t.queue c q).head = (s.queue c q).head ∧
    SameSystem s t := by
  unfold State.rejectEntry
  dsimp only
  generalize hrec : ({ s.mkRec 0x05 with c := c, q := q, detail := _ } : Rec) = r
  have hc : r.c = c := by rw [← hrec]
  subst hc
  obtain ⟨hrun, hhead, -, -, -, hhalted⟩ := entry_of_standing (State.post_standing (s.modQueue r.c q fun x => { x with
    halted := true, eligible := false, headRan := true, headEnded := false, headDone := false, started := false,
    lastIdx := 0 }) r) q
  rw [hrun, hhead, hhalted, State.modQueue_same]
  exact ⟨rfl, rfl, rfl, (s.modCtx_system r.c _).trans (State.post_recordsOnly _ r).system⟩

theorem State.startOpen_idle {s : State} {c q : Nat} (h : s.startOpen c q = true) : (s.queue c q).run = none := by
  simp only [State.startOpen, Bool.and_eq_true, decide_eq_true_eq] at h
  obtain ⟨⟨⟨⟨⟨-, hrun⟩, -⟩, -⟩, -⟩, -⟩ := h
  exact hrun

theorem State.startEntry_rejected {s u : State} {c q reason : Nat} (hidle : (s.queue c q).run = none)
    (h : s.checkHead c q = (.error reason, u)) :
    let t := s.startEntry c q
    (t.queue c q).run = none ∧ (t.queue c q).halted = true ∧ (t.queue c q).head = (s.queue c q).head ∧ SameSystem s t := by
  have hlook : OnlyLooked s u := (s.checkHead_looked c q).of_answer h
  have hstart : s.startEntry c q = u.rejectEntry c q reason := by simp only [State.startEntry, h]
  obtain ⟨hrun, hhalted, hhead, hsys⟩ := u.rejectEntry_halts c q reason
  rw [hlook.queue] at hrun hhead
  rw [hstart]
  exact ⟨hrun.trans hidle, hhalted, hhead, hlook.system.trans hsys⟩

theorem entriesStart : Claims.EntriesStart := by
  intro s c q begun
  have hbegun (hopen : s.startOpen c q = true) : begun (s.startEntry c q) := by
    have hidle := State.startOpen_idle hopen
    refine ⟨fun e ps u h => ?_, fun r u h => ?_, ?_⟩
    · obtain ⟨hrun, hprm, heligible, hhead, -⟩ := State.startEntry_accepted h
      exact ⟨hrun, hprm, heligible, hhead⟩
    · obtain ⟨hrun, hhalted, hhead, -⟩ := State.startEntry_rejected hidle h
      exact ⟨hrun, hhalted, hhead⟩
    · match h : s.checkHead c q with
      | (.ok (e, ps), u) =>
        obtain ⟨-, -, -, -, hsys⟩ := State.startEntry_accepted h
        exact hsys
      | (.error r, u) =>
        obtain ⟨-, -, -, hsys⟩ := State.startEntry_rejected hidle h
        exact hsys
  refine ⟨fun h => answers_due rfl h (hbegun ?_), fun h => answers_due rfl h (hbegun ?_)⟩
  · simp only [entryReady, Bool.and_eq_true] at h
    obtain ⟨⟨-, hopen⟩, -⟩ := h
    exact hopen
  · simp only [marginEntryReady, Bool.and_eq_true] at h
    obtain ⟨⟨-, hopen⟩, -⟩ := h
    exact hopen

/-! ### The operations of a patch record (R146, Table 6-5) -/

/-- Two halves of 32 bits make a word of both. -/
theorem extract_halves (a b : Nat) (hb : b < 2 ^ 32) :
    (BitVec.ofNat 64 (a * 2 ^ 32 + b)).extractLsb' 32 32 = BitVec.ofNat 32 a ∧
    (BitVec.ofNat 64 (a * 2 ^ 32 + b)).extractLsb' 0 32 = BitVec.ofNat 32 b := by
  have hbit (j : Nat) (hj : j < 64) :
      (BitVec.ofNat 64 (a * 2 ^ 32 + b)).getLsbD j = if j < 32 then b.testBit j else a.testBit (j - 32) := by
    rw [Nat.mul_comm, BitVec.getLsbD_ofNat, Nat.testBit_two_pow_mul_add a hb]
    simp [hj]
  constructor
  · refine BitVec.eq_of_getLsbD_eq fun i hi => ?_
    rw [BitVec.getLsbD_extractLsb', hbit (32 + i) (by omega), BitVec.getLsbD_ofNat]
    simp [hi]
  · refine BitVec.eq_of_getLsbD_eq fun i hi => ?_
    rw [BitVec.getLsbD_extractLsb', hbit (0 + i) (by omega), BitVec.getLsbD_ofNat]
    simp [hi]

theorem extract_fld (w : BitVec 64) (lo : Nat) : w.extractLsb' lo 32 = BitVec.ofNat 32 (fld w (lo + 31) lo) := by
  apply BitVec.eq_of_toNat_eq
  simp [fld]

theorem fld_lt {n : Nat} (w : BitVec n) (hi lo : Nat) : fld w hi lo < 2 ^ (hi - lo + 1) :=
  Nat.mod_lt _ (Nat.two_pow_pos _)

theorem patchRecords : Claims.PatchRecords := by
  intro old p v
  refine ⟨fun h => ?_, fun h => ?_, fun h => ?_, fun h => ?_⟩
  · simp only [patchRecord, h, if_true, v]
  · simp [patchRecord, h, v]
  · have hlow : patchRecord old p = BitVec.ofNat 64 (fld old 63 32 * 2 ^ 32 + fld v 31 0) := by simp [patchRecord, h, v]
    obtain ⟨hhigh, hset⟩ := extract_halves (fld old 63 32) _ (fld_lt v 31 0)
    rw [hlow, hhigh, hset, extract_fld, extract_fld]
    exact ⟨rfl, rfl⟩
  · have hhigh : patchRecord old p = BitVec.ofNat 64 (fld v 31 0 * 2 ^ 32 + fld old 31 0) := by simp [patchRecord, h, v]
    obtain ⟨hset, hlow⟩ := extract_halves (fld v 31 0) _ (fld_lt old 31 0)
    rw [hhigh, hset, hlow, extract_fld, extract_fld]
    exact ⟨rfl, rfl⟩

/-- Settles O15: an accepted entry is its fields and its patched registers, a rejected one a halted queue. -/
theorem entriesStartWithTheirPatches : Obligations.EntriesStartWithTheirPatches := ⟨entriesStart, patchRecords⟩

end Sys2Proof.Machine
end

section
/-!
FencesAndFlushes (R156, R215, R246 to R248, R250): a fence whose writes are performed, and the reads of a FLUSH.
-/

namespace Sys2Proof.Machine

open Sys2Proof

/-! ### A fence completes (R156, R248) -/

/-- What a fence shows whatever late failure it reports, it shows of both lists. -/
theorem map_of_unlate {β : Type} {l m : List Fence} (g : Fence → β) (hg : ∀ f, g f.unlate = g f)
    (h : l.map Fence.unlate = m.map Fence.unlate) : l.map g = m.map g := by
  have hunlate (k : List Fence) : k.map g = (k.map Fence.unlate).map g := by simp [hg]
  rw [hunlate l, hunlate m, h]

/-- The counter of a fence updated and the fence taken from the list (R156). -/
def fenceUpdated (s : State) (c : Nat) (f : Fence) (rest : List Fence) : State :=
  (s.modCtx c fun x => { x with fences := rest }).bump c f.ctr f.set f.value

theorem fenceUpdated_ctx (s : State) (c : Nat) (f : Fence) (rest : List Fence) :
    (fenceUpdated s c f rest).ctx c = { s.ctx c with
      fences := rest, counters := tmod 0 (s.ctx c).counters f.ctr fun n => if f.set then f.value else n + f.value } := by
  rw [fenceUpdated, State.bump, State.modCtx_same, State.modCtx_same]

theorem fenceUpdated_ne (s : State) {c d : Nat} (f : Fence) (rest : List Fence) (h : d ≠ c) :
    (fenceUpdated s c f rest).ctx d = s.ctx d := by
  rw [fenceUpdated, State.bump, State.modCtx_ne _ _ h, State.modCtx_ne _ _ h]

theorem fenceUpdated_system (s : State) (c : Nat) (f : Fence) (rest : List Fence) :
    SameSystem s (fenceUpdated s c f rest) := by constructor <;> rfl

/-- What the record of a fence leaves: fences but for their late failures, counters, poison, the other contexts. -/
theorem State.fenceRecord_leaves (s : State) (c : Nat) (f : Fence) (st : Status) (d : Nat) :
    let t := s.fenceRecord c f st d
    (t.ctx c).fences.map Fence.unlate = (s.ctx c).fences.map Fence.unlate ∧ (t.ctx c).counters = (s.ctx c).counters ∧
    (t.ctx c).poisoned = (s.ctx c).poisoned ∧ (∀ e, e ≠ c → t.ctx e = s.ctx e) ∧ SameSystem s t := by
  unfold State.fenceRecord
  dsimp only
  generalize hrec : ({ s.mkRec 0x03 with c := c, q := _, status := _, cookie := _, index := _, detail := _ } : Rec) = r
  have hc : r.c = c := by rw [← hrec]
  subst hc
  have hstanding := s.post_standing r
  have hctx := congrFun (s.post_unrecorded r) r.c
  exact ⟨fences_of_standing hstanding, (congrArg Ctx.counters hctx :), (congrArg Ctx.poisoned hctx :),
    fun _ he => ctx_of_standing hstanding he, (s.post_recordsOnly r).system⟩

/-- The effect of a fence that is due: its update, its record, and the poison of a late failure. -/
theorem fenceEffect_eq {s : State} {c q : Nat} {a b : List Fence} {f : Fence}
    (h : splitFence q (s.ctx c).fences = some (a, f, b)) :
    (f.late = none → fenceEffect s c q = (fenceUpdated s c f (a ++ b)).fenceRecord c f .success 0) ∧
    ∀ ca, f.late = some ca → fenceEffect s c q =
      ((fenceUpdated s c f (a ++ b)).fenceRecord c f .lateWrite ca).modCtx c fun x => { x with poisoned := true } := by
  refine ⟨fun hlate => ?_, fun ca hlate => ?_⟩
  · simp only [fenceEffect, h, hlate]
    rfl
  · simp only [fenceEffect, h, hlate]
    rfl

theorem fenceEffect_leaves {s : State} {c q : Nat} {a b : List Fence} {f : Fence}
    (h : splitFence q (s.ctx c).fences = some (a, f, b)) :
    ((fenceEffect s c q).ctx c).fences.map Fence.unlate = (a ++ b).map Fence.unlate ∧
    ((fenceEffect s c q).ctx c).counters = ((fenceUpdated s c f (a ++ b)).ctx c).counters ∧
    ((fenceEffect s c q).ctx c).poisoned = ((s.ctx c).poisoned || f.late.isSome) ∧
    (∀ d, d ≠ c → (fenceEffect s c q).ctx d = s.ctx d) ∧ SameSystem s (fenceEffect s c q) := by
  have hpending : ((fenceUpdated s c f (a ++ b)).ctx c).fences = a ++ b := by rw [fenceUpdated_ctx]
  have hpoison : ((fenceUpdated s c f (a ++ b)).ctx c).poisoned = (s.ctx c).poisoned := by rw [fenceUpdated_ctx]
  have hsys := fenceUpdated_system s c f (a ++ b)
  have hne (d : Nat) (hd : d ≠ c) := fenceUpdated_ne s f (a ++ b) hd
  obtain ⟨hclean, hfailed⟩ := fenceEffect_eq h
  cases hlate : f.late with
  | none =>
    obtain ⟨hfences, hcounters, hpoisoned, hothers, hsys'⟩ :=
      (fenceUpdated s c f (a ++ b)).fenceRecord_leaves c f .success 0
    rw [hclean hlate]
    generalize (fenceUpdated s c f (a ++ b)).fenceRecord c f .success 0 = v at *
    refine ⟨hfences.trans (by rw [hpending]), hcounters, ?_, fun d hd => (hothers d hd).trans (hne d hd), hsys.trans hsys'⟩
    rw [hpoisoned, hpoison, Option.isSome_none, Bool.or_false]
  | some ca =>
    obtain ⟨hfences, hcounters, -, hothers, hsys'⟩ :=
      (fenceUpdated s c f (a ++ b)).fenceRecord_leaves c f .lateWrite ca
    rw [hfailed ca hlate]
    generalize (fenceUpdated s c f (a ++ b)).fenceRecord c f .lateWrite ca = v at *
    rw [State.modCtx_same]
    refine ⟨hfences.trans (by rw [hpending]), hcounters, by simp, fun d hd => ?_,
      (hsys.trans hsys').trans (v.modCtx_system c _)⟩
    rw [State.modCtx_ne _ _ hd, hothers d hd, hne d hd]

theorem fencesComplete : Claims.FencesComplete := by
  intro s c q a b f hsplit hperformed
  have hdue : fenceDue s c q = true := by simp only [fenceDue, hsplit, hperformed]
  obtain ⟨hfences, hcounters, hpoisoned, hothers, hsys⟩ := fenceEffect_leaves hsplit
  have hcounter (j : Nat) : (fenceEffect s c q).counter c j =
      ((s.modCtx c fun x => { x with fences := a ++ b }).bump c f.ctr f.set f.value).counter c j := by
    rw [State.counter, hcounters]
    rfl
  have hold (j : Nat) : (s.modCtx c fun x => { x with fences := a ++ b }).counter c j = s.counter c j := by
    rw [State.counter, State.modCtx_same]
    rfl
  refine answers_due rfl hdue ⟨map_of_unlate _ (fun _ => rfl) hfences, ?_, fun j hj => ?_, hpoisoned, hothers, hsys⟩
  · rw [hcounter, State.counter_bump_same, hold]
  · rw [hcounter, State.counter_bump_ne _ _ _ _ hj, hold]

/-! ### The reads of a FLUSH (R250) -/

/-- The FLUSH whose read fails is the one whose read is due; its read is answered, and it reports the failure. -/
theorem flushed_failFlush {q : Nat} {l m : List Fence} {f : Fence} (h : flushed q l = some (f, m)) :
    f.q = q ∧ ∃ ca k, flushed q (failFlush q l) = some ({ f with late := some ca }, k) ∧
      { f with late := some ca, reads := f.reads.drop 1 } ∈ k := by
  induction l generalizing m with
  | nil => cases h
  | cons g l ih =>
    unfold flushed at h
    split at h
    next hg =>
      cases h
      obtain ⟨hq, hreads⟩ := hg
      refine ⟨hq, f.late.getD ((f.host.map (·.1)).getD 0), { f with late := _, reads := f.reads.drop 1 } :: l, ?_,
        List.mem_cons_self⟩
      simp [failFlush, flushed, hq, hreads]
    next hg =>
      split at h
      next heq =>
        cases h
        obtain ⟨hq, ca, k, hflushed, hmem⟩ := ih heq
        refine ⟨hq, ca, g :: k, ?_, List.mem_cons_of_mem g hmem⟩
        rw [failFlush, if_neg hg, flushed, if_neg hg, hflushed]
      next => cases h

/-- The first late failure of a context is its record and a count of its tenant (R246, Table 10-7). -/
theorem State.lateRecord_first {s : State} {c : Nat} (h : (s.ctx c).late.valid = false) (q cause : Nat) (ep : BitVec 16)
    (ca da : Nat) :
    let t := s.lateRecord c q cause ep ca da
    t.ctx c = { s.ctx c with late := { valid := true, cause := cause, q := q, epoch := ep, caddr := ca, daddr := da,
                                       frame := s.frame.counter.setWidth 32, count := 1 } } ∧
    t.ten (s.ctx c).tenant = { s.ten (s.ctx c).tenant with lateFails := satInc 32 (s.ten (s.ctx c).tenant).lateFails } ∧
    SameSystem s t := by
  refine ⟨?_, State.modTen_same _ _ _, by constructor <;> rfl⟩
  have hctx (u : State) (k : Nat) (g : Tenant → Tenant) : (u.modTen k g).ctx c = u.ctx c := rfl
  rw [State.lateRecord, hctx, State.modCtx_same]
  simp [h]

theorem flushDue_of_flushed {s : State} {c q : Nat} {f : Fence} {l : List Fence}
    (h : flushed q (s.ctx c).fences = some (f, l)) (hleft : s.writesLeft c f (f.reads.headD (0, 0)) = false) :
    flushDue s c q = true := by simp only [flushDue, h, hleft, Bool.not_false]

theorem flushReads : Claims.FlushReads := by
  intro s c q f l hflushed hleft
  have hdue : flushDue s c q = true := flushDue_of_flushed hflushed hleft
  refine ⟨answers_due rfl hdue ?_, ?_⟩
  · have heffect : flushEffect s c q true = s.modCtx c fun x => { x with fences := l } := by
      simp only [flushEffect, if_true, hflushed]
    rw [heffect]
    exact ⟨⟨_, rfl⟩, s.modCtx_same c _⟩
  · intro ca ep hhost hvalid failed
    have hfailed : failed (flushEffect s c q false) := by
      obtain ⟨hq, late, k, hagain, hmem⟩ := flushed_failFlush hflushed
      have heffect : flushEffect s c q false = (s.modCtx c fun x => { x with fences := k }).lateRecord c q 4 ep ca 0 := by
        simp only [flushEffect, Bool.false_eq_true, if_false, hagain, hhost]
      have hctx : (s.modCtx c fun x => { x with fences := k }).ctx c = { s.ctx c with fences := k } := s.modCtx_same c _
      obtain ⟨hlate, hten, hsys⟩ := State.lateRecord_first (s := s.modCtx c fun x => { x with fences := k })
        (by rw [hctx]; exact hvalid) q 4 ep ca 0
      rw [hctx] at hlate hten
      dsimp only [failed]
      rw [heffect, hlate, hten]
      exact ⟨rfl, rfl, rfl, rfl, rfl, rfl, ⟨_, hmem, hq, rfl, rfl, rfl⟩, rfl, (s.modCtx_system c _).trans hsys⟩
    exact ⟨answers_due rfl hdue hfailed, answers_due rfl hdue hfailed⟩

/-- Settles O17: a fence leaves its list with its update and record, and a FLUSH read that fails is the first late failure. -/
theorem fencesAndFlushes : Obligations.FencesAndFlushes := ⟨fencesComplete, flushReads⟩

end Sys2Proof.Machine
end

section
/-!
TransfersAndStaging (R140, R151, R153, R294): what a MOVE holds while it runs, what SAMPLE and ACTUATE may touch before they
end at their issue, and the bytes of a staged output.
-/

namespace Sys2Proof.Machine

open Sys2Proof

/-! ### MOVE (R151) -/

theorem moveReady_canIssue {s : State} {c q : Nat} {field : Bool} (h : moveReady s c q field = true) :
    s.canIssue c q = true := by
  simp only [moveReady, Bool.and_eq_true] at h
  obtain ⟨⟨hready, -⟩, -⟩ := h
  exact State.ready_canIssue hready

/-- What a look or a charge leaves: no outstanding operation, no queue, no data, no plate and nothing of the system differs. -/
def OnlyCharged (s t : State) : Prop := SameWork s t ∧ t.plates = s.plates

theorem OnlyLooked.charged {s t : State} (h : OnlyLooked s t) : OnlyCharged s t := by
  obtain ⟨-, -, -, -, hplates⟩ := h.data
  exact ⟨h.sameWork, hplates⟩

theorem OnlyCharged.trans {s t u : State} (h : OnlyCharged s t) (h' : OnlyCharged t u) : OnlyCharged s u := by
  obtain ⟨hwork, hplates⟩ := h
  obtain ⟨hwork', hplates'⟩ := h'
  exact ⟨hwork.trans hwork', hplates'.trans hplates⟩

theorem State.chargeUnit_charged (s : State) (c q u ns : Nat) : OnlyCharged s (s.chargeUnit c q u ns) := by
  refine ⟨s.chargeUnit_sameWork c q u ns, ?_⟩
  obtain ⟨x, hx⟩ := s.chargeUnit_form c q u ns
  rw [hx]

/-- The checks of a MOVE look at its operands; one that passes is charged to its engine (R51). -/
theorem moveCheck_charged (s : State) (c q : Nat) (ecc : Found) : OnlyCharged s (moveCheck s c q ecc).2 := by
  unfold moveCheck
  dsimp only
  split
  next heq => exact ((prepare_looked _ _ _ _ _ _ _ _ _).of_answer heq).charged
  next heq =>
    have hprepared := (prepare_looked _ _ _ _ _ _ _ _ _).of_answer heq
    split
    next heq' => exact (hprepared.trans ((State.allTargets_looked _ _ _ _ _ _).of_answer heq')).charged
    next heq' =>
      have hsource := hprepared.trans ((State.allTargets_looked _ _ _ _ _ _).of_answer heq')
      split
      next heq'' => exact (hsource.trans ((State.allTargets_looked _ _ _ _ _ _).of_answer heq'')).charged
      next heq'' =>
        have hboth := hsource.trans ((State.allTargets_looked _ _ _ _ _ _).of_answer heq'')
        split
        · exact hboth.charged
        · exact hboth.charged.trans (State.chargeUnit_charged _ _ _ _ _)

theorem moveBlock_holds (s : State) (o : Op) (e : Engine) (pl : Place) (ecc : Found) (w i : Nat) (k : Nat × Nat) :
    OnlyHolds o.c o.q o.idx s (moveBlock s o e pl ecc w i k).2 := by
  unfold moveBlock
  split
  next heq => exact ((State.readSpace_looked _ _ _ _ _ _ _ _).of_answer heq).holds
  next heq =>
    have hread := (State.readSpace_looked _ _ _ _ _ _ _ _).of_answer heq
    split
    next heq' => exact (hread.trans ((State.blockTargets_looked _ _ _ _ _ _ _ _ _).of_answer heq')).holds
    next heq' =>
      exact (hread.trans ((State.blockTargets_looked _ _ _ _ _ _ _ _ _).of_answer heq')).holds.trans
        (State.holdWrites_holds _ _ _ _ _ _)

/-- A MOVE that runs holds its writes, block by block (R161, R173). -/
theorem moveRun_holds (s : State) (o : Op) (e : Engine) (ecc : Found) (n : Nat) :
    OnlyHolds o.c o.q o.idx s (moveRun s o e ecc n).2 := by
  unfold moveRun
  dsimp only
  refine fold_holds (fun r : Option Flt × State => OnlyHolds o.c o.q o.idx s r.2) _ _ _ (OnlyHolds.refl s) ?_
  rintro ⟨r, u⟩ x - h
  cases r with
  | some f => exact h
  | none => exact h.trans (moveBlock_holds u o e _ ecc _ _ _)

/-- Behind its checks a MOVE issues, runs and ends. -/
theorem moveEffect_checked {s u : State} {c q : Nat} {ecc : Found} {e : Engine} {a b : Mat} {n : Nat}
    (h : moveCheck s c q ecc = (.ok (e, a, b, n), u)) :
    let o := { s.newOp c q (s.moveUnit c q) with da := a, dd := b }
    let r := moveRun (u.issue o) o e ecc n
    moveEffect s c q ecc = r.2.finishOp c q (s.nextIdx c q) r.1 0 := by
  simp only [moveEffect, h]
  rfl

theorem move_runs {s u : State} {c q : Nat} {ecc : Found} {field : Bool} {cmd : Instr} {e : Engine} {a b : Mat} {n : Nat}
    (hexec : exec cmd s = due s (moveReady s c q field) (moveEffect s c q ecc)) (hready : moveReady s c q field = true)
    (hcheck : moveCheck s c q ecc = (.ok (e, a, b, n), u)) {f : Option Flt} {v : State}
    (hrun : moveRun (u.issue { s.newOp c q (s.moveUnit c q) with da := a, dd := b })
      { s.newOp c q (s.moveUnit c q) with da := a, dd := b } e ecc n = (f, v)) :
    Answers cmd s (RanAtIssue s c q f 0 v) := by
  have hissue : s.canIssue c q = true := moveReady_canIssue hready
  have hcharged : OnlyCharged s (moveCheck s c q ecc).2 := moveCheck_charged s c q ecc
  rw [hcheck] at hcharged
  obtain ⟨hwork, hplates⟩ := hcharged
  have hholds := (moveRun_holds (u.issue { s.newOp c q (s.moveUnit c q) with da := a, dd := b })
    { s.newOp c q (s.moveUnit c q) with da := a, dd := b } e ecc n).of_answer hrun
  refine answers_due hexec hready ?_
  rw [moveEffect_checked hcheck, hrun]
  exact hholds.ranAtIssue hissue rfl (hwork.issue hissue) ((u.issue_plates _).trans hplates) f 0

/-! ### What SAMPLE and ACTUATE may touch (R153) -/

/-- No outstanding operation, no plate, nothing of the system, and not the entry that the queue runs differs. -/
structure OnlyWrote (c q : Nat) (s t : State) : Prop where
  ops : t.ops = s.ops
  run : (t.queue c q).run = (s.queue c q).run
  plates : t.plates = s.plates
  system : SameSystem s t

section
variable {c q : Nat} {s t u : State}

theorem OnlyWrote.trans (h : OnlyWrote c q s t) (h' : OnlyWrote c q t u) : OnlyWrote c q s u :=
  ⟨h'.ops.trans h.ops, h'.run.trans h.run, h'.plates.trans h.plates, h.system.trans h'.system⟩

theorem OnlyWrote.of_answer {α : Type} {r : α × State} {a : α} (h : OnlyWrote c q s r.2) (heq : r = (a, t)) :
    OnlyWrote c q s t := by rwa [heq] at h

theorem OnlyCharged.wrote (h : OnlyCharged s t) : OnlyWrote c q s t := by
  obtain ⟨hwork, hplates⟩ := h
  exact ⟨hwork.ops, by rw [hwork.queue], hplates, hwork.system⟩

theorem OnlyLooked.wrote (h : OnlyLooked s t) : OnlyWrote c q s t := h.charged.wrote

theorem OnlyWrote.refl (s : State) : OnlyWrote c q s s := (OnlyLooked.refl s).wrote

theorem DataOnly.wrote (h : DataOnly s t) : OnlyWrote c q s t := by
  obtain ⟨⟨m, p, f, x, rfl⟩, -, -⟩ := h
  exact ⟨rfl, rfl, rfl, by constructor <;> rfl⟩

theorem State.postWrites_wrote (s : State) (way : Target → List Nat) (l : List (Nat × Target × List Byte)) :
    OnlyWrote c q s (s.postWrites c q way l) := by
  obtain ⟨-, hentry, -, -, -, hops⟩ := s.postWrites_spec c q way l
  have hrun := hentry.run
  obtain ⟨ps, x, hform⟩ := s.postAll_form c q (l.map (mkPosted c q way))
  rw [State.postWrites, hform] at hops hrun ⊢
  exact ⟨hops, hrun, rfl, by constructor <;> rfl⟩

theorem State.writeSpace_wrote (s : State) (e : Engine) (sp : Nat) (l : List (Nat × Target × List Byte)) :
    OnlyWrote c q s (s.writeSpace c q e sp l) := by
  unfold State.writeSpace
  split
  · exact s.postWrites_wrote _ l
  · exact (s.wrTargets_dataOnly l).wrote

theorem State.post_wrote (s : State) {r : Rec} (hr : r.c = c) : OnlyWrote c q s (s.post r) := by
  have hrecords := s.post_recordsOnly r
  have hops : (s.post r).ops = s.ops := by
    obtain ⟨⟨m, p, f, x, y, n, hform⟩, -, -⟩ := hrecords
    rw [hform]
  exact ⟨hops, (s.post_sameEntry hr q).run, hrecords.plates, hrecords.system⟩

/-! ### SAMPLE -/

theorem writeWalks_wrote (s : State) (e : Engine) (pl : Place) (m : Mat) (walks : List (List Int)) :
    OnlyWrote c q s (writeWalks s c q e pl m walks).2 := by
  have htargets : OnlyLooked s ((walks.zipIdx).foldl (fun (r : Except Flt (List (Nat × Target × List Byte)) × State) x =>
      match r with
      | (.error f, s) => (.error f, s)
      | (.ok l, s) => match s.matTargets c e pl m x.2 (matRows m x.1) with
        | (.ok k, s) => (.ok (l ++ k), s)
        | (.error f, s) => (.error f, s)) (.ok [], s)).2 := by
    refine foldl_looked _ _ _ s (fun _ _ _ => rfl) fun l u x => ?_
    dsimp only
    split <;> next heq => exact (u.blockTargets_looked _ _ _ _ _ _ _ _).of_answer heq
  unfold writeWalks
  split
  next heq => exact (htargets.of_answer heq).wrote
  next heq => exact (htargets.of_answer heq).wrote.trans (State.writeSpace_wrote _ _ _ _)

theorem sampleRun_wrote (s : State) (c q : Nat) (ecc : Found) : OnlyWrote c q s (sampleRun s c q ecc).2 := by
  unfold sampleRun
  dsimp only
  split
  · exact OnlyWrote.refl s
  split
  next heq => exact ((prepare_looked _ _ _ _ _ _ _ _ _).of_answer heq).wrote
  next heq =>
    have hprepared := (prepare_looked _ _ _ _ _ _ _ _ _).of_answer heq
    split
    · exact hprepared.wrote
    split
    next heq' => exact (hprepared.trans ((State.allTargets_looked _ _ _ _ _ _).of_answer heq')).wrote
    next heq' =>
      have htargets := hprepared.trans ((State.allTargets_looked _ _ _ _ _ _).of_answer heq')
      split
      · exact htargets.wrote
      split
      next heq'' => exact (htargets.trans ((State.readPiece_looked _ _ _ _ _).of_answer heq'')).wrote
      next heq'' =>
        have hread := htargets.trans ((State.readPiece_looked _ _ _ _ _).of_answer heq'')
        exact (hread.charged.trans (State.chargeUnit_charged _ _ _ _ _)).wrote.trans (writeWalks_wrote _ _ _ _ _)

/-! ### ACTUATE -/

theorem stageOne_wrote (s : State) (k d o time a : Nat) (ecc : Found) :
    OnlyWrote c q s (stageOne s c q k d o time a ecc).2 := by
  have hread := s.readCtx_looked c ecc a 4
  unfold stageOne
  split
  next heq => exact (hread.of_answer heq).wrote.trans (State.wr_dataOnly _ _ _).wrote
  next u heq =>
    have hfree : OnlyWrote c q u u.takeFree.2 := ⟨rfl, rfl, rfl, by constructor <;> rfl⟩
    refine (((hread.of_answer heq).wrote.trans hfree).trans (State.wr_dataOnly _ _ _).wrote).trans
      (State.post_wrote _ ?_)
    rfl
  next heq => exact (hread.of_answer heq).wrote

/-- A fold that stops at its first fault, over steps that only write. -/
theorem foldl_wrote {β : Type} (f : State → β → Option Flt × State) (hf : ∀ u x, OnlyWrote c q u (f u x).2) (l : List β)
    (s : State) : OnlyWrote c q s (l.foldl (fun (r : Option Flt × State) x =>
      match r with
      | (some e, s) => (some e, s)
      | (none, s) => f s x) (none, s)).2 := by
  refine fold_holds (fun r : Option Flt × State => OnlyWrote c q s r.2) _ l _ (OnlyWrote.refl s) ?_
  rintro ⟨r, u⟩ x - h
  cases r with
  | some e => exact h
  | none => exact h.trans (hf u x)

theorem actuateRun_wrote (s : State) (c q time : Nat) (ecc : Found) : OnlyWrote c q s (actuateRun s c q time ecc).2 := by
  unfold actuateRun
  dsimp only
  split
  · exact OnlyWrote.refl s
  split
  · exact OnlyWrote.refl s
  split
  · exact OnlyWrote.refl s
  split
  next heq => exact ((prepare_looked _ _ _ _ _ _ _ _ _).of_answer heq).wrote
  next heq =>
    have hprepared := (prepare_looked _ _ _ _ _ _ _ _ _).of_answer heq
    split
    · exact hprepared.wrote
    split
    next heq' => exact (hprepared.trans ((State.allTargets_looked _ _ _ _ _ _).of_answer heq')).wrote
    next heq' =>
      have hsource := (hprepared.trans ((State.allTargets_looked _ _ _ _ _ _).of_answer heq')).wrote (c := c) (q := q)
      split
      · exact hsource
      split
      · exact hsource
      split
      · exact hsource
      · exact hsource.trans (foldl_wrote _ (fun u x => stageOne_wrote u _ _ _ _ _ _) _ _)

end

/-! ### The end at issue (R140) -/

/-- The next instruction is outstanding and finished with success, its status word 0; what it wrote, `u`, stands. -/
def FinishedAtIssue (s : State) (c q : Nat) (u t : State) : Prop :=
  (∃ o, t.ops = s.ops ++ [o] ∧ o.c = c ∧ o.q = q ∧ o.idx = s.nextIdx c q ∧ o.word = s.nextMacro c q ∧
    o.fin = some .success ∧ o.sword = 0) ∧
  t.nextIdx c q = s.nextIdx c q + 1 ∧ t.posted = u.posted ∧ t.mem = u.mem ∧ t.host = u.host ∧
  t.plates = s.plates ∧ SameSystem s t

theorem OnlyWrote.finished {c q : Nat} {s u : State} (h : OnlyWrote c q s u) (hissue : s.canIssue c q = true) (k : Nat) :
    FinishedAtIssue s c q u (u.issueDone (s.newOp c q k) none 0) := by
  obtain ⟨⟨r, hrun⟩, -⟩ := State.canIssue_next hissue
  let o : Op := { s.newOp c q k with fin := some .success, sword := 0 }
  have hnext : (u.issue o).nextIdx c q = s.nextIdx c q + 1 := by
    have hnow : ((u.issue o).queue c q).run = (u.queue c q).run.map fun r => { r with pc := r.pc + 1 } :=
      congrArg Queue.run (u.issue_queue o)
    rw [State.nextIdx, hnow, h.run, State.nextIdx, hrun]
    rfl
  have hdone : u.issueDone (s.newOp c q k) none 0 = u.issue o := rfl
  obtain ⟨x, hform⟩ := u.issue_form o
  rw [hdone]
  rw [hform] at hnext ⊢
  refine ⟨⟨o, congrArg (· ++ [o]) h.ops, rfl, rfl, rfl, rfl, rfl, rfl⟩, hnext, rfl, rfl, rfl, h.plates, h.system.trans ?_⟩
  constructor <;> rfl

theorem sampleReady_canIssue {s : State} {c q : Nat} (h : sampleReady s c q = true) : s.canIssue c q = true := by
  simp only [sampleReady, Bool.and_eq_true] at h
  obtain ⟨hready, -⟩ := h
  exact State.ready_canIssue hready

theorem actuateReady_canIssue {s : State} {c q : Nat} (h : actuateReady s c q = true) : s.canIssue c q = true := by
  simp only [actuateReady, Bool.and_eq_true] at h
  obtain ⟨hready, -⟩ := h
  exact State.ready_canIssue hready

theorem transfersComplete : Claims.TransfersComplete := by
  intro s c q time ecc finished moved
  have hmoved {field : Bool} {cmd : Instr} (hexec : exec cmd s = due s (moveReady s c q field) (moveEffect s c q ecc))
      (hready : moveReady s c q field = true) : moved cmd := fun e a b n u hcheck =>
    ⟨fun v => move_runs hexec hready hcheck, fun f v => move_runs hexec hready hcheck⟩
  refine ⟨hmoved rfl, hmoved rfl, fun hready u hrun => answers_due rfl hready ?_,
    fun hready u hrun => answers_due rfl hready ?_⟩
  · have heffect : sampleEffect s c q ecc = u.issueDone (s.newOp c q (0x18 + ioCopy (s.nextMacro c q))) none 0 := by
      simp only [sampleEffect, hrun]
    rw [heffect]
    exact ((sampleRun_wrote s c q ecc).of_answer hrun).finished (sampleReady_canIssue hready) _
  · have heffect : actuateEffect s c q time ecc = u.issueDone (s.newOp c q (s.actuateUnit c q)) none 0 := by
      simp only [actuateEffect, hrun]
    rw [heffect]
    exact ((actuateRun_wrote s c q time ecc).of_answer hrun).finished (actuateReady_canIssue hready) _

/-! ### A staged output (R294, Table 12-2) -/

theorem leNat_leBytes (n v : Nat) : leNat (leBytes n v) = v % 256 ^ n := by
  induction n generalizing v with
  | zero => simp [leBytes, leNat, Nat.mod_one]
  | succ n ih =>
    have hpow : 256 ^ (n + 1) = 256 * 256 ^ n := Nat.pow_succ'
    rw [leBytes, leNat, ih, BitVec.toNat_ofNat, hpow]
    exact Nat.mod_mul.symm

theorem take_leBytes (n k v : Nat) : (leBytes (n + k) v).take n = leBytes n v := by
  induction n generalizing v with
  | zero => simp [leBytes]
  | succ n ih => rw [Nat.succ_add, leBytes, List.take_succ_cons, ih, leBytes]

theorem drop_leBytes (n k v : Nat) : (leBytes (n + k) v).drop n = leBytes k (v / 256 ^ n) := by
  induction n generalizing v with
  | zero => simp
  | succ n ih => rw [Nat.succ_add, leBytes, List.drop_succ_cons, ih, Nat.div_div_eq_div_mul, Nat.pow_succ']

/-- The fields of a staging entry: VALUE in its first four bytes, the time in the next four. -/
theorem stagingEntry_fields (v : Int) (time c : Nat) (poison : Bool) :
    (stagingEntry v time c poison).length = 16 ∧ leNat ((stagingEntry v time c poison).take 4) = (v % 2 ^ 32).toNat ∧
    leNat (((stagingEntry v time c poison).drop 4).take 4) = time % 2 ^ 32 := by
  have hvalue : unsigned 32 v = (v % 4294967296).toNat := rfl
  have hbound : (v % 4294967296).toNat < 4294967296 := by omega
  obtain ⟨p, hp⟩ : ∃ p, (if poison = true then 2 ^ 77 else 0) = 2 ^ 64 * p := by
    cases poison
    · exact ⟨0, rfl⟩
    · exact ⟨2 ^ 13, rfl⟩
  refine ⟨leBytes_length 16 _, ?_, ?_⟩
  · rw [stagingEntry, take_leBytes 4 12, leNat_leBytes, hvalue, hp]
    norm_num
    omega
  · rw [stagingEntry, drop_leBytes 4 12, take_leBytes 4 8, leNat_leBytes, hvalue, hp]
    norm_num
    omega

/-- The staging blocks lie outside the keep table. -/
theorem staging_outside_keep (k : Nat) {d o i : Nat} (hd : d < 2) (ho : o < 20) (hi : i < 16) :
    inKeep (stagingAddr k d + 16 * o + i) = false := by
  have hkeep : keepBase = 8796093808640 := rfl
  have hstaging : stagingAddr k d = 8796093550592 + 33554432 * k + 512 * d := by
    unfold stagingAddr stockBase
    omega
  rw [inKeep, decide_eq_false_iff_not, hkeep, hstaging]
  omega

/-- A look reads nothing away: every byte of device memory reads as before. -/
theorem OnlyLooked.rd {s t : State} (h : OnlyLooked s t) (b : Nat) : t.rd b = s.rd b := by
  obtain ⟨hmem, -⟩ := h.data
  obtain ⟨-, hctx⟩ := h
  obtain ⟨y, hy⟩ := hctx ((b - keepBase) / 8)
  rw [State.rd, State.rd, hmem, hy]
  rfl

theorem stageOne_read {s u : State} {c a : Nat} {ecc : Found} {bs : List Byte} (h : s.readCtx c ecc a 4 = (.ok bs, u))
    (q k d o time : Nat) : stageOne s c q k d o time a ecc =
      (none, u.wr (stagingAddr k d + 16 * o) (stagingEntry (signed 32 (leNat bs)) time c false)) := by
  simp only [stageOne, h]

theorem stagingEntryWritten : Claims.StagingEntryWritten := by
  intro s u c q k d o time a ecc bs hk hd ho hread e base
  obtain ⟨hlen, hvalue, htime⟩ := stagingEntry_fields (signed 32 (leNat bs)) time c false
  have hlook : OnlyLooked s u := (s.readCtx_looked c ecc a 4).of_answer hread
  rw [stageOne_read hread]
  refine ⟨rfl, fun i hi => ?_, fun b hb => ?_, hlen, hvalue, htime⟩
  · have hlength : e.length = 16 := hlen
    have hinside : inKeep (base + i) = false ∧ base ≤ base + i ∧ base + i < base + e.length :=
      ⟨staging_outside_keep k hd ho hi, Nat.le_add_right _ _, by omega⟩
    rw [State.rd_wr, if_pos hinside, Nat.add_sub_cancel_left]
  · rw [← hlook.rd]
    exact u.rd_wr_outside (by rwa [hlen])

/-- Settles O20: a MOVE holds its writes until it ends, SAMPLE and ACTUATE write and end, and a staged output is the bytes of its
entry. -/
theorem transfersAndStaging : Obligations.TransfersAndStaging := ⟨transfersComplete, stagingEntryWritten⟩

end Sys2Proof.Machine
end

section
/-!
The end of an entry and of an instruction (R140, R147, R158, R208, R209, R212, R213): what MACRO_COMPLETE leaves, and what END
leaves on every queue whose number the records can tell from the others.
-/

namespace Sys2Proof.Machine

open Sys2Proof

/-! ### The report of an entry (R147, R212) -/

/-- The result area of an entry and, where it writes one, its record. -/
def State.reportRun (s : State) (c q : Nat) (st : Status) (i d : Nat) (r : Run) : State :=
  let u := s.writeResult c q r.result
  if !r.replay || decide (st ≠ .success) || r.notify then
    u.post { u.mkRec (if st = .overrun then 0x04 else 0x01) with
      c := c, q := q, status := st.code, cookie := r.cookie, index := i, detail := BitVec.ofNat 64 (st.detailOf d) }
  else u

/-- The queue of an entry that ended: an impression head stays, a margin head retires (R208, R209). -/
def Queue.ended (q : Nat) (st : Status) (r : Run) (x : Queue) : Queue :=
  if q < 4 then { x with run := none, headDone := decide (st ≠ .overrun), headRan := true,
                         headEnded := decide (st = .success), lastIdx := r.lastDone }
  else { x with run := none, head := x.head + 1, started := false }

section
variable {s : State} {c q : Nat} {r : Run}

theorem State.endRun_eq (hrun : (s.queue c q).run = some r) (st : Status) (i d : Nat) :
    s.endRun c q st i d = (s.reportRun c q st i d r).modQueue c q (Queue.ended q st r) := by
  unfold State.endRun Queue.ended
  rw [hrun]
  dsimp only
  split <;> rfl

theorem State.reportRun_recordsOnly (st : Status) (i d : Nat) : RecordsOnly s (s.reportRun c q st i d r) := by
  have hresult : RecordsOnly s (s.writeResult c q r.result) := s.wrCtx_recordsOnly c q _ _
  unfold State.reportRun
  dsimp only
  split
  · exact hresult.trans (State.post_recordsOnly _ _)
  · exact hresult

/-- The report keeps the entry of its queue, and its registers. -/
theorem State.reportRun_entry (st : Status) (i d : Nat) :
    ((s.reportRun c q st i d r).queue c q).head = (s.queue c q).head ∧
    ((s.reportRun c q st i d r).queue c q).tail = (s.queue c q).tail ∧
    ((s.reportRun c q st i d r).queue c q).prm = (s.queue c q).prm := by
  have hresult : (s.writeResult c q r.result).standing c q = s.standing c q := State.wrCtx_standing _ _
  obtain ⟨-, hhead, htail, -, hprm, -⟩ := entry_of_standing hresult q
  unfold State.reportRun
  dsimp only
  generalize s.writeResult c q r.result = u at hhead htail hprm ⊢
  split
  · generalize hrec : ({ u.mkRec _ with c := c, q := q, status := _, cookie := _, index := _, detail := _ } : Rec) = e
    have hc : e.c = c := by rw [← hrec]
    subst hc
    obtain ⟨-, hhead', htail', -, hprm', -⟩ := entry_of_standing (u.post_standing e) q
    exact ⟨hhead'.trans hhead, htail'.trans htail, hprm'.trans hprm⟩
  · exact ⟨hhead, htail, hprm⟩

end

/-! ### Records written and records held (R213) -/

/-- The records of a context so far: the number written, and those held. -/
def State.records (s : State) (c : Nat) : Nat × List Rec := ((s.ctx c).ringWritten, (s.ctx c).hold)

theorem State.modCtx_records (s : State) (c : Nat) (f : Ctx → Ctx)
    (hf : ∀ x, (f x).ringWritten = x.ringWritten ∧ (f x).hold = x.hold) : (s.modCtx c f).records = s.records := by
  funext d
  unfold State.records
  by_cases hd : d = c
  · obtain ⟨hwritten, hhold⟩ := hf (s.ctx c)
    rw [hd, State.modCtx_same, hwritten, hhold]
  · rw [State.modCtx_ne _ _ hd]

theorem State.records_of_ctxs {s t : State} (h : t.ctxs = s.ctxs) : t.records = s.records := by
  funext d
  rw [State.records, State.ctx, h]
  rfl

theorem OnlyLooked.records {s t : State} (h : OnlyLooked s t) : t.records = s.records := by
  funext d
  obtain ⟨-, hctx⟩ := h
  obtain ⟨y, hy⟩ := hctx d
  rw [State.records, hy]
  rfl

theorem State.lateFault_records (s : State) (c q cause : Nat) (ep : BitVec 16) (ca da : Nat) :
    (s.lateFault c q cause ep ca da).records = s.records := by
  have hlate : (s.lateRecord c q cause ep ca da).records = s.records :=
    (State.records_of_ctxs rfl).trans (s.modCtx_records c (fun x => { x with late := _ }) fun _ => ⟨rfl, rfl⟩)
  unfold State.lateFault
  dsimp only
  generalize s.lateRecord c q cause ep ca da = u at hlate ⊢
  have hfences (l : List Fence) : (u.modCtx c fun x => { x with fences := l }).records = s.records :=
    (u.modCtx_records c (fun x => { x with fences := l }) fun _ => ⟨rfl, rfl⟩).trans hlate
  split
  · exact hfences _
  · exact (State.modCtx_records _ c (Ctx.modQueue · q _) fun _ => ⟨rfl, rfl⟩).trans (hfences _)

/-- The device's own write into a context is no record of it. -/
theorem State.wrCtx_records (s : State) (c q a : Nat) (bs : List Byte) : (s.wrCtx c q a bs).records = s.records := by
  have hwrite (u : State) (e : Nat × Target × List Byte) : (u.wrOwn c q e.1 e.2.1 e.2.2).records = u.records := by
    unfold State.wrOwn
    repeat' split
    · exact u.lateFault_records c q _ _ _ _
    · exact State.records_of_ctxs (u.wr_dataOnly _ _).ctxs
    · exact State.records_of_ctxs (u.wrTarget_dataOnly _ _).ctxs
  have htargets := s.writeTargets_looked c a bs
  unfold State.wrCtx
  split
  next l u heq => exact (foldl_keeps State.records l _ hwrite u).trans (htargets.of_answer heq).records
  next heq => exact (htargets.of_answer heq).records

/-- The number of records of a context, written or held. -/
def State.recordCount (s : State) (c : Nat) : Nat := (s.ctx c).ringWritten + (s.ctx c).hold.length

theorem State.recordCount_of_records {s t : State} {c : Nat} (h : t.records c = s.records c) :
    t.recordCount c = s.recordCount c := by
  have hwritten : (t.ctx c).ringWritten = (s.ctx c).ringWritten := (congrArg Prod.fst h :)
  have hhold : (t.ctx c).hold = (s.ctx c).hold := (congrArg Prod.snd h :)
  rw [State.recordCount, hwritten, hhold]
  rfl

theorem State.putRec_count (s : State) (r : Rec) : (s.putRec r).recordCount r.c = s.recordCount r.c + 1 := by
  let u := s.modCtx r.c fun x => { x with
    ringWritten := x.ringWritten + 1, lost := false,
    toNotify := if r.q ∈ x.toNotify then x.toNotify else x.toNotify ++ [r.q] }
  have hput : (s.putRec r).recordCount r.c = u.recordCount r.c :=
    State.recordCount_of_records (congrFun (u.wrCtx_records r.c (r.q % 15) _ _) r.c)
  rw [hput, State.recordCount, State.modCtx_same, State.recordCount]
  exact Nat.add_right_comm _ _ _

/-- A record that is not droppable is written or held (R213). -/
theorem State.post_count (s : State) {r : Rec} (hstate : (s.ctx r.c).state ≠ .free) (hkind : droppable r.kind = false) :
    (s.post r).recordCount r.c = s.recordCount r.c + 1 := by
  have hput := State.putRec_count s { r with gen := (s.ctx r.c).gen }
  have hhold : (s.modCtx r.c fun x => { x with hold := x.hold ++ [{ r with gen := (s.ctx r.c).gen }] }).recordCount r.c =
      s.recordCount r.c + 1 := by
    rw [State.recordCount, State.modCtx_same, List.length_append, State.recordCount]
    exact (Nat.add_assoc _ _ _).symm
  unfold State.post
  dsimp only
  rw [if_neg hstate, if_neg (by simp [hkind])]
  split
  · exact hput
  · exact hhold

theorem State.writeResult_count (s : State) (c q a : Nat) : (s.writeResult c q a).recordCount c = s.recordCount c :=
  State.recordCount_of_records (congrFun (s.wrCtx_records c q _ _) c)

/-- An entry that ends with success writes its one record, but for a REPLAY entry without NOTIFY (R212). -/
theorem State.reportRun_count {s : State} {c : Nat} (hstate : (s.ctx c).state ≠ .free) (q i d : Nat) (r : Run) :
    (s.reportRun c q .success i d r).recordCount c =
      s.recordCount c + (if r.replay = true ∧ r.notify = false then 0 else 1) := by
  have hresult := s.writeResult_count c q r.result
  have hfree : ((s.writeResult c q r.result).ctx c).state ≠ .free := by
    have hsame : ((s.writeResult c q r.result).ctx c).state = (s.ctx c).state :=
      (congrArg Ctx.state (congrFun (s.wrCtx_unrecorded c q _ _) c) :)
    rwa [hsame]
  unfold State.reportRun
  dsimp only
  generalize s.writeResult c q r.result = u at hresult hfree ⊢
  cases hreplay : r.replay <;> cases hnotify : r.notify
  case true.false => simpa using hresult
  all_goals
    rw [← hresult]
    exact u.post_count (r := { u.mkRec 0x01 with
      c := c, q := q, status := Status.success.code, cookie := r.cookie, index := i,
      detail := BitVec.ofNat 64 (Status.success.detailOf d) }) hfree rfl

/-! ### END (R158) -/

theorem State.reportRun_standing {s : State} {c q : Nat} (hq : q < 15) (st : Status) (i d : Nat) (r : Run) :
    (s.reportRun c q st i d r).standing c q = s.standing c q := by
  have hresult : (s.writeResult c q r.result).standing c q = s.standing c q := State.wrCtx_standing _ _
  unfold State.reportRun
  dsimp only
  generalize s.writeResult c q r.result = u at hresult ⊢
  split
  · generalize hrec : ({ u.mkRec _ with c := c, q := q, status := _, cookie := _, index := _, detail := _ } : Rec) = e
    have hc : e.c = c := by rw [← hrec]
    have hslot : e.q % 15 = q := by rw [← hrec]; exact Nat.mod_eq_of_lt hq
    have hpost := u.post_standing e
    rw [hc, hslot] at hpost
    exact hpost.trans hresult
  · exact hresult

/-- What the status register of an instruction leaves of the state (R147). -/
structure StatusOnly (c q : Nat) (s t : State) : Prop where
  run : (t.queue c q).run = (s.queue c q).run
  head : (t.queue c q).head = (s.queue c q).head
  tail : (t.queue c q).tail = (s.queue c q).tail
  queues : ∀ j, j ≠ q → t.queue c j = s.queue c j
  others : ∀ d, d ≠ c → t.ctx d = s.ctx d
  alive : (t.ctx c).state = (s.ctx c).state
  count : t.recordCount c = s.recordCount c
  system : SameSystem s t

theorem State.writeStatus_only (s : State) (c q : Nat) (w : Word256) (st : Status) (v : BitVec 64) :
    StatusOnly c q s (s.writeStatus c q w st v) := by
  unfold State.writeStatus
  split
  · unfold State.setPrm
    refine ⟨by rw [State.modQueue_same], by rw [State.modQueue_same], by rw [State.modQueue_same],
      fun j hj => s.modQueue_queue_ne c _ hj, fun d hd => s.modCtx_ne _ hd, ?_, ?_, s.modCtx_system c _⟩
    · rw [State.modQueue, State.modCtx_same]
      rfl
    · rw [State.recordCount, State.modQueue, State.modCtx_same]
      rfl
  · exact ⟨rfl, rfl, rfl, fun _ _ => rfl, fun _ _ => rfl, rfl, rfl, SameSystem.refl s⟩

theorem State.canIssue_alive {s : State} {c q : Nat} (h : s.canIssue c q = true) : (s.ctx c).state ≠ .free := by
  intro hfree
  unfold State.canIssue at h
  dsimp only at h
  split at h
  · cases h
  · simp [hfree] at h

/-- What the END of an entry leaves: the entry is complete and reported, the rest of its context and of the system stays. -/
def CompletedEntry (s : State) (c q : Nat) (t : State) : Prop :=
  (t.queue c q).run = none ∧ (t.queue c q).tail = (s.queue c q).tail ∧
  (q < 4 → (t.queue c q).headDone = true ∧ (t.queue c q).headEnded = true ∧ (t.queue c q).head = (s.queue c q).head) ∧
  (4 ≤ q → (t.queue c q).head = (s.queue c q).head + 1) ∧ (∀ j, j ≠ q → t.queue c j = s.queue c j) ∧
  (∀ r, (s.queue c q).run = some r →
    t.recordCount c = s.recordCount c + (if r.replay = true ∧ r.notify = false then 0 else 1)) ∧
  (∀ d, d ≠ c → t.ctx d = s.ctx d) ∧ SameSystem s t

/-- END on a queue below 15, the spec's eight among them (R158). -/
theorem endEntry_completes {s : State} {c q : Nat} (hq : q < 15) (h : endReady s c q = true) :
    Answers (.endEntry c q) s (CompletedEntry s c q) := by
  have hissue : s.canIssue c q = true := by
    simp only [endReady, Bool.and_eq_true] at h
    obtain ⟨hready, -⟩ := h
    exact State.ready_canIssue hready
  obtain ⟨⟨r, hrun⟩, -⟩ := State.canIssue_next hissue
  have hstatus := s.writeStatus_only c q (s.nextMacro c q) .success 0
  have hend : endEffect s c q =
      (s.writeStatus c q (s.nextMacro c q) .success 0).endRun c q .success (s.nextIdx c q) 0 := rfl
  refine answers_due rfl h ?_
  rw [hend]
  generalize s.writeStatus c q (s.nextMacro c q) .success 0 = u at hstatus ⊢
  rw [State.endRun_eq (hstatus.run.trans hrun)]
  have hstanding := State.reportRun_standing (s := u) (c := c) hq .success (s.nextIdx c q) 0 r
  have hcount := State.reportRun_count (s := u) (c := c) (by rw [hstatus.alive]; exact State.canIssue_alive hissue) q
    (s.nextIdx c q) 0 r
  obtain ⟨hhead, htail, -⟩ := State.reportRun_entry (s := u) (c := c) (q := q) (r := r) .success (s.nextIdx c q) 0
  have hsys := (State.reportRun_recordsOnly (s := u) (c := c) (q := q) (r := r) .success (s.nextIdx c q) 0).system
  generalize u.reportRun c q .success (s.nextIdx c q) 0 r = v at hstanding hcount hhead htail hsys ⊢
  refine ⟨?_, ?_, fun hlow => ?_, fun hhigh => ?_, fun j hj => ?_, fun r' hr' => ?_, fun d hd => ?_, ?_⟩
  · rw [State.modQueue_same, Queue.ended]
    split <;> rfl
  · rw [State.modQueue_same, Queue.ended, ← hstatus.tail, ← htail]
    split <;> rfl
  · rw [State.modQueue_same, Queue.ended, if_pos hlow, ← hstatus.head, ← hhead]
    exact ⟨rfl, rfl, rfl⟩
  · rw [State.modQueue_same, Queue.ended, if_neg (by omega), ← hstatus.head, ← hhead]
  · rw [v.modQueue_queue_ne c _ hj, queue_ne_of_standing hstanding hj, hstatus.queues j hj]
  · cases hrun.symm.trans hr'
    rw [← hstatus.count, ← hcount, State.recordCount, State.modQueue, State.modCtx_same]
    rfl
  · rw [State.modQueue, v.modCtx_ne _ hd, ctx_of_standing hstanding hd, hstatus.others d hd]
  · exact (hstatus.system.trans hsys).trans (v.modCtx_system c _)

/-! ### MACRO_COMPLETE (R140, R147) -/

/-- What the end of an entry leaves of its registers and of the outstanding operations. -/
theorem State.endRun_leaves (s : State) (c q : Nat) (st : Status) (i d : Nat) :
    ((s.endRun c q st i d).queue c q).prm = (s.queue c q).prm ∧ (s.endRun c q st i d).ops = s.ops ∧
    SameSystem s (s.endRun c q st i d) := by
  cases hrun : (s.queue c q).run with
  | none =>
    have hsame : s.endRun c q st i d = s := by rw [State.endRun, hrun]
    rw [hsame]
    exact ⟨rfl, rfl, SameSystem.refl s⟩
  | some r =>
    obtain ⟨-, -, hprm⟩ := State.reportRun_entry (s := s) (c := c) (q := q) (r := r) st i d
    have hrecords := State.reportRun_recordsOnly (s := s) (c := c) (q := q) (r := r) st i d
    rw [State.endRun_eq hrun]
    refine ⟨?_, ?_, hrecords.system.trans (State.modCtx_system _ c _)⟩
    · rw [State.modQueue_same, Queue.ended, ← hprm]
      split <;> rfl
    · obtain ⟨⟨m, p, f, x, y, n, hform⟩, -, -⟩ := hrecords
      rw [hform]
      rfl

/-- The operation that MACRO_COMPLETE retires is taken out, and its status register written. -/
def retired (s : State) (c q i : Nat) (w : Word256) (st : Status) (v : BitVec 64) : State :=
  ((s.ran c).dropOp c q i).writeStatus c q w st v

theorem retired_leaves (s : State) (c q i : Nat) (w : Word256) (st : Status) (v : BitVec 64) :
    let t := retired s c q i w st v
    t.ops = s.ops.filter (fun p => !decide (p.c = c ∧ p.q = q ∧ p.idx = i)) ∧
    (stEn w = true → t.prm c q (stReg w) = if st = .success then v else BitVec.ofNat 64 (st.code + 2 ^ 63)) ∧
    (∀ r, ¬ statusZero w r → t.prm c q r = s.prm c q r) ∧ (t.queue c q).run = (s.queue c q).run ∧
    t.mem = s.mem ∧ t.host = s.host ∧ SameSystem s t := by
  have hqueue : ((s.ran c).dropOp c q i).queue c q = s.queue c q := by
    have hran : (s.ran c).queue c q = s.queue c q := by
      rw [State.queue, State.ran, State.modCtx_same]
      rfl
    exact hran
  obtain ⟨hmem, hhost, -, -, -, hdropped⟩ := ((s.ran c).dropOp_only c q i).same
  have hops : ((s.ran c).dropOp c q i).ops = s.ops.filter (fun p => !decide (p.c = c ∧ p.q = q ∧ p.idx = i)) := rfl
  have hsys : SameSystem s ((s.ran c).dropOp c q i) := (s.modCtx_system c _).trans hdropped
  unfold retired State.writeStatus
  generalize (s.ran c).dropOp c q i = u at *
  have hprm (r : Nat) : u.prm c q r = s.prm c q r := by
    rw [State.prm, hqueue]
    rfl
  dsimp only
  split
  next hen =>
    refine ⟨hops, fun _ => u.prm_setPrm_same c q _ _, fun r hr => ?_, ?_, hmem, hhost,
      hsys.trans (by constructor <;> rfl)⟩
    · rw [u.prm_setPrm_ne c q _ fun hreg => hr ⟨hen, hreg.symm⟩, hprm]
    · rw [State.setPrm, State.modQueue_same, hqueue]
  next hen => exact ⟨hops, fun h => absurd h hen, fun r _ => hprm r, by rw [hqueue], hmem, hhost, hsys⟩

theorem completeEffect_eq {s : State} {c q i : Nat} {o : Op} {st : Status} (hop : s.op c q i = some o)
    (hfin : o.fin = some st) : completeEffect s c q i =
      if st = .success then (retired s c q i o.word st o.sword).modRun c q fun r => { r with lastDone := i }
      else (retired s c q i o.word st o.sword).endRun c q st i o.detail.toNat := by
  obtain ⟨rfl, rfl, rfl⟩ := State.op_names hop
  simp only [completeEffect, hop, hfin]
  rfl

theorem macroRetires : Claims.MacroRetires := by
  intro s c q i o hop
  have hready {st : Status} (hfin : o.fin = some st) : completeReady s c q i = true := by
    simp only [completeReady, hop, hfin, Option.isSome_some]
  refine ⟨fun hfin => answers_due rfl (hready hfin) ?_, fun st hfin hst => answers_due rfl (hready hfin) ?_⟩
  · obtain ⟨hops, hstatus, hprm, hrun, hmem, hhost, hsys⟩ := retired_leaves s c q i o.word .success o.sword
    rw [completeEffect_eq hop hfin, if_pos rfl]
    generalize retired s c q i o.word .success o.sword = u at *
    have hregs (r : Nat) : (u.modRun c q fun x => { x with lastDone := i }).prm c q r = u.prm c q r := by
      rw [State.prm, State.modRun, State.modQueue_same]
      rfl
    refine ⟨hops, fun hen => (hregs _).trans (hstatus hen), fun r hr => (hregs r).trans (hprm r hr), ?_, hmem, hhost,
      hsys.trans (by constructor <;> rfl)⟩
    rw [State.modRun, State.modQueue_same, hrun]
  · obtain ⟨hops, hstatus, -, -, -, -, hsys⟩ := retired_leaves s c q i o.word st o.sword
    rw [completeEffect_eq hop hfin, if_neg hst]
    obtain ⟨hprm, hops', hsys'⟩ := (retired s c q i o.word st o.sword).endRun_leaves c q st i o.detail.toNat
    obtain ⟨hnone, -⟩ := (retired s c q i o.word st o.sword).endRun_ends c q st i o.detail.toNat
    refine ⟨hops'.trans hops, hnone, fun _ hen => ?_, hsys.trans hsys'⟩
    have hword := hstatus hen
    rw [if_neg hst] at hword
    rw [State.prm, hprm]
    exact hword

end Sys2Proof.Machine
end

section
/-!
EntriesComplete fails where a queue number is past those the spec has (R147, R158, R213): the statement bounds no queue, and the
record of an entry on queue 15 is written as a write of queue 0, which keeps the late failure that the write meets (R22, R247).
-/

namespace Sys2Proof.Machine

open Sys2Proof

/-- The record of a context 0 of tenant 0: its tables at 0, a ring of 128 records at context address 0x8000. -/
def poisonedRingRecord : BitVec 1024 := BitVec.ofNat 1024 (0x8000 * 2 ^ 128 + 6 * 2 ^ 176)

/-- In MARGIN, context 0 runs an entry on queue 15 that stands at its END (opcode 0x0E). Its context page 0 is device page 3 (R201);
the block of the ring's first record, 0x38000, is poisoned. -/
def endOnQueue15 : State :=
  { State.reset with
    frame := { phase := .margin }
    eff := [(objKey 0 0x3520 2, 64)]
    mem := [(0, 1), (2, 1), (0x10000, 1), (0x10002, 2), (0x20000, 3), (0x20002, 3)]
    poison := [0x38000]
    bundles := [{ progs := [(0, { macros := [0x0E] })] }]
    ctxs := [(0, { state := .admitted, record := poisonedRingRecord, slot := some 0, queues := [(15,
      { run := some { prog := 0, replay := false, notify := false, result := 0, cookie := 0 } })] })] }

theorem endOnQueue15_ready : endReady endOnQueue15 0 15 = true := by decide +kernel

/-- Queue 0 keeps no late failure before the END. -/
theorem endOnQueue15_clean : (endOnQueue15.queue 0 0).lateAt = none := by decide +kernel

/-- The write of the record covers half a poisoned block: it fails late, and queue 0 keeps its address. -/
theorem endOnQueue15_lateAt : ((endEffect endOnQueue15 0 15).queue 0 0).lateAt = some 0x8000 := by decide +kernel

theorem exec_endEntry {s : State} {c q : Nat} (h : endReady s c q = true) :
    exec (.endEntry c q) s = .next (endEffect s c q) :=
  (congrArg (due s · (endEffect s c q)) h).trans (due_true _ _)

/-- Refutes O14: an END on queue 15, which the statement admits, changes queue 0 of its context. On the queues below it END does
what the claim says (`endEntry_completes`), and its other part holds (`macroRetires`). -/
theorem not_entriesComplete : ¬ Obligations.EntriesComplete := by
  rintro ⟨hend, -⟩
  obtain ⟨t, hexec, -, -, -, -, hothers, -⟩ := hend endOnQueue15 0 15 endOnQueue15_ready
  have ht : endEffect endOnQueue15 0 15 = t :=
    Host.Outcome.next.inj ((exec_endEntry endOnQueue15_ready).symm.trans hexec)
  have hlate := congrArg Queue.lateAt (hothers 0 (by decide))
  rw [← ht, endOnQueue15_lateAt, endOnQueue15_clean] at hlate
  cases hlate

end Sys2Proof.Machine
end

section
/-!
BundlesAreVerified (R177, R178, R180, R194): what a kept copy changes of the search for copies, and what a bundle shorter than
a directory and a signature is told.
-/

namespace Sys2Proof.Machine

open Sys2Proof

/-! ### The copy that is kept (R178, log 64) -/

/-- A verified copy belongs to the tenant that submitted it. -/
theorem verify_tenant {s : State} {t : Nat} {bytes : List Byte} {b : Bundle} (h : verify s t bytes = .ok b) :
    b.tenant = t := by
  unfold verify at h
  dsimp only at h
  split at h
  · cases h
  · split at h <;> cases h
    rfl

/-- The copy added last serves its own identifier; every other identifier is served as before. -/
theorem State.copyFor_added (s : State) (b : Bundle) (t id : Nat) :
    ({ s with bundles := s.bundles ++ [b] } : State).copyFor t id =
      if b.tenant = t ∧ b.id = id then some s.bundles.length else s.copyFor t id := by
  unfold State.copyFor
  dsimp only
  rw [List.zipIdx_append, List.reverse_append, List.zipIdx_singleton, List.reverse_singleton, List.singleton_append,
    List.find?_cons]
  by_cases h : b.tenant = t ∧ b.id = id
  · simp [h]
  · have hmiss : (decide (b.tenant = t) && decide (b.id = id)) = false := by simpa using h
    simp only [hmiss, if_neg h]

/-! ### The first checks (Table 8-6: MAGIC, LENGTH) -/

theorem checkMagic_code {r : Raw} {e : Rej} (h : checkMagic r = some e) : e.code = 0x0901 := by
  unfold checkMagic at h
  split at h <;> cases h
  rfl

/-- A directory and a signature take 160 bytes, whatever length the header claims. -/
theorem checkLength_short {bytes : List Byte} (h : bytes.length < 160) :
    checkLength (rawBundle bytes) = some ⟨0x0902, 0, 0, 8⟩ := by
  have hbytes : (rawBundle bytes).bytes.length < 160 := h
  exact if_pos (by omega)

theorem stage1_short (s : State) {bytes : List Byte} (h : bytes.length < 160) :
    ∃ e, stage1 s (rawBundle bytes) = some e ∧ (e.code = 0x0901 ∨ e.code = 0x0902) := by
  cases hmagic : checkMagic (rawBundle bytes) with
  | some e => exact ⟨e, by rw [stage1, hmagic]; rfl, .inl (checkMagic_code hmagic)⟩
  | none => exact ⟨_, by rw [stage1, hmagic, checkLength_short h]; rfl, .inr rfl⟩

theorem verify_of_stage1 {s : State} {bytes : List Byte} {e : Rej} (h : stage1 s (rawBundle bytes) = some e) (t : Nat) :
    verify s t bytes = .error e := by
  simp only [verify, h]

/-! ### BUNDLE_SUBMIT -/

theorem bundleSubmit_kept {s : State} {via : Via} {t : Nat} {bytes : List Byte} {b : Bundle}
    (hsender : s.bellSender via = some t) (h : verify s t bytes = .ok b) :
    bundleSubmit s via bytes = ({ s with bundles := s.bundles ++ [b] }).send (.bundle via 0) := by
  simp only [bundleSubmit, hsender, h]

theorem bundleSubmit_rejected {s : State} {via : Via} {t : Nat} {bytes : List Byte} {e : Rej}
    (hsender : s.bellSender via = some t) (h : verify s t bytes = .error e) :
    bundleSubmit s via bytes =
      (s.modTen t fun x => { x with lastRejection := e.word }).send (.bundle via e.word) := by
  simp only [bundleSubmit, hsender, h]

/-- Settles O43: a bundle that verifies is the copy added last, one that does not changes its tenant's rejection alone. -/
theorem bundlesAreVerified : Obligations.BundlesAreVerified := by
  intro s via bytes
  refine ⟨fun hsender => ?_, fun t hsender => ⟨fun b h => ?_, fun e h => ?_⟩, fun t hshort => ?_⟩
  · exact congrArg Host.Outcome.next (by simp only [bundleSubmit, hsender])
  · have htenant : b.tenant = t := verify_tenant h
    refine ⟨_, congrArg Host.Outcome.next (bundleSubmit_kept hsender h), rfl, ?_, fun t' id hne => ?_⟩
    · exact (s.copyFor_added b t b.id).trans (if_pos ⟨htenant, rfl⟩)
    · exact (s.copyFor_added b t' id).trans (if_neg fun hb => hne (hb.1.symm.trans htenant))
  · exact congrArg Host.Outcome.next (bundleSubmit_rejected hsender h)
  · obtain ⟨e, hstage, hcode⟩ := stage1_short s hshort
    exact ⟨e, verify_of_stage1 hstage t, hcode⟩

end Sys2Proof.Machine
end

section
/-!
SlotsAndResetRequests (R179, R198, R199, R231, R238, R239): the slot operation that is due, what it changes, and who may ask for
a reset.
-/

namespace Sys2Proof.Machine

open Sys2Proof

/-! ### The slot operation that is due (R198, R199) -/

theorem State.freeSlot_of_slotFor {s : State} {t n : Nat} (h : s.slotFor t = some n) : s.freeSlot = some n := by
  unfold State.slotFor at h
  split at h
  · exact h
  · cases h

/-- The victim is one of the residents that may be evicted. -/
theorem State.victim_evictable {s : State} {t c : Nat} (h : s.victim t = some c) : s.evictable c = true := by
  have hfold : ∀ d, s.victim t = some d → d ∈ (s.residents t).filter s.evictable := by
    refine fold_holds (fun best : Option Nat => ∀ d, best = some d → d ∈ (s.residents t).filter s.evictable) _ _ _
      (fun _ h => nomatch h) fun best d hd hbest => ?_
    cases best with
    | none => rintro _ ⟨⟩; exact hd
    | some b =>
      dsimp only
      split
      · rintro _ ⟨⟩; exact hd
      · exact hbest
  exact (List.mem_filter.1 (hfold c h)).2

/-- What may be evicted holds a slot and has nothing running. -/
theorem State.evictable_quiet {s : State} {c : Nat} (h : s.evictable c = true) :
    (s.ctx c).slot.isSome = true ∧ s.quiet c = true := by
  simp only [State.evictable, Bool.and_eq_true] at h
  obtain ⟨⟨⟨hslot, -⟩, hquiet⟩, -⟩ := h
  exact ⟨hslot, hquiet⟩

/-- The next slot operation restores an ADMITTED context into a slot free for its tenant, or saves a victim. -/
theorem State.nextSlotOp_cases {s : State} {o : SlotOp} (h : s.nextSlotOp = some o) :
    (∃ c n, o = .restore c n ∧ (s.ctx c).state = .admitted ∧ s.freeSlot = some n) ∨
    ∃ c, o = .save c ∧ s.evictable c = true := by
  obtain ⟨d, -, hd⟩ := List.exists_of_findSome?_eq_some h
  dsimp only at hd
  split at hd
  · cases hd
  next hstate =>
  split at hd
  next n hslot =>
    cases hd
    exact .inl ⟨d, n, rfl, not_not.1 hstate, State.freeSlot_of_slotFor hslot⟩
  next =>
    obtain ⟨c, hc, rfl⟩ := Option.map_eq_some_iff.1 hd
    exact .inr ⟨c, rfl, State.victim_evictable hc⟩

/-- R199: a restore is of an ADMITTED context, into the lowest free slot. -/
theorem State.restore_due {s : State} {c n : Nat} (h : s.nextSlotOp = some (.restore c n)) :
    (s.ctx c).state = .admitted ∧ s.freeSlot = some n := by
  rcases State.nextSlotOp_cases h with ⟨_, _, ⟨⟩, hrestore⟩ | ⟨_, ⟨⟩, -⟩
  exact hrestore

/-- R198: a save is of a context that holds a slot and has nothing running. -/
theorem State.save_due {s : State} {c : Nat} (h : s.nextSlotOp = some (.save c)) :
    (s.ctx c).slot.isSome = true ∧ s.quiet c = true := by
  rcases State.nextSlotOp_cases h with ⟨_, _, ⟨⟩, -⟩ | ⟨_, ⟨⟩, hvictim⟩
  exact State.evictable_quiet hvictim

theorem slotOps_lt_of_ready {s : State} (h : slotOpReady s = true) : s.frame.slotOps < s.slotLimit := by
  simp only [slotOpReady, Bool.and_eq_true, decide_eq_true_eq] at h
  obtain ⟨⟨-, hlimit⟩, -⟩ := h
  exact hlimit

/-! ### A slot operation that is carried out -/

/-- One slot operation counted, and beside it nothing of the frame, memory, work, plates and the network changed. -/
def SlotOpCounted (u t : State) : Prop :=
  t.slotOpsTotal = satInc 32 u.slotOpsTotal ∧ t.frame = { u.frame with slotOps := u.frame.slotOps + 1 } ∧
  t.mem = u.mem ∧ t.ops = u.ops ∧ t.plates = u.plates ∧ t.net = u.net

/-- A counted slot operation on one context: that context, the others, and the rest. -/
theorem State.modCtx_countSlotOp (s : State) (c : Nat) (f : Ctx → Ctx) :
    let t := (s.modCtx c f).countSlotOp
    t.ctx c = f (s.ctx c) ∧ (∀ d, d ≠ c → t.ctx d = s.ctx d) ∧ SlotOpCounted s t :=
  ⟨s.modCtx_same c f, fun _ hd => s.modCtx_ne f hd, rfl, rfl, rfl, rfl, rfl, rfl⟩

/-- A context that has taken a slot, and one that was saved. -/
def Ctx.restored (n : Nat) (x : Ctx) : Ctx := { x with slot := some n, evicted := false }
def Ctx.saved (x : Ctx) : Ctx := { x with slot := none, evicted := true }

theorem Ctx.restored_of_resident {x : Ctx} (n : Nat) (h : x.evicted = false) : x.restored n = { x with slot := some n } := by
  cases x
  cases h
  rfl

theorem State.askRestore_form (s : State) (margin : Bool) (c : Nat) :
    ∃ l, s.askRestore margin c = { s with restores := l } := by
  unfold State.askRestore
  split
  · exact ⟨s.restores, rfl⟩
  · exact ⟨_, rfl⟩

/-- A save takes the slot and is counted; the saved context may ask for a slot again. -/
theorem State.save_form (s : State) (c : Nat) : ∃ l, s.doSlotOp (.save c) =
    { (s.modCtx c Ctx.saved).countSlotOp with restores := l } := by
  unfold State.doSlotOp
  dsimp only
  split
  · exact State.askRestore_form _ _ _
  · exact ⟨s.restores, rfl⟩

/-- A restore takes its request from those that wait. -/
def State.dropRestore (s : State) (c : Nat) : State :=
  { s with restores := s.restores.filter fun e => decide (e.2 ≠ c) }

section
variable {s u : State} {c : Nat}

theorem State.restoreCtx_resident (n : Nat) (hevicted : (s.ctx c).evicted = false) : s.restoreCtx c n =
    ((s.dropRestore c).modCtx c (Ctx.restored n)).countSlotOp := by
  have hevicted : ((s.dropRestore c).ctx c).evicted = false := hevicted
  rw [State.dropRestore] at hevicted ⊢
  simp only [State.restoreCtx, hevicted, Bool.false_eq_true, if_false]
  rfl

/-- R179: a context that was evicted takes its slot where it passes stages 5 and 6. -/
theorem State.restoreCtx_admitted (n : Nat) (hevicted : (s.ctx c).evicted = true)
    (hcheck : (s.dropRestore c).admitCheck c = (none, u)) :
    s.restoreCtx c n = (u.modCtx c (Ctx.restored n)).countSlotOp := by
  have hevicted : ((s.dropRestore c).ctx c).evicted = true := hevicted
  rw [State.dropRestore] at hevicted hcheck
  simp only [State.restoreCtx, hevicted, if_true, hcheck]
  rfl

/-- Log 96: where it fails them, the refusal is the whole operation. -/
theorem State.restoreCtx_refused (n : Nat) {e : Rej} (hevicted : (s.ctx c).evicted = true)
    (hcheck : (s.dropRestore c).admitCheck c = (some e, u)) : s.restoreCtx c n = u.refuseAdmission c e := by
  have hevicted : ((s.dropRestore c).ctx c).evicted = true := hevicted
  rw [State.dropRestore] at hevicted hcheck
  simp only [State.restoreCtx, hevicted, if_true, hcheck]

end

/-! ### What a refused admission leaves (R180, R211 to R214) -/

/-- The rejection word of each tenant (0x2108). -/
def State.rejections (s : State) (k : Nat) : BitVec 64 := (s.ten k).lastRejection

section
variable {s t : State}

theorem State.rejections_of_tenants (h : t.tenants = s.tenants) : t.rejections = s.rejections := by
  funext k
  rw [State.rejections, State.ten, h]
  rfl

theorem State.modTen_rejections (k : Nat) (f : Tenant → Tenant) (hf : ∀ x, (f x).lastRejection = x.lastRejection) :
    (s.modTen k f).rejections = s.rejections := by
  funext j
  unfold State.rejections
  by_cases hj : j = k
  · rw [hj, State.modTen_same, hf]
  · rw [State.modTen_ne _ _ hj]

theorem OnlyLooked.rejections (h : OnlyLooked s t) : t.rejections = s.rejections := by
  obtain ⟨⟨x, m, p, rfl⟩, -⟩ := h
  exact State.rejections_of_tenants rfl

theorem DataOnly.rejections (h : DataOnly s t) : t.rejections = s.rejections := by
  obtain ⟨⟨m, p, f, x, rfl⟩, -, -⟩ := h
  exact State.rejections_of_tenants rfl

theorem State.lateFault_rejections (c q cause : Nat) (ep : BitVec 16) (ca da : Nat) :
    (s.lateFault c q cause ep ca da).rejections = s.rejections := by
  have hlate : (s.lateRecord c q cause ep ca da).rejections = s.rejections := State.modTen_rejections _ _ fun _ => rfl
  refine Eq.trans (State.rejections_of_tenants ?_) hlate
  unfold State.lateFault
  dsimp only
  split <;> rfl

theorem State.wrOwn_rejections (c q ca : Nat) (e : Target) (bs : List Byte) :
    (s.wrOwn c q ca e bs).rejections = s.rejections := by
  unfold State.wrOwn
  repeat' split
  · exact State.lateFault_rejections _ _ _ _ _ _
  · exact (s.wr_dataOnly _ _).rejections
  · exact (s.wrTarget_dataOnly _ _).rejections

theorem State.wrCtx_rejections (c q a : Nat) (bs : List Byte) : (s.wrCtx c q a bs).rejections = s.rejections := by
  have htargets := (s.writeTargets_looked c a bs).rejections
  unfold State.wrCtx
  split
  next l u heq =>
    rw [heq] at htargets
    exact (foldl_keeps State.rejections l _ (fun _ e => State.wrOwn_rejections c q e.1 e.2.1 e.2.2) u).trans htargets
  next heq => rwa [heq] at htargets

/-- A record written, held or dropped leaves every rejection word. -/
theorem State.post_rejections (s : State) (r : Rec) : (s.post r).rejections = s.rejections := by
  have hput (r : Rec) : (s.putRec r).rejections = s.rejections :=
    (State.wrCtx_rejections _ _ _ _).trans (State.rejections_of_tenants rfl)
  unfold State.post
  dsimp only
  repeat' split
  · rfl
  · exact Eq.trans (State.modTen_rejections _ _ fun _ => rfl) (State.rejections_of_tenants rfl)
  · exact hput _
  · exact State.rejections_of_tenants rfl
  · exact hput _
  · exact State.rejections_of_tenants rfl

end

/-- A refused admission shows its tenant the word and posts a record: slots, restores and the count of slot operations stay. -/
theorem State.refuseAdmission_spec (u : State) (c : Nat) (e : Rej) :
    let t := u.refuseAdmission c e
    (t.ctx c).slot = (u.ctx c).slot ∧ (t.ctx c).evicted = (u.ctx c).evicted ∧
    (t.ten (u.ctx c).tenant).lastRejection = e.word ∧ t.slotOpsTotal = u.slotOpsTotal ∧ t.restores = u.restores := by
  let v := u.modTen (u.ctx c).tenant fun x => { x with lastRejection := e.word }
  let r : Rec := { u.mkRec 0x10 with c := c, q := 15, detail := BitVec.ofNat 64 e.code }
  have hctx : ((v.post r).ctx c).unrecorded = (u.ctx c).unrecorded := congrFun (v.post_unrecorded r) c
  have hword : ((v.post r).ten (u.ctx c).tenant).lastRejection = e.word :=
    (congrFun (v.post_rejections r) (u.ctx c).tenant).trans (congrArg Tenant.lastRejection (State.modTen_same _ _ _))
  obtain ⟨⟨m, p, f, h, x, n, hform⟩, -, -⟩ := v.post_recordsOnly r
  exact ⟨(congrArg Ctx.slot hctx :), (congrArg Ctx.evicted hctx :), hword,
    (congrArg State.slotOpsTotal hform :), (congrArg State.restores hform :)⟩

/-! ### SLOT_OPERATION -/

/-- A slot operation that is ready and next is carried out. -/
theorem answers_slotOperation {s : State} {o : SlotOp} {P : State → Prop} (hready : slotOpReady s = true)
    (hnext : s.nextSlotOp = some o) (h : P (s.doSlotOp o)) : Answers .slotOperation s P :=
  answers_due (t := slotOpEffect s) rfl hready (by rwa [slotOpEffect, hnext])

theorem slotsSaveAndRestore : Claims.SlotsSaveAndRestore := by
  intro s hready
  refine ⟨slotOps_lt_of_ready hready, fun c n hnext => ?_, fun c hnext => answers_slotOperation hready hnext ?_⟩
  · obtain ⟨hstate, hfree⟩ := State.restore_due hnext
    refine ⟨hstate, hfree, fun hevicted => answers_slotOperation hready hnext ?_, fun hevicted =>
      ⟨fun hcheck => answers_slotOperation hready hnext ?_, fun e hcheck => answers_slotOperation hready hnext ?_⟩⟩
    · rw [State.doSlotOp, State.restoreCtx_resident n hevicted]
      obtain ⟨hself, hothers, hcounted⟩ := (s.dropRestore c).modCtx_countSlotOp c (Ctx.restored n)
      exact ⟨hself.trans (Ctx.restored_of_resident n hevicted), hothers,
        fun e he => of_decide_eq_true (List.mem_filter.1 he).2, hcounted⟩
    · rw [State.doSlotOp, State.restoreCtx_admitted n hevicted (Prod.ext hcheck rfl)]
      obtain ⟨hself, hothers, hcounted⟩ := ((s.dropRestore c).admitCheck c).2.modCtx_countSlotOp c (Ctx.restored n)
      exact ⟨hself, hothers, rfl, hcounted⟩
    · rw [State.doSlotOp, State.restoreCtx_refused n hevicted (Prod.ext hcheck rfl)]
      exact State.refuseAdmission_spec _ _ _
  · obtain ⟨hslot, hquiet⟩ := State.save_due hnext
    obtain ⟨l, hsave⟩ := s.save_form c
    obtain ⟨hself, hothers, hcounted⟩ := s.modCtx_countSlotOp c Ctx.saved
    rw [hsave]
    exact ⟨hslot, hquiet, hself, hothers, hcounted⟩

/-! ### Requests for a device reset (R238, R387) -/

/-- Once ticks have begun a device reset waits for GUARD. -/
theorem State.resetAtOnce_ticking {s : State} (h : s.frame.ticking = true) : s.resetAtOnce = s := if_pos (.inl h)

section
variable {s : State} (hstarted : s.boot.started = true) (hticking : s.frame.ticking = true)
include hstarted hticking

theorem warmResetRequest_recorded (cause : Nat) : exec (.warmResetRequest cause) s =
    .next (s.modBoot fun b => { b with warmReq := some (b.warmReq.getD cause) }) := by
  have hwait : (s.requestWarm cause).resetAtOnce = s.requestWarm cause := State.resetAtOnce_ticking hticking
  rw [exec, execWarmResetRequest, hstarted, due_true, hwait]
  rfl

theorem coldResetRequest_recorded :
    exec .coldResetRequest s = .next (s.modBoot fun b => { b with coldReq := true }) := by
  have hwait : s.requestCold.resetAtOnce = s.requestCold := State.resetAtOnce_ticking hticking
  rw [exec, execColdResetRequest, hstarted, due_true, hwait]
  rfl

end

/-! ### Requests for a tenant reset (R231, R238) -/

theorem partitionRestart_asks {s : State} {part t : Nat} (hpart : part < 8) (hawake : s.awake = true)
    (hdev : s.boot.dev ≠ .limp) (hbound : s.tenantOf (.burin part) = some t) :
    exec (.partitionRestart part) s = .next (s.modTen t fun x => { x with resetReq := true, floorsHeld := true }) := by
  have hdue : (decide (part < 8) && s.awake && decide (s.boot.dev ≠ .limp)) = true := by simp [hpart, hawake, hdev]
  rw [exec, execPartitionRestart, hdue, due_true]
  simp only [partitionRestart, hbound, State.requestTenantReset]

/-- A write-only object of one byte that takes a 1. -/
def ObjRow.takesOne (r : ObjRow) (i sub : Nat) : Bool :=
  decide (r.acc = .wo) && decide (r.size = 1) && objRange r i sub 1

theorem rows_tenantReset : ∀ t, t < 8 → (objRow 0x3501 (t + 1)).any (·.takesOne 0x3501 (t + 1)) = true := by decide

/-- The reset object of a tenant (R238). -/
theorem row_tenantReset {t : Nat} (ht : t < 8) :
    ∃ r, objRow 0x3501 (t + 1) = some r ∧ r.acc = .wo ∧ r.size = 1 ∧ objRange r 0x3501 (t + 1) 1 = true := by
  have hrow := rows_tenantReset t ht
  cases hr : objRow 0x3501 (t + 1) with
  | none => simp [hr] at hrow
  | some r =>
    simp only [hr, Option.any_some, ObjRow.takesOne, Bool.and_eq_true, decide_eq_true_eq, and_assoc] at hrow
    exact ⟨r, rfl, hrow⟩

theorem State.mySession_of_endpoint {s : State} {via : Via} {x : Session} (h : s.net.session = some x)
    (hvia : x.endpoint = via) : (s.mySession via).isSome = true := by
  simp [State.mySession, h, hvia]

/-- The reset object is written by the endpoint of a session, and by whoever a view shows it to. -/
theorem tenantReset_written {s : State} {via : Via} {t : Nat} (ht : t < 8)
    (h : (s.mySession via).isSome = true ∨ viewSees s.channelTenant (s.viewOf via) (s.levelOf via).code 0x3501 (t + 1) = true) :
    s.accepted.writeObj via 0 0x3501 (t + 1) 1 1 0 = s.accepted.tenantReset via (t + 1) := by
  obtain ⟨r, hr, hacc, hsize, hrange⟩ := row_tenantReset ht
  have hshown : s.accepted.writeObj via 0 0x3501 (t + 1) 1 1 0 = s.accepted.writeShown via r 0x3501 (t + 1) 1 1 0 := by
    rcases h with hsession | hsees
    · obtain ⟨x, hx⟩ := Option.isSome_iff_exists.1 hsession
      have hx : s.accepted.mySession via = some x := hx
      simp [State.writeObj, State.keyOutside_other, hr, hx, hacc]
    · exact s.accepted.writeObj_shown via 0 0 (by decide) hr (by simp [hacc]) (viewLookup_of_row hr hsees)
  exact hshown.trans (s.accepted.writeShown_applied via 0 (by simp [supervisorOnly]) (.inr hacc) hsize.symm hrange)

section
variable {s : State} {via : Via} {t : Nat} (ht : t < 8) (hserved : s.served = true) (hup : s.up = true)
include ht hserved hup

/-- The tenant's own view and the endpoint of a session ask for the reset. -/
theorem tenantResetRequest_asks (h : (s.mySession via).isSome = true ∨ s.viewOf via = .tenant t) :
    exec (.tenantResetRequest via t 1) s =
      .next ((s.modTen t fun x => { x with resetReq := true, floorsHeld := true }).accepted.answer via 0 0 0) := by
  have hwritten := tenantReset_written ht (h.imp_right fun hview => by simp [hview, viewSees, debugNeed, tenantSees, bySub])
  have hmay : (s.accepted.mySession via).isSome = true ∨ s.accepted.viewOf via = .tenant (t + 1 - 1) := h
  have hasked : s.accepted.tenantReset via (t + 1) = (0, s.accepted.requestTenantReset t) := if_pos hmay
  exact congrArg _ (State.rowWrite_wrote hserved hup (hwritten.trans hasked))

/-- The supervisor asks for none but through a session or a partition's restart. -/
theorem tenantResetRequest_barred (hview : s.viewOf via = .supervisor) (hnone : (s.mySession via).isSome = false) :
    exec (.tenantResetRequest via t 1) s = .next (s.accepted.countAbort.answer via abView 0 0) := by
  have hwritten := tenantReset_written (s := s) (via := via) ht (.inr (by simp [hview, viewSees, debugNeed]))
  have hmay : ¬ ((s.accepted.mySession via).isSome = true ∨ s.accepted.viewOf via = .tenant (t + 1 - 1)) := by
    rw [State.accepted_mySession, hnone, show s.accepted.viewOf via = .supervisor from hview]
    simp
  have hbarred : s.accepted.tenantReset via (t + 1) = (abView, s.accepted) := if_neg hmay
  exact congrArg _ (State.rowWrite_aborted hserved hup (by decide) (hwritten.trans hbarred))

end

theorem resetsAreRequested : Claims.ResetsAreRequested := fun _ =>
  ⟨fun hstarted hticking => ⟨warmResetRequest_recorded hstarted hticking, coldResetRequest_recorded hstarted hticking⟩,
    fun _ _ hpart hawake hdev hbound => partitionRestart_asks hpart hawake hdev hbound,
    fun _ _ ht hserved hup => ⟨fun hview => tenantResetRequest_asks ht hserved hup (.inr hview),
      tenantResetRequest_barred ht hserved hup,
      fun _ hsession hvia => tenantResetRequest_asks ht hserved hup (.inl (State.mySession_of_endpoint hsession hvia))⟩⟩

/-- Settles O41: the slot operation that is due, and the senders that may ask for a reset. -/
theorem slotsAndResetRequests : Obligations.SlotsAndResetRequests := ⟨slotsSaveAndRestore, resetsAreRequested⟩

end Sys2Proof.Machine
end

section
/-!
DoorbellsAndRecords (R195, R207, R213): what a doorbell changes of its queue or its ring, and what becomes of a record.
-/

namespace Sys2Proof.Machine

open Sys2Proof

/-! ### What the device's own writes leave of tenants, and of a ring's lost records (R213, R246) -/

/-- A tenant but for its late failures. -/
def Tenant.unlate (x : Tenant) : Tenant := { x with lateFails := 0 }

/-- Which contexts have lost a record since their last one, and each tenant but for its late failures. -/
def State.losses (s : State) : (Nat → Bool) × (Nat → Tenant) := (fun c => (s.ctx c).lost, fun k => (s.ten k).unlate)

section
variable {s t : State}

theorem State.losses_of (hc : ∀ c, (t.ctx c).lost = (s.ctx c).lost) (ht : ∀ k, (t.ten k).unlate = (s.ten k).unlate) :
    t.losses = s.losses := Prod.ext (funext hc) (funext ht)

theorem lost_of_losses (h : t.losses = s.losses) (c : Nat) : (t.ctx c).lost = (s.ctx c).lost := congrFun (congrArg Prod.fst h) c

theorem tenant_of_losses (h : t.losses = s.losses) (k : Nat) : (t.ten k).unlate = (s.ten k).unlate :=
  congrFun (congrArg Prod.snd h) k

theorem OnlyLooked.losses (h : OnlyLooked s t) : t.losses = s.losses := by
  obtain ⟨⟨x, m, p, rfl⟩, hctx⟩ := h
  refine State.losses_of (fun d => ?_) fun _ => rfl
  obtain ⟨y, hy⟩ := hctx d
  rw [hy]

theorem DataOnly.losses (h : DataOnly s t) : t.losses = s.losses := by
  obtain ⟨⟨m, p, f, x, rfl⟩, -, -⟩ := h
  rfl

theorem State.modCtx_losses (c : Nat) (f : Ctx → Ctx) (hf : ∀ x, (f x).lost = x.lost) :
    (s.modCtx c f).losses = s.losses := by
  refine State.losses_of (fun d => ?_) fun _ => rfl
  by_cases hd : d = c
  · rw [hd, State.modCtx_same, hf]
  · rw [State.modCtx_ne _ _ hd]

theorem State.modTen_losses (k : Nat) (f : Tenant → Tenant) (hf : ∀ x, (f x).unlate = x.unlate) :
    (s.modTen k f).losses = s.losses := by
  refine State.losses_of (fun _ => rfl) fun j => ?_
  by_cases hj : j = k
  · rw [hj, State.modTen_same, hf]
  · rw [State.modTen_ne _ _ hj]

theorem State.modQueue_losses (s : State) (c q : Nat) (f : Queue → Queue) : (s.modQueue c q f).losses = s.losses :=
  State.modCtx_losses c _ fun _ => rfl

theorem State.lateFault_losses (c q cause : Nat) (ep : BitVec 16) (ca da : Nat) :
    (s.lateFault c q cause ep ca da).losses = s.losses := by
  have hlate : (s.lateRecord c q cause ep ca da).losses = s.losses := by
    refine (State.modTen_losses _ _ ?_).trans (State.modCtx_losses c _ ?_)
    all_goals exact fun _ => rfl
  unfold State.lateFault
  dsimp only
  generalize s.lateRecord c q cause ep ca da = u at hlate ⊢
  have hfences (l : List Fence) : (u.modCtx c fun x => { x with fences := l }).losses = s.losses :=
    (State.modCtx_losses c (fun x => { x with fences := l }) fun _ => rfl).trans hlate
  split
  · exact hfences _
  · exact (State.modQueue_losses _ c q _).trans (hfences _)

theorem State.wrOwn_losses (c q ca : Nat) (e : Target) (bs : List Byte) : (s.wrOwn c q ca e bs).losses = s.losses := by
  unfold State.wrOwn
  repeat' split
  · exact State.lateFault_losses _ _ _ _ _ _
  · exact (s.wr_dataOnly _ _).losses
  · exact (s.wrTarget_dataOnly _ _).losses

theorem State.wrCtx_losses (s : State) (c q a : Nat) (bs : List Byte) : (s.wrCtx c q a bs).losses = s.losses := by
  have htargets := s.writeTargets_looked c a bs
  unfold State.wrCtx
  split
  next l u heq =>
    exact (foldl_keeps State.losses l _ (fun _ e => State.wrOwn_losses c q e.1 e.2.1 e.2.2) u).trans
      (htargets.of_answer heq).losses
  next heq => exact (htargets.of_answer heq).losses

end

/-! ### A record in the ring (R213) -/

/-- A context with one record more in its ring, to be told to the queue of the record (R214). -/
def Ctx.recorded (q : Nat) (x : Ctx) : Ctx :=
  { x with ringWritten := x.ringWritten + 1, lost := false,
           toNotify := if q ∈ x.toNotify then x.toNotify else x.toNotify ++ [q] }

/-- A record goes into the ring: it is counted, and its bytes are a write of its context. -/
theorem State.putRec_ring (s : State) (r : Rec) :
    ((s.putRec r).ctx r.c).ringWritten = (s.ctx r.c).ringWritten + 1 ∧ ((s.putRec r).ctx r.c).hold = (s.ctx r.c).hold ∧
    ((s.putRec r).ctx r.c).lost = false := by
  have hctx : (s.modCtx r.c (Ctx.recorded r.q)).ctx r.c = (s.ctx r.c).recorded r.q := s.modCtx_same r.c _
  have hrecords : (s.putRec r).records r.c = (s.modCtx r.c (Ctx.recorded r.q)).records r.c :=
    congrFun (State.wrCtx_records _ _ _ _ _) r.c
  have hlosses : (s.putRec r).losses = (s.modCtx r.c (Ctx.recorded r.q)).losses := State.wrCtx_losses _ _ _ _ _
  have hlost := lost_of_losses hlosses r.c
  rw [hctx] at hlost
  simp only [State.records, hctx, Prod.mk.injEq] at hrecords
  obtain ⟨hwritten, hhold⟩ := hrecords
  exact ⟨hwritten, hhold, hlost⟩

theorem State.putRec_tenant (s : State) (r : Rec) (k : Nat) : ((s.putRec r).ten k).unlate = (s.ten k).unlate :=
  tenant_of_losses (State.wrCtx_losses _ _ _ _ _) k

/-- A record that is not droppable counts nothing of its tenant but the late failure its write may meet. -/
theorem State.post_tenant (s : State) {r : Rec} (hkind : droppable r.kind = false) (k : Nat) :
    ((s.post r).ten k).unlate = (s.ten k).unlate := by
  unfold State.post
  dsimp only
  rw [if_neg (by simp [hkind] : ¬ droppable r.kind = true)]
  repeat' split
  · rfl
  · exact State.putRec_tenant _ _ _
  · rfl

/-- A droppable record that finds only the reserved slots. -/
theorem State.post_dropped {s : State} {r : Rec} (hstate : (s.ctx r.c).state ≠ .free) (hkind : droppable r.kind = true)
    (hfull : (s.ctx r.c).ringSize ≤ (s.ctx r.c).used + (s.ctx r.c).hold.length + Config.ringReserve) :
    s.post r = (s.modCtx r.c fun x => { x with lost := true }).modTen (s.ctx r.c).tenant fun x =>
      { x with dropped := satInc 32 x.dropped } := by
  simp [State.post, hstate, hkind, hfull]

theorem recordsAreNotLost : Claims.RecordsAreNotLost := by
  intro s r hstate
  refine ⟨fun hkind => ⟨s.post_count hstate hkind, fun k => (congrArg Tenant.dropped (s.post_tenant hkind k) :)⟩,
    fun hkind hfull => ?_, fun c hc => ctx_of_standing (s.post_standing r) hc⟩
  rw [State.post_dropped hstate hkind hfull]
  have hctx (u : State) (k : Nat) (f : Tenant → Tenant) : (u.modTen k f).ctx r.c = u.ctx r.c := rfl
  rw [hctx, State.modCtx_same, State.modTen_same]
  exact ⟨rfl, rfl, rfl, rfl⟩

theorem ringRead_of_unrecorded {s t : State} {c : Nat} (h : t.unrecorded c = s.unrecorded c) :
    (t.ctx c).ringRead = (s.ctx c).ringRead := (congrArg Ctx.ringRead h :)

/-- What stays beside the ring when a record goes into it. -/
theorem State.putRec_leaves (s : State) (r : Rec) :
    let t := s.putRec r
    (t.ctx r.c).ringRead = (s.ctx r.c).ringRead ∧
    (∀ j, (t.queue r.c j).head = (s.queue r.c j).head ∧ (t.queue r.c j).tail = (s.queue r.c j).tail ∧
      (t.queue r.c j).run = (s.queue r.c j).run ∧ (t.queue r.c j).prm = (s.queue r.c j).prm) ∧
    (∀ d, d ≠ r.c → t.ctx d = s.ctx d) ∧ SameSystem s t := by
  have hstanding := s.putRec_standing r
  refine ⟨ringRead_of_unrecorded (congrFun (s.putRec_unrecorded r) r.c), fun j => ?_,
    fun d hd => ctx_of_standing hstanding hd, (s.putRec_recordsOnly r).system⟩
  obtain ⟨hrun, hhead, htail, -, hprm, -⟩ := entry_of_standing hstanding j
  exact ⟨hhead, htail, hrun, hprm⟩

theorem heldRecordsFollow : Claims.HeldRecordsFollow := by
  rintro s c r rest hstate hroom hhold rfl
  have hready : heldReady s r.c = true := by simp [heldReady, hhold, hroom, hstate]
  have heffect : heldEffect s r.c = (s.modCtx r.c fun x => { x with hold := rest }).putRec r := by
    simp only [heldEffect, hhold]
  have hctx : (s.modCtx r.c fun x => { x with hold := rest }).ctx r.c = { s.ctx r.c with hold := rest } :=
    s.modCtx_same r.c _
  have hqueue (j : Nat) : (s.modCtx r.c fun x => { x with hold := rest }).queue r.c j = s.queue r.c j := by
    rw [State.queue, hctx]
    rfl
  have hothers (d : Nat) (hd : d ≠ r.c) : (s.modCtx r.c fun x => { x with hold := rest }).ctx d = s.ctx d := s.modCtx_ne _ hd
  have hsys := s.modCtx_system r.c fun x => { x with hold := rest }
  refine answers_due rfl hready ?_
  rw [heffect]
  generalize (s.modCtx r.c fun x => { x with hold := rest }) = u at hctx hqueue hothers hsys ⊢
  obtain ⟨hwritten, hrest, hlost⟩ := u.putRec_ring r
  obtain ⟨hread, hentry, hputOthers, hputSys⟩ := u.putRec_leaves r
  rw [hctx] at hwritten hrest hread
  simp only [hqueue] at hentry
  exact ⟨hrest, hwritten, hlost, hread, hentry, fun d hd => (hputOthers d hd).trans (hothers d hd), hsys.trans hputSys⟩

/-! ### The check of a head entry again (R210) -/

section
variable {c q : Nat} {s : State}

theorem State.readPiece_ctxs (s : State) (c : Nat) (ecc : Found) (t : Target) (n : Nat) :
    (s.readPiece c ecc t n).2.ctxs = s.ctxs := by
  have hfound (a : Nat) : (s.findErrors ecc a n).ctxs = s.ctxs := by
    refine foldl_keeps State.ctxs _ _ (fun u e => ?_) s
    obtain ⟨m, p, hform⟩ := u.findOne_counts e
    rw [hform]
  unfold State.readPiece
  dsimp only
  repeat' split
  · exact hfound _
  · exact hfound _
  · exact hfound _
  · rfl
  · rfl

theorem State.readCtx_standing (ecc : Found) (a n : Nat) : (s.readCtx c ecc a n).2.standing c q = s.standing c q := by
  unfold State.readCtx
  refine fold_holds (fun r : Except (Status × Nat) (List Byte) × State => r.2.standing c q = s.standing c q)
    _ _ _ rfl fun r pc _ hr => ?_
  obtain ⟨r, u⟩ := r
  cases r with
  | error e => exact hr
  | ok bs =>
    have ht : (u.translate c pc.1 false).2.standing c q = u.standing c q := State.translate_standing _ _
    dsimp only
    split
    next heq => exact (heq ▸ ht).trans hr
    next t v heq =>
      have hp : (v.readPiece c ecc t pc.2).2.standing c q = v.standing c q := State.standing_of_ctxs (v.readPiece_ctxs c ecc t pc.2)
      have hv : v.standing c q = s.standing c q := (heq ▸ ht).trans hr
      split <;> next heq' => exact (heq' ▸ hp).trans hv

theorem State.checkHead_standing : (s.checkHead c q).2.standing c q = s.standing c q := by
  unfold State.checkHead
  grind [State.readCtx_standing]

end

/-! ### A doorbell to a queue (R207) -/

/-- Work of a doorbell on queue q of context c: its tail stands at `i`; its head, the other queues and contexts, each tenant but
for its late failures, and the system stay. -/
structure Rung (c q : Nat) (i : BitVec 16) (s t : State) : Prop where
  tail : (t.queue c q).tail = i
  head : (t.queue c q).head = (s.queue c q).head
  queues : ∀ j, j ≠ q → t.queue c j = s.queue c j
  others : ∀ d, d ≠ c → t.ctx d = s.ctx d
  tenants : ∀ k, (t.ten k).unlate = (s.ten k).unlate
  system : SameSystem s t

section
variable {c q : Nat} {i j : BitVec 16} {s t u : State}

theorem Rung.trans (h : Rung c q i s t) (h' : Rung c q j t u) : Rung c q j s u :=
  ⟨h'.tail, h'.head.trans h.head, fun k hk => (h'.queues k hk).trans (h.queues k hk),
    fun d hd => (h'.others d hd).trans (h.others d hd), fun k => (h'.tenants k).trans (h.tenants k), h.system.trans h'.system⟩

theorem Rung.ignored (h : Rung c q i s t) (k : Nat) : (t.ten k).ignored = (s.ten k).ignored :=
  (congrArg Tenant.ignored (h.tenants k) :)

/-- What keeps the entry of its queue and the tenants is such work. -/
theorem Rung.of_standing (hi : (s.queue c q).tail = i) (h : t.standing c q = s.standing c q)
    (ht : ∀ k, (t.ten k).unlate = (s.ten k).unlate) (hsys : SameSystem s t) : Rung c q i s t := by
  obtain ⟨-, hhead, htail, -⟩ := entry_of_standing h q
  exact ⟨htail.trans hi, hhead, fun j hj => queue_ne_of_standing h hj, fun d hd => ctx_of_standing h hd, ht, hsys⟩

theorem State.modQueue_rung (f : Queue → Queue) (hi : (f (s.queue c q)).tail = i)
    (hf : (f (s.queue c q)).head = (s.queue c q).head) : Rung c q i s (s.modQueue c q f) where
  tail := by rw [State.modQueue_same, hi]
  head := by rw [State.modQueue_same, hf]
  queues _ hj := s.modQueue_queue_ne c f hj
  others _ hd := s.modCtx_ne _ hd
  tenants _ := rfl
  system := s.modCtx_system c _

theorem State.post_rung {r : Rec} (hq : q < 15) (hi : (s.queue c q).tail = i) (hc : r.c = c) (hrq : r.q = q)
    (hkind : droppable r.kind = false) : Rung c q i s (s.post r) := by
  subst hc
  have hstanding := s.post_standing r
  rw [hrq, Nat.mod_eq_of_lt hq] at hstanding
  exact .of_standing hi hstanding (s.post_tenant hkind) (s.post_recordsOnly r).system

theorem State.recheck_rung (hq : q < 15) (hi : (s.queue c q).tail = i) : Rung c q i s (s.recheck c q) := by
  have hlooked := s.checkHead_looked c q
  have hstanding : (s.checkHead c q).2.standing c q = s.standing c q := State.checkHead_standing
  unfold State.recheck
  split
  · exact .of_standing hi rfl (fun _ => rfl) (SameSystem.refl s)
  have hchecked (u : State) (hu : (s.checkHead c q).2 = u) : Rung c q i s u :=
    hu ▸ .of_standing hi hstanding (tenant_of_losses hlooked.losses) hlooked.system
  split
  next reason u heq =>
    have hrung := hchecked u (by rw [heq])
    refine hrung.trans (State.post_rung hq hrung.tail ?_ ?_ ?_)
    all_goals rfl
  next u heq =>
    have hrung := hchecked u (by rw [heq])
    exact hrung.trans (State.modQueue_rung _ hrung.tail rfl)

/-- R198, R199: the accepted doorbell of an ADMITTED context also asks for a slot. -/
theorem State.ring_rung (hq : q < 15) : Rung c q i s (s.ring c q i) := by
  have hmoved : Rung c q i s (s.modQueue c q fun x => { x with tail := i }) := State.modQueue_rung _ rfl rfl
  have hrung := hmoved.trans (State.recheck_rung hq hmoved.tail)
  unfold State.ring
  dsimp only
  generalize (s.modQueue c q fun x => { x with tail := i }).recheck c q = u at hrung ⊢
  split
  · obtain ⟨l, hasked⟩ := u.askRestore_form (decide (4 ≤ q)) c
    rw [hasked]
    exact ⟨hrung.tail, hrung.head, hrung.queues, hrung.others, hrung.tenants, hrung.system.trans (by constructor <;> rfl)⟩
  · exact hrung

end

/-! ### The doorbells -/

/-- A doorbell that is not heard is counted for its sender (R195). -/
theorem State.ignored_only (s : State) (k : Nat) :
    OnlyTenant k s (s.ignored k) ∧ (s.ignored k).ten k = { s.ten k with ignored := satInc 32 (s.ten k).ignored } :=
  ⟨⟨_, rfl⟩, s.modTen_same k _⟩

section
variable {s : State} {via : Via} {w : BitVec 64} {k : Nat} (hsender : s.bellSender via = some k)
include hsender

theorem doorbellQueue_heard (hq : bellTarget w < 8) (hopen : s.bellOpen k w = true)
    (htakes : (s.queue (bellCtx w) (bellTarget w)).takes (2 ^ (s.ctx (bellCtx w)).qlog (bellTarget w)) (bellIndex w) = true) :
    doorbellQueue s via w = s.ring (bellCtx w) (bellTarget w) (bellIndex w) := by
  simp [doorbellQueue, hsender, hq, hopen, htakes]

theorem doorbellQueue_ignored (h : 8 < bellTarget w ∨ s.bellOpen k w = false ∨
    (s.queue (bellCtx w) (bellTarget w)).takes (2 ^ (s.ctx (bellCtx w)).qlog (bellTarget w)) (bellIndex w) = false) :
    doorbellQueue s via w = s.ignored k := by
  have hclosed : (s.bellOpen k w && decide (bellTarget w < 8) &&
      (s.queue (bellCtx w) (bellTarget w)).takes (2 ^ (s.ctx (bellCtx w)).qlog (bellTarget w)) (bellIndex w)) = false := by
    rcases h with hq | hshut | htakes
    · simp [Nat.lt_asymm hq]
    · simp [hshut]
    · simp [htakes]
  simp [doorbellQueue, hsender, hclosed]

theorem doorbellConsumer_heard {n : Nat} (hn : (bellIndex w - BitVec.ofNat 16 (s.ctx (bellCtx w)).ringRead).toNat = n)
    (hopen : s.bellOpen k w = true) (hused : n ≤ (s.ctx (bellCtx w)).used) :
    doorbellConsumer s via w = s.modCtx (bellCtx w) fun x => { x with ringRead := x.ringRead + n } := by
  simp [doorbellConsumer, hsender, hopen, hn, hused]

theorem doorbellConsumer_ignored {n : Nat} (hn : (bellIndex w - BitVec.ofNat 16 (s.ctx (bellCtx w)).ringRead).toNat = n)
    (h : s.bellOpen k w = false ∨ (s.ctx (bellCtx w)).used < n) : doorbellConsumer s via w = s.ignored k := by
  have hclosed : (s.bellOpen k w && decide (n ≤ (s.ctx (bellCtx w)).used)) = false := by
    rcases h with hshut | hpast
    · simp [hshut]
    · simp [hpast]
  simp [doorbellConsumer, hsender, hn, hclosed]

end

theorem doorbells : Claims.Doorbells := by
  intro s via w k hsender c q n
  refine ⟨fun hq hopen htakes => ?_, fun hq h => ?_, fun hq hopen hused => ?_, fun hq h => ?_⟩
  · refine answers_due rfl (decide_eq_true (by omega)) ?_
    rw [doorbellQueue_heard hsender hq hopen htakes]
    have hrung : Rung c q (bellIndex w) s (s.ring c q (bellIndex w)) := State.ring_rung (by omega)
    exact ⟨hrung.tail, hrung.head, hrung.queues, hrung.others, hrung.ignored k, hrung.system⟩
  · refine answers_due rfl (decide_eq_true hq) ?_
    rw [doorbellQueue_ignored hsender h]
    exact s.ignored_only k
  · refine answers_due rfl (decide_eq_true hq) ?_
    rw [doorbellConsumer_heard hsender rfl hopen hused]
    exact ⟨⟨_, rfl⟩, s.modCtx_same c _⟩
  · refine answers_due rfl (decide_eq_true hq) ?_
    rw [doorbellConsumer_ignored hsender rfl h]
    exact s.ignored_only k

/-- Settles O16: doorbells heard and ignored, held records in order, and records that are not lost. -/
theorem doorbellsAndRecords : Obligations.DoorbellsAndRecords := ⟨doorbells, heldRecordsFollow, recordsAreNotLost⟩

end Sys2Proof.Machine
end

section
/-!
KeepCompareAndSwap (R216, R217): what a host's compare-and-swap on the keep table does where it matches, and where it does not.
-/

namespace Sys2Proof.Machine

open Sys2Proof

/-! ### The count of a context (R219) -/

/-- A context whose count was written, by the device or by the host: at 0 it ends, and the writer owns its teardown. -/
def Ctx.counted (n : BitVec 32) (device : Bool) (x : Ctx) : Ctx :=
  if n = 0 then { x with count := 0, dying := true, state := .ending, deviceOwns := device,
                         teardownDue := device || x.teardownDue }
  else { x with count := n }

theorem State.setCount_eq (s : State) (c : Nat) (n : BitVec 32) (device : Bool) :
    s.setCount c n device = s.modCtx c (Ctx.counted n device) := rfl

theorem Ctx.counted_some {n : BitVec 32} (hn : n ≠ 0) (device : Bool) (x : Ctx) :
    x.counted n device = { x with count := n } := if_neg hn

theorem Ctx.counted_zero (device : Bool) (x : Ctx) : x.counted 0 device =
    { x with count := 0, dying := true, state := .ending, deviceOwns := device, teardownDue := device || x.teardownDue } :=
  if_pos rfl

/-- A context changed and a request answered. -/
theorem State.modCtx_answer (s : State) (c : Nat) (f : Ctx → Ctx) (via : Via) (abort len v : Nat) :
    let t := (s.modCtx c f).answer via abort len v
    t.ctx c = f (s.ctx c) ∧ (∀ d, d ≠ c → t.ctx d = s.ctx d) ∧ t.out = s.out ++ [.reply via abort len v] ∧
    t.mem = s.mem ∧ SameSystem s t :=
  ⟨s.modCtx_same c f, fun _ hd => s.modCtx_ne f hd, rfl, rfl, by constructor <;> rfl⟩

/-! ### The compare (R216, R217) -/

section
variable {s : State} {via : Via} {c k : Nat} {cmp : BitVec 64} (new : BitVec 64)

/-- An entry that matches is the tenant's own, and of the generation that the compare names. -/
theorem State.keepMatch_entry (h : s.keepMatch k c cmp = true) :
    s.keepRead k c = (s.ctx c).keep ∧ s.keepStale k c (fld cmp 47 32) = false := by
  simp only [State.keepMatch, Bool.and_eq_true, decide_eq_true_eq] at h
  obtain ⟨⟨⟨htenant, -⟩, hkeep⟩, -⟩ := h
  have hread : s.keepRead k c = (s.ctx c).keep := if_pos htenant
  exact ⟨hread, by rw [State.keepStale, hread, hkeep]; simp⟩

variable (hsender : s.bellSender via = some k)
include hsender

theorem keepCas_matched (h : s.keepMatch k c cmp = true) :
    keepCas s via c cmp new = (s.modCtx c (Ctx.counted (new.setWidth 32) false)).answer via 0 8 (s.ctx c).keep.toNat := by
  obtain ⟨hread, hstale⟩ := State.keepMatch_entry h
  simp [keepCas, hsender, hread, hstale, h, State.setCount_eq]

/-- A compare that fails may still be one of a stale generation, which is counted (R195). -/
theorem keepCas_unmatched (h : s.keepMatch k c cmp = false) :
    keepCas s via c cmp new =
      (if s.keepStale k c (fld cmp 47 32) then s.ignored k else s).answer via 0 8 (s.keepRead k c).toNat := by
  have hcounted : (if s.keepStale k c (fld cmp 47 32) then s.ignored k else s).keepMatch k c cmp = false := by
    split <;> exact h
  simp [keepCas, hsender, hcounted]

end

theorem State.keepRead_toNat (s : State) (k c : Nat) :
    (s.keepRead k c).toNat = if (s.ctx c).tenant = k then (s.ctx c).keep.toNat else 0 := by
  unfold State.keepRead
  split <;> rfl

/-- Settles O18: a compare that matches sets the count or ends the context, one that fails changes no context. -/
theorem keepCompareAndSwap : Obligations.KeepCompareAndSwap := by
  intro s via c k cmp new hc hsender
  refine ⟨fun hmatch hn => ?_, fun hmatch hn => ?_, fun hmatch => ?_⟩
  · refine answers_due rfl (decide_eq_true hc) ?_
    rw [keepCas_matched new hsender hmatch]
    obtain ⟨hself, hothers, hout, hmem, hsys⟩ :=
      s.modCtx_answer c (Ctx.counted (new.setWidth 32) false) via 0 8 (s.ctx c).keep.toNat
    exact ⟨hself.trans (Ctx.counted_some hn false _), hothers, hout, hmem, hsys⟩
  · refine answers_due rfl (decide_eq_true hc) ?_
    rw [keepCas_matched new hsender hmatch, hn]
    obtain ⟨hself, hothers, -, -, hsys⟩ := s.modCtx_answer c (Ctx.counted 0 false) via 0 8 (s.ctx c).keep.toNat
    rw [hself, Ctx.counted_zero]
    exact ⟨rfl, rfl, rfl, rfl, hothers, hsys⟩
  · refine answers_due rfl (decide_eq_true hc) ?_
    rw [keepCas_unmatched new hsender hmatch, State.keepRead_toNat]
    split <;> exact ⟨rfl, rfl, rfl⟩

end Sys2Proof.Machine
end

section
/-!
ContextsAndTheirCommands (R195, R196, R216, R217, R219, R237, R249): CREATE, and the commands that wait for GUARD on an existing
context.
-/

namespace Sys2Proof.Machine

open Sys2Proof

/-! ### Fields of a widened word -/

theorem fld_setWidth {n m : Nat} (h : n ≤ m) (w : BitVec n) (hi lo : Nat) : fld (w.setWidth m) hi lo = fld w hi lo := by
  rw [fld, fld, BitVec.toNat_setWidth_of_le h]

/-- Above its own bits a widened word holds 0. -/
theorem fld_setWidth_above {n m lo : Nat} (h : n ≤ m) (hlo : n ≤ lo) (w : BitVec n) (hi : Nat) :
    fld (w.setWidth m) hi lo = 0 := by
  have hlt : w.toNat < 2 ^ lo := w.isLt.trans_le (Nat.pow_le_pow_right (by decide) hlo)
  rw [fld_setWidth h, fld, Nat.shiftRight_eq_div_pow, Nat.div_eq_of_lt hlt, Nat.zero_mod]

theorem fld_byte (w : BitVec 8) : fld w 7 0 = w.toNat := by
  simpa [fld] using Nat.mod_eq_of_lt w.isLt

/-! ### A command's answer (Table 11-12) -/

section
variable {s t : State} {via : Via} {h : BitVec 128} {body : BitVec 1024} {cmd : Nat}

/-- A command that is refused changes nothing but the counts of transfers and aborts. -/
theorem commandRow_refused {a : Nat} (hcmd : hdrCmd h = cmd) (ha : a ≠ 0)
    (hrefused : contextCommand s.accepted via h body = (a, s.accepted)) :
    commandRow s cmd via h body = .next (s.accepted.countAbort.answer via a 0 0) := by
  simp [commandRow, hcmd, hrefused, State.respond, ha]

/-- A command that is taken is answered after its change; CREATE alone answers a value. -/
theorem commandRow_taken (hcmd : hdrCmd h = cmd) (hne : cmd ≠ 1)
    (htaken : contextCommand s.accepted via h body = (0, t)) : commandRow s cmd via h body = .next (t.answer via 0 0 0) := by
  simp [commandRow, hcmd, hne, htaken, State.respond]

theorem commandRow_created (hcmd : hdrCmd h = 1) (htaken : contextCommand s.accepted via h body = (0, t)) :
    commandRow s 1 via h body = .next (t.answer via 0 4 (t.viewSel (t.viewOf via)).created.toNat) := by
  simp [commandRow, hcmd, htaken, State.respond]

end

/-! ### CREATE (R195, R196, R216, R226, R237) -/

/-- The context that CREATE makes of a record. -/
def Ctx.ofRecord (via : Via) (t : Nat) (r : BitVec 1024) (gen : BitVec 16) (copy : Nat) : Ctx :=
  { record := r, via := via, tenant := t, state := .created, gen := gen, count := 1, copy := copy, admitDue := bit r 181 }

section
variable {s : State} {via : Via} {h : BitVec 128} {r : BitVec 1024} {t copy c : Nat}

theorem createCtx_reserved (hreserved : recordReserved r = true) : createCtx s via t r = (abReserved, s) := if_pos hreserved

theorem createCtx_made (hreserved : recordReserved r = false)
    (hok : recordOk { record := r, via := via, tenant := t } = true)
    (hvec : ∀ q : Nat, q < 9 → Ctx.qvec { record := r, via := via, tenant := t } q < State.vecLimit via)
    (hcopy : s.copyFor t (Ctx.bundleId { record := r, via := via, tenant := t }) = some copy)
    (hroom : s.ctxCount t < s.share t 0x16) (hfree : s.freeCtx = some c) :
    createCtx s via t r = (0, (s.setCtx c (Ctx.ofRecord via t r ((s.ctx c).gen + 1) copy)).modView (.tenant t) fun v =>
      { v with created := BitVec.ofNat 32 (c + ((s.ctx c).gen + 1).toNat * 2 ^ 16) }) := by
  have hall : (List.range 9).all (fun q =>
      decide (Ctx.qvec { record := r, via := via, tenant := t } q < State.vecLimit via)) = true :=
    List.all_eq_true.2 fun q hq => decide_eq_true (hvec q (List.mem_range.1 hq))
  simp only [createCtx, hreserved, hok, hall, hcopy, hfree, Nat.not_le.2 hroom, Bool.not_true, Bool.false_eq_true, if_false]
  rfl

/-- A sender of a tenant's view, its header in order. -/
theorem contextCommand_create (hview : s.viewOf via = .tenant t) (hawake : s.awake = true) (hcmd : hdrCmd h = 1)
    (hres : hdrReserved h = false) : contextCommand s via h r = createCtx s via t r := by
  simp [contextCommand, hview, hawake, hcmd, hres]

/-- Number and generation of a context fill the word that shows them. -/
theorem createdWord_toNat {c : Nat} (hc : c < 4096) (gen : BitVec 16) :
    (BitVec.ofNat 32 (c + gen.toNat * 2 ^ 16)).toNat = c + gen.toNat * 2 ^ 16 := by
  have hgen := gen.isLt
  rw [BitVec.toNat_ofNat, Nat.mod_eq_of_lt (by omega)]

theorem State.freeCtx_lt (hfree : s.freeCtx = some c) : c < 4096 := by
  unfold State.freeCtx at hfree
  exact List.mem_range.1 (List.mem_of_find?_eq_some hfree)

end

theorem contextsAreCreated : Claims.ContextsAreCreated := by
  intro s via h r t copy c hview hawake hcmd hres x gen word
  have hcreate : contextCommand s.accepted via h r = createCtx s.accepted via t r :=
    contextCommand_create hview hawake hcmd hres
  refine ⟨fun hreserved => ?_, fun hreserved hok hvec hcopy hroom hfree => ?_⟩
  · exact commandRow_refused hcmd (by decide) (hcreate.trans (createCtx_reserved hreserved))
  · have hmade := hcreate.trans (createCtx_made (s := s.accepted) hreserved hok hvec hcopy hroom hfree)
    refine (commandRow_created hcmd hmade).trans ?_
    generalize hu : (s.accepted.setCtx c _).modView (.tenant t) _ = u
    have huview : u.viewOf via = .tenant t := by
      rw [← hu]
      exact hview
    have hshown : (u.viewSel (.tenant t)).created.toNat = word := by
      rw [← hu, State.viewSel, State.modView]
      simp only [State.modNet, tget_tmod_same]
      exact createdWord_toNat (State.freeCtx_lt hfree) gen
    rw [huview, hshown, ← hu]
    rfl

/-! ### A context that the command does not reach (R195) -/

/-- A command on an existing context by a sender of tenant t: its code, and its header in order. -/
structure TenantCommand (s : State) (via : Via) (h : BitVec 128) (t cmd : Nat) : Prop where
  view : s.viewOf via = .tenant t
  awake : s.awake = true
  reserved : hdrReserved h = false
  code : hdrCmd h = cmd
  low : 2 ≤ cmd
  high : cmd ≤ 7

section
variable {s : State} {via : Via} {h : BitVec 128} {body : BitVec 1024} {t cmd : Nat}

theorem TenantCommand.accepted (hc : TenantCommand s via h t cmd) : TenantCommand s.accepted via h t cmd :=
  ⟨hc.view, hc.awake, hc.reserved, hc.code, hc.low, hc.high⟩

theorem TenantCommand.ne_create (hc : TenantCommand s via h t cmd) : cmd ≠ 1 := by
  have hlow := hc.low
  omega

theorem contextCommand_existing (hc : TenantCommand s via h t cmd) : contextCommand s via h body =
    if (s.ctx (hdrCtx h)).state ≠ .free ∧ (s.ctx (hdrCtx h)).tenant ≠ t then (abForeign, s)
    else if (s.ctx (hdrCtx h)).state = .free ∨ (s.ctx (hdrCtx h)).gen ≠ hdrGen h then (0, s.ignored t)
    else ctxChange s (hdrCtx h) cmd body := by
  have hcreate := hc.ne_create
  obtain ⟨hview, hawake, hres, hcode, hlow, hhigh⟩ := hc
  have hrange : ¬ (cmd = 0 ∨ 7 < cmd) := by omega
  simp [contextCommand, hview, hawake, hres, hcode, hrange, hcreate]

theorem commandRow_foreign (hc : TenantCommand s via h t cmd) (hstate : (s.ctx (hdrCtx h)).state ≠ .free)
    (htenant : (s.ctx (hdrCtx h)).tenant ≠ t) :
    commandRow s cmd via h body = .next (s.accepted.countAbort.answer via abForeign 0 0) :=
  commandRow_refused hc.code (by decide) ((contextCommand_existing hc.accepted).trans (if_pos ⟨hstate, htenant⟩))

theorem commandRow_stale (hc : TenantCommand s via h t cmd) (hstale : (s.ctx (hdrCtx h)).state = .free ∨
    ((s.ctx (hdrCtx h)).tenant = t ∧ (s.ctx (hdrCtx h)).gen ≠ hdrGen h)) :
    commandRow s cmd via h body = .next ((s.ignored t).accepted.answer via 0 0 0) := by
  have hown : ¬ ((s.ctx (hdrCtx h)).state ≠ .free ∧ (s.ctx (hdrCtx h)).tenant ≠ t) := fun ⟨hstate, htenant⟩ =>
    hstale.elim hstate fun ⟨hsame, _⟩ => htenant hsame
  exact commandRow_taken hc.code hc.ne_create ((contextCommand_existing hc.accepted).trans
    ((if_neg hown).trans (if_pos (hstale.imp_right fun ⟨_, hgen⟩ => hgen))))

end

/-! ### A context of the sender and of this generation (Table 9-3) -/

/-- Such a command on a context of the tenant's own, alive and of the generation it names. -/
structure CurrentCommand (s : State) (via : Via) (h : BitVec 128) (t cmd : Nat) : Prop extends
    TenantCommand s via h t cmd where
  state : (s.ctx (hdrCtx h)).state ≠ .free
  tenant : (s.ctx (hdrCtx h)).tenant = t
  gen : (s.ctx (hdrCtx h)).gen = hdrGen h

section
variable {s : State} {via : Via} {h : BitVec 128} {body : BitVec 1024} {t cmd : Nat}

theorem contextCommand_current (hc : CurrentCommand s via h t cmd) :
    contextCommand s.accepted via h body = ctxChange s.accepted (hdrCtx h) cmd body := by
  have hown : ¬ ((s.ctx (hdrCtx h)).state ≠ .free ∧ (s.ctx (hdrCtx h)).tenant ≠ t) := fun ⟨_, htenant⟩ => htenant hc.tenant
  have hfresh : ¬ ((s.ctx (hdrCtx h)).state = .free ∨ (s.ctx (hdrCtx h)).gen ≠ hdrGen h) := fun hstale =>
    hstale.elim hc.state fun hgen => hgen hc.gen
  exact (contextCommand_existing hc.toTenantCommand.accepted).trans ((if_neg hown).trans (if_neg hfresh))

theorem commandRow_aborted {a : Nat} (hc : CurrentCommand s via h t cmd) (ha : a ≠ 0)
    (hchange : ctxChange s.accepted (hdrCtx h) cmd body = (a, s.accepted)) :
    commandRow s cmd via h body = .next (s.accepted.countAbort.answer via a 0 0) :=
  commandRow_refused hc.code ha ((contextCommand_current hc).trans hchange)

theorem commandRow_recorded {f : Ctx → Ctx} (hc : CurrentCommand s via h t cmd)
    (hchange : ctxChange s.accepted (hdrCtx h) cmd body = (0, s.accepted.modCtx (hdrCtx h) f)) :
    commandRow s cmd via h body = .next ((s.modCtx (hdrCtx h) f).accepted.answer via 0 0 0) :=
  commandRow_taken hc.code hc.ne_create ((contextCommand_current hc).trans hchange)

end

/-! ### What each command records (Tables 9-1, 9-3, 10-4) -/

section
variable {s : State} {c : Nat}

theorem ctxChange_barred {cmd : Nat} (body : BitVec 1024) (h : ctxAdmits (s.ctx c) cmd = false) :
    ctxChange s c cmd body = (abState, s) := by simp [ctxChange, h]

theorem ctxChange_admitCtx (h : ctxAdmits (s.ctx c) 2 = true) :
    ctxChange s c 2 0 = (0, s.modCtx c fun y => { y with admitDue := true }) := by simp [ctxChange, ctxSpare, h]

theorem ctxChange_invalidate (body : BitVec 96) (h : ctxAdmits (s.ctx c) 3 = true) (hlow : fld body 15 0 = 0)
    (hhigh : fld body 63 48 = 0) : ctxChange s c 3 (body.setWidth 1024) = (0, s.modCtx c fun y =>
      { y with invalidates := y.invalidates ++ [(fld body 63 16 * 65536, fld body 95 64)] }) := by
  have hfld (hi lo : Nat) : fld (body.setWidth 1024) hi lo = fld body hi lo := fld_setWidth (by decide) body hi lo
  have habove : fld body 1023 96 = 0 := by rw [← hfld, fld_setWidth_above (by decide) (by decide)]
  simp [ctxChange, ctxSpare, h, hfld, hlow, hhigh, habove]

theorem ctxChange_releasePlate (g : BitVec 8) (h : ctxAdmits (s.ctx c) 4 = true) (hg : g.toNat < 32)
    (howner : (s.plate g.toNat).owner = some c) : ctxChange s c 4 (g.setWidth 1024) = (0, s.modCtx c fun y =>
      { y with plateReleases := y.plateReleases ++ [g.toNat] }) := by
  have hbyte : fld (g.setWidth 1024) 7 0 = g.toNat := (fld_setWidth (by decide) g 7 0).trans (fld_byte g)
  have habove : fld (g.setWidth 1024) 1023 8 = 0 := fld_setWidth_above (by decide) (by decide) g 1023
  simp [ctxChange, ctxSpare, h, hbyte, habove, howner, Nat.not_le.2 hg]

theorem ctxChange_releasePlate_foreign (g : BitVec 8) (h : ctxAdmits (s.ctx c) 4 = true)
    (howner : (s.plate g.toNat).owner ≠ some c) : ctxChange s c 4 (g.setWidth 1024) = (abRange, s) := by
  have hbyte : fld (g.setWidth 1024) 7 0 = g.toNat := (fld_setWidth (by decide) g 7 0).trans (fld_byte g)
  have habove : fld (g.setWidth 1024) 1023 8 = 0 := fld_setWidth_above (by decide) (by decide) g 1023
  simp [ctxChange, ctxSpare, h, hbyte, habove, howner]

theorem ctxChange_teardown (h : ctxAdmits (s.ctx c) 5 = true) :
    ctxChange s c 5 0 = (0, s.modCtx c fun y => { y with teardownDue := true }) := by simp [ctxChange, ctxSpare, h]

theorem ctxChange_reset (h : ctxAdmits (s.ctx c) 6 = true) :
    ctxChange s c 6 0 = (0, s.modCtx c fun y => { y with resetDue := true }) := by simp [ctxChange, ctxSpare, h]

theorem ctxChange_ackLate (h : ctxAdmits (s.ctx c) 7 = true) :
    ctxChange s c 7 0 = (0, s.modCtx c fun y => { y with ackDue := true }) := by simp [ctxChange, ctxSpare, h]

end

/-! ### Which states take a command (R196, Table 9-3) -/

section
variable {x : Ctx}

theorem ctxAdmits_admitCtx : ctxAdmits x 2 = decide (x.state = .created) := by simp [ctxAdmits]

theorem ctxAdmits_invalidate (h : x.state ≠ .free) : ctxAdmits x 3 = decide (x.state ≠ .ending) := by
  cases hx : x.state
  case free => exact absurd hx h
  all_goals simp [ctxAdmits, hx]

theorem ctxAdmits_releasePlate : ctxAdmits x 4 = decide (x.state = .admitted) := by simp [ctxAdmits]

theorem ctxAdmits_teardown : ctxAdmits x 5 =
    decide (x.state = .created ∨ x.state = .admitted ∨ (x.state = .ending ∧ x.deviceOwns = false)) := by
  simp [ctxAdmits, Bool.or_assoc]

theorem ctxAdmits_reset : ctxAdmits x 6 = decide (x.state = .created ∨ x.state = .admitted) := by simp [ctxAdmits]

theorem ctxAdmits_ackLate : ctxAdmits x 7 = decide (x.state = .admitted) := by simp [ctxAdmits]

end

/-! ### The commands -/

section
variable {s : State} {via : Via} {h : BitVec 128} {t : Nat}

/-- Elsewhere than in a state that admits it a command is aborted (R196). -/
theorem commandRow_barred {cmd : Nat} {body : BitVec 1024} (hc : CurrentCommand s via h t cmd)
    (hbarred : ctxAdmits (s.ctx (hdrCtx h)) cmd = false) :
    commandRow s cmd via h body = .next (s.accepted.countAbort.answer via abState 0 0) :=
  commandRow_aborted hc (by decide) (ctxChange_barred body hbarred)

theorem admitCtx_current (hc : CurrentCommand s via h t 2) :
    ((s.ctx (hdrCtx h)).state = .created → exec (.admitCtx via h) s =
      .next ((s.modCtx (hdrCtx h) fun y => { y with admitDue := true }).accepted.answer via 0 0 0)) ∧
    ((s.ctx (hdrCtx h)).state ≠ .created →
      exec (.admitCtx via h) s = .next (s.accepted.countAbort.answer via abState 0 0)) :=
  ⟨fun hx => commandRow_recorded hc (ctxChange_admitCtx (ctxAdmits_admitCtx.trans (decide_eq_true hx))),
    fun hx => commandRow_barred hc (ctxAdmits_admitCtx.trans (decide_eq_false hx))⟩

theorem invalidate_current (body : BitVec 96) (hc : CurrentCommand s via h t 3) :
    ((s.ctx (hdrCtx h)).state ≠ .ending → fld body 15 0 = 0 → fld body 63 48 = 0 → exec (.invalidate via h body) s =
      .next ((s.modCtx (hdrCtx h) fun y => { y with
        invalidates := y.invalidates ++ [(fld body 63 16 * 65536, fld body 95 64)] }).accepted.answer via 0 0 0)) ∧
    ((s.ctx (hdrCtx h)).state = .ending →
      exec (.invalidate via h body) s = .next (s.accepted.countAbort.answer via abState 0 0)) :=
  ⟨fun hx hspare hrange => commandRow_recorded hc
      (ctxChange_invalidate body ((ctxAdmits_invalidate hc.state).trans (decide_eq_true hx)) hspare hrange),
    fun hx => commandRow_barred hc ((ctxAdmits_invalidate hc.state).trans (decide_eq_false (not_not_intro hx)))⟩

theorem releasePlate_current (g : BitVec 8) (hc : CurrentCommand s via h t 4) :
    ((s.ctx (hdrCtx h)).state = .admitted → g.toNat < 32 → (s.plate g.toNat).owner = some (hdrCtx h) →
      exec (.releasePlate via h g) s = .next ((s.modCtx (hdrCtx h) fun y => { y with
        plateReleases := y.plateReleases ++ [g.toNat] }).accepted.answer via 0 0 0)) ∧
    ((s.ctx (hdrCtx h)).state = .admitted → (s.plate g.toNat).owner ≠ some (hdrCtx h) →
      exec (.releasePlate via h g) s = .next (s.accepted.countAbort.answer via abRange 0 0)) ∧
    ((s.ctx (hdrCtx h)).state ≠ .admitted →
      exec (.releasePlate via h g) s = .next (s.accepted.countAbort.answer via abState 0 0)) := by
  have hadmits := ctxAdmits_releasePlate (x := s.ctx (hdrCtx h))
  exact ⟨fun hx hg howner => commandRow_recorded hc (ctxChange_releasePlate g (hadmits.trans (decide_eq_true hx)) hg howner),
    fun hx howner => commandRow_aborted hc (by decide)
      (ctxChange_releasePlate_foreign g (hadmits.trans (decide_eq_true hx)) howner),
    fun hx => commandRow_barred hc (hadmits.trans (decide_eq_false hx))⟩

theorem teardown_current (hc : CurrentCommand s via h t 5) :
    ((s.ctx (hdrCtx h)).state = .created ∨ (s.ctx (hdrCtx h)).state = .admitted ∨
      ((s.ctx (hdrCtx h)).state = .ending ∧ (s.ctx (hdrCtx h)).deviceOwns = false) → exec (.teardown via h) s =
      .next ((s.modCtx (hdrCtx h) fun y => { y with teardownDue := true }).accepted.answer via 0 0 0)) ∧
    ((s.ctx (hdrCtx h)).state = .orphaned ∨ ((s.ctx (hdrCtx h)).state = .ending ∧ (s.ctx (hdrCtx h)).deviceOwns = true) →
      exec (.teardown via h) s = .next (s.accepted.countAbort.answer via abState 0 0)) := by
  refine ⟨fun hx => commandRow_recorded hc (ctxChange_teardown (ctxAdmits_teardown.trans (decide_eq_true hx))),
    fun hx => commandRow_barred hc (ctxAdmits_teardown.trans (decide_eq_false ?_))⟩
  rcases hx with hx | ⟨hx, howns⟩
  · simp [hx]
  · simp [hx, howns]

theorem contextReset_current (hc : CurrentCommand s via h t 6) :
    ((s.ctx (hdrCtx h)).state = .created ∨ (s.ctx (hdrCtx h)).state = .admitted → exec (.contextReset via h) s =
      .next ((s.modCtx (hdrCtx h) fun y => { y with resetDue := true }).accepted.answer via 0 0 0)) ∧
    ((s.ctx (hdrCtx h)).state = .orphaned ∨ (s.ctx (hdrCtx h)).state = .ending →
      exec (.contextReset via h) s = .next (s.accepted.countAbort.answer via abState 0 0)) := by
  refine ⟨fun hx => commandRow_recorded hc (ctxChange_reset (ctxAdmits_reset.trans (decide_eq_true hx))),
    fun hx => commandRow_barred hc (ctxAdmits_reset.trans (decide_eq_false ?_))⟩
  rcases hx with hx | hx <;> simp [hx]

theorem ackLate_current (hc : CurrentCommand s via h t 7) :
    ((s.ctx (hdrCtx h)).state = .admitted → exec (.ackLate via h) s =
      .next ((s.modCtx (hdrCtx h) fun y => { y with ackDue := true }).accepted.answer via 0 0 0)) ∧
    ((s.ctx (hdrCtx h)).state ≠ .admitted →
      exec (.ackLate via h) s = .next (s.accepted.countAbort.answer via abState 0 0)) :=
  ⟨fun hx => commandRow_recorded hc (ctxChange_ackLate (ctxAdmits_ackLate.trans (decide_eq_true hx))),
    fun hx => commandRow_barred hc (ctxAdmits_ackLate.trans (decide_eq_false hx))⟩

end

/-- The rows of the commands on an existing context are one command with the row's code and body. -/
theorem exec_commandRow {s : State} {via : Via} {h : BitVec 128} {body : BitVec 96} {g : BitVec 8} :
    ∀ e ∈ [(2, Instr.admitCtx via h), (3, .invalidate via h body), (4, .releasePlate via h g), (5, .teardown via h),
      (6, .contextReset via h), (7, .ackLate via h)],
    2 ≤ e.1 ∧ e.1 ≤ 7 ∧ ∃ b, exec e.2 s = commandRow s e.1 via h b := by
  simp only [List.forall_mem_cons]
  refine ⟨⟨by decide, by decide, _, rfl⟩, ⟨by decide, by decide, _, rfl⟩, ⟨by decide, by decide, _, rfl⟩,
    ⟨by decide, by decide, _, rfl⟩, ⟨by decide, by decide, _, rfl⟩, ⟨by decide, by decide, _, rfl⟩, ?_⟩
  exact fun _ hmem => absurd hmem List.not_mem_nil

theorem contextCommandsRecorded : Claims.ContextCommandsRecorded := by
  intro s via h body g t hview hawake hres c x ok no rows
  refine ⟨fun e he hcmd => ?_, fun hstate htenant hgen => ?_⟩
  · obtain ⟨hlow, hhigh, b, hexec⟩ := exec_commandRow (s := s) e he
    have hc : TenantCommand s via h t e.1 := ⟨hview, hawake, hres, hcmd, hlow, hhigh⟩
    rw [hexec]
    exact ⟨commandRow_foreign hc, commandRow_stale hc⟩
  · have hc {cmd : Nat} (hlow : 2 ≤ cmd) (hhigh : cmd ≤ 7) (hcmd : hdrCmd h = cmd) : CurrentCommand s via h t cmd :=
      ⟨⟨hview, hawake, hres, hcmd, hlow, hhigh⟩, hstate, htenant, hgen⟩
    exact ⟨fun hcmd => admitCtx_current (hc (by decide) (by decide) hcmd),
      fun hcmd => invalidate_current body (hc (by decide) (by decide) hcmd),
      fun hcmd => releasePlate_current g (hc (by decide) (by decide) hcmd),
      fun hcmd => teardown_current (hc (by decide) (by decide) hcmd),
      fun hcmd => contextReset_current (hc (by decide) (by decide) hcmd),
      fun hcmd => ackLate_current (hc (by decide) (by decide) hcmd)⟩

/-- Settles O40: a good record becomes the lowest FREE context, and each command waits for GUARD, is refused or is counted. -/
theorem contextsAndTheirCommands : Obligations.ContextsAndTheirCommands := ⟨contextsAreCreated, contextCommandsRecorded⟩

end Sys2Proof.Machine
end

section
/-!
NotificationPaths (R227, R228, R229, R250): the pending messages of a function, and the three commands of a notification. The
statement fails where a function is named by a number past those of a port: entry 16 of port 0 is entry 0 of port 1.
-/

namespace Sys2Proof.Machine

open Sys2Proof

/-! ### Pending messages (R227) -/

/-- What a configuration write makes of its function, before its messages go. -/
def configured (w : CfgWrite) (f : Func) : Func :=
  match w with
  | .entry e masked => { f with unmasked := tset false f.unmasked e (!masked) }
  | .control enable mask => { f with msixEnable := enable, msixMask := mask }
  | .relaxed on => { f with relaxedOrdering := on }

/-- Does the function send message `e`: pending, its entry unmasked, MSI-X enabled and neither masked nor under reset? -/
def Func.sends (f : Func) (e : Nat) : Bool :=
  tget false f.pendingBits e && (f.msixEnable && !f.msixMask && !f.blocked && tget false f.unmasked e)

/-- One pending message of a function goes out. -/
def State.sendPending (port func : Nat) (s : State) (e : Nat) : State :=
  (s.modFunc port func fun f => { f with pendingBits := tset false f.pendingBits e false }).send (.msix port func e)

theorem msixUnmask_eq (s : State) (port func : Nat) (w : CfgWrite) :
    msixUnmask s port func w = (s.modFunc port func (configured w)).msixPending port func := by
  cases w <;> rfl

theorem State.func_modFunc (s : State) (port func p k : Nat) (g : Func → Func) :
    (s.modFunc port func g).func p k = if 16 * p + k = 16 * port + func then g (s.func port func) else s.func p k := by
  simp only [State.func, State.modFunc, State.modNet, tmod, tget_tset]

section
variable (s : State) (port func : Nat)

theorem State.func_sendPending_ne (e : Nat) {p k : Nat} (h : 16 * p + k ≠ 16 * port + func) :
    (s.sendPending port func e).func p k = s.func p k :=
  (s.func_modFunc port func p k _).trans (if_neg h)

theorem State.func_sendPending (e : Nat) : (s.sendPending port func e).func port func =
    { s.func port func with pendingBits := tset false (s.func port func).pendingBits e false } :=
  s.modFunc_same port func _

theorem State.each_sendPending_out (l : List Nat) :
    (s.each l (State.sendPending port func)).out = s.out ++ l.map (.msix port func) := by
  induction l generalizing s with
  | nil => simp [State.each]
  | cons e l ih =>
    have hfirst : (s.sendPending port func e).out = s.out ++ [.msix port func e] := rfl
    have hrest := ih (s.sendPending port func e)
    rw [hfirst, List.append_assoc] at hrest
    exact hrest

theorem State.each_sendPending_pending (l : List Nat) (e : Nat) :
    tget false ((s.each l (State.sendPending port func)).func port func).pendingBits e =
      (tget false (s.func port func).pendingBits e && !decide (e ∈ l)) := by
  induction l generalizing s with
  | nil => simp [State.each]
  | cons k l ih =>
    refine (ih (s.sendPending port func k)).trans ?_
    rw [State.func_sendPending, tget_tset]
    by_cases hk : e = k <;> simp [hk]

/-- Of the function itself only pending bits change. -/
theorem State.each_sendPending_func (l : List Nat) :
    { (s.each l (State.sendPending port func)).func port func with pendingBits := [] } =
      { s.func port func with pendingBits := [] } :=
  s.each_keeps (fun t : State => { t.func port func with pendingBits := [] }) l _ fun u e => by
    rw [State.func_sendPending]

end

/-- What the sending of a function's pending messages does: those of `Func.sends` go out in order and are pending no more, and
nothing else changes. -/
structure MessagesSent (port func : Nat) (s t : State) : Prop where
  out : t.out = s.out ++ ((List.range 256).filter (s.func port func).sends).map (.msix port func)
  pending : ∀ e, e < 256 → tget false (t.func port func).pendingBits e =
    (tget false (s.func port func).pendingBits e && !(s.func port func).sends e)
  rest : { t.func port func with pendingBits := [] } = { s.func port func with pendingBits := [] }
  others : ∀ p k, 16 * p + k ≠ 16 * port + func → t.func p k = s.func p k
  mem : t.mem = s.mem
  tenants : t.tenants = s.tenants
  frame : t.frame = s.frame

theorem State.msixPending_barred {s : State} {port func : Nat}
    (h : ((s.func port func).blocked || !(s.func port func).msixEnable || (s.func port func).msixMask) = true) :
    s.msixPending port func = s ∧ ∀ e, (s.func port func).sends e = false := by
  refine ⟨if_pos h, fun e => ?_⟩
  simp only [Bool.or_eq_true, Bool.not_eq_true'] at h
  rcases h with (h | h) | h <;> simp [Func.sends, h]

theorem State.msixPending_open {s : State} {port func : Nat}
    (h : ((s.func port func).blocked || !(s.func port func).msixEnable || (s.func port func).msixMask) = false) :
    s.msixPending port func =
      s.each ((List.range 256).filter (s.func port func).sends) (State.sendPending port func) := by
  have hsends : (s.func port func).sends = fun e =>
      tget false (s.func port func).pendingBits e && tget false (s.func port func).unmasked e := by
    simp only [Bool.or_eq_false_iff, Bool.not_eq_false'] at h
    obtain ⟨⟨hblocked, henable⟩, hmask⟩ := h
    funext e
    simp [Func.sends, hblocked, henable, hmask]
  rw [hsends]
  exact if_neg (by simp [h])

theorem State.msixPending_sent (s : State) (port func : Nat) : MessagesSent port func s (s.msixPending port func) := by
  cases h : (s.func port func).blocked || !(s.func port func).msixEnable || (s.func port func).msixMask
  case true =>
    obtain ⟨hsame, hnone⟩ := State.msixPending_barred h
    rw [hsame]
    exact ⟨by simp [hnone], fun e _ => by simp [hnone], rfl, fun _ _ _ => rfl, rfl, rfl, rfl⟩
  case false =>
    rw [State.msixPending_open h]
    refine ⟨s.each_sendPending_out port func _, fun e he => ?_, s.each_sendPending_func port func _, fun p k hpk => ?_,
      s.each_keeps State.mem _ _ fun _ _ => rfl, s.each_keeps State.tenants _ _ fun _ _ => rfl,
      s.each_keeps State.frame _ _ fun _ _ => rfl⟩
    · rw [State.each_sendPending_pending]
      simp [he]
    · exact s.each_keeps (fun t : State => t.func p k) _ _ fun u e => u.func_sendPending_ne port func e hpk

/-! ### The commands (R227 to R229) -/

/-- A configuration write changes what it names of its function; the messages that its function then sends go out. -/
theorem msixUnmask_answers (s : State) {port func : Nat} {w : CfgWrite} (hport : port < 2) (hfunc : func < 16)
    (hfits : cfgFits w port func = true) :
    Answers (.msixUnmask port func w) s (MessagesSent port func (s.modFunc port func (configured w))) := by
  refine answers_due rfl (by simp [hport, hfunc, hfits]) ?_
  rw [msixUnmask_eq]
  exact State.msixPending_sent _ port func

theorem exec_burinPendingClear (s : State) {part : Nat} (hpart : part < 8) : exec (.burinPendingClear part) s =
    .next ((s.modPart part fun p => { p with pendingWord := 0, irq := false }).answer (.burin part) 0 8
      (s.part part).pendingWord.toNat) :=
  (congrArg (due s · _) (decide_eq_true hpart)).trans (due_true _ _)

/-- The eight notification objects have one row. -/
theorem rows_notification : ∀ t, t < 8 → objRow 0x3550 (t + 1) = objRow 0x3550 1 := by decide

theorem row_notification : ∃ r, objRow 0x3550 1 = some r ∧ r.acc = .rw ∧ r.size = 8 ∧ r.lo = 0 ∧
    r.hi = 18446744073709551615 ∧ r.ty = 27 := ⟨_, rfl, rfl, rfl, rfl, rfl, rfl⟩

theorem exec_notificationClear {s : State} {via : Via} {t : Nat} (bits : BitVec 64) (ht : t < 8) (hserved : s.served = true)
    (hup : s.up = true) (hview : s.viewOf via = .tenant t ∨ s.viewOf via = .supervisor) :
    exec (.notificationClear via t bits) s =
      .next ((s.modTen t fun x => { x with notify := x.notify &&& ~~~ bits }).accepted.answer via 0 0 0) := by
  obtain ⟨r, hr, hacc, hsize, hlo, hhi, hty⟩ := row_notification
  rw [← rows_notification t ht] at hr
  have hrange : objRange r 0x3550 (t + 1) bits.toNat = true := by
    have := bits.isLt
    simp [objRange, objInt, objSet, hsize, hlo, hhi, hty]
    omega
  have hsees : viewSees s.channelTenant (s.viewOf via) (s.levelOf via).code 0x3550 (t + 1) = true := by
    rcases hview with h | h <;> simp [h, viewSees, debugNeed, tenantSees, bySub]
  have hshown : s.accepted.writeObj via 0 0x3550 (t + 1) 8 bits.toNat 0 =
      s.accepted.writeShown via r 0x3550 (t + 1) 8 bits.toNat 0 :=
    s.accepted.writeObj_shown via 0 0 (by decide) hr (by simp [hacc]) (viewLookup_of_row hr hsees)
  have happlied := s.accepted.writeShown_applied via (i := 0x3550) (sub := t + 1) 0 (by simp [supervisorOnly]) (.inl hacc)
    hsize.symm hrange
  have hcleared : s.accepted.applyWrite via 0x3550 (t + 1) bits.toNat 0 =
      (0, s.accepted.modTen t fun x => { x with notify := x.notify &&& ~~~ bits }) := by
    simp [State.applyWrite, State.viewWrite, State.clearNotify]
  exact congrArg _ (State.rowWrite_wrote hserved hup ((hshown.trans happlied).trans hcleared))

/-! ### A function past those of its port -/

/-- Port 0 has no function 16; the table of functions has there what it has of function 0 of port 1. -/
theorem State.func_past_port (s : State) : s.func 0 16 = s.func 1 0 := rfl

/-- On the machine just reset, a write of Enable to function 0 of port 1. -/
theorem msixUnmask_reset :
    ((msixUnmask State.reset 1 0 (.control true false)).func 0 16).msixEnable = true ∧
    (State.reset.func 0 16).msixEnable = false := by decide +kernel

/-- Refutes O44: the statement asks every pair of numbers but the one written to name a function that stays, and 16 of port 0 is
function 0 of port 1. For other functions a write does what it says (`msixUnmask_answers`), and R228 and R229 hold
(`exec_notificationClear`, `exec_burinPendingClear`). -/
theorem not_notificationPaths : ¬ Obligations.NotificationPaths := by
  intro h
  obtain ⟨hwrite, -⟩ := h State.reset
  obtain ⟨t, hexec, -, -, -, -, -, -, -, hothers, -⟩ := hwrite 1 0 (.control true false) (by decide) (by decide) rfl
  have ht : msixUnmask State.reset 1 0 (.control true false) = t := Host.Outcome.next.inj hexec
  have hkept := congrArg Func.msixEnable (hothers 0 16 (by decide))
  obtain ⟨hset, hclear⟩ := msixUnmask_reset
  rw [← ht, hset, hclear] at hkept
  exact absurd hkept (by decide)

end Sys2Proof.Machine
end

section
/-!
ResetsAndStarts (R239, R378, R385, R386, R394, R395): what a cold start, a loss of everything and a warm start leave, and the
events of the board and the device that begin them.
-/

namespace Sys2Proof.Machine

open Sys2Proof

/-! ### The cold start (R378, R385) -/

/-- A cold start under way: one more boot, its cause printed; the store, OTP and the frame counter are what remains of `s`. -/
def ColdStarted (cause : Nat) (s t : State) : Prop :=
  t.boot.started = true ∧ t.boot.warm = false ∧ t.boot.cause = cause ∧
  t.boot.dev = .starting ∧ t.boot.pwrEn = true ∧ t.sec.boots = satInc 32 s.sec.boots ∧ t.mem = [] ∧ t.ctxs = [] ∧
  t.bundles = [] ∧ t.obj = s.stored ∧ t.eff = t.obj ∧ t.sec.otp = s.sec.otp ∧ t.frame.ticking = false ∧
  t.frame.counter = s.frame.counter ∧ t.out = s.out ++ [.console cause]

/-- Healing changes the store and, where a commit lost power, the report of it (R285). -/
theorem State.healStore_form (s : State) : ∃ n, s.healStore =
    { s with boot := { s.boot with store := s.boot.store.heal }, net := n } := by
  unfold State.healStore
  dsimp only
  split
  · exact ⟨_, rfl⟩
  · exact ⟨s.net, rfl⟩

theorem State.coldStart_started (s : State) (cause : Nat) : ColdStarted cause s (s.coldStart cause) := by
  obtain ⟨n, hheal⟩ := s.coldHold.latchStore.healStore_form
  rw [State.coldStart, hheal]
  exact ⟨rfl, rfl, rfl, rfl, rfl, rfl, rfl, rfl, rfl, rfl, rfl, rfl, rfl, rfl, rfl⟩

theorem State.coldStart_resetLow (s : State) (cause : Nat) : (s.coldStart cause).boot.resetLow = s.boot.resetLow := by
  obtain ⟨n, hheal⟩ := s.coldHold.latchStore.healStore_form
  rw [State.coldStart, hheal]
  rfl

section
variable {s : State} (cause : Nat)

theorem State.tryCold_ready (hclock : s.boot.sysclk = true) (hgood : s.boot.suppliesGood = true)
    (hhigh : s.boot.resetLow = false) : s.tryCold cause = s.coldStart cause :=
  if_pos (by simp [hclock, hgood, hhigh])

theorem State.tryCold_waits (h : s.boot.sysclk = false ∨ s.boot.resetLow = true) :
    s.tryCold cause = s.modBoot fun b => { b with cause := cause } :=
  if_neg (by rcases h with h | h <;> simp [h])

end

/-! ### Everything lost but OTP, store, flash and ember domain (R239) -/

/-- What a cold reset by ball or supply leaves, with cause 1. -/
def Lost (s t : State) : Prop :=
  t.boot.started = false ∧ t.boot.cause = 1 ∧ t.mem = [] ∧ t.ctxs = [] ∧ t.bundles = [] ∧
  t.obj = s.stored ∧ t.sec.otp = s.sec.otp ∧ t.sec.keys = s.sec.keys ∧ t.sec.rtc = s.sec.rtc ∧ t.frame.ticking = false ∧
  t.gauges = [] ∧ t.out = s.out

theorem State.held_lost (s : State) : Lost s (s.held 1) :=
  ⟨rfl, rfl, rfl, rfl, rfl, rfl, rfl, rfl, rfl, rfl, rfl, rfl⟩

/-! ### The warm start (R386, Table 16-5) -/

/-- The boot-up message of a CAN FD port, and the reset of its communication, touch the ports and what is sent. -/
def CanOnly (s t : State) : Prop := ∃ c o, t = { s with net := { s.net with can := c }, out := o }

theorem State.errBit_canOnly (s : State) (p code b : Nat) (on : Bool) : CanOnly s (s.errBit p code b on) := by
  unfold State.errBit
  dsimp only
  repeat' split
  all_goals exact ⟨_, _, rfl⟩

theorem State.bootUp_canOnly (s : State) (port : Nat) : CanOnly s (s.bootUp port) := by
  unfold State.bootUp
  split
  · exact ⟨s.net.can, s.out, rfl⟩
  · generalize hup : State.errBit _ port 0x8100 4 false = u
    obtain ⟨c, o, rfl⟩ : CanOnly _ u := hup ▸ State.errBit_canOnly _ port 0x8100 4 false
    exact ⟨_, _, rfl⟩

/-- A warm start of `s` under way. -/
structure WarmStarted (cause : Nat) (s t : State) : Prop where
  started : t.boot.started = true
  warm : t.boot.warm = true
  cause_eq : t.boot.cause = cause
  dev : t.boot.dev = .starting
  obj : t.obj = s.stored
  eff : t.eff = s.stored
  ticking : t.frame.ticking = false
  counter : t.frame.counter = s.frame.counter
  ops : t.ops = []
  posted : t.posted = []
  bundles : t.bundles = s.bundles
  ctxs : t.ctxs = tmap {} (fun _ x => x.discarded) s.ctxs
  mem : t.mem = s.mem.filter fun e => pageKept s.eff s.stored e.1
  session : t.net.session = none
  otp : t.sec.otp = s.sec.otp
  boots : t.sec.boots = satInc 32 s.sec.boots
  power : t.sec.power = .run
  wakeCause : t.sec.wakeCause = s.sec.wakeCause
  wakes : t.sec.wakes = s.sec.wakes
  grants : t.sec.grants = if cause = 8 then s.sec.grants.filter Grant.survivesDoze else []

theorem WarmStarted.canOnly {cause : Nat} {s t u : State} (h : WarmStarted cause s t) (hu : CanOnly t u) :
    WarmStarted cause s u := by
  obtain ⟨c, o, rfl⟩ := hu
  exact { h with }

theorem State.warmStart_started (s : State) (cause : Nat) : WarmStarted cause s (s.warmStart cause) := by
  unfold State.warmStart
  refine State.each_inv _ (WarmStarted cause s) _ _ (fun u p hu => hu.canOnly (u.bootUp_canOnly p)) ?_
  constructor <;> rfl

section
variable {cause : Nat} {s t : State} (h : WarmStarted cause s t)
include h

/-- Every context is discarded, and its generation stays. -/
theorem WarmStarted.ctx (c : Nat) : (t.ctx c).state = .free ∧ (t.ctx c).gen = (s.ctx c).gen := by
  rw [State.ctx, h.ctxs, tget_tmap _ _ _ _ rfl]
  exact ⟨rfl, rfl⟩

/-- A page of LPDDR5X whose tenant stays keeps its bytes. -/
theorem WarmStarted.rd {a : Nat} (ha : a < 2 * lpWindow) (hkept : pageKept s.eff s.stored a = true) : t.rd a = s.rd a := by
  have hbelow : 2 * lpWindow ≤ keepBase := lpWindow_twice_le_stockBase 0 0xC0000
  have hkeep : inKeep a = false := decide_eq_false fun hin => Nat.not_lt.2 hin.1 (ha.trans_le hbelow)
  rw [State.rd, State.rd, if_neg (by simp [hkeep]), if_neg (by simp [hkeep]), h.mem, tget_filter_keys, if_pos hkept]

/-- No grant outlives a warm start other than a wake from DOZE, which keeps those of the OWNER and VENDOR levels (Table 15-8). -/
theorem WarmStarted.grants_none (hcause : cause ≠ 8) : t.sec.grants = [] := h.grants.trans (if_neg hcause)

theorem WarmStarted.grants_wake (hcause : cause = 8) : ∀ g ∈ t.sec.grants, g ∈ s.sec.grants ∧
    (g.level = .owner ∨ g.level = .vendor) := by
  rw [h.grants, if_pos hcause]
  intro g hg
  obtain ⟨hmem, hsurvives⟩ := List.mem_filter.1 hg
  exact ⟨hmem, of_decide_eq_true hsurvives⟩

end

/-! ### Power-good, RESET_N, supplies and the clock (R239, R394, R395) -/

section
variable {s : State}

theorem powerGood_answers (hlow : s.boot.resetLow = true) (hgood : s.boot.suppliesGood = true) :
    (s.boot.sysclk = true → Answers .powerGood s fun t => t.boot.resetLow = false ∧ ColdStarted s.boot.cause s t) ∧
    (s.boot.sysclk = false →
      Answers .powerGood s fun t => OnlyBoot s t ∧ t.boot = { s.boot with resetLow := false }) := by
  have hdue : (s.boot.resetLow && s.boot.suppliesGood) = true := by simp [hlow, hgood]
  refine ⟨fun hclock => answers_due rfl hdue ?_, fun hclock => answers_due rfl hdue ?_⟩
  · rw [State.tryCold_ready (s := s.modBoot fun b => { b with resetLow := false }) _ hclock hgood rfl]
    exact ⟨State.coldStart_resetLow _ _, State.coldStart_started _ _⟩
  · rw [State.tryCold_waits (s := s.modBoot fun b => { b with resetLow := false }) _ (.inl hclock)]
    exact ⟨⟨_, rfl⟩, rfl⟩

theorem resetNAssert_answers (hhigh : s.boot.resetLow = false) :
    Answers .resetNAssert s fun t => t.boot.resetLow = true ∧ Lost s t :=
  answers_due rfl (by simp [hhigh]) ⟨rfl, State.held_lost _⟩

theorem supplyBrownout_answers {k : Nat} (hk : k < 8) :
    (s.sec.power ≠ .ember → Answers (.supplyBrownout k) s fun t => t.boot.suppliesGood = false ∧ Lost s t) ∧
    (s.sec.power = .ember →
      exec (.supplyBrownout k) s = .next (s.modBoot fun b => { b with suppliesGood := false })) := by
  refine ⟨fun hpower => answers_due rfl (decide_eq_true hk) ?_, fun hpower => ?_⟩
  · have hout : brownout s = (s.modBoot fun b => { b with suppliesGood := false }).held 1 := if_neg hpower
    rw [hout]
    exact ⟨rfl, State.held_lost _⟩
  · have hember : brownout s = s.modBoot fun b => { b with suppliesGood := false } := if_pos hpower
    rw [exec, execSupplyBrownout, decide_eq_true hk, hember, due_true]

theorem suppliesWithinLimits_answers (hbad : s.boot.suppliesGood = false) (hpower : s.sec.power ≠ .ember) :
    (s.boot.sysclk = true → s.boot.resetLow = false →
      Answers .suppliesWithinLimits s fun t => ColdStarted s.boot.cause s t) ∧
    (s.boot.resetLow = true → Answers .suppliesWithinLimits s fun t => OnlyBoot s t ∧
      t.boot = { s.boot with suppliesGood := true }) := by
  have hdue : (!s.boot.suppliesGood) = true := by simp [hbad]
  have hgood : suppliesGood s = (s.modBoot fun b => { b with suppliesGood := true }).tryCold s.boot.cause := by
    simp [suppliesGood, hpower]
  refine ⟨fun hclock hhigh => answers_due rfl hdue ?_, fun hlow => answers_due rfl hdue ?_⟩
  · rw [hgood, State.tryCold_ready (s := s.modBoot fun b => { b with suppliesGood := true }) _ hclock rfl hhigh]
    exact State.coldStart_started _ _
  · rw [hgood, State.tryCold_waits (s := s.modBoot fun b => { b with suppliesGood := true }) _ (.inr hlow)]
    exact ⟨⟨_, rfl⟩, rfl⟩

theorem sysclkStart_running (hclock : s.boot.sysclk = true) : exec .sysclkStart s = .next s :=
  congrArg Host.Outcome.next (if_pos hclock)

theorem sysclkStart_answers (hclock : s.boot.sysclk = false) (hgood : s.boot.suppliesGood = true)
    (hhigh : s.boot.resetLow = false) : Answers .sysclkStart s fun t => ColdStarted s.boot.cause s t := by
  have hstart : sysclkStart s = (s.modBoot fun b => { b with sysclk := true }).coldStart s.boot.cause :=
    (if_neg (by simp [hclock])).trans (State.tryCold_ready _ rfl hgood hhigh)
  refine ⟨_, rfl, ?_⟩
  rw [hstart]
  exact State.coldStart_started _ _

/-! ### WARM_START (R386) -/

theorem warmStart_cold (hdue : s.boot.warmDue = true) (hcold : s.boot.coldReq = true) :
    Answers .warmStart s fun t => ColdStarted 2 s t := by
  refine answers_due rfl (by simp [warmStartDue, hdue]) ?_
  rw [warmStart, if_pos hcold]
  exact s.coldStart_started 2

theorem warmStart_warm (hdue : s.boot.warmDue = true) (hcold : s.boot.coldReq = false) :
    Answers .warmStart s (WarmStarted (s.boot.warmReq.getD 3) s) := by
  refine answers_due rfl (by simp [warmStartDue, hdue]) ?_
  rw [warmStart, if_neg (by simp [hcold]), if_pos hdue]
  exact s.warmStart_started _

/-- A wake from DOZE is counted, with its cause, and is a warm start of cause 8. -/
theorem warmStart_wake (hdue : s.boot.warmDue = false) (hcold : s.boot.coldReq = false) (hdoze : s.sec.power = .doze)
    (hwaking : s.sec.waking = true) : Answers .warmStart s (WarmStarted 8 (s.modSec fun x =>
      { x with wakeCause := x.wakeWaiting.getD 1, wakes := satInc 32 x.wakes })) := by
  refine answers_due rfl (by simp [warmStartDue, hdoze, hwaking]) ?_
  rw [warmStart, if_neg (by simp [hcold]), if_neg (by simp [hdue])]
  exact State.warmStart_started _ 8

end

/-- A request of cause 8 alone makes a warm reset's cause 8. -/
theorem warmCause_ne_wake {r : Option Nat} (h : r ≠ some 8) : r.getD 3 ≠ 8 := by
  cases r with
  | none => decide
  | some k => exact fun hk => h (congrArg some hk)

/-- Settles O58: the events of the board, each a cold start, a loss or a change of its own line, and the warm start, which a
wake from DOZE is as well. -/
theorem resetsAndStarts : Obligations.ResetsAndStarts := by
  intro s cold lost
  refine ⟨powerGood_answers, resetNAssert_answers, fun k hk => supplyBrownout_answers hk, suppliesWithinLimits_answers,
    sysclkStart_running, sysclkStart_answers, warmStart_cold, fun hdue hcold => ?_, fun hdue hcold hdoze hwaking => ?_⟩
  · obtain ⟨t, hexec, h⟩ := warmStart_warm hdue hcold
    exact ⟨t, hexec, h.started, h.warm, h.cause_eq, h.dev, h.boots, h.obj, h.eff, h.ticking, h.counter, h.ops, h.posted,
      h.bundles, h.ctx, fun a ha hkept => h.rd ha hkept, h.otp, h.session, fun hcause => h.grants_none (warmCause_ne_wake hcause)⟩
  · obtain ⟨t, hexec, h⟩ := warmStart_wake hdue hcold hdoze hwaking
    exact ⟨t, hexec, h.warm, h.cause_eq, h.power, h.wakeCause, h.wakes, h.grants_wake rfl, h.otp⟩

end Sys2Proof.Machine
end

section
/-!
FunctionLevelResets (R239, R279): what the loss of endpoints leaves, what a reset does to one function, and the functions that
it covers.
-/

namespace Sys2Proof.Machine

open Sys2Proof

/-! ### The loss of endpoints (R286, R368) -/

/-- The network without a session of the endpoints of `p`. -/
def Net.lose (n : Net) (p : Via → Bool) : Net := { n with session := n.session.filter fun x => !p x.endpoint }

/-- The security state without challenges and grants of the endpoints of `p`. -/
def Sec.lose (x : Sec) (p : Via → Bool) : Sec :=
  { x with challenges := x.challenges.filter fun c => !p c.endpoint, grants := x.grants.filter fun g => !p g.endpoint }

theorem Net.lose_of_filter {n : Net} {p : Via → Bool} {o : Option Session}
    (h : (n.session.filter fun x => !p x.endpoint) = o) : n.lose p = { n with session := o } := by rw [Net.lose, h]

/-- The loss of endpoints ends their session, challenges and grants, with the windows and halts of these. -/
theorem State.dropEndpoints_form (s : State) (p : Via → Bool) :
    ∃ w c, s.dropEndpoints p = { s with net := s.net.lose p, sec := { s.sec.lose p with window := w }, ctxs := c } := by
  unfold State.dropEndpoints
  dsimp only
  split
  next x hx =>
    split
    next hp =>
      rw [Net.lose_of_filter (o := none) (by simp [hx, Option.filter, hp])]
      exact ⟨_, _, rfl⟩
    next hp =>
      rw [Net.lose_of_filter (o := s.net.session) (by simp [hx, Option.filter, hp])]
      exact ⟨_, _, rfl⟩
  next hnone =>
    rw [Net.lose_of_filter (o := s.net.session) (by simp [hnone])]
    exact ⟨_, _, rfl⟩

/-! ### One function (R239, R279) -/

/-- A function under reset: its mailbox is discarded, and it sends nothing more. -/
def Func.flr (x : Func) : Func :=
  { x with blocked := true, resetReq := true, mbx := .idle, vec := 0, rspHdr := 0, rspData := [] }

theorem Func.flr_flr (x : Func) : x.flr.flr = x.flr := rfl

section
variable (s : State) (port f : Nat)

/-- A function's reset touches functions and the session, the security state, contexts, and the floors of its tenant, which
are held; floors that are held stay held (R231). -/
theorem State.flrOne_form : ∃ w c n, s.flrOne port f = { s with
      net := { s.net.lose fun v => decide (v = .pcie port f) with func := tmod {} s.net.func (16 * port + f) Func.flr }
      sec := { s.sec.lose fun v => decide (v = .pcie port f) with window := w }
      ctxs := c
      tenants := n } ∧
    ∀ k, (s.ten k).floorsHeld = true ∨ s.tenantOf (.pcie port f) = some k → (tget {} n k).floorsHeld = true := by
  obtain ⟨u, hu⟩ : ∃ u, u = (s.modFunc port f Func.flr).dropEndpoints fun v => decide (v = .pcie port f) := ⟨_, rfl⟩
  have hone : s.flrOne port f = match u.tenantOf (.pcie port f) with
      | some t => u.modTen t fun x => { x with floorsHeld := true }
      | none => u := hu ▸ rfl
  obtain ⟨w, c, hdrop⟩ := (s.modFunc port f Func.flr).dropEndpoints_form fun v => decide (v = .pcie port f)
  rw [← hu] at hdrop
  have htenant : u.tenantOf (.pcie port f) = s.tenantOf (.pcie port f) := by
    rw [hdrop]
    rfl
  rw [htenant, hdrop] at hone
  refine ⟨w, c, ?_⟩
  cases ht : s.tenantOf (.pcie port f) with
  | none =>
    rw [ht] at hone
    exact ⟨s.tenants, hone, fun k h => h.elim id fun h => nomatch h⟩
  | some t =>
    rw [ht] at hone
    refine ⟨_, hone, fun k h => ?_⟩
    by_cases hk : k = t
    · subst hk
      exact congrArg Tenant.floorsHeld (tget_tmod_same _ _ _ _)
    · have hheld : (s.ten k).floorsHeld = true := h.elim id fun h => (hk (Option.some.inj h).symm).elim
      exact (congrArg Tenant.floorsHeld (tget_tmod_ne _ _ _ hk)).trans hheld

theorem State.flrOne_func (p k : Nat) : (s.flrOne port f).func p k =
    if 16 * p + k = 16 * port + f then (s.func p k).flr else s.func p k := by
  obtain ⟨w, c, n, hform, -⟩ := s.flrOne_form port f
  rw [hform, State.func, tmod, tget_tset]
  split <;> next h => simp [h, State.func]

theorem State.flrOne_session : (s.flrOne port f).net.session =
    s.net.session.filter fun x => !decide (x.endpoint = .pcie port f) := by
  obtain ⟨w, c, n, hform, -⟩ := s.flrOne_form port f
  rw [hform]
  rfl

theorem State.flrOne_tenantOf (v : Via) : (s.flrOne port f).tenantOf v = s.tenantOf v := by
  obtain ⟨w, c, n, hform, -⟩ := s.flrOne_form port f
  rw [hform]
  rfl

theorem State.flrOne_floors {k : Nat} (h : (s.ten k).floorsHeld = true ∨ s.tenantOf (.pcie port f) = some k) :
    ((s.flrOne port f).ten k).floorsHeld = true := by
  obtain ⟨w, c, n, hform, hfloors⟩ := s.flrOne_form port f
  rw [hform]
  exact hfloors k h

end

/-! ### The functions covered -/

section
variable (s : State) (port : Nat) (l : List Nat)

theorem State.each_flrOne_func (p k : Nat) : (s.each l fun u f => u.flrOne port f).func p k =
    if ∃ f ∈ l, 16 * p + k = 16 * port + f then (s.func p k).flr else s.func p k := by
  induction l generalizing s with
  | nil => simp [State.each]
  | cons f l ih =>
    refine (ih (s.flrOne port f)).trans ?_
    rw [State.flrOne_func]
    by_cases hf : 16 * p + k = 16 * port + f <;> simp [hf, Func.flr_flr]

theorem State.each_flrOne_session : (s.each l fun u f => u.flrOne port f).net.session =
    s.net.session.filter fun x => decide (∀ f ∈ l, x.endpoint ≠ .pcie port f) := by
  induction l generalizing s with
  | nil => cases h : s.net.session <;> simp [State.each, Option.filter, h]
  | cons f l ih =>
    refine (ih (s.flrOne port f)).trans ?_
    rw [State.flrOne_session, Option.filter_filter]
    refine congrArg (s.net.session.filter ·) (funext fun x => ?_)
    simp

theorem State.each_flrOne_floors {k : Nat}
    (h : (s.ten k).floorsHeld = true ∨ ∃ f ∈ l, s.tenantOf (.pcie port f) = some k) :
    ((s.each l fun u f => u.flrOne port f).ten k).floorsHeld = true := by
  induction l generalizing s with
  | nil => simpa [State.each] using h
  | cons f l ih =>
    refine ih (s.flrOne port f) ?_
    rcases h with h | ⟨g, hg, htenant⟩
    · exact .inl (s.flrOne_floors port f (.inl h))
    · rcases List.mem_cons.1 hg with rfl | hg
      · exact .inl (s.flrOne_floors port g (.inr htenant))
      · exact .inr ⟨g, hg, by rw [State.flrOne_tenantOf, htenant]⟩

/-- What the reset of functions leaves of everything that is neither a function, a tenant, a context nor a grant. -/
theorem State.each_flrOne_keeps {β : Type} (q : State → β)
    (h : ∀ (u : State) n x c t, x.otp = u.sec.otp → x.keys = u.sec.keys →
      q { u with net := n, sec := x, ctxs := c, tenants := t } = q u) :
    q (s.each l fun u f => u.flrOne port f) = q s :=
  s.each_keeps q l _ fun u f => by
    obtain ⟨w, c, n, hform, -⟩ := u.flrOne_form port f
    rw [hform]
    exact h _ _ _ _ _ rfl rfl

end

/-- The functions that a reset covers are functions of the port. -/
theorem lt_of_flrCovers {func f : Nat} {vf : Bool} (hfunc : func < 16) (h : f ∈ flrCovers func vf) : f < 16 := by
  unfold flrCovers at h
  split at h
  · exact List.mem_range.1 (List.mem_of_mem_drop h)
  · split at h
    · exact List.mem_range.1 h
    · rw [List.mem_singleton.1 h]
      exact hfunc

theorem answers_functionLevelReset {s : State} {port func : Nat} {vf : Bool} {P : State → Prop} (hport : port < 2)
    (hfunc : func < 16) (hvf : vf = true → func = 0) (h : P (s.each (flrCovers func vf) fun u f => u.flrOne port f)) :
    Answers (.functionLevelReset port func vf) s P := by
  refine answers_due rfl ?_ h
  cases vf
  · simp [hport, hfunc]
  · simp [hport, hvf rfl]

/-- Settles O42: each function covered is reset in its turn, which touches no other. -/
theorem functionLevelResets : Obligations.FunctionLevelResets := by
  intro s port func vf hport hfunc hvf
  refine answers_functionLevelReset hport hfunc hvf ⟨fun f hf => ?_, fun p f hp hf hnot => ?_, fun x hx hends => ?_, ?_⟩
  · rw [State.each_flrOne_func, if_pos ⟨f, hf, rfl⟩]
    exact ⟨rfl, rfl, rfl, rfl, rfl, rfl, rfl, fun k hk => s.each_flrOne_floors port _ (.inr ⟨f, hf, hk⟩)⟩
  · rw [State.each_flrOne_func, if_neg]
    rintro ⟨k, hk, heq⟩
    have hlt := lt_of_flrCovers hfunc hk
    obtain ⟨rfl, rfl⟩ : p = port ∧ f = k := by omega
    exact hnot ⟨rfl, hk⟩
  · rw [State.each_flrOne_session, hx]
    exact if_pos (decide_eq_true hends)
  · have hkeeps {β : Type} (q : State → β) := s.each_flrOne_keeps port (flrCovers func vf) q
    exact ⟨hkeeps State.frame fun _ _ _ _ _ _ _ => rfl, hkeeps State.mem fun _ _ _ _ _ _ _ => rfl,
      hkeeps State.host fun _ _ _ _ _ _ _ => rfl, hkeeps State.obj fun _ _ _ _ _ _ _ => rfl,
      hkeeps State.rwt fun _ _ _ _ _ _ _ => rfl, hkeeps State.out fun _ _ _ _ _ _ _ => rfl,
      hkeeps State.boot fun _ _ _ _ _ _ _ => rfl⟩

end Sys2Proof.Machine
end

section
/-!
DatagramsAreAnswered (R257, R268, R270 to R273, R382): what becomes of a datagram in any row, the answer kept for it, CONTROL
and DISCOVER.
-/

namespace Sys2Proof.Machine

open Sys2Proof

/-! ### A request that a datagram carries (R270, R271) -/

/-- An answer is kept and sent. -/
def State.keepSend (s : State) (port : Nat) (tag : VlanTag) (a : Answer) : State :=
  (s.modEth port fun x => { x with answers := keepAnswer x.answers a }).sendAnswer port tag a

/-- The answer of type `r.1.1`, status `r.1.2.1` and payload `r.1.2.2` to a request, in the state that performed it. -/
def answerOf (ip : BitVec 32) (udp : BitVec 16) (h : BitVec 256) (r : (Nat × Nat × List Byte) × State) : Answer :=
  ⟨ip, udp, h, r.2.answerHdr h r.1.1 r.1.2.2.length r.1.2.1, r.1.2.2⟩

theorem mem_keepAnswer (l : List Answer) (a : Answer) : a ∈ keepAnswer l a := List.mem_append_right _ (List.mem_singleton_self a)

/-- The answer to a request serves it again. -/
theorem answerOf_serves (ip : BitVec 32) (udp : BitVec 16) (h : BitVec 256) (r : (Nat × Nat × List Byte) × State) :
    (answerOf ip udp h r).serves ip udp h = true := by simp [answerOf, Answer.serves, Answer.from]

section
variable {s : State} {port : Nat} {tag : VlanTag} {ip : BitVec 32} {udp : BitVec 16} {h : BitVec 256} {bs : List Byte}

theorem State.keepSend_found (u : State) {a : Answer} (ha : a.serves ip udp h = true) :
    (((u.keepSend port tag a).eth port).answers.find? fun a => a.serves ip udp h).isSome = true := by
  have hkept : ((u.keepSend port tag a).eth port).answers = keepAnswer (u.eth port).answers a :=
    congrArg EthPort.answers (u.modEth_same port _)
  rw [hkept, List.find?_isSome]
  exact ⟨a, mem_keepAnswer _ a, ha⟩

theorem State.keepSend_latched (u : State) (tag : VlanTag) (a : Answer) :
    ((u.keepSend port tag a).eth port).latched = (u.eth port).latched := by
  have hkept := u.modEth_same port fun x => { x with answers := keepAnswer x.answers a }
  exact (congrArg EthPort.latched hkept :)

theorem State.keepSend_tenants (u : State) (tag : VlanTag) (a : Answer) : (u.keepSend port tag a).tenants = u.tenants := rfl

theorem State.keepSend_out (u : State) (a : Answer) :
    (u.keepSend port tag a).out = u.out ++ [.datagram port tag a.ip a.udp u.pranilPort a.hdr a.payload] := rfl

variable {f : State → (Nat × Nat × List Byte) × State} {ty : Nat}

theorem State.pranil_discarded (hform : datagramOk h bs = false) : s.pranil port tag ip udp h bs f = s :=
  if_pos (by simp [hform])

theorem State.pranil_again {a : Answer} (hform : datagramOk h bs = true)
    (hfound : (s.eth port).answers.find? (fun a => a.serves ip udp h) = some a) :
    s.pranil port tag ip udp h bs f = s.sendAnswer port tag a := by
  simp [State.pranil, hform, hfound]

theorem State.pranil_performed (hform : datagramOk h bs = true)
    (hnone : (s.eth port).answers.find? (fun a => a.serves ip udp h) = none) :
    s.pranil port tag ip udp h bs f = (f s).2.keepSend port tag (answerOf ip udp h (f s)) := by
  simp only [State.pranil, hform, hnone]
  rfl

theorem State.pranilServed_performed (hserved : s.served = true) (hform : datagramOk h bs = true)
    (hnone : (s.eth port).answers.find? (fun a => a.serves ip udp h) = none) :
    s.pranilServed port tag ip udp h bs f = (f s).2.keepSend port tag (answerOf ip udp h (f s)) :=
  (if_pos hserved).trans (State.pranil_performed hform hnone)

/-! ### The rows of READ, WRITE and DESCRIBE -/

variable {i : Instr} {g : State → Ans × State}
  (hexec : exec i s = due s (rowType port h ty) (s.pranilServed port tag ip udp h bs fun u => response (g u)))
include hexec

/-- A datagram that no server takes, that is not in the form or that is of another TYPE is discarded. -/
theorem datagram_discarded (hno : s.served = false ∨ datagramOk h bs = false ∨ hType h ≠ ty) : exec i s = .next s := by
  rw [hexec]
  by_cases htype : rowType port h ty = true
  · have hsame : (s.pranilServed port tag ip udp h bs fun u => response (g u)) = s := by
      rcases hno with hno | hno | hno
      · exact if_neg (by simp [hno])
      · unfold State.pranilServed
        rw [State.pranil_discarded hno, ite_self]
      · exact absurd htype (by simp [rowType, hno])
    rw [htype, hsame, due_true]
  · rw [eq_false_of_ne_true htype, due_false]

section
variable (hport : port < 2) (hserved : s.served = true) (hform : datagramOk h bs = true) (htype : hType h = ty)
include hport hserved hform htype

/-- A request that a kept answer serves gets it again. -/
theorem datagram_again {a : Answer} (hfound : (s.eth port).answers.find? (fun a => a.serves ip udp h) = some a) :
    exec i s = .next (s.send (.datagram port tag a.ip a.udp s.pranilPort a.hdr a.payload)) := by
  have hrow : rowType port h ty = true := by simp [rowType, hport, htype]
  have hagain : (s.pranilServed port tag ip udp h bs fun u => response (g u)) = s.sendAnswer port tag a :=
    (if_pos hserved).trans (State.pranil_again hform hfound)
  rw [hexec, hrow, due_true, hagain]
  rfl

/-- Any other is performed, and its answer is kept and sent. -/
theorem datagram_performed (hnone : (s.eth port).answers.find? (fun a => a.serves ip udp h) = none) :
    exec i s = .next ((response (g s)).2.keepSend port tag (answerOf ip udp h (response (g s)))) := by
  have hrow : rowType port h ty = true := by simp [rowType, hport, htype]
  rw [hexec, hrow, due_true, State.pranilServed_performed hserved hform hnone]

theorem datagram_answered (hnone : (s.eth port).answers.find? (fun a => a.serves ip udp h) = none) :
    Answers i s fun t =>
      (∀ n v, (g s).1 = .ok (n, v) → t.out.getLast? = some (.datagram port tag ip udp (g s).2.pranilPort
        (pranilHdr 0x10 (hSeq h) (hIndex h) (hSub h) (hPort h) n 0 (g s).2.frameLo) (leBytes n v))) ∧
      (∀ a, (g s).1 = .error a → t.out.getLast? = some (.datagram port tag ip udp (g s).2.pranilPort
        (pranilHdr 0x11 (hSeq h) (hIndex h) (hSub h) (hPort h) 0 a (g s).2.frameLo) [])) ∧
      ((t.eth port).answers.find? (fun a => a.serves ip udp h)).isSome = true ∧
      t.mem = (g s).2.mem ∧ t.ctxs = (g s).2.ctxs ∧ t.frame = (g s).2.frame ∧ t.sec = (g s).2.sec := by
  refine ⟨_, datagram_performed hexec hport hserved hform htype hnone, ?_⟩
  obtain ⟨r, u⟩ := g s
  have hfound := fun v => State.keepSend_found (port := port) (tag := tag) u (answerOf_serves ip udp h (v, u))
  cases r with
  | ok nv =>
    refine ⟨fun n v hr => ?_, fun a hr => absurd hr (by simp), hfound _, rfl, rfl, rfl, rfl⟩
    obtain rfl := Except.ok.inj hr
    simp [response, State.keepSend_out, answerOf, State.answerHdr, leBytes_length]
  | error a =>
    refine ⟨fun n v hr => absurd hr (by simp), fun b hr => ?_, hfound _, rfl, rfl, rfl, rfl⟩
    obtain rfl := Except.error.inj hr
    simp [response, State.keepSend_out, answerOf, State.answerHdr]

end

end

theorem datagramsAreAnswered_rows : Claims.DatagramsAreAnswered := by
  intro s port tag ip udp h bs out hport via rows e he hregs
  obtain ⟨g, hg, hexec⟩ : ∃ g : State → Ans × State, g = e.2.2 ∧ exec e.2.1 s =
      due s (rowType port h e.1) (s.pranilServed port tag ip udp h bs fun u => response (g u)) := by
    simp only [rows, List.mem_cons, List.not_mem_nil, or_false] at he
    rcases he with rfl | rfl | rfl
    · exact ⟨_, rfl, rfl⟩
    · exact ⟨_, rfl, if_neg (ne_true_of_eq_false (hregs rfl))⟩
    · exact ⟨_, rfl, rfl⟩
  subst hg
  exact ⟨datagram_discarded hexec, fun hserved hform htype => ⟨fun a => datagram_again hexec hport hserved hform htype,
    datagram_answered hexec hport hserved hform htype⟩⟩

/-! ### CONTROL (R273, R382) -/

section
variable {s : State} {port : Nat} {tag : VlanTag} {ip : BitVec 32} {udp : BitVec 16} {h : BitVec 256} {bs : List Byte}

/-- A transfer that is admitted and done. -/
theorem State.perform_done {t : State} {out : Nat} {early : Bool} {f : State → Ans × State} {v : Nat × Nat} (hout : out < 4)
    (hopen : (s.up || early) = true) (hf : f s.accepted = (.ok v, t)) : s.perform out early f = (.ok v, t) := by
  have hroom : ¬ 4 ≤ out := by omega
  have hadmitted : (!s.up && !early) = false := by rw [← Bool.not_or, hopen]; rfl
  simp [State.perform, Config.transferLimit, hroom, hadmitted, hf]

/-- START and STOP of a bound source. -/
theorem State.control_bound {t : Nat} (htenant : s.tenantOf (.eth port ip udp) = some t) (hbs : bs = [1] ∨ bs = [2]) :
    s.control port ip udp bs = (.ok (0, 0), if s.up then s.setStarted t (decide (bs = [1])) udp
      else s.modEth port fun x => x.latch t (decide (bs = [1])) udp) := by
  rcases hbs with rfl | rfl <;> simp [State.control, leNat, htenant]

variable {i : Instr} {out t : Nat}
  (hexec : exec i s = due s (rowType port h 4)
    (s.pranilServed port tag ip udp h bs fun u => response (u.controlXfer port ip udp bs out)))
  (hport : port < 2) (hserved : s.served = true) (hform : datagramOk h bs = true) (htype : hType h = 4) (hout : out < 4)
  (hnone : (s.eth port).answers.find? (fun a => a.serves ip udp h) = none)
  (htenant : s.tenantOf (.eth port ip udp) = some t) (hbs : bs = [1] ∨ bs = [2])
include hexec hport hserved hform htype hout hnone htenant hbs

/-- From READY on START and STOP act at once. -/
theorem control_acts (hup : s.up = true) : Answers i s fun u =>
    u.ten t = { s.ten t with
      started := decide (bs = [1]), startUdp := if decide (bs = [1]) then udp else (s.ten t).startUdp } ∧
    (∀ k, k ≠ t → u.ten k = s.ten k) ∧ u.mem = s.mem ∧ u.frame = s.frame := by
  have hdone : s.controlXfer port ip udp bs out = (.ok (0, 0), s.accepted.setStarted t (decide (bs = [1])) udp) :=
    State.perform_done hout (by simp [hup])
      ((State.control_bound (s := s.accepted) htenant hbs).trans (by rw [if_pos (show s.accepted.up = true from hup)]))
  refine ⟨_, datagram_performed hexec hport hserved hform htype hnone, ?_⟩
  rw [hdone]
  let started (x : Tenant) : Tenant :=
    { x with started := decide (bs = [1]), startUdp := if decide (bs = [1]) then udp else x.startUdp }
  exact ⟨s.modTen_same t started, fun k hk => s.modTen_ne started hk, rfl, rfl⟩

/-- Before READY they are latched, the last of each tenant. -/
theorem control_latches (hdev : s.boot.dev = .starting) : Answers i s fun u => u.tenants = s.tenants ∧
    (u.eth port).latched = (s.eth port).latched.filter (fun e => decide (e.1 ≠ t)) ++ [(t, decide (bs = [1]), udp)] := by
  have hdown : s.accepted.up = false := by
    have : s.accepted.boot.dev = .starting := hdev
    simp [State.up, this]
  have hdone : s.controlXfer port ip udp bs out =
      (.ok (0, 0), s.accepted.modEth port fun x => x.latch t (decide (bs = [1])) udp) :=
    State.perform_done hout (by simp [hdev])
      ((State.control_bound (s := s.accepted) htenant hbs).trans (by rw [if_neg (by simp [hdown])]))
  refine ⟨_, datagram_performed hexec hport hserved hform htype hnone, ?_⟩
  rw [hdone]
  refine ⟨State.keepSend_tenants _ _ _, (State.keepSend_latched _ _ _).trans ?_⟩
  exact congrArg EthPort.latched (s.modEth_same port fun x => x.latch t (decide (bs = [1])) udp)

end

theorem controlAndDiscover : Claims.ControlAndDiscover := by
  intro s port tag ip udp h bs out hport hform hnone
  refine ⟨fun hserved htype hout t htenant => ⟨?_, ?_⟩, fun hstarted hrom htype => ?_⟩
  · rintro rfl
    have hexec : exec (.controlStart ⟨port, tag⟩ ip udp h [1] out) s = due s (rowType port h 4)
        (s.pranilServed port tag ip udp h [1] fun u => response (u.controlXfer port ip udp [1] out)) :=
      congrArg (due s · _) (Bool.and_true _)
    refine ⟨fun hup => ?_, fun hdev => ?_⟩
    · obtain ⟨u, hnext, hself, hrest⟩ := control_acts hexec hport hserved hform htype hout hnone htenant (.inl rfl) hup
      exact ⟨u, hnext, congrArg Tenant.started hself, congrArg Tenant.startUdp hself, hrest⟩
    · obtain ⟨u, hnext, htenants, hlatched⟩ :=
        control_latches hexec hport hserved hform htype hout hnone htenant (.inl rfl) hdev
      exact ⟨u, hnext, htenants, by simp [hlatched]⟩
  · rintro rfl
    have hexec : exec (.controlStop ⟨port, tag⟩ ip udp h [2] out) s = due s (rowType port h 4)
        (s.pranilServed port tag ip udp h [2] fun u => response (u.controlXfer port ip udp [2] out)) :=
      congrArg (due s · _) (Bool.and_true _)
    refine ⟨fun hup => ?_, fun hdev => ?_⟩
    · obtain ⟨u, hnext, hself, hrest⟩ := control_acts hexec hport hserved hform htype hout hnone htenant (.inr rfl) hup
      exact ⟨u, hnext, congrArg Tenant.started hself, hrest⟩
    · obtain ⟨u, hnext, htenants, hlatched⟩ :=
        control_latches hexec hport hserved hform htype hout hnone htenant (.inr rfl) hdev
      exact ⟨u, hnext, htenants, by simp [hlatched], by simp [hlatched]⟩
  · have hdue : (rowType port h 0x20 && s.discoverable) = true := by
      simp [rowType, State.discoverable, hport, htype, hstarted, hrom]
    refine answers_due rfl hdue ?_
    rw [State.pranil_performed hform hnone]
    refine ⟨?_, rfl, rfl, rfl, rfl⟩
    rw [State.keepSend_out]
    simp [answerOf, State.answerHdr, State.discovery, leBytes_length]

/-- Settles O46: a datagram is discarded, answered again or performed, whatever its row; CONTROL and DISCOVER are two of them. -/
theorem datagramsAreAnswered : Obligations.DatagramsAreAnswered := ⟨datagramsAreAnswered_rows, controlAndDiscover⟩

end Sys2Proof.Machine
end

section
/-!
IpServicesAndLinks (R268, R269, R286, R368, R384): the IP services of a port, and what becomes of a link and of its endpoints.
-/

namespace Sys2Proof.Machine

open Sys2Proof

/-! ### ARP, DHCPv4, ICMP, gPTP (R268, R269) -/

section
variable {s : State} {port : Nat}

/-- The Pdelay initiator's next request counts up and is sent. -/
theorem State.askPdelay_port (s : State) (port : Nat) :
    (s.askPdelay port).eth port = { s.eth port with pdelaySeq := (s.eth port).pdelaySeq + 1 } :=
  s.modEth_same port fun x => { x with pdelaySeq := (s.eth port).pdelaySeq + 1 }

theorem State.askPdelay_ne (s : State) {port p : Nat} (h : p ≠ port) : (s.askPdelay port).eth p = s.eth p :=
  s.modEth_ne (fun x => { x with pdelaySeq := (s.eth port).pdelaySeq + 1 }) h

/-- A message of a running port's own domain. -/
theorem answers_gptpSync {msg : GptpMsg} {P : State → Prop} (hport : port < 2) (hon : s.ethOn = true)
    (h : P (s.gptp port msg)) : Answers (.gptpSync port 0 msg) s P :=
  answers_due rfl (decide_eq_true hport) (by simpa [hon] using h)

theorem exec_gptpSync {msg : GptpMsg} (hport : port < 2) (hon : s.ethOn = true) :
    exec (.gptpSync port 0 msg) s = .next (s.gptp port msg) := by
  obtain ⟨t, hexec, rfl⟩ := answers_gptpSync (msg := msg) (P := (· = s.gptp port msg)) hport hon rfl
  exact hexec

/-- Another domain than 0 changes nothing. -/
theorem foreign_domain {domain : Nat} (hdomain : domain ≠ 0) (msg : GptpMsg) (g : BitVec 128) :
    exec (.gptpSync port domain msg) s = .next s ∧ exec (.gptpAnnounce port ⟨domain, g⟩) s = .next s := by
  simp [exec, execGptpSync, execGptpAnnounce, due, hdomain]

/-- A port that DHCPv4 answered: a lease, or none. -/
def EthPort.leased (x : EthPort) (ip mask gw : BitVec 32) (ack : Bool) : EthPort :=
  { x with dhcp := if ack then ip else 0, dhcpMask := if ack then mask else 0, dhcpGateway := if ack then gw else 0 }

theorem dhcp_answers (hport : port < 2) (hon : s.ethOn = true) (ip mask gw : BitVec 32) (ack : Bool) :
    Answers (.dhcpv4Reply port ip mask gw ack) s fun t =>
      (s.atReset 0x1E00 (port + 1) = 0 → t.address port = (if ack = true then ip.toNat else 0) ∧
        (t.eth port).dhcpMask = (if ack = true then mask else 0) ∧ (t.eth port).dhcpGateway = (if ack = true then gw else 0) ∧
        (t.eth port).speed = (s.eth port).speed ∧ (t.eth port).answers = (s.eth port).answers) ∧
      (s.atReset 0x1E00 (port + 1) ≠ 0 → t = s) ∧ (∀ p, p ≠ port → t.eth p = s.eth p) ∧ t.out = s.out ∧
      t.frame = s.frame := by
  refine answers_due rfl (decide_eq_true hport) ?_
  by_cases hstatic : s.atReset 0x1E00 (port + 1) = 0
  · obtain ⟨u, hu⟩ : ∃ u, u = s.modEth port fun x => x.leased ip mask gw ack := ⟨_, rfl⟩
    have hself : u.eth port = (s.eth port).leased ip mask gw ack := hu ▸ s.modEth_same port _
    have hrest : (∀ p, p ≠ port → u.eth p = s.eth p) ∧ u.out = s.out ∧ u.frame = s.frame :=
      hu ▸ ⟨fun p hp => s.modEth_ne _ hp, rfl, rfl⟩
    have hreset : u.atReset 0x1E00 (port + 1) = 0 := hu ▸ hstatic
    have haddress : u.address port = (u.eth port).dhcp.toNat := if_pos hreset
    have hleased : (if (s.ethOn && decide (s.atReset 0x1E00 (port + 1) = 0)) = true then s.modEth port fun x =>
        { x with dhcp := if ack then ip else 0, dhcpMask := if ack then mask else 0, dhcpGateway := if ack then gw else 0 }
        else s) = u := hu ▸ if_pos (by simp [hon, hstatic])
    rw [hleased, haddress, hself]
    exact ⟨fun _ => ⟨by cases ack <;> rfl, rfl, rfl, rfl, rfl⟩, fun h => absurd hstatic h, hrest⟩
  · rw [if_neg (by simp [hstatic])]
    exact ⟨fun h => absurd h hstatic, fun _ => rfl, fun _ _ => rfl, rfl, rfl⟩

theorem announce_answers (hport : port < 2) (hon : s.ethOn = true) (g : BitVec 128) :
    Answers (.gptpAnnounce port ⟨0, g⟩) s fun t =>
      ((s.eth port).grandmaster = none → (t.eth port).grandmaster = some g) ∧
      (∀ k, (s.eth port).grandmaster = some k → (t.eth port).grandmaster = some (if g.toNat < k.toNat then g else k)) ∧
      (t.eth port).offset = (s.eth port).offset ∧ (∀ p, p ≠ port → t.eth p = s.eth p) ∧ t.frame = s.frame ∧
      t.out = s.out := by
  refine answers_due rfl (decide_eq_true hport) ?_
  rw [hon, if_pos (show (true && decide (0 = 0)) = true from rfl)]
  refine ⟨fun hnone => ?_, fun k hk => ?_, ?_, fun p hp => s.modEth_ne _ hp, rfl, rfl⟩
  · rw [State.modEth_same, hnone]
  · rw [State.modEth_same, hk]
  · rw [State.modEth_same]

end

theorem ipServicesAnswer : Claims.IpServicesAnswer := by
  intro s port hport hon x
  have hdue : decide (port < 2) = true := decide_eq_true hport
  refine ⟨fun tag ip bs haddress => ?_, fun tag ip target haddress => ⟨fun htarget => ?_, fun htarget => ?_⟩,
    dhcp_answers hport hon, fun origin followUp arrival synced => ?_, fun source seq arrival => exec_gptpSync hport hon,
    fun seq t1 t2 t3 t4 => ⟨fun hseq => ?_, fun hseq => ?_⟩, announce_answers hport hon,
    fun domain msg g hdomain => foreign_domain hdomain msg g⟩
  · simp [exec, execIcmpEcho, due, hport, State.answersIp, hon, haddress]
  · simp [exec, execArpRequest, due, hport, State.answersIp, hon, haddress, ← htarget]
  · simp [exec, execArpRequest, due, htarget]
  · exact answers_gptpSync hport hon
      ⟨s.modEth_same port _, fun p hp => s.modEth_ne _ hp, rfl, rfl⟩
  · exact (exec_gptpSync hport hon).trans (congrArg _ (if_pos hseq))
  · obtain ⟨u, hu⟩ : ∃ u, u = s.modEth port fun x => { x with pathDelay := (t4 - t1 - (t3 - t2)) / 2 } := ⟨_, rfl⟩
    have hgptp : s.gptp port (.pdelayResp seq t1 t2 t3 t4) = u.askPdelay port := hu ▸ if_neg (not_not.2 hseq)
    have hself : u.eth port = { s.eth port with pathDelay := (t4 - t1 - (t3 - t2)) / 2 } := hu ▸ s.modEth_same port _
    refine answers_gptpSync hport hon ?_
    rw [hgptp]
    refine ⟨?_, fun p hp => (u.askPdelay_ne hp).trans (hu ▸ s.modEth_ne _ hp), ?_, ?_⟩
    · rw [State.askPdelay_port, hself]
    · show u.out ++ [.pdelayReq port ((u.eth port).pdelaySeq + 1)] = _
      rw [hself, hu]
      rfl
    · rw [hu]
      rfl

/-! ### Links of endpoints (R268, R286, R368) -/

theorem State.modPcie_same (s : State) (p : Nat) (f : PciePort → PciePort) :
    tget {} (s.modPcie p f).net.pcie p = f (tget {} s.net.pcie p) := tget_tmod_same _ _ _ _

theorem State.modPcie_ne (s : State) {p k : Nat} (f : PciePort → PciePort) (h : k ≠ p) :
    tget {} (s.modPcie p f).net.pcie k = tget {} s.net.pcie k := tget_tmod_ne _ _ _ h

section
variable (s : State) (p : Via → Bool)

theorem State.dropEndpoints_session :
    (s.dropEndpoints p).net.session = s.net.session.filter fun x => !p x.endpoint := by
  obtain ⟨w, c, hdrop⟩ := s.dropEndpoints_form p
  rw [hdrop]
  rfl

theorem State.mem_dropEndpoints_grants (g : Grant) :
    g ∈ (s.dropEndpoints p).sec.grants ↔ g ∈ s.sec.grants ∧ p g.endpoint = false := by
  obtain ⟨w, c, hdrop⟩ := s.dropEndpoints_form p
  rw [hdrop]
  show g ∈ s.sec.grants.filter _ ↔ _
  rw [List.mem_filter, Bool.not_eq_true']

theorem State.mem_dropEndpoints_challenges (c : Challenge) :
    c ∈ (s.dropEndpoints p).sec.challenges ↔ c ∈ s.sec.challenges ∧ p c.endpoint = false := by
  obtain ⟨w, q, hdrop⟩ := s.dropEndpoints_form p
  rw [hdrop]
  show c ∈ s.sec.challenges.filter _ ↔ _
  rw [List.mem_filter, Bool.not_eq_true']

/-- The ports keep their state. -/
theorem State.dropEndpoints_ports :
    (s.dropEndpoints p).net.eth = s.net.eth ∧ (s.dropEndpoints p).net.pcie = s.net.pcie := by
  obtain ⟨w, c, hdrop⟩ := s.dropEndpoints_form p
  rw [hdrop]
  exact ⟨rfl, rfl⟩

end

/-- The loss of a link itself touches the network alone, and no session. -/
theorem State.linkLost_form (s : State) (via : Via) :
    ∃ n, s.linkLost via = { s with net := n } ∧ n.session = s.net.session := by
  cases via with
  | eth p ip udp => exact ⟨_, rfl, rfl⟩
  | pcie p f => exact ⟨_, rfl, rfl⟩
  | can p n => exact ⟨_, rfl, rfl⟩
  | supervisor => exact ⟨_, rfl, rfl⟩
  | burin b => exact ⟨_, rfl, rfl⟩

theorem endpointLinkLoss_answers (s : State) (via : Via) (hlink : Via.hasLink via = true) :
    Answers (.endpointLinkLoss via) s fun t =>
      (∀ x, t.net.session = some x → s.net.session = some x ∧ sameLink via x.endpoint = false) ∧
      (∀ x, s.net.session = some x → sameLink via x.endpoint = false → t.net.session = some x) ∧
      (∀ g, g ∈ t.sec.grants ↔ g ∈ s.sec.grants ∧ sameLink via g.endpoint = false) ∧
      (∀ c, c ∈ t.sec.challenges ↔ c ∈ s.sec.challenges ∧ sameLink via c.endpoint = false) ∧
      (∀ p ip udp, via = .eth p ip udp → (t.eth p).speed = 0 ∧ (t.eth p).synced = false ∧ (t.eth p).grandmaster = none) ∧
      (∀ p f, via = .pcie p f → (tget {} t.net.pcie p).linkUp = false) ∧
      t.frame = s.frame ∧ t.mem = s.mem ∧ t.obj = s.obj ∧ t.sec.otp = s.sec.otp := by
  refine answers_due rfl hlink ?_
  obtain ⟨n, hlost, hsession⟩ := s.linkLost_form via
  obtain ⟨u, hu⟩ : ∃ u, u = s.linkLost via := ⟨_, rfl⟩
  rw [← hu] at hlost ⊢
  obtain ⟨heth, hpcie⟩ := u.dropEndpoints_ports (sameLink via)
  have hends : (u.dropEndpoints (sameLink via)).net.session = s.net.session.filter fun x => !sameLink via x.endpoint := by
    rw [State.dropEndpoints_session, hlost, ← hsession]
  refine ⟨fun x hx => by simpa [hends] using hx, fun x hx hno => by simp [hends, hx, Option.filter, hno], fun g => ?_,
    fun c => ?_, ?_, ?_, ?_⟩
  · rw [State.mem_dropEndpoints_grants, hlost]
  · rw [State.mem_dropEndpoints_challenges, hlost]
  · rintro p ip udp rfl
    have hself : u.eth p = { s.eth p with speed := 0, synced := false, grandmaster := none } := hu ▸ s.modEth_same p _
    rw [State.eth, heth, ← State.eth, hself]
    exact ⟨rfl, rfl, rfl⟩
  · rintro p f rfl
    rw [hpcie, hu]
    exact congrArg PciePort.linkUp (s.modPcie_same p _)
  · obtain ⟨w, c, hdrop⟩ := u.dropEndpoints_form (sameLink via)
    rw [hdrop, hlost]
    exact ⟨rfl, rfl, rfl, rfl⟩

theorem pcieConfigurationReady_answers (s : State) {p : Nat} (hp : p < 2) (hstarted : s.boot.started = true)
    (hno : (tget {} s.net.pcie p).answering = false) : Answers .pcieConfigurationReady s fun t => OnlyNet s t ∧
      (tget {} t.net.pcie 0).answering = true ∧ (tget {} t.net.pcie 1).answering = true := by
  have hany : [0, 1].any (fun p => !(tget {} s.net.pcie p).answering) = true := by
    rw [List.any_eq_true]
    exact ⟨p, by simp; omega, by simp [hno]⟩
  let ready (x : PciePort) : PciePort := { x with answering := true }
  refine answers_due rfl (by rw [hstarted, hany]; rfl) ⟨⟨_, rfl⟩, ?_, ?_⟩
  · have hkept := (s.modPcie 0 ready).modPcie_ne (p := 1) (k := 0) ready (by decide)
    exact congrArg PciePort.answering (hkept.trans (s.modPcie_same 0 ready))
  · exact congrArg PciePort.answering ((s.modPcie 0 ready).modPcie_same 1 ready)

theorem exec_pcieConfigurationRequest (s : State) {p f : Nat} {b : Bool} (hp : p < 2) (hf : f < 16)
    (hstarted : s.boot.started = true)
    (hb : ((tget {} s.net.pcie p).answering && (decide (s.boot.recovery ≠ .rom) || decide (f = 0))) = b) :
    exec (.pcieConfigurationRequest p f) s = .next (s.send (.config p f b)) := by
  rw [exec, execPcieConfigurationRequest, hb]
  simp [due, hp, hf, hstarted]

theorem endpointLinks : Claims.EndpointLinks := by
  intro s
  refine ⟨endpointLinkLoss_answers s, fun p ip udp speed hp hspeed => ?_, fun p f speed hp => ?_,
    fun p f hp hf hstarted => ⟨fun hanswers => ?_, fun hanswers => ?_⟩,
    fun p hp hstarted hno => pcieConfigurationReady_answers s hp hstarted hno⟩
  · obtain ⟨u, hu⟩ : ∃ u, u = s.modEth p fun x => { x with speed := speed } := ⟨_, rfl⟩
    have hself : u.eth p = { s.eth p with speed := speed } := hu ▸ s.modEth_same p _
    have hrest {k : Nat} (hk : k ≠ p) : u.eth k = s.eth k := hu ▸ s.modEth_ne _ hk
    have hexec : exec (.phyLinkUp (.eth p ip udp) speed) s = .next (u.askPdelay p) := by
      simp [exec, execPhyLinkUp, due, Via.hasLink, hp, hspeed, State.linkUp, hu]
    refine ⟨_, hexec, ?_, fun k hk => (u.askPdelay_ne hk).trans (hrest hk), ?_, ?_⟩
    · rw [State.askPdelay_port, hself]
    · show u.out ++ [.pdelayReq p ((u.eth p).pdelaySeq + 1)] = _
      rw [hself, hu]
      rfl
    · rw [hu]
      exact ⟨rfl, rfl, rfl, rfl, rfl, rfl⟩
  · let up (x : PciePort) : PciePort := { x with linkUp := true }
    exact answers_due rfl (by simp [Via.hasLink, hp])
      ⟨congrArg PciePort.linkUp (s.modPcie_same p up), fun k hk => s.modPcie_ne up hk, ⟨_, rfl⟩⟩
  · exact exec_pcieConfigurationRequest s hp hf hstarted (by simpa using hanswers)
  · exact exec_pcieConfigurationRequest s hp hf hstarted (by rw [Bool.eq_false_iff]; simpa using hanswers)

/-- Settles O48: each service is one change of its port, and the loss of a link is one of its endpoints. -/
theorem ipServicesAndLinks : Obligations.IpServicesAndLinks := ⟨ipServicesAnswer, endpointLinks⟩

end Sys2Proof.Machine
end

section
/-!
NmtAndHeartbeats (R262, R264, R266, R267, R382, R383): what the error register, the boot-up message and a heartbeat turn one
CAN FD port into, and the commands that do it.
-/

namespace Sys2Proof.Machine

open Sys2Proof

/-! ### One port and what is sent -/

/-- `t` is `s` with `x` as the state of one port, and with what has been sent. -/
structure TurnsPort (s t : State) (port : Nat) (x : CanPort) : Prop where
  self : t.can port = x
  others : ∀ p, p ≠ port → t.can p = s.can p
  rest : CanOnly s t

theorem State.modCan_turnsPort (s : State) (port : Nat) (f : CanPort → CanPort) :
    TurnsPort s (s.modCan port f) port (f (s.can port)) where
  self := s.modCan_same port f
  others _ hp := s.modCan_ne f hp
  rest := ⟨_, _, rfl⟩

section
variable {s t u : State} {port : Nat} {x y : CanPort}

theorem TurnsPort.trans (hst : TurnsPort s t port x) (htu : TurnsPort t u port y) : TurnsPort s u port y where
  self := htu.self
  others p hp := (htu.others p hp).trans (hst.others p hp)
  rest := by
    obtain ⟨c, o, rfl⟩ := hst.rest
    obtain ⟨d, q, rfl⟩ := htu.rest
    exact ⟨d, q, rfl⟩

theorem TurnsPort.send (h : TurnsPort s t port x) (m : OutMsg) : TurnsPort s (t.send m) port x where
  self := h.self
  others := h.others
  rest := by
    obtain ⟨c, o, rfl⟩ := h.rest
    exact ⟨c, _, rfl⟩

theorem TurnsPort.keeps (h : TurnsPort s t port x) :
    t.frame = s.frame ∧ t.mem = s.mem ∧ t.obj = s.obj ∧ t.ctxs = s.ctxs := by
  obtain ⟨c, o, rfl⟩ := h.rest
  exact ⟨rfl, rfl, rfl, rfl⟩

theorem TurnsPort.tenants (h : TurnsPort s t port x) : t.tenants = s.tenants := by
  obtain ⟨c, o, rfl⟩ := h.rest
  rfl

theorem TurnsPort.atReset (h : TurnsPort s t port x) (i sub p : Nat) : t.atReset i sub p = s.atReset i sub p := by
  obtain ⟨c, o, rfl⟩ := h.rest
  rfl

theorem TurnsPort.tenantOf (h : TurnsPort s t port x) (v : Via) : t.tenantOf v = s.tenantOf v := by
  obtain ⟨c, o, rfl⟩ := h.rest
  rfl

/-- The node that an entry watches does not hang on what the port has seen of it. -/
theorem TurnsPort.watched (h : TurnsPort s t port x) (hnmt : x.nmt = (s.can port).nmt) (n : Nat) :
    t.watched port n = s.watched port n := by
  have hself := h.self
  obtain ⟨c, o, rfl⟩ := h.rest
  have hon : State.canOn { s with net := { s.net with can := c }, out := o } port = s.canOn port := by
    rw [State.canOn, hself, hnmt]
    rfl
  rw [State.watched, hon]
  rfl

end

/-! ### The error register (R266) -/

/-- The error register with a bit set or cleared. -/
def errSet (old : BitVec 8) (b : Nat) (on : Bool) : BitVec 8 :=
  if on then old ||| BitVec.ofNat 8 (2 ^ b) else old &&& ~~~ BitVec.ofNat 8 (2 ^ b)

theorem bit_errSet_4 (old : BitVec 8) (on : Bool) : bit (errSet old 4 on) 4 = on := by
  cases on <;> simp [errSet, bit]

theorem State.errBit_turnsPort (s : State) (port code b : Nat) (on : Bool) :
    TurnsPort s (s.errBit port code b on) port { s.can port with errReg := errSet (s.can port).errReg b on } := by
  have hset := s.modCan_turnsPort port fun x => { x with errReg := errSet (s.can port).errReg b on }
  obtain ⟨new, hnew⟩ : ∃ new, new = errSet (s.can port).errReg b on := ⟨_, rfl⟩
  obtain ⟨u, hu⟩ : ∃ u, u = s.modCan port fun x => { x with errReg := new } := ⟨_, rfl⟩
  have herr : s.errBit port code b on = u ∨ ∃ m, s.errBit port code b on = u.send m := by
    unfold State.errBit
    dsimp only
    rw [hnew, errSet] at hu
    rw [← hu]
    split
    · exact .inl rfl
    · split <;> split
      · exact .inr ⟨_, rfl⟩
      · exact .inl rfl
      · exact .inr ⟨_, rfl⟩
      · exact .inl rfl
  rw [hnew] at hu
  rw [hu] at herr
  rcases herr with herr | ⟨m, herr⟩ <;> rw [herr]
  · exact hset
  · exact hset.send m

/-! ### NMT (R264, R382) -/

/-- A port whose communication was reset. -/
def CanPort.rebooted (x : CanPort) : CanPort :=
  { x with nmt := .preOperational, syncCount := [], captured := [], beats := [], latched := none, busOff := false }

section
variable {s : State} {port : Nat}

theorem State.bootUp_turnsPort (hnode : s.atReset 0x1E10 (port + 1) ≠ 0) : TurnsPort s (s.bootUp port) port
    { (s.can port).rebooted with errReg := errSet (s.can port).errReg 4 false } ∧
      (s.bootUp port).out.getLast? = some (.bootUp port) := by
  have hreset := s.modCan_turnsPort port CanPort.rebooted
  have hclear := (s.modCan port CanPort.rebooted).errBit_turnsPort port 0x8100 4 false
  rw [hreset.self] at hclear
  have hboot : s.bootUp port = ((s.modCan port CanPort.rebooted).errBit port 0x8100 4 false).send (.bootUp port) :=
    if_neg hnode
  rw [hboot]
  exact ⟨(hreset.trans hclear).send _, List.getLast?_concat⟩

/-- The three commands that set the state of a port. -/
theorem exec_nmtSet (hport : port < 4) (node : Nat) : ∀ e ∈ [(Instr.nmtStart port node, Nmt.operational),
    (.nmtStop port node, .stopped), (.nmtEnterPreoperational port node, .preOperational)],
    exec e.1 s = .next (s.nmtSet port e.2) := by
  have hdue (t : State) : due s (decide (port < 4)) t = .next t := by rw [decide_eq_true hport, due_true]
  intro e he
  simp only [List.mem_cons, List.not_mem_nil, or_false] at he
  rcases he with rfl | rfl | rfl
  · exact hdue _
  · exact hdue _
  · exact hdue _

theorem State.resetNode_bound {node k : Nat} (hon : s.canOn port = true) (hup : s.up = true)
    (htenant : s.tenantOf (.can port node) = some k) : s.resetNode port node = (s.requestTenantReset k).bootUp port := by
  simp [State.resetNode, hon, hup, htenant]

theorem State.resetNode_unbound {node : Nat} (hon : s.canOn port = true)
    (hno : s.up = false ∨ s.tenantOf (.can port node) = none) : s.resetNode port node = s.bootUp port := by
  rcases hno with hno | hno <;> simp [State.resetNode, hon, hno]

end

/-- What a reset of a port's communication leaves. -/
theorem TurnsPort.booted {s t : State} {port : Nat} {x : CanPort}
    (h : TurnsPort s t port { x.rebooted with errReg := errSet x.errReg 4 false })
    (hout : t.out.getLast? = some (.bootUp port)) : (t.can port).nmt = .preOperational ∧ (t.can port).captured = [] ∧
      (t.can port).latched = none ∧ (t.can port).busOff = false ∧ bit (t.can port).errReg 4 = false ∧
      t.out.getLast? = some (.bootUp port) ∧ (∀ p, p ≠ port → t.can p = s.can p) ∧ t.frame = s.frame ∧ t.mem = s.mem ∧
      t.obj = s.obj := by
  obtain ⟨hframe, hmem, hobj, -⟩ := h.keeps
  have hothers := h.others
  rw [h.self]
  exact ⟨rfl, rfl, rfl, rfl, bit_errSet_4 _ _, hout, hothers, hframe, hmem, hobj⟩

theorem nmtCommandsAct : Claims.NmtCommandsAct := by
  intro s port node hport rows booted
  have hdue : decide (port < 4) = true := decide_eq_true hport
  refine ⟨fun hoff => ⟨fun e he => ?_, ?_, ?_⟩,
    fun hon => ⟨fun hup e he => ?_, fun hdown e he => ?_, fun hnode => ⟨?_, fun k hup htenant => ?_, fun hno => ?_⟩⟩⟩
  · rw [exec_nmtSet hport node e he, State.nmtSet, hoff]
    rfl
  · simp [exec, execNmtResetCommunication, due, hoff]
  · simp [exec, execNmtResetNode, due, State.resetNode, hoff]
  · rw [exec_nmtSet hport node e he, State.nmtSet, hon, hup]
    rfl
  · rw [exec_nmtSet hport node e he, State.nmtSet, hon, hdown]
    rfl
  · obtain ⟨hturns, hout⟩ := State.bootUp_turnsPort hnode
    refine answers_due (t := s.bootUp port) ?_ hdue ⟨hturns.booted hout, hturns.tenants⟩
    rw [exec, execNmtResetCommunication, if_pos hon]
  · obtain ⟨hturns, hout⟩ := State.bootUp_turnsPort (s := s.requestTenantReset k) hnode
    have hten (j : Nat) : ((s.requestTenantReset k).bootUp port).ten j = (s.requestTenantReset k).ten j := by
      rw [State.ten, hturns.tenants]
      rfl
    refine answers_due rfl hdue ?_
    rw [State.resetNode_bound hon hup htenant]
    exact ⟨hturns.booted hout, (hten k).trans (s.modTen_same k _), fun j hj => (hten j).trans (s.modTen_ne _ hj)⟩
  · obtain ⟨hturns, hout⟩ := State.bootUp_turnsPort hnode
    refine answers_due rfl hdue ?_
    rw [State.resetNode_unbound hon hno]
    exact ⟨hturns.booted hout, hturns.tenants⟩

/-! ### Heartbeats and bus errors (R262, R266, R267, R383) -/

section
variable {s : State} {port n : Nat}

/-- The loss of a watched node, seen. -/
theorem State.lostBeat_turnsPort (s : State) (port n : Nat) : TurnsPort s
    ((s.modCan port fun x => { x with beats := tset 0 x.beats n 1 }).errBit port 0x8100 4 true) port
    { s.can port with beats := tset 0 (s.can port).beats n 1, errReg := errSet (s.can port).errReg 4 true } := by
  have hlost := s.modCan_turnsPort port fun x => { x with beats := tset 0 x.beats n 1 }
  have hset := (s.modCan port fun x => { x with beats := tset 0 x.beats n 1 }).errBit_turnsPort port 0x8100 4 true
  rw [hlost.self] at hset
  exact hlost.trans hset

/-- Where 0x1E13 asks for it, and the node is bound, its tenant's reset is requested. -/
theorem State.loseBeat_form {u : State} (hu : TurnsPort s u port
      { s.can port with beats := tset 0 (s.can port).beats n 1, errReg := errSet (s.can port).errReg 4 true })
    (heq : u = (s.modCan port fun x => { x with beats := tset 0 x.beats n 1 }).errBit port 0x8100 4 true) :
    s.loseBeat port n = if s.atReset 0x1E13 (port + 1) = 1 then
      match s.tenantOf (.can port (s.watched port n)) with
      | some t => u.requestTenantReset t
      | none => u
    else u := by
  rw [← hu.atReset, ← hu.watched (n := n) rfl, ← hu.tenantOf, heq]
  rfl

theorem heartbeatLoss_answers (hwatched : s.watched port n ≠ 0) (hseen : tget 0 (s.can port).beats n = 0) :
    Answers (.heartbeatLoss port n) s fun t => (t.can port).nmt = (s.can port).nmt ∧
      ((∀ p, p ≠ port → t.can p = s.can p) ∧ t.frame = s.frame ∧ t.mem = s.mem ∧ t.obj = s.obj ∧ t.ctxs = s.ctxs) ∧
      tget 0 (t.can port).beats n = 1 ∧ bit (t.can port).errReg 4 = true ∧
      (∀ k, s.atReset 0x1E13 (port + 1) = 1 → s.tenantOf (.can port (s.watched port n)) = some k →
        t.ten k = { s.ten k with resetReq := true, floorsHeld := true }) ∧
      (s.atReset 0x1E13 (port + 1) ≠ 1 → t.tenants = s.tenants) := by
  obtain ⟨u, heq⟩ : ∃ u, u = (s.modCan port fun x => { x with beats := tset 0 x.beats n 1 }).errBit port 0x8100 4 true :=
    ⟨_, rfl⟩
  have hu := s.lostBeat_turnsPort port n
  rw [← heq] at hu
  have hself {t : State} (ht : t.can port = u.can port) : (t.can port).nmt = (s.can port).nmt ∧
      tget 0 (t.can port).beats n = 1 ∧ bit (t.can port).errReg 4 = true := by
    rw [ht, hu.self]
    exact ⟨rfl, tget_tset_same 0 (s.can port).beats n 1, bit_errSet_4 _ _⟩
  have hten (j : Nat) : u.ten j = s.ten j := by rw [State.ten, hu.tenants]; rfl
  refine answers_due rfl (by simp [hwatched, hseen]) ?_
  rw [State.loseBeat_form hu heq]
  split
  next hasks =>
    split
    next k hk =>
      obtain ⟨hnmt, hbeats, hbit⟩ := hself (t := u.requestTenantReset k) rfl
      refine ⟨hnmt, ⟨hu.others, hu.keeps⟩, hbeats, hbit, fun j _ hj => ?_, fun hno => absurd hasks hno⟩
      obtain rfl := Option.some.inj (hk.symm.trans hj)
      rw [State.requestTenantReset, State.modTen_same, hten]
    next hk =>
      obtain ⟨hnmt, hbeats, hbit⟩ := hself (t := u) rfl
      exact ⟨hnmt, ⟨hu.others, hu.keeps⟩, hbeats, hbit, fun j _ hj => absurd (hk.symm.trans hj) (by simp),
        fun _ => hu.tenants⟩
  next hno =>
    obtain ⟨hnmt, hbeats, hbit⟩ := hself (t := u) rfl
    exact ⟨hnmt, ⟨hu.others, hu.keeps⟩, hbeats, hbit, fun j h => absurd h hno, fun _ => hu.tenants⟩

/-- The heartbeat of a watched node: bit 4 falls unless something else holds it. -/
theorem State.beat_turnsPort (s : State) (port n : Nat) : ∃ x, TurnsPort s (s.beat port n) port x ∧
    x.nmt = (s.can port).nmt ∧ x.beats = tset 0 (s.can port).beats n 0 ∧
    (x.bad = true → x.errReg = (s.can port).errReg) ∧ (x.bad = false → bit x.errReg 4 = false) := by
  obtain ⟨u, hu⟩ : ∃ u, u = s.modCan port fun x => { x with beats := tset 0 x.beats n 0 } := ⟨_, rfl⟩
  have hback : TurnsPort s u port { s.can port with beats := tset 0 (s.can port).beats n 0 } := hu ▸ s.modCan_turnsPort port _
  have hbeat : s.beat port n = if (u.can port).bad then u else u.errBit port 0x8100 4 false := hu ▸ rfl
  rw [hbeat]
  split
  next hbad =>
    rw [hback.self] at hbad
    exact ⟨_, hback, rfl, rfl, fun _ => rfl, fun hgood => absurd (hbad.symm.trans hgood) (by decide)⟩
  next hgood =>
    have hclear := u.errBit_turnsPort port 0x8100 4 false
    rw [hback.self] at hgood hclear
    exact ⟨_, hback.trans hclear, rfl, rfl, fun hbad => absurd hbad hgood, fun _ => bit_errSet_4 _ _⟩

end

theorem heartbeatsAreWatched : Claims.HeartbeatsAreWatched := by
  intro s port x rest
  refine ⟨fun hon hproduces => ?_, fun hon => ?_, fun n hwatched hseen => ?_,
    fun n st hport hn hn' => ⟨fun hno => ?_, fun hwatched => ?_⟩⟩
  · simp [exec, execHeartbeatProduce, due, hon, hproduces, x]
  · have hoff := s.modCan_turnsPort port fun x => { x with busOff := true }
    have hset := (s.modCan port fun x => { x with busOff := true }).errBit_turnsPort port 0x8100 4 true
    have hturns := hoff.trans hset
    refine answers_due rfl hon ⟨⟨?_, hturns.others, hturns.keeps⟩, ?_, ?_, hturns.tenants⟩ <;> rw [hset.self, hoff.self]
    exact bit_errSet_4 _ _
  · obtain ⟨t, hexec, hnmt, ⟨hothers, hkeeps⟩, hrest⟩ := heartbeatLoss_answers hwatched hseen
    exact ⟨t, hexec, ⟨hnmt, hothers, hkeeps⟩, hrest⟩
  · simp [exec, execHeartbeatConsume, due, hno]
  · obtain ⟨y, hturns, hnmt, hbeats, hbad, hgood⟩ := s.beat_turnsPort port n
    have hexec : exec (.heartbeatConsume port n st) s = .next (s.beat port n) := by
      simp [exec, execHeartbeatConsume, due, hport, hn, hn', hwatched]
    refine ⟨_, hexec, ⟨?_, hturns.others, hturns.keeps⟩, ?_, hturns.tenants, ?_, ?_⟩ <;> rw [hturns.self]
    · exact hnmt
    · rw [hbeats, tget_tset_same]
    · exact hbad
    · exact hgood

/-- Settles O50: each command and each heartbeat turns one port, and a tenant's reset is requested besides. -/
theorem nmtAndHeartbeats : Obligations.NmtAndHeartbeats := ⟨nmtCommandsAct, heartbeatsAreWatched⟩

end Sys2Proof.Machine
end

section
/-!
SessionsStage (R282, R283, R286, R365): the rows of the session object, what a session of an endpoint stages, and the waivers.
-/

namespace Sys2Proof.Machine

open Sys2Proof

/-! ### The session object (Table 11-7) -/

theorem row_sessionOpen : objRow 0x1E41 1 = some (u8 0x1E41 1 1 1 .wo 0 0 2) := rfl
theorem row_sessionCommit : objRow 0x1E41 4 = some (oct 0x1E41 1 4 4 .wo 96) := rfl
theorem row_sessionClose : objRow 0x1E41 5 = some (u8 0x1E41 1 5 5 .wo 0) := rfl

/-- A value of the size of an octet string is in its range. -/
theorem objRange_oct {i n s0 s1 size sub bits v : Nat} {a : Acc} {j : Nat} (hset : objSet j sub v = true)
    (hbits : bits = 8 * size) (hv : v < 2 ^ bits) : objRange (oct i n s0 s1 a size) j sub v = true := by
  subst hbits
  have hint : objInt (oct i n s0 s1 a size) v = v := rfl
  have hhi : (v : Int) ≤ 2 ^ (8 * size) - 1 := by
    have : (v : Int) < 2 ^ (8 * size) := by exact_mod_cast hv
    omega
  simp only [objRange, hint, hset, Bool.and_eq_true, decide_eq_true_eq]
  exact ⟨⟨⟨hv, Int.natCast_nonneg v⟩, hhi⟩, trivial⟩

/-- Every view shows it. -/
theorem viewSees_session (chan : Nat → Nat) (w : View) (level sub : Nat) : viewSees chan w level 0x1E41 sub = true := by
  cases w <;> simp [viewSees, debugNeed, tenantSees, bySub, byIndex]

section
variable (s : State) (via : Via) (fresh : BitVec 384)

/-- A write in the range of its row reaches the session. -/
theorem State.writeObj_session {r : ObjRow} {sub len v : Nat} (hrow : objRow 0x1E41 sub = some r) (hacc : r.acc = .wo)
    (hlen : len = r.size) (hrange : objRange r 0x1E41 sub v = true) :
    s.writeObj via 0 0x1E41 sub len v fresh = s.sessionWrite via sub v fresh :=
  calc s.writeObj via 0 0x1E41 sub len v fresh
      = s.writeShown via r 0x1E41 sub len v fresh :=
        s.writeObj_shown via 0 fresh (by decide) hrow (by simp [hacc]) (viewLookup_of_row hrow (viewSees_session _ _ _ _))
    _ = s.applyWrite via 0x1E41 sub v fresh :=
        s.writeShown_applied via fresh (by simp [supervisorOnly]) (.inr hacc) hlen hrange
    _ = s.sessionWrite via sub v fresh := if_pos rfl

theorem State.writeObj_sessionOpen {slot : Nat} (hslot : slot < 3) :
    s.writeObj via 0 0x1E41 1 1 slot fresh = s.openSession via slot fresh := by
  have hrange : objRange (u8 0x1E41 1 1 1 .wo 0 0 2) 0x1E41 1 slot = true := by
    simp [objRange, objInt, objSet, u8]
    omega
  exact s.writeObj_session via fresh row_sessionOpen rfl rfl hrange

theorem State.writeObj_sessionCommit (sig : BitVec 768) :
    s.writeObj via 0 0x1E41 4 96 sig.toNat fresh = s.commit via sig :=
  calc s.writeObj via 0 0x1E41 4 96 sig.toNat fresh
      = s.commit via (BitVec.ofNat 768 sig.toNat) :=
        s.writeObj_session via fresh row_sessionCommit rfl rfl (objRange_oct (by simp [objSet]) rfl sig.isLt)
    _ = s.commit via sig := by rw [BitVec.ofNat_toNat, BitVec.setWidth_eq]

theorem State.writeObj_sessionClose : s.writeObj via 0 0x1E41 5 1 1 fresh = s.closeSession via 1 :=
  s.writeObj_session via fresh row_sessionClose rfl rfl (by decide)

end

/-! ### Opening, staging and closing -/

section
variable {s : State} {via : Via} {x : Session}

theorem State.mySession_eq (hx : s.net.session = some x) (hvia : x.endpoint = via) : s.mySession via = some x := by
  simp [State.mySession, hx, hvia]

theorem State.mySession_other (hx : s.net.session = some x) (hvia : x.endpoint ≠ via) : s.mySession via = none := by
  simp [State.mySession, hx, hvia]

/-- Only one session is open at a time. -/
theorem State.openSession_full (slot : Nat) (nonce : BitVec 384) (h : s.net.session.isSome = true) :
    s.openSession via slot nonce = (abSessionOpen, s) := if_pos h

/-- A session opens against a slot, with the digest that begins it. -/
theorem State.openSession_opens (slot : Nat) (nonce : BitVec 384) (hnone : s.net.session = none)
    (hblank : s.sec.otp.life ≠ .blank) (hscrapped : s.sec.otp.life ≠ .scrapped) (hdev : s.boot.dev ≠ .recovery) :
    s.openSession via slot nonce = (0, s.modNet fun n => { n with session := some (
      { endpoint := via, slot := slot, nonce := nonce, digest := firstDigest nonce s.sec.otp.uid slot } : Session) }) := by
  simp [State.openSession, hnone, hblank, hscrapped, hdev]

theorem State.dev_ne_recovery (hup : s.up = true) : s.boot.dev ≠ .recovery := by
  intro h
  simp [State.up, h] at hup

theorem State.closeSession_own (hx : s.net.session = some x) (hvia : x.endpoint = via) :
    s.closeSession via 1 = (0, s.modNet fun n => { n with session := none }) := by
  simp [State.closeSession, State.mySession_eq hx hvia]

theorem State.closeSession_other (hx : s.net.session = some x) (hvia : x.endpoint ≠ via) :
    s.closeSession via 1 = (abState, s) := by
  simp [State.closeSession, State.mySession_other hx hvia]

section
variable (hx : s.net.session = some x) (hvia : x.endpoint = via)
include hx hvia

/-- The endpoint's write to an rwp object is staged. -/
theorem State.writeObj_staged {r : ObjRow} {port i sub len v : Nat} {fresh : BitVec 384} (hrow : objRow i sub = some r)
    (hacc : r.acc = .rwp) : s.writeObj via port i sub len v fresh = s.stage x r port i sub len v := by
  have hmine := State.mySession_eq hx hvia
  have hinside : s.keyOutside via i sub = false := by simp [State.keyOutside, hmine]
  simp [State.writeObj, hinside, hrow, hmine, hacc]

end

theorem State.stage_taken {r : ObjRow} {port i sub len v : Nat} (h : s.stageCheck r i sub len v = 0) :
    s.stage x r port i sub len v = (0, s.modNet fun n => { n with session := some (x.stage port i sub len v) }) := by
  simp [State.stage, h]

theorem State.stage_refused {r : ObjRow} {port i sub len v : Nat} (h : s.stageCheck r i sub len v ≠ 0) :
    s.stage x r port i sub len v = (s.stageCheck r i sub len v, s) := by
  unfold State.stage
  split
  next h0 => exact absurd h0 h
  next => rfl

/-- The window's register, whose write is refused, is no rwp object. -/
theorem State.regsWrite_rwp (s : State) (via : Via) {i sub : Nat} {r : ObjRow} (hrow : objRow i sub = some r)
    (hacc : r.acc = .rwp) : s.regsWrite via i sub = false := by
  have hregs : (objRow 0x7001 2).any (fun r => decide (r.acc = .rwp)) = false := by decide
  have hno : ¬ (i = 0x7001 ∧ sub = 2) := by
    rintro ⟨rfl, rfl⟩
    simp [hrow, hacc] at hregs
  simp [State.regsWrite, hno]

/-- Staging as a row of its own. -/
theorem sessionStage_row {r : ObjRow} {port i sub len v : Nat} (hserved : s.served = true) (hup : s.up = true)
    (hx : s.net.session = some x) (hvia : x.endpoint = via) (hrow : objRow i sub = some r) (hacc : r.acc = .rwp) :
    (s.stageCheck r i sub len v = 0 → exec (.sessionStage via port i sub len v) s =
      .next ((s.modNet fun n => { n with session := some (x.stage port i sub len v) }).accepted.answer via 0 0 0)) ∧
    (s.stageCheck r i sub len v ≠ 0 → exec (.sessionStage via port i sub len v) s =
      .next (s.accepted.countAbort.answer via (s.stageCheck r i sub len v) 0 0)) := by
  have hexec : exec (.sessionStage via port i sub len v) s = .next (s.rowWrite via port i sub len v 0) :=
    if_neg (ne_true_of_eq_false (s.regsWrite_rwp via hrow hacc))
  have hstaged : s.accepted.writeObj via port i sub len v 0 = s.accepted.stage x r port i sub len v :=
    State.writeObj_staged (s := s.accepted) hx hvia hrow hacc
  rw [hexec]
  refine ⟨fun hok => ?_, fun hbad => ?_⟩
  · rw [State.rowWrite_wrote hserved hup (hstaged.trans (State.stage_taken (s := s.accepted) hok))]
    rfl
  · exact congrArg _ (State.rowWrite_aborted hserved hup hbad (hstaged.trans (State.stage_refused (s := s.accepted) hbad)))

end

/-! ### Waivers (R190) -/

theorem row_waiver : ∀ slot, slot < 4 → objRow 0x2103 (slot + 1) = some (oct 0x2103 1 1 4 .rwp 128)
  | 0, _ => rfl
  | 1, _ => rfl
  | 2, _ => rfl
  | 3, _ => rfl

/-- Where the lifecycle lets it be staged, a waiver is judged by its own checks alone. -/
theorem State.stageCheck_waiver (s : State) {slot : Nat} {w : BitVec 1024}
    (hmay : s.mayStage 0x2103 (slot + 1) w.toNat = true) :
    s.stageCheck (oct 0x2103 1 1 4 .rwp 128) 0x2103 (slot + 1) 128 w.toNat = s.waiverCheck w.toNat := by
  have hrange : objRange (oct 0x2103 1 1 4 .rwp 128) 0x2103 (slot + 1) (maskValue 0x2103 (slot + 1) w.toNat) = true :=
    objRange_oct (by simp [objSet]) rfl w.isLt
  have hsize : (oct 0x2103 1 1 4 .rwp 128).size = 128 := rfl
  simp [State.stageCheck, hmay, hsize, hrange]

/-- A waiver whose slot has no key fails its signature. -/
theorem State.waiverCheck_keyless (s : State) {w : BitVec 1024} (h : s.ownerKey (fld w 81 80) = none) :
    s.waiverCheck w.toNat = abSignature := by
  simp [State.waiverCheck, h]

theorem waiverInstall_row (s : State) (via : Via) (slot : Nat) (w : BitVec 1024) :
    exec (.waiverInstall via slot w) s = exec (.sessionStage via 0 0x2103 (slot + 1) 128 w.toNat) s := by
  have hregs : s.regsWrite via 0x2103 (slot + 1) = false := by simp [State.regsWrite]
  exact (if_neg (t := Host.Outcome.refused Refusal.registerBlock) (ne_true_of_eq_false hregs)).symm

/-! ### The obligation -/

/-- The endpoint closes its session, and another endpoint does not. -/
theorem sessionClose_row {s : State} {via : Via} {x : Session} (hserved : s.served = true) (hup : s.up = true)
    (hx : s.net.session = some x) :
    (x.endpoint = via → exec (.sessionClose via 1) s =
      .next ((s.modNet fun n => { n with session := none }).accepted.answer via 0 0 0)) ∧
    (x.endpoint ≠ via → exec (.sessionClose via 1) s = .next (s.accepted.countAbort.answer via abState 0 0)) := by
  have hclose := s.accepted.writeObj_sessionClose via 0
  refine ⟨fun hvia => ?_, fun hvia => ?_⟩
  · exact congrArg _ (State.rowWrite_wrote hserved hup (hclose.trans (State.closeSession_own (s := s.accepted) hx hvia)))
  · exact congrArg _ (State.rowWrite_aborted hserved hup (by decide)
      (hclose.trans (State.closeSession_other (s := s.accepted) hx hvia)))

theorem exec_sessionTimeout {s : State} {x : Session} (hx : s.net.session = some x) :
    exec .sessionTimeout s = .next (s.modNet fun n => { n with session := none }) := by
  simp [exec, execSessionTimeout, due, hx]

/-- Settles O51: each row is a write of the session object or of a staged one. -/
theorem sessionsStage : Obligations.SessionsStage := by
  intro s via hserved hup no open_
  refine ⟨fun slot nonce hslot => ⟨fun hsome => ?_, fun hnone hblank hscrapped => ?_⟩,
    fun x port i sub len v r hx hvia hrow hacc => sessionStage_row hserved hup hx hvia hrow hacc,
    fun slot w => waiverInstall_row s via slot w, fun x w slot hslot hx hvia hmay => ?_,
    fun x hx => ⟨(sessionClose_row hserved hup hx).1, (sessionClose_row hserved hup hx).2, exec_sessionTimeout hx⟩⟩
  · exact congrArg _ (State.rowWrite_aborted hserved hup (by decide)
      ((s.accepted.writeObj_sessionOpen via nonce hslot).trans (State.openSession_full (s := s.accepted) slot nonce hsome)))
  · exact congrArg _ (State.rowWrite_wrote hserved hup ((s.accepted.writeObj_sessionOpen via nonce hslot).trans
      (State.openSession_opens (s := s.accepted) slot nonce hnone hblank hscrapped (State.dev_ne_recovery hup))))
  · have hcheck := s.stageCheck_waiver hmay
    obtain ⟨htaken, hrefused⟩ :=
      sessionStage_row (port := 0) hserved hup hx hvia (row_waiver slot hslot) rfl
    rw [waiverInstall_row]
    refine ⟨fun hok => htaken (hcheck.trans hok), fun hkeyless => ?_⟩
    have hsig := hcheck.trans (s.waiverCheck_keyless hkeyless)
    have hno := hrefused (by rw [hsig]; decide)
    rwa [hsig] at hno

end Sys2Proof.Machine
end

section
/-!
SessionsAreDiscarded (R285, R286): what a reset leaves of the network and the store, and the ways a session ends.
-/

namespace Sys2Proof.Machine

open Sys2Proof

/-! ### A reset (R239, R285, R385, R386) -/

/-- No session; OTP, keys and the store as in `s`, and the values in force are those that the store holds. -/
structure FromStore (s t : State) : Prop where
  session : t.net.session = none
  otp : t.sec.otp = s.sec.otp
  keys : t.sec.keys = s.sec.keys
  stored : t.stored = s.stored
  obj : t.obj = s.stored

theorem Store.current_heal (x : Store) : x.heal.current = x.current := by
  rw [Store.heal, Store.current]
  exact ite_self _

theorem State.healStore_session (s : State) : s.healStore.net.session = s.net.session := by
  unfold State.healStore
  dsimp only
  split <;> rfl

theorem State.held_fromStore (s : State) (cause : Nat) : FromStore s (s.held cause) := ⟨rfl, rfl, rfl, rfl, rfl⟩

theorem State.coldStart_fromStore (s : State) (cause : Nat) : FromStore s (s.coldStart cause) := by
  have hsession : (s.coldStart cause).net.session = s.coldHold.latchStore.healStore.net.session := rfl
  obtain ⟨n, hheal⟩ := s.coldHold.latchStore.healStore_form
  refine ⟨hsession.trans (State.healStore_session _), ?_, ?_, ?_, ?_⟩ <;> rw [State.coldStart, hheal]
  · rfl
  · rfl
  · exact Store.current_heal _
  · rfl

theorem State.tryCold_fromStore (s : State) (cause : Nat) (hclock : s.boot.sysclk = true) (hgood : s.boot.suppliesGood = true)
    (hhigh : s.boot.resetLow = false) : FromStore s (s.tryCold cause) := by
  rw [State.tryCold_ready cause hclock hgood hhigh]
  exact s.coldStart_fromStore cause

theorem FromStore.canOnly {s t u : State} (h : FromStore s t) (hu : CanOnly t u) : FromStore s u := by
  obtain ⟨c, o, rfl⟩ := hu
  exact { h with }

theorem State.warmStart_fromStore (s : State) (cause : Nat) : FromStore s (s.warmStart cause) := by
  unfold State.warmStart
  exact State.each_inv _ (FromStore s) _ _ (fun u p hu => hu.canOnly (u.bootUp_canOnly p)) ⟨rfl, rfl, rfl, rfl, rfl⟩

theorem warmStart_fromStore (s : State) : FromStore s (warmStart s) := by
  unfold warmStart
  split
  · exact s.coldStart_fromStore 2
  · split
    · exact s.warmStart_fromStore _
    · obtain ⟨hsession, hotp, hkeys, hstored, hobj⟩ :=
        (s.modSec fun x => { x with wakeCause := x.wakeWaiting.getD 1, wakes := satInc 32 x.wakes }).warmStart_fromStore 8
      exact ⟨hsession, hotp, hkeys, hstored, hobj⟩

/-! ### The obligation -/

/-- The loss of a link leaves what is provisioned, and no session of an endpoint on it. -/
theorem endpointLinkLoss_discards {s : State} {x : Session} (hx : s.net.session = some x) (via : Via)
    (hlink : sameLink via x.endpoint = true) :
    let t := (s.linkLost via).dropEndpoints (sameLink via)
    t.net.session = none ∧ t.sec.otp = s.sec.otp ∧ t.sec.keys = s.sec.keys ∧ t.stored = s.stored ∧ t.obj = s.obj := by
  obtain ⟨n, hlost, hsession⟩ := s.linkLost_form via
  obtain ⟨w, c, hdrop⟩ := (s.linkLost via).dropEndpoints_form (sameLink via)
  refine ⟨?_, ?_⟩
  · rw [State.dropEndpoints_session, hlost]
    simp [hsession, hx, Option.filter, hlink]
  · rw [hdrop, hlost]
    exact ⟨rfl, rfl, rfl, rfl⟩

/-- Settles O52: each way ends the session and touches nothing provisioned, and a reset takes up what the store holds. -/
theorem sessionsAreDiscarded : Obligations.SessionsAreDiscarded := by
  intro s x hx dropped gone restarted
  have hrestarted {t : State} (h : FromStore s t) : restarted t := ⟨⟨h.session, h.otp, h.keys, h.stored⟩, h.obj⟩
  refine ⟨fun hserved hup => ⟨_, (sessionClose_row hserved hup hx).1 rfl, ⟨rfl, rfl, rfl, rfl⟩, rfl⟩,
    ⟨_, exec_sessionTimeout hx, ⟨rfl, rfl, rfl, rfl⟩, rfl⟩, fun via hvia hlink => ?_,
    fun port func f vf hport hfunc hvf hf hend => ?_, fun hdue => answers_due rfl hdue (hrestarted (warmStart_fromStore s)),
    fun hhigh => ?_, fun hlow hgood hclock => ?_⟩
  · obtain ⟨hends, hotp, hkeys, hstored, hobj⟩ := endpointLinkLoss_discards hx via hlink
    exact answers_due rfl hvia ⟨⟨hends, hotp, hkeys, hstored⟩, hobj⟩
  · refine answers_functionLevelReset hport hfunc hvf ⟨⟨?_, ?_, ?_, ?_⟩, ?_⟩
    · rw [State.each_flrOne_session, hx]
      exact if_neg (by simpa [hend] using hf)
    · exact s.each_flrOne_keeps port _ (·.sec.otp) fun u n x c t hotp hkeys => hotp
    · exact s.each_flrOne_keeps port _ (·.sec.keys) fun u n x c t hotp hkeys => hkeys
    · exact s.each_flrOne_keeps port _ State.stored fun u n x c t hotp hkeys => rfl
    · exact s.each_flrOne_keeps port _ State.obj fun u n x c t hotp hkeys => rfl
  · exact answers_due rfl (by rw [hhigh]; rfl) (hrestarted
      { (s.modBoot fun b => { b with resetLow := true }).held_fromStore 1 with })
  · exact answers_due rfl (by rw [hlow, hgood]; rfl) (hrestarted
      { (s.modBoot fun b => { b with resetLow := false }).tryCold_fromStore s.boot.cause hclock hgood rfl with })

end Sys2Proof.Machine
end

section
/-!
CommitsAreWhole (R284, R285): what a commit applies, what each staged key then reads, the answers of a commit, and the store
that a loss of power in it leaves.
-/

namespace Sys2Proof.Machine

open Sys2Proof

/-! ### What a commit touches -/

/-- At most the values in force, the security state, start-up and the Field dies differ, and not the power state. -/
structure AppliesOnly (s t : State) : Prop where
  rest : ∃ o x b f, t = { s with obj := o, sec := x, boot := b, fabs := f }
  power : t.sec.power = s.sec.power

theorem AppliesOnly.trans {s t u : State} (hst : AppliesOnly s t) (htu : AppliesOnly t u) : AppliesOnly s u where
  rest := by
    obtain ⟨o, x, b, f, rfl⟩ := hst.rest
    obtain ⟨o', x', b', f', rfl⟩ := htu.rest
    exact ⟨o', x', b', f', rfl⟩
  power := htu.power.trans hst.power

theorem AppliesOnly.out {s t : State} (h : AppliesOnly s t) : t.out = s.out := by
  obtain ⟨o, x, b, f, rfl⟩ := h.rest
  rfl

theorem AppliesOnly.keeps {s t : State} (h : AppliesOnly s t) : t.eff = s.eff ∧ t.effT = s.effT ∧ t.frame = s.frame ∧
    t.mem = s.mem ∧ t.ctxs = s.ctxs ∧ t.gauges = s.gauges := by
  obtain ⟨o, x, b, f, rfl⟩ := h.rest
  exact ⟨rfl, rfl, rfl, rfl, rfl, rfl⟩

/-- The index of a key. -/
def keyIndex (key : Nat) : Nat := key / 2 ^ 8 % 2 ^ 16

/-- Every object but the waivers reads as before. -/
def KeepsValues (s t : State) : Prop :=
  ∀ key, keyIndex key ≠ 0x2103 → tget (keyDefault key) t.obj key = tget (keyDefault key) s.obj key

/-- What a staged value does besides standing in force. -/
def SideEffect (s t : State) : Prop := AppliesOnly s t ∧ KeepsValues s t

theorem SideEffect.refl (s : State) : SideEffect s s := ⟨⟨⟨_, _, _, _, rfl⟩, rfl⟩, fun _ _ => rfl⟩

theorem SideEffect.trans {s t u : State} (hst : SideEffect s t) (htu : SideEffect t u) : SideEffect s u :=
  ⟨hst.1.trans htu.1, fun key hkey => (htu.2 key hkey).trans (hst.2 key hkey)⟩

section
variable (s : State)

theorem State.modBoot_effect (f : Boot → Boot) : SideEffect s (s.modBoot f) := ⟨⟨⟨_, _, _, _, rfl⟩, rfl⟩, fun _ _ => rfl⟩

theorem State.modSec_effect {f : Sec → Sec} (h : (f s.sec).power = s.sec.power) : SideEffect s (s.modSec f) :=
  ⟨⟨⟨_, _, _, _, rfl⟩, h⟩, fun _ _ => rfl⟩

theorem State.modFab_effect (m : Nat) (f : Fab → Fab) : SideEffect s (s.modFab m f) :=
  ⟨⟨⟨_, _, _, _, rfl⟩, rfl⟩, fun _ _ => rfl⟩

end

/-- A value put in force is read at its key, and nowhere else. -/
theorem State.tget_setVal (s : State) (k v key : Nat) : tget (keyDefault key) (s.setVal k v).obj key =
    if key = k then v else tget (keyDefault key) s.obj key := by
  by_cases h : key = k
  · subst h
    rw [if_pos rfl]
    exact tget_tset_same _ _ _ _
  · rw [if_neg h]
    unfold State.setVal tset
    dsimp only
    split
    · rw [tget_tdel, if_neg h]
    · rw [tget_tins _ _ _ _ _ (tdel_keys s.obj k), if_neg h, tget_tdel, if_neg h]

theorem keyIndex_waiver {n : Nat} (h : n < 4) : keyIndex (objKey 0 0x2103 (n + 1)) = 0x2103 := by
  simp only [keyIndex, objKey]
  omega

/-- A revoked slot takes its waivers along, and no other value. -/
theorem State.revokeSlot_effect (s : State) (k : Nat) : SideEffect s (s.revokeSlot k) := by
  have hrevoked : SideEffect s (s.modOtp fun o =>
      { o with slots := tmod {} o.slots k fun x => { x with state := .revoked } }) := s.modSec_effect rfl
  refine fold_holds (SideEffect s) _ _ _ hrevoked fun u n hn hu => hu.trans ?_
  dsimp only
  split
  · refine ⟨⟨⟨_, _, _, _, rfl⟩, rfl⟩, fun key hkey => ?_⟩
    refine (u.tget_setVal (objKey 0 0x2103 (n + 1)) 0 key).trans (if_neg fun heq => hkey ?_)
    rw [heq, keyIndex_waiver (List.mem_range.1 hn)]
  · exact .refl u

theorem State.installWaiver_effect (s : State) (n v : Nat) : SideEffect s (s.installWaiver n v) := by
  unfold State.installWaiver
  split
  · exact .refl s
  · exact s.modSec_effect rfl

theorem State.powerRequest_effect (s : State) (v : Nat) : SideEffect s (s.powerRequest v) := by
  unfold State.powerRequest
  split
  · split
    · exact s.modSec_effect rfl
    · exact .refl s
  · exact s.modSec_effect rfl

theorem State.deviceReset_effect (s : State) (v : Nat) : SideEffect s (s.deviceReset v) := by
  obtain ⟨u, hu⟩ : ∃ u, u = if v = 1 then s.requestWarm 3 else s.requestCold := ⟨_, rfl⟩
  have hasked : SideEffect s u := by
    rw [hu]
    split
    · exact s.modBoot_effect _
    · exact s.modBoot_effect _
  have hform : s.deviceReset v = if u.boot.dev = .recovery then u.modBoot fun b => { b with warmDue := true } else u :=
    hu ▸ rfl
  rw [hform]
  split
  · exact hasked.trans (u.modBoot_effect _)
  · exact hasked

theorem State.fuseKey_effect (s : State) (k v : Nat) : SideEffect s (s.fuseKey k v) := by
  unfold State.fuseKey
  exact s.modSec_effect rfl

theorem State.applyOne_effect (s : State) (life : Bool) (k v : Nat) : SideEffect s (s.applyOne life k v) := by
  unfold State.applyOne
  dsimp only
  split
  · exact s.fuseKey_effect _ v
  split
  · exact s.revokeSlot_effect v
  split
  · exact s.modSec_effect rfl
  split
  · exact s.installWaiver_effect _ v
  split
  · exact s.modSec_effect rfl
  split
  · split
    · exact .refl s
    · exact s.powerRequest_effect v
  split
  · exact s.deviceReset_effect v
  split
  · exact s.modFab_effect _ _
  · exact .refl s

/-! ### What is in force afterwards -/

/-- The value staged last for a key. -/
theorem stagedVal_concat (l : List (Nat × Nat)) (e : Nat × Nat) (key : Nat) :
    stagedVal (l ++ [e]) key = if e.1 = key then some e.2 else stagedVal l key := by
  by_cases h : e.1 = key <;> simp [stagedVal, h]

/-- A list without the entries that are not the last of their key. -/
def finalOf (st : List (Nat × Nat)) : List (Nat × Nat) := st.filter fun e => decide (stagedVal st e.1 = some e.2)

theorem find?_filter_of_found {α : Type} (p q : α → Bool) (l : List α) (h : ∀ a, l.find? p = some a → q a = true) :
    (l.filter q).find? p = l.find? p := by
  rw [List.find?_filter]
  induction l with
  | nil => rfl
  | cons a l ih =>
    by_cases hp : p a = true
    · have hq := h a (List.find?_cons_of_pos hp)
      rw [List.find?_cons_of_pos hp, List.find?_cons_of_pos (by simp [hp, hq])]
    · rw [List.find?_cons_of_neg hp] at h ⊢
      rw [List.find?_cons_of_neg (by simp [hp]), ih h]

theorem stagedVal_finalOf (st : List (Nat × Nat)) (key : Nat) : stagedVal (finalOf st) key = stagedVal st key := by
  rw [stagedVal, finalOf, ← List.filter_reverse]
  refine congrArg (Option.map _) (find?_filter_of_found _ _ _ fun (e : Nat × Nat) he => ?_)
  obtain rfl : e.1 = key := of_decide_eq_true (List.find?_some (p := fun e : Nat × Nat => decide (e.1 = key)) he)
  simp [stagedVal, he]

/-- The values staged, applied in turn. -/
def State.applySteps (s : State) (life : Bool) (l : List (Nat × Nat)) : State :=
  l.foldl (fun s e => (s.applyOne life e.1 e.2).setVal e.1 e.2) s

theorem State.applySteps_concat (s : State) (life : Bool) (l : List (Nat × Nat)) (e : Nat × Nat) :
    s.applySteps life (l ++ [e]) = ((s.applySteps life l).applyOne life e.1 e.2).setVal e.1 e.2 := List.foldl_concat ..

theorem State.applySteps_only (s : State) (life : Bool) (l : List (Nat × Nat)) : AppliesOnly s (s.applySteps life l) :=
  fold_holds (AppliesOnly s) _ l s ⟨⟨_, _, _, _, rfl⟩, rfl⟩ fun u e _ hu =>
    (hu.trans (u.applyOne_effect life e.1 e.2).1).trans ⟨⟨_, _, _, _, rfl⟩, rfl⟩

theorem State.applySteps_values (s : State) (life : Bool) (l : List (Nat × Nat)) {key : Nat} (hkey : keyIndex key ≠ 0x2103) :
    tget (keyDefault key) (s.applySteps life l).obj key = (stagedVal l key).getD (tget (keyDefault key) s.obj key) := by
  induction l using List.reverseRecOn with
  | nil => rfl
  | append_singleton l e ih =>
    obtain ⟨-, hkeeps⟩ := (s.applySteps life l).applyOne_effect life e.1 e.2
    rw [State.applySteps_concat, State.tget_setVal, stagedVal_concat]
    by_cases h : e.1 = key
    · rw [if_pos h.symm, if_pos h]
      rfl
    · rw [if_neg (Ne.symm h), if_neg h, hkeeps key hkey, ih]

theorem State.applyAll_form (s : State) (st : List (Nat × Nat)) : ∃ life, s.applyAll st = s.applySteps life (finalOf st) ∨
    s.applyAll st = (s.applySteps life (finalOf st)).modBoot fun b => { b with storeFresh := true } := by
  exact ⟨match stagedVal st (objKey 0 0x2200 2) with
    | some v => decide (v ≠ 0xFF)
    | none => false, (ite_eq_or_eq _ _ _).symm⟩

/-- What a commit applies. -/
theorem State.applyAll_only (s : State) (st : List (Nat × Nat)) : AppliesOnly s (s.applyAll st) := by
  obtain ⟨life, h | h⟩ := s.applyAll_form st <;> rw [h]
  · exact s.applySteps_only life _
  · exact (s.applySteps_only life _).trans ⟨⟨_, _, _, _, rfl⟩, rfl⟩

theorem State.applyAll_values (s : State) (st : List (Nat × Nat)) {key : Nat} (hkey : keyIndex key ≠ 0x2103) :
    tget (keyDefault key) (s.applyAll st).obj key = (stagedVal st key).getD (tget (keyDefault key) s.obj key) := by
  rw [← stagedVal_finalOf]
  obtain ⟨life, h | h⟩ := s.applyAll_form st <;> rw [h]
  · exact s.applySteps_values life _ hkey
  · exact s.applySteps_values life _ hkey
/-! ### The answers of a commit -/

section
variable {s : State} {via : Via} {x : Session} {sig : BitVec 768}

/-- The values in force written to the store, and the session ended. -/
def State.stores (s : State) : State :=
  s.writeStore.modNet fun n => { n with session := none, lastCommit := 0, failObj := 0 }

/-- A COMMIT that loses no power, or does not reach step 3, is a write of the session object. -/
theorem exec_sessionCommit_row {cut : Option Bool} (h : cut = none ∨ s.commitReaches via sig = none) :
    exec (.sessionCommit via ⟨sig, cut⟩) s = .next (s.rowWrite via 0 0x1E41 4 96 sig.toNat 0) := by
  rcases h with rfl | h
  · rfl
  · cases cut <;> simp [exec, execSessionCommit, h]

section
variable (hserved : s.served = true) (hup : s.up = true) (hx : s.net.session = some x) (hvia : x.endpoint = via)
include hserved hup hx hvia

theorem State.commitReaches_judged : s.commitReaches via sig = if s.commitJudge x sig = (0, 0) then some x else none := by
  simp [State.commitReaches, hserved, hup, State.mySession_eq hx hvia, Option.filter]

/-- A commit that fails ends the session with its code and its object. -/
theorem sessionCommit_fails {cut : Option Bool} {a f : Nat} (ha : a ≠ 0) (hjudge : s.commitJudge x sig = (a, f)) :
    exec (.sessionCommit via ⟨sig, cut⟩) s = .next ((s.modNet fun n =>
      { n with session := none, lastCommit := BitVec.ofNat 32 a, failObj := BitVec.ofNat 32 f }).accepted.countAbort.answer
        via a 0 0) := by
  have hstops : s.commitReaches via sig = none := by
    rw [State.commitReaches_judged hserved hup hx hvia, hjudge, if_neg (by simp [ha])]
  have hcommit : s.accepted.commit via sig = s.accepted.endSession a f := by
    have hjudged : s.accepted.commitJudge x sig = (a, f) := hjudge
    simp [State.commit, State.mySession_eq (s := s.accepted) hx hvia, hjudged, ha]
  rw [exec_sessionCommit_row (.inr hstops), State.rowWrite_aborted hserved hup ha
    ((s.accepted.writeObj_sessionCommit via 0 sig).trans hcommit)]
  rfl

/-- One that passes applies everything staged. -/
theorem sessionCommit_passes (hjudge : s.commitJudge x sig = (0, 0)) :
    exec (.sessionCommit via ⟨sig, none⟩) s = .next ((s.accepted.applyAll x.staged).stores.answer via 0 0 0) := by
  have hcommit : s.accepted.commit via sig = (0, (s.accepted.applyAll x.staged).stores) := by
    have hjudged : s.accepted.commitJudge x sig = (0, 0) := hjudge
    simp only [State.commit, State.mySession_eq (s := s.accepted) hx hvia, hjudged]
    rfl
  rw [exec_sessionCommit_row (.inl rfl), State.rowWrite_wrote hserved hup
    ((s.accepted.writeObj_sessionCommit via 0 sig).trans hcommit)]

theorem sessionCommit_cut {moved : Bool} (hjudge : s.commitJudge x sig = (0, 0)) :
    exec (.sessionCommit via ⟨sig, some moved⟩) s = .next (s.commitCut x moved) := by
  have hreaches : s.commitReaches via sig = some x := by
    rw [State.commitReaches_judged hserved hup hx hvia, hjudge, if_pos rfl]
  simp [exec, execSessionCommit, hreaches]

end

/-! ### The judgement (steps 1 and 2) -/

theorem State.commitJudge_keyless (h : s.ownerKey x.slot = none) : s.commitJudge x sig = (abSignature, 0) := by
  simp [State.commitJudge, h]

section
variable {k : BitVec 776} (hkey : s.ownerKey x.slot = some k)
include hkey

theorem State.commitJudge_unsigned (h : sigVerify k (leBytes 48 x.digest.toNat) sig = false) :
    s.commitJudge x sig = (abSignature, 0) := by
  simp [State.commitJudge, hkey, h]

theorem State.commitJudge_bad {i sub : Nat} (h : sigVerify k (leBytes 48 x.digest.toNat) sig = true)
    (hbad : s.commitBad x.slot x.staged = some (i, sub)) :
    s.commitJudge x sig = (abConstraint, i * 2 ^ 16 + sub * 2 ^ 8) := by
  simp [State.commitJudge, hkey, h, hbad]

theorem State.commitJudge_passes (h : sigVerify k (leBytes 48 x.digest.toNat) sig = true)
    (hbad : s.commitBad x.slot x.staged = none) : s.commitJudge x sig = (0, 0) := by
  simp [State.commitJudge, hkey, h, hbad]

end

end

/-! ### The store (R285) -/

theorem Store.current_write (x : Store) (t : Tab Nat) : (x.write t).current = t := by
  rw [Store.write, Store.current]
  exact ite_self _

/-- Before the marker has moved a cut write leaves what the store holds, after it the new values. -/
theorem Store.current_cut (x : Store) (t : Tab Nat) (moved : Bool) :
    (x.cut t moved).current = if moved then t else x.current := by
  obtain ⟨a, b, marked, torn⟩ := x
  cases moved <;> cases marked <;> rfl

theorem Store.torn_cut (x : Store) (t : Tab Nat) (moved : Bool) :
    (x.cut t moved).torn = if moved then x.torn else true := by
  obtain ⟨a, b, marked, torn⟩ := x
  cases moved <;> cases marked <;> rfl

/-- The loss of power in step 3 holds the device, with the store as the cut left it. -/
theorem State.commitCut_held (s : State) (x : Session) (moved : Bool) (hpower : s.sec.power ≠ .ember) :
    let done := if moved then s.applyAll x.staged else s
    s.commitCut x moved = State.held (done.modBoot fun b => { b with
      store := s.boot.store.cut (s.applyAll x.staged).provisioned moved, suppliesGood := false }) 1 := by
  have hdone : (if moved then s.applyAll x.staged else s).sec.power ≠ .ember := by
    split
    · rwa [(s.applyAll_only x.staged).power]
    · exact hpower
  exact if_neg hdone

/-! ### The obligation -/

/-- The store then holds what is provisioned, in both copies. -/
theorem State.stores_stored (u : State) (via : Via) : let t := u.stores.answer via 0 0 0
    t.stored = t.provisioned ∧ t.boot.store.copyA = t.boot.store.copyB :=
  ⟨Store.current_write u.boot.store u.provisioned, rfl⟩

section
variable (u : State) (via : Via)

theorem State.stores_obj : (u.stores.answer via 0 0 0).obj = u.obj := rfl
theorem State.stores_out : (u.stores.answer via 0 0 0).out = u.out ++ [.reply via 0 0 0] := rfl
theorem State.stores_keeps : let t := u.stores.answer via 0 0 0
    t.eff = u.eff ∧ t.effT = u.effT ∧ t.frame = u.frame ∧ t.mem = u.mem ∧ t.ctxs = u.ctxs ∧ t.gauges = u.gauges :=
  ⟨rfl, rfl, rfl, rfl, rfl, rfl⟩

end

theorem sessionCommit_whole (s : State) (x : Session) (via : Via) :
    let t := (s.accepted.applyAll x.staged).stores.answer via 0 0 0
    t.net.session = none ∧ t.net.lastCommit = 0 ∧ t.net.failObj = 0 ∧ t.out = s.out ++ [.reply via 0 0 0] ∧
    (∀ key, keyIndex key ≠ 0x2103 → tget (keyDefault key) t.obj key =
      (stagedVal x.staged key).getD (tget (keyDefault key) s.obj key)) ∧
    t.stored = t.provisioned ∧ t.boot.store.copyA = t.boot.store.copyB ∧
    t.eff = s.eff ∧ t.effT = s.effT ∧ t.frame = s.frame ∧ t.mem = s.mem ∧ t.ctxs = s.ctxs ∧ t.gauges = s.gauges := by
  obtain ⟨u, hu⟩ : ∃ u, u = s.accepted.applyAll x.staged := ⟨_, rfl⟩
  have hvalues : ∀ key, keyIndex key ≠ 0x2103 → tget (keyDefault key) u.obj key =
      (stagedVal x.staged key).getD (tget (keyDefault key) s.obj key) :=
    hu ▸ fun key hkey => s.accepted.applyAll_values x.staged hkey
  have honly : AppliesOnly s.accepted u := hu ▸ s.accepted.applyAll_only x.staged
  obtain ⟨hstored, hcopies⟩ := u.stores_stored via
  rw [← hu]
  refine ⟨rfl, rfl, rfl, ?_, fun key hkey => ?_, hstored, hcopies, ?_⟩
  · rw [u.stores_out via, honly.out]
    rfl
  · rw [u.stores_obj via, hvalues key hkey]
  · obtain ⟨heff, heffT, hframe, hmem, hctxs, hgauges⟩ := u.stores_keeps via
    obtain ⟨heff', heffT', hframe', hmem', hctxs', hgauges'⟩ := honly.keeps
    exact ⟨heff.trans heff', heffT.trans heffT', hframe.trans hframe', hmem.trans hmem', hctxs.trans hctxs',
      hgauges.trans hgauges'⟩

theorem State.healStore_lastCommit (s : State) :
    s.healStore.net.lastCommit = if s.boot.store.torn then BitVec.ofNat 32 abGeneral else s.net.lastCommit := by
  unfold State.healStore
  dsimp only
  split <;> rfl

/-- A start-up makes the other copy good, and reports a write that was cut before the marker moved. -/
theorem State.coldStart_heals (s : State) (cause : Nat) : let t := s.coldStart cause
    t.boot.store.copyA = s.stored ∧ t.boot.store.copyB = s.stored ∧
      t.net.lastCommit = if s.boot.store.torn = true then BitVec.ofNat 32 abGeneral else 0 := by
  have hlast : (s.coldStart cause).net.lastCommit = s.coldHold.latchStore.healStore.net.lastCommit := rfl
  obtain ⟨n, hheal⟩ := s.coldHold.latchStore.healStore_form
  refine ⟨?_, ?_, hlast.trans (State.healStore_lastCommit _)⟩ <;> rw [State.coldStart, hheal] <;> rfl

/-- Power-good reads the copy that the marker names. -/
theorem powerGood_heals {s : State} (hlow : s.boot.resetLow = true) (hgood : s.boot.suppliesGood = true)
    (hclock : s.boot.sysclk = true) : Answers .powerGood s fun t =>
      t.stored = s.stored ∧ t.obj = s.stored ∧ t.boot.store.copyA = s.stored ∧ t.boot.store.copyB = s.stored ∧
      t.net.lastCommit = if s.boot.store.torn = true then BitVec.ofNat 32 abGeneral else 0 := by
  obtain ⟨u, hu⟩ : ∃ u, u = s.modBoot fun b => { b with resetLow := false } := ⟨_, rfl⟩
  have hcold : u.tryCold s.boot.cause = u.coldStart s.boot.cause :=
    State.tryCold_ready _ (hu ▸ hclock) (hu ▸ hgood) (hu ▸ rfl)
  have hkept : u.stored = s.stored ∧ u.boot.store = s.boot.store := hu ▸ ⟨rfl, rfl⟩
  have hexec : exec .powerGood s = .next (u.coldStart s.boot.cause) := by
    rw [← hcold, hu]
    simp [exec, execPowerGood, due, hlow, hgood]
  obtain ⟨-, -, -, hstored, hobj⟩ := u.coldStart_fromStore s.boot.cause
  obtain ⟨hA, hB, hlast⟩ := u.coldStart_heals s.boot.cause
  rw [hkept.1] at hstored hobj hA hB
  rw [hkept.2] at hlast
  exact ⟨_, hexec, hstored, hobj, hA, hB, hlast⟩

/-- What a cut leaves once the marker has moved: the provisioned part of the new values. -/
theorem State.commitCut_moved (s : State) (x : Session) (hpower : s.sec.power ≠ .ember) : let t := s.commitCut x true
    t.boot.suppliesGood = false ∧ t.boot.started = false ∧ t.obj = t.stored ∧
    (∀ key, isRwp key = true → keyIndex key ≠ 0x2103 → tget (keyDefault key) t.obj key =
      (stagedVal x.staged key).getD (tget (keyDefault key) s.obj key)) ∧
    t.boot.store.torn = s.boot.store.torn ∧ t.out = s.out := by
  have hcut := s.commitCut_held x true hpower
  have hobj : (s.commitCut x true).obj = (s.applyAll x.staged).provisioned := by
    rw [hcut]
    exact Store.current_cut _ _ true
  refine ⟨?_, ?_, ?_, fun key hrwp hkey => ?_, ?_, ?_⟩
  · rw [hcut]; rfl
  · rw [hcut]; rfl
  · rw [hcut]; rfl
  · rw [hobj, State.provisioned, tget_filter_keys, if_pos hrwp, s.applyAll_values x.staged hkey]
  · rw [hcut]; exact Store.torn_cut _ _ true
  · rw [hcut]; exact (s.applyAll_only x.staged).out

/-- Before that, nothing but the mark of the write that was cut. -/
theorem State.commitCut_unmoved (s : State) (x : Session) (hpower : s.sec.power ≠ .ember) : let t := s.commitCut x false
    t.boot.suppliesGood = false ∧ t.boot.started = false ∧ t.stored = s.stored ∧ t.obj = s.stored ∧
    t.sec.otp = s.sec.otp ∧ t.boot.store.torn = true ∧ t.out = s.out := by
  rw [s.commitCut_held x false hpower]
  exact ⟨rfl, rfl, rfl, rfl, rfl, rfl, rfl⟩

/-- Settles O53: a commit is judged, then applied whole or not at all; a cut one leaves one copy of the store or the other. -/
theorem commitsAreWhole : Obligations.CommitsAreWhole := by
  intro s via sig cut
  refine ⟨fun x hserved hup hx hvia => ?_, powerGood_heals⟩
  intro failed new
  refine ⟨fun hkeyless => ?_, fun k hkey => ⟨fun hbad => ?_, fun i sub hok hbad => ?_, fun hok hgood => ?_⟩⟩
  · exact sessionCommit_fails hserved hup hx hvia (by decide) (State.commitJudge_keyless hkeyless)
  · exact sessionCommit_fails hserved hup hx hvia (by decide) (State.commitJudge_unsigned hkey hbad)
  · exact sessionCommit_fails hserved hup hx hvia (by decide) (State.commitJudge_bad hkey hok hbad)
  · have hjudge := State.commitJudge_passes hkey hok hgood
    have hcut (moved : Bool) := sessionCommit_cut (moved := moved) hserved hup hx hvia hjudge
    refine ⟨?_, ?_, ?_⟩
    · rintro rfl
      exact ⟨_, sessionCommit_passes hserved hup hx hvia hjudge, sessionCommit_whole s x via⟩
    · rintro rfl hpower
      exact ⟨_, hcut false, s.commitCut_unmoved x hpower⟩
    · rintro rfl hpower
      exact ⟨_, hcut true, s.commitCut_moved x hpower⟩

end Sys2Proof.Machine
end

section
/-!
TransfersKeepPorts (R257): what no transfer changes of the network: the ports, the maps and the functions.
-/

namespace Sys2Proof.Machine

open Sys2Proof

/-! ### The ports, and what leaves them -/

/-- The network but for the selectors of the views, the session and the counters of transfers. -/
def State.ports (s : State) : Net :=
  { s.net with views := [], session := none, lastCommit := 0, failObj := 0, xferAccepted := 0, xferRefused := 0, aborts := 0 }

theorem State.ports_of_net {s t : State} (h : t.net = s.net) : t.ports = s.ports := by rw [State.ports, State.ports, h]

section
variable {s t : State} (h : t.ports = s.ports)
include h

theorem State.can_of_ports (p : Nat) : t.can p = s.can p :=
  (congrArg (fun n : Net => tget ({} : CanPort) n.can p) h :)
theorem State.map_of_ports (n : Nat) : t.map n = s.map n :=
  (congrArg (fun x : Net => tget ({} : CycMap) x.maps n) h :)
theorem State.func_of_ports (p f : Nat) : t.func p f = s.func p f :=
  (congrArg (fun n : Net => tget ({} : Func) n.func (16 * p + f)) h :)

end

section
variable (s : State)

@[simp] theorem State.modSec_ports (f : Sec → Sec) : (s.modSec f).ports = s.ports := rfl
@[simp] theorem State.modOtp_ports (f : Otp → Otp) : (s.modOtp f).ports = s.ports := rfl
@[simp] theorem State.modBoot_ports (f : Boot → Boot) : (s.modBoot f).ports = s.ports := rfl
@[simp] theorem State.modFrame_ports (f : Frame → Frame) : (s.modFrame f).ports = s.ports := rfl
@[simp] theorem State.modTen_ports (t : Nat) (f : Tenant → Tenant) : (s.modTen t f).ports = s.ports := rfl
@[simp] theorem State.modCtx_ports (c : Nat) (f : Ctx → Ctx) : (s.modCtx c f).ports = s.ports := rfl
@[simp] theorem State.setCtx_ports (c : Nat) (x : Ctx) : (s.setCtx c x).ports = s.ports := rfl
@[simp] theorem State.modQueue_ports (c q : Nat) (f : Queue → Queue) : (s.modQueue c q f).ports = s.ports := rfl
@[simp] theorem State.modView_ports (w : View) (f : ViewSel → ViewSel) : (s.modView w f).ports = s.ports := rfl
@[simp] theorem State.setVal_ports (k v : Nat) : (s.setVal k v).ports = s.ports := rfl
@[simp] theorem State.queueRwt_ports (r : List Rwt) : { s with rwt := r }.ports = s.ports := rfl
@[simp] theorem State.takeFree_ports : s.takeFree.2.ports = s.ports := rfl
@[simp] theorem State.noteBad_ports (a : Nat) : (s.noteBad a).ports = s.ports := rfl
@[simp] theorem State.wr_ports (a : Nat) (bs : List Byte) : (s.wr a bs).ports = s.ports := by
  obtain ⟨⟨m, p, f, h, hform⟩, -⟩ := s.wr_dataOnly a bs
  exact State.ports_of_net (by rw [hform])
@[simp] theorem State.answer_ports (via : Via) (abort len v : Nat) : (s.answer via abort len v).ports = s.ports := rfl
@[simp] theorem State.ignored_ports (t : Nat) : (s.ignored t).ports = s.ports := rfl
@[simp] theorem State.accepted_ports : s.accepted.ports = s.ports := rfl
@[simp] theorem State.countAbort_ports : s.countAbort.ports = s.ports := rfl
@[simp] theorem State.setSession_ports (x : Option Session) : (s.modNet fun n => { n with session := x }).ports = s.ports := rfl
@[simp] theorem State.refuse_ports :
    (s.modNet fun n => { n with xferRefused := satInc 32 n.xferRefused }).countAbort.ports = s.ports := rfl
@[simp] theorem State.endGrants_ports (p : Grant → Bool) : (s.endGrants p).ports = s.ports := rfl
@[simp] theorem State.endSession_ports (res fail : Nat) : (s.endSession res fail).2.ports = s.ports := rfl
@[simp] theorem State.setCount_ports (c : Nat) (n : BitVec 32) (device : Bool) : (s.setCount c n device).ports = s.ports := rfl

/-! ### Contexts, doorbells and the keep table -/

@[simp] theorem createCtx_ports (via : Via) (t : Nat) (r : BitVec 1024) : (createCtx s via t r).2.ports = s.ports := by
  unfold createCtx
  grind [State.modView_ports, State.setCtx_ports]

@[simp] theorem ctxChange_ports (c cmd : Nat) (body : BitVec 1024) : (ctxChange s c cmd body).2.ports = s.ports := by
  unfold ctxChange
  grind [State.modCtx_ports]

@[simp] theorem contextCommand_ports (via : Via) (h : BitVec 128) (body : BitVec 1024) :
    (contextCommand s via h body).2.ports = s.ports := by
  unfold contextCommand
  grind [State.ignored_ports, createCtx_ports, ctxChange_ports]

@[simp] theorem doorbellConsumer_ports (via : Via) (w : BitVec 64) : (doorbellConsumer s via w).ports = s.ports := by
  unfold doorbellConsumer
  grind [State.modCtx_ports, State.ignored_ports]

/-- A doorbell is queue work. -/
@[simp] theorem doorbellQueue_ports (via : Via) (w : BitVec 64) : (doorbellQueue s via w).ports = s.ports := by
  unfold doorbellQueue
  split
  · rfl
  · dsimp only
    split
    next hopen =>
      have hq : bellTarget w < 8 := by
        simp only [Bool.and_eq_true, decide_eq_true_eq] at hopen
        exact hopen.1.2
      exact State.ports_of_net (State.ring_rung (by omega)).system.net
    next => exact s.ignored_ports _

@[simp] theorem State.bell_ports (via : Via) (w : BitVec 64) : (s.bell via w).ports = s.ports := by
  unfold State.bell
  split <;> simp

@[simp] theorem keepUpdate_ports (t : Nat) (v : BitVec 192) : (keepUpdate s t v).2.ports = s.ports := by
  unfold keepUpdate
  grind [State.ignored_ports, State.setCount_ports]

@[simp] theorem State.keepWrite_ports (via : Via) (v : Nat) : (s.keepWrite via v).2.ports = s.ports := by
  unfold State.keepWrite
  split <;> simp

/-! ### Debug -/

@[simp] theorem State.debugRequest_ports (via : Via) (v : Nat) (fresh : BitVec 384) :
    (s.debugRequest via v fresh).2.ports = s.ports := by
  unfold State.debugRequest
  grind [State.modSec_ports]

@[simp] theorem State.granted1_ports (c : Challenge) : (s.granted1 c).ports = s.ports := by simp [State.granted1]

@[simp] theorem State.debugResponse_ports (via : Via) (sig : BitVec 768) (vendor : BitVec 776) :
    (s.debugResponse via sig vendor).2.ports = s.ports := by
  unfold State.debugResponse
  grind [State.granted1_ports, State.modSec_ports]

@[simp] theorem State.debugWrite_ports (via : Via) (sub v : Nat) (fresh : BitVec 384) :
    (s.debugWrite via sub v fresh).2.ports = s.ports := by
  unfold State.debugWrite State.relock
  grind [State.debugRequest_ports, State.debugResponse_ports, State.endGrants_ports]

@[simp] theorem State.writeMem_ports (a : Nat) (v : BitVec 64) : (s.writeMem a v).2.ports = s.ports := by
  unfold State.writeMem
  grind [State.modCtx_ports, State.noteBad_ports, State.wr_ports]

@[simp] theorem State.windowHaltWrite_ports (via : Via) (i sub v : Nat) :
    (s.windowHaltWrite via i sub v).2.ports = s.ports := by
  unfold State.windowHaltWrite State.setWindow State.windowWrite State.haltQueue State.resumeQueue
  grind [State.modSec_ports, State.modQueue_ports, State.writeMem_ports]

/-! ### Sessions -/

theorem State.applyAll_ports (st : List (Nat × Nat)) : (s.applyAll st).ports = s.ports := by
  obtain ⟨o, x, b, f, hform⟩ := (s.applyAll_only st).rest
  exact State.ports_of_net (by rw [hform])

theorem State.openSession_ports (via : Via) (slot : Nat) (nonce : BitVec 384) :
    (s.openSession via slot nonce).2.ports = s.ports := by
  unfold State.openSession
  repeat' split
  all_goals rfl

theorem State.closeSession_ports (via : Via) (v : Nat) : (s.closeSession via v).2.ports = s.ports := by
  unfold State.closeSession
  repeat' split
  all_goals rfl

theorem State.commit_ports (via : Via) (sig : BitVec 768) : (s.commit via sig).2.ports = s.ports := by
  unfold State.commit
  split
  · rfl
  · dsimp only
    split
    · exact (State.endSession_ports _ 0 0).trans ((State.modBoot_ports _ _).trans (s.applyAll_ports _))
    · exact s.endSession_ports _ _

@[simp] theorem State.sessionWrite_ports (via : Via) (sub v : Nat) (nonce : BitVec 384) :
    (s.sessionWrite via sub v nonce).2.ports = s.ports := by
  unfold State.sessionWrite
  grind [State.openSession_ports, State.commit_ports, State.closeSession_ports]

@[simp] theorem State.stage_ports (x : Session) (r : ObjRow) (port i sub len v : Nat) :
    (s.stage x r port i sub len v).2.ports = s.ports := by
  unfold State.stage
  split <;> simp

@[simp] theorem State.keyWrite_ports (sub len v : Nat) : (s.keyWrite sub len v).2.ports = s.ports := by
  unfold State.keyWrite State.blankKey State.recoveryKey State.fuseKey
  grind [State.modSec_ports, State.modOtp_ports, State.modBoot_ports]

/-! ### Writes -/

@[simp] theorem State.rwtWrite_ports (i sub v : Nat) : (s.rwtWrite i sub v).2.ports = s.ports := by
  unfold State.rwtWrite State.resumeWrite
  grind [State.setVal_ports, State.queueRwt_ports, State.modFrame_ports]

@[simp] theorem State.viewWrite_ports (w : View) (i sub v : Nat) : (s.viewWrite w i sub v).2.ports = s.ports := by
  unfold State.viewWrite State.clearNotify
  grind [State.modSec_ports, State.modView_ports, State.modTen_ports]

@[simp] theorem State.applyWrite_ports (via : Via) (i sub v : Nat) (fresh : BitVec 384) :
    (s.applyWrite via i sub v fresh).2.ports = s.ports := by
  unfold State.applyWrite State.tenantReset State.requestTenantReset
  grind [State.sessionWrite_ports, State.debugWrite_ports, contextCommand_ports, State.bell_ports, State.keepWrite_ports,
    State.modTen_ports, State.windowHaltWrite_ports, State.viewWrite_ports]

@[simp] theorem State.writeShown_ports (via : Via) (r : ObjRow) (i sub len v : Nat) (fresh : BitVec 384) :
    (s.writeShown via r i sub len v fresh).2.ports = s.ports := by
  unfold State.writeShown
  grind [State.applyWrite_ports, State.rwtWrite_ports]

@[simp] theorem State.writeObj_ports (via : Via) (port i sub len v : Nat) (fresh : BitVec 384) :
    (s.writeObj via port i sub len v fresh).2.ports = s.ports := by
  unfold State.writeObj
  grind [State.keyWrite_ports, State.stage_ports, State.writeShown_ports]

@[simp] theorem State.writeFresh_ports (via : Via) (port i sub len v : Nat) :
    (s.writeFresh via port i sub len v).2.ports = s.ports := by
  unfold State.writeFresh wrote
  split
  · exact (s.takeFree.2.writeObj_ports via port i sub len v _).trans s.takeFree_ports
  · exact s.writeObj_ports via port i sub len v 0

/-! ### Transfers -/

@[simp] theorem State.readObj_ports (via : Via) (port i sub : Nat) : (s.readObj via port i sub).2.ports = s.ports := by
  have hread : (s.windowRead via).2.ports = s.ports := by
    unfold State.windowRead
    grind [State.noteBad_ports, State.takeFree_ports]
  unfold State.readObj
  grind

theorem State.perform_ports {out : Nat} {early : Bool} {f : State → Ans × State} (h : ∀ u, (f u).2.ports = u.ports) :
    (s.perform out early f).2.ports = s.ports := by
  unfold State.perform
  grind [State.refuse_ports, State.countAbort_ports, State.accepted_ports]

theorem State.mailRequest_ports (via : Via) (h : BitVec 256) (bs : List Byte) (out : Nat) :
    (s.mailRequest via h bs out).2.ports = s.ports := by
  have hread : (s.readXfer via h out).2.ports = s.ports := s.perform_ports fun u => u.readObj_ports _ _ _ _
  have hwrite (bs : List Byte) : (s.writeXfer via h bs out).2.ports = s.ports := s.perform_ports fun u => by
    grind [State.writeFresh_ports]
  have hdescribe : (s.describeXfer via h out).2.ports = s.ports := s.perform_ports fun u => by
    unfold State.describeAns
    split <;> rfl
  unfold State.mailRequest
  grind [State.countAbort_ports]

end

end Sys2Proof.Machine
end

section
/-!
MailboxAndCalls (R277, R278, R280): a request performed on a mailbox, its response, and the supervisor call.
-/

namespace Sys2Proof.Machine

open Sys2Proof

/-! ### MSI-X and headers -/

section
variable (s : State) (port func entry : Nat)

/-- A message changes at most the pending bits of its function. -/
theorem State.msix_form : (∃ p : Func → Tab Bool, s.msix port func entry =
    s.modFunc port func fun f => { f with pendingBits := p f }) ∨ ∃ o, s.msix port func entry = { s with out := o } := by
  unfold State.msix
  dsimp only
  split
  · exact .inr ⟨s.out, rfl⟩
  · split
    · exact .inl ⟨_, rfl⟩
    · exact .inr ⟨_, rfl⟩

theorem State.msix_func : ∃ p, (s.msix port func entry).func port func = { s.func port func with pendingBits := p } := by
  obtain ⟨p, h⟩ | ⟨o, h⟩ := s.msix_form port func entry <;> rw [h]
  · exact ⟨_, s.modFunc_same port func fun f => { f with pendingBits := p f }⟩
  · exact ⟨_, rfl⟩

theorem State.msix_keeps : (s.msix port func entry).mem = s.mem ∧ (s.msix port func entry).ctxs = s.ctxs ∧
    (s.msix port func entry).frame = s.frame := by
  obtain ⟨p, h⟩ | ⟨o, h⟩ := s.msix_form port func entry <;> rw [h] <;> exact ⟨rfl, rfl, rfl⟩

end

/-- The status field of a header. -/
theorem pranilHdr_status (type seq index sub port length status frame : Nat) :
    fld (pranilHdr type seq index sub port length status frame) 159 128 = status % 2 ^ 32 := by
  simp only [fld, pranilHdr, BitVec.toNat_ofNat, Nat.shiftRight_eq_div_pow]
  omega

theorem bit_setWidth_vec (vec : BitVec 9) : bit (vec.setWidth 16) 8 = bit vec 8 := by
  simp [bit]

/-! ### GO -/

/-- A function whose request is answered. -/
def Func.answered (f : Func) (a : Ans) (hdr : BitVec 256) : Func :=
  match a with
  | .ok (n, v) => { f with mbx := .done, rspHdr := hdr, rspData := leBytes n v }
  | .error _ => { f with mbx := .aborted, rspHdr := hdr, rspData := [] }

theorem Func.answered_registers (f : Func) (a : Ans) (hdr : BitVec 256) :
    (f.answered a hdr).vec = f.vec ∧ (f.answered a hdr).req = f.req ∧ (f.answered a hdr).reqData = f.reqData := by
  unfold Func.answered
  split <;> exact ⟨rfl, rfl, rfl⟩

section
variable {s : State} {port func : Nat} {h : BitVec 256} {bs : List Byte} {out : Nat} {r : Ans × State}

/-- The request in the registers is performed; the response is written, and then the message is sent. -/
theorem State.mailbox_form (hreq : (s.func port func).req = h) (hdata : (s.func port func).reqData = bs)
    (hr : s.mailRequest (.pcie port func) h bs out = r) : ∃ hdr, (∀ a, r.1 = .error a → fld hdr 159 128 = a % 2 ^ 32) ∧
      ∃ u, u = (r.2.modFunc port func fun f => f.answered r.1 hdr) ∧ s.mailbox port func out =
        if bit (u.func port func).vec 8 && u.up then u.msix port func (fld (u.func port func).vec 7 0) else u := by
  obtain ⟨a, t⟩ := r
  cases a with
  | ok nv =>
    obtain ⟨n, v⟩ := nv
    refine ⟨t.answerHdr h 0x10 (leBytes n v).length 0, fun a ha => absurd ha (by simp), _, rfl, ?_⟩
    simp only [State.mailbox, hreq, hdata, hr, response]
    rfl
  | error a =>
    refine ⟨t.answerHdr h 0x11 0 a, fun b hb => ?_, _, rfl, ?_⟩
    · obtain rfl := Except.error.inj hb
      exact pranilHdr_status ..
    · simp only [State.mailbox, hreq, hdata, hr, response]
      rfl

/-- The function then, and the rest as the request left it. -/
theorem State.mailbox_answered (hreq : (s.func port func).req = h) (hdata : (s.func port func).reqData = bs)
    (hr : s.mailRequest (.pcie port func) h bs out = r) : let t := s.mailbox port func out
      ∃ hdr p, (∀ a, r.1 = .error a → fld hdr 159 128 = a % 2 ^ 32) ∧
        t.func port func = { (s.func port func).answered r.1 hdr with pendingBits := p } ∧
        t.mem = r.2.mem ∧ t.ctxs = r.2.ctxs ∧ t.frame = r.2.frame ∧
        (bit (s.func port func).vec 8 = false → t.out = r.2.out) := by
  obtain ⟨hdr, hstatus, u, hu, hform⟩ := State.mailbox_form hreq hdata hr
  have hkept : r.2.func port func = s.func port func :=
    hr ▸ State.func_of_ports (s.mailRequest_ports _ _ _ _) port func
  have hfunc : u.func port func = (s.func port func).answered r.1 hdr := by
    rw [hu, State.modFunc_same, hkept]
  have hrest : u.mem = r.2.mem ∧ u.ctxs = r.2.ctxs ∧ u.frame = r.2.frame := hu ▸ ⟨rfl, rfl, rfl⟩
  obtain ⟨hvec, -, -⟩ := (s.func port func).answered_registers r.1 hdr
  rw [hform]
  dsimp only
  split
  next hsent =>
    obtain ⟨p, hp⟩ := u.msix_func port func (fld (u.func port func).vec 7 0)
    obtain ⟨hmem, hctxs, hframe⟩ := u.msix_keeps port func (fld (u.func port func).vec 7 0)
    refine ⟨hdr, p, hstatus, by rw [hp, hfunc], hmem.trans hrest.1, hctxs.trans hrest.2.1, hframe.trans hrest.2.2,
      fun hno => ?_⟩
    rw [hfunc, hvec, hno] at hsent
    exact absurd hsent (by simp)
  next =>
    exact ⟨hdr, _, hstatus, hfunc, hrest.1, hrest.2.1, hrest.2.2, fun _ => hu ▸ rfl⟩

end

section
variable {s : State} {port func : Nat} {vec : BitVec 9} {h : BitVec 256} {bs : List Byte} {out : Nat}
  (hserved : s.served = true) (hfunc : s.funcUp port func = true)

section
variable (hregs : s.regsWrite (.pcie port func) (hIndex h) (hSub h) = false)
include hserved hfunc hregs

/-- GO, with the registers filled: performed on an IDLE mailbox, ignored elsewhere. -/
theorem exec_mailboxGo : exec (.mailboxGo port func vec h bs out) s =
    .next (if (s.func port func).mbx = .idle then (s.mailFill port func vec h bs).mailbox port func out
      else s.mailFill port func vec h bs) := by
  rw [exec, execMailboxGo, if_neg (by simp [hregs]), hserved, hfunc]
  rfl

theorem mailboxGo_answers (hidle : (s.func port func).mbx = .idle) :
    let filled := s.mailFill port func vec h bs
    let r := filled.mailRequest (.pcie port func) h bs out
    Answers (.mailboxGo port func vec h bs out) s fun t =>
      (∀ n v, r.1 = .ok (n, v) → (t.func port func).mbx = .done ∧ (t.func port func).rspData = leBytes n v) ∧
      (∀ a, r.1 = .error a → (t.func port func).mbx = .aborted ∧ (t.func port func).rspData = [] ∧
        fld (t.func port func).rspHdr 159 128 = a % 2 ^ 32) ∧
      (t.func port func).vec = vec.setWidth 16 ∧ (t.func port func).req = h ∧ (t.func port func).reqData = bs ∧
      t.mem = r.2.mem ∧ t.ctxs = r.2.ctxs ∧ t.frame = r.2.frame ∧ (bit vec 8 = false → t.out = r.2.out) ∧
      (hdrOk h = false ∨ hType h = 0 ∨ 3 < hType h → r = (.error abCommand, filled.countAbort)) := by
  obtain ⟨w, hw⟩ : ∃ w, w = s.mailFill port func vec h bs := ⟨_, rfl⟩
  have hfilled : w.func port func = { s.func port func with vec := vec.setWidth 16, req := h, reqData := bs } :=
    hw ▸ s.modFunc_same port func _
  have hgo := exec_mailboxGo (vec := vec) (bs := bs) (out := out) hserved hfunc hregs
  rw [if_pos hidle, ← hw] at hgo
  rw [← hw]
  obtain ⟨r, hr⟩ : ∃ r, w.mailRequest (.pcie port func) h bs out = r := ⟨_, rfl⟩
  obtain ⟨hdr, p, hstatus, hthen, hmem, hctxs, hframe, hout⟩ :=
    State.mailbox_answered (by rw [hfilled]) (by rw [hfilled]) hr
  obtain ⟨hvec, hreq, hdata⟩ := (w.func port func).answered_registers r.1 hdr
  dsimp only
  rw [hr]
  refine ⟨_, hgo, ?_, ?_, ?_, ?_, ?_, hmem, hctxs, hframe, fun hno => hout ?_, fun hbad => ?_⟩
  · intro n v hok
    rw [hthen, hok]
    exact ⟨rfl, rfl⟩
  · intro a herr
    rw [hthen, herr]
    exact ⟨rfl, rfl, hstatus a herr⟩
  · rw [hthen]
    exact hvec.trans (by rw [hfilled])
  · rw [hthen]
    exact hreq.trans (by rw [hfilled])
  · rw [hthen]
    exact hdata.trans (by rw [hfilled])
  · rw [hfilled]
    exact (bit_setWidth_vec vec).trans hno
  · rw [← hr]
    refine if_pos ?_
    rcases hbad with hbad | hbad | hbad <;> simp [hbad]

end

/-- A function whose response is taken. -/
def Func.cleared (f : Func) : Func := { f with mbx := if f.mbx = .busy then .busy else .idle }

theorem Func.cleared_answered {f : Func} (h : f.mbx ≠ .busy) : f.cleared = { f with mbx := .idle } := by
  rw [Func.cleared, if_neg h]

include hfunc in
/-- A 1 in bit 31 returns the mailbox to IDLE. -/
theorem mailboxStatusClear_answers {v : BitVec 32} (hbusy : (s.func port func).mbx ≠ .busy) :
    (bit v 31 = true → Answers (.mailboxStatusClear port func v) s fun t =>
      t.func port func = { s.func port func with mbx := .idle } ∧
      (∀ p f, p < 2 → f < 16 → ¬ (p = port ∧ f = func) → t.func p f = s.func p f) ∧ t.out = s.out) ∧
    (bit v 31 = false → exec (.mailboxStatusClear port func v) s = .next s) := by
  have hexec : exec (.mailboxStatusClear port func v) s =
      .next (if bit v 31 = true then s.modFunc port func Func.cleared else s) := by
    rw [exec, execMailboxStatusClear, hfunc]
    rfl
  have hrange : func < 16 := by
    simp only [State.funcUp, Bool.and_eq_true, decide_eq_true_eq] at hfunc
    exact hfunc.1.2
  refine ⟨fun hset => ⟨s.modFunc port func Func.cleared, by rw [hexec, if_pos hset], ?_, fun p f hp hf hother => ?_, rfl⟩,
    fun hclear => by rw [hexec, hclear]; rfl⟩
  · rw [State.modFunc_same, Func.cleared_answered hbusy]
  · rw [State.func_modFunc, if_neg (by omega)]

end

/-! ### The supervisor call (R280) -/

/-- A call is performed, and answered with the response to it. -/
theorem supervisorCall_answers {s : State} {via : Via} {h : BitVec 256} {bs : List Byte} {out : Nat} (hserved : s.served = true)
    (hcalls : Via.calls via = true) (hregs : s.regsWrite via (hIndex h) (hSub h) = false) {r : Ans × State}
    (hr : s.mailRequest via h bs out = r) :
    (∀ n v, r.1 = .ok (n, v) → exec (.supervisorCall via h bs out) s =
      .next (r.2.send (.callReply via (r.2.answerHdr h 0x10 n 0) (leBytes n v)))) ∧
    (∀ a, r.1 = .error a → exec (.supervisorCall via h bs out) s =
      .next (r.2.send (.callReply via (r.2.answerHdr h 0x11 0 a) []))) := by
  have hexec : exec (.supervisorCall via h bs out) s = .next (s.call via h bs out) := by
    rw [exec, execSupervisorCall, if_neg (by simp [hregs]), hserved, hcalls]
    rfl
  obtain ⟨a, t⟩ := r
  rw [hexec]
  refine ⟨fun n v hok => ?_, fun a herr => ?_⟩
  · obtain rfl := hok
    simp [State.call, hr, response, leBytes_length]
  · obtain rfl := herr
    simp [State.call, hr, response]

/-- Settles O49: GO performs the request in the registers, bit 31 clears its answer, and a call is answered at once. -/
theorem mailboxAndCalls : Obligations.MailboxAndCalls := by
  intro s h bs out hserved
  refine ⟨fun port func vec hfunc hregs => ⟨fun hbusy => ?_, fun hidle => mailboxGo_answers hserved hfunc hregs hidle⟩,
    fun port func v hfunc hbusy => mailboxStatusClear_answers hfunc hbusy,
    fun via hcalls hregs => supervisorCall_answers hserved hcalls hregs rfl⟩
  exact (exec_mailboxGo hserved hfunc hregs).trans (by rw [if_neg hbusy]; rfl)

end Sys2Proof.Machine
end

section
/-!
CyclicMapsAndPdos (R257, R262, R263, R265, R273, R275): what a map or a PDO that is written leaves, what SYNC counts and
captures, and USDO.
-/

namespace Sys2Proof.Machine

open Sys2Proof

/-! ### Entries that a map or a PDO writes -/

/-- The ports, memory and what is sent. -/
def KeepsPorts (s t : State) : Prop := t.ports = s.ports ∧ t.mem = s.mem ∧ t.out = s.out

theorem KeepsPorts.trans {s t u : State} (hst : KeepsPorts s t) (htu : KeepsPorts t u) : KeepsPorts s u :=
  ⟨htu.1.trans hst.1, htu.2.1.trans hst.2.1, htu.2.2.trans hst.2.2⟩

theorem State.rwtWrite_keeps (s : State) (i sub v : Nat) : KeepsPorts s (s.rwtWrite i sub v).2 := by
  refine ⟨s.rwtWrite_ports i sub v, ?_⟩
  unfold State.rwtWrite State.resumeWrite
  dsimp only
  repeat' split
  all_goals exact ⟨rfl, rfl⟩

theorem State.viewWrite_keeps (s : State) (w : View) (i sub v : Nat) : KeepsPorts s (s.viewWrite w i sub v).2 := by
  refine ⟨s.viewWrite_ports w i sub v, ?_⟩
  unfold State.viewWrite
  repeat' split
  all_goals exact ⟨rfl, rfl⟩

theorem State.mapWrite_keeps (s : State) (w : View) (i sub v : Nat) : KeepsPorts s (s.mapWrite w i sub v).2 := by
  have hsame : KeepsPorts s s := ⟨rfl, rfl, rfl⟩
  unfold State.mapWrite
  split
  · exact hsame
  · split
    · exact hsame
    split
    · exact hsame
    split
    · exact s.rwtWrite_keeps i sub v
    · exact s.viewWrite_keeps w i sub v

theorem State.writeEntries_keeps {s t : State} {w : View} {l : List (Nat × Nat × Nat)} {bs : List Byte}
    (h : s.writeEntries w l bs = some t) : KeepsPorts s t := by
  fun_induction State.writeEntries s w l bs with
  | case1 s bs =>
    obtain rfl := Option.some.inj h
    exact ⟨rfl, rfl, rfl⟩
  | case2 s i sub n rest bs u hwrite ih =>
    have hkeeps := s.mapWrite_keeps w i sub (leNat (bs.take n))
    rw [hwrite] at hkeeps
    exact hkeeps.trans (ih h)
  | case3 => exact absurd h (by simp)

/-! ### Cyclic maps (R273, R275) -/

section
variable {s : State}

/-- A TX map whose datagram went out. -/
def CycMap.sentOut (x : CycMap) : CycMap := { x with captured := none, sendDue := false, sent := satInc 32 x.sent }

theorem cyclicSend_answers {n : Nat} {bs : List Byte} (hn : n < 16) (hdue : (s.map n).sendDue = true)
    (hcaptured : (s.map n).captured = some bs) : Answers (.cyclicSend n) s fun t =>
      t.out = s.out ++ [.datagram (s.mapSet n 2) (s.mapTag n) (BitVec.ofNat 32 (s.mapSet n 3)) (BitVec.ofNat 16 (s.mapSet n 4))
        s.pranilPort (pranilHdr 0x30 0 n 0 0 bs.length 0 s.frameLo) bs] ∧
      t.map n = { s.map n with captured := none, sendDue := false, sent := satInc 32 (s.map n).sent } ∧
      (∀ k, k ≠ n → t.map k = s.map k) ∧ t.frame = s.frame ∧ t.mem = s.mem ∧ t.tenants = s.tenants := by
  refine answers_due rfl (by simp [hn, hdue, hcaptured]) ?_
  have hsend : s.sendMap n = (s.sendGram (s.mapSet n 2) (s.mapTag n) (BitVec.ofNat 32 (s.mapSet n 3))
      (BitVec.ofNat 16 (s.mapSet n 4)) (pranilHdr 0x30 0 n 0 0 bs.length 0 s.frameLo) bs).modMap n CycMap.sentOut := by
    simp only [State.sendMap, hcaptured]
    rfl
  rw [hsend]
  refine ⟨rfl, ?_, fun k hk => State.modMap_ne _ _ hk, rfl, rfl, rfl⟩
  rw [State.modMap_same]
  rfl

variable {port n : Nat} {tag : VlanTag} {ip : BitVec 32} {udp : BitVec 16} {h : BitVec 256} {bs : List Byte}

/-- Does a datagram fit RX map n: running, its source, its length? -/
def State.mapFits (s : State) (port : Nat) (ip : BitVec 32) (n : Nat) (bs : List Byte) : Prop :=
  n < 16 ∧ s.mapRuns (16 + n) = true ∧ s.mapSet (16 + n) 2 = port ∧ s.mapSet (16 + n) 3 = ip.toNat ∧
    ((s.mapEntries (16 + n)).map (·.2.2)).sum = bs.length

/-- An RX map whose datagram was written. -/
def CycMap.received (x : CycMap) : CycMap := { x with accepted := satInc 32 x.accepted, arrived := true }

theorem State.receiveMap_unfit (hno : ¬ s.mapFits port ip n bs) : s.receiveMap port ip n bs = s := by
  refine if_neg fun hfits => hno ?_
  simp only [Bool.and_eq_true, decide_eq_true_eq, and_assoc] at hfits
  exact hfits

theorem State.receiveMap_fits (hfits : s.mapFits port ip n bs) : s.receiveMap port ip n bs =
    ((s.writeEntries (ownerView (s.mapSet (16 + n) 8)) (s.mapEntries (16 + n)) bs).map
      fun u => u.modMap (16 + n) CycMap.received).getD s := by
  obtain ⟨hn, hruns, hport, hip, hlen⟩ := hfits
  have hform : s.receiveMap port ip n bs =
      match s.writeEntries (ownerView (s.mapSet (16 + n) 8)) (s.mapEntries (16 + n)) bs with
      | some u => u.modMap (16 + n) CycMap.received
      | none => s := if_pos (by simp [hn, hruns, hport, hip, hlen])
  rw [hform]
  split
  next u hu => rw [hu]; rfl
  next hnone => rw [hnone]; rfl

theorem exec_rxCyclicReceive (hport : port < 2) (htype : hType h = 0x30) : exec (.rxCyclicReceive ⟨port, tag⟩ ip udp h bs) s =
    .next (if s.served && datagramOk h bs then s.receiveMap port ip (hIndex h) bs else s) := by
  have hrow : rowType port h 0x30 = true := by simp [rowType, hport, htype]
  rw [exec, execRxCyclicReceive, hrow, due_true]

/-- An accepted datagram is written whole, and only its map counts it. -/
theorem State.received_whole {u : State} (m : Nat) (hkeeps : KeepsPorts s u) :
    let t := u.modMap m CycMap.received
    (t.map m).arrived = true ∧ (t.map m).accepted = satInc 32 (s.map m).accepted ∧ (∀ k, k ≠ m → t.map k = s.map k) ∧
      t.rwt = u.rwt ∧ t.obj = u.obj ∧ t.frame = u.frame ∧ t.mem = s.mem ∧ t.out = s.out := by
  obtain ⟨hports, hmem, hout⟩ := hkeeps
  have hmap := State.map_of_ports hports
  have hself : (u.modMap m CycMap.received).map m = (s.map m).received := by rw [State.modMap_same, hmap]
  refine ⟨?_, ?_, fun k hk => (u.modMap_ne _ hk).trans (hmap k), rfl, rfl, rfl, hmem, hout⟩ <;> rw [hself] <;> rfl

end

theorem cyclicMapsSendAndReceive : Claims.CyclicMapsSendAndReceive := by
  intro s
  refine ⟨fun n bs hn hdue hcaptured => cyclicSend_answers hn hdue hcaptured, fun port tag ip udp h bs hport htype => ?_⟩
  intro m fits
  have hexec := exec_rxCyclicReceive (s := s) (tag := tag) (ip := ip) (udp := udp) (bs := bs) hport htype
  refine ⟨fun hno => ?_, fun hserved hform hfits => ?_⟩
  · rw [hexec]
    rcases hno with hno | hno | hno
    · rw [hno]; rfl
    · rw [hno, Bool.and_false]; rfl
    · rw [State.receiveMap_unfit hno, ite_self]
  · rw [if_pos (by rw [hserved, hform]; rfl), State.receiveMap_fits hfits] at hexec
    refine ⟨fun hnone => ?_, fun u hu => ?_⟩
    · rw [hexec, hnone]
      rfl
    · rw [hu] at hexec
      exact ⟨_, hexec, State.received_whole m (State.writeEntries_keeps hu)⟩

/-! ### PDOs (R262, R265) -/

section
variable {s : State} {port : Nat}

/-- Does an RPDO fit: PDOs run, it is on, and its mapped bytes are there? -/
def State.rpdoFits (s : State) (port n : Nat) (bs : List Byte) : Prop :=
  s.pdosRun port = true ∧ s.pdoOn port (0x1400 + n) = true ∧
    ((s.pdoEntries port (0x1600 + n)).map (·.2.2)).sum ≤ bs.length

theorem State.receivePdo_unfit {n : Nat} {bs : List Byte} (hno : ¬ s.rpdoFits port n bs) : s.receivePdo port n bs = s := by
  refine if_neg fun hfits => hno ?_
  simp only [Bool.and_eq_true, decide_eq_true_eq, and_assoc] at hfits
  exact hfits

theorem State.receivePdo_fits {n : Nat} {bs : List Byte} (hfits : s.rpdoFits port n bs) : s.receivePdo port n bs =
    ((s.writeEntries (ownerView (s.atReset (0x1400 + n) 7 port)) (s.pdoEntries port (0x1600 + n)) bs).map
      fun u => u.modCan port fun x => { x with rxCount := x.rxCount + 1 }).getD s := by
  obtain ⟨hrun, hon, hlen⟩ := hfits
  have hform : s.receivePdo port n bs =
      match s.writeEntries (ownerView (s.atReset (0x1400 + n) 7 port)) (s.pdoEntries port (0x1600 + n)) bs with
      | some u => u.modCan port fun x => { x with rxCount := x.rxCount + 1 }
      | none => s := if_pos (by simp [hrun, hon, hlen])
  rw [hform]
  split
  next u hu => rw [hu]; rfl
  next hnone => rw [hnone]; rfl

theorem exec_rpdoReceive {n : Nat} {bs : List Byte} (hport : port < 4) (hn : n < 16) (hlen : bs.length ≤ 64) :
    exec (.rpdoReceive port n bs) s = .next (s.receivePdo port n bs) := by
  simp [exec, execRpdoReceive, due, hport, hn, hlen]

/-- An RPDO is written whole or not at all. -/
theorem rpdoReceive_answers {n : Nat} {bs : List Byte} (hport : port < 4) (hn : n < 16) (hlen : bs.length ≤ 64) :
    (¬ s.rpdoFits port n bs → exec (.rpdoReceive port n bs) s = .next s) ∧
    (s.rpdoFits port n bs →
      s.writeEntries (ownerView (s.atReset (0x1400 + n) 7 port)) (s.pdoEntries port (0x1600 + n)) bs = none →
      exec (.rpdoReceive port n bs) s = .next s) ∧
    (s.rpdoFits port n bs → ∀ u,
      s.writeEntries (ownerView (s.atReset (0x1400 + n) 7 port)) (s.pdoEntries port (0x1600 + n)) bs = some u →
      Answers (.rpdoReceive port n bs) s fun t => t.rwt = u.rwt ∧ t.obj = u.obj ∧ t.frame = u.frame ∧ t.mem = s.mem ∧
        t.out = s.out ∧ (t.can port).rxCount = (s.can port).rxCount + 1 ∧ ∀ p, p ≠ port → t.can p = s.can p) := by
  rw [exec_rpdoReceive hport hn hlen]
  refine ⟨fun hno => by rw [State.receivePdo_unfit hno], fun hfits hnone => ?_, fun hfits u hu => ?_⟩
  · rw [State.receivePdo_fits hfits, hnone]
    rfl
  · obtain ⟨hports, hmem, hout⟩ := State.writeEntries_keeps hu
    have hcan := State.can_of_ports hports
    have hexec := exec_rpdoReceive (s := s) hport hn hlen
    rw [State.receivePdo_fits hfits, hu] at hexec
    refine ⟨_, hexec, rfl, rfl, rfl, hmem, hout, ?_, fun p hp => (u.modCan_ne _ hp).trans (hcan p)⟩
    have hself := u.modCan_same port fun x => { x with rxCount := x.rxCount + 1 }
    rw [hcan] at hself
    exact congrArg CanPort.rxCount hself

end

/-! ### SYNC (R265) -/

section
variable (s : State) (c : Tab CanPort)

/-- The state with other CAN FD ports. -/
def State.withCan : State := { s with net := { s.net with can := c } }

theorem State.netRead_withCan (via : Via) (i sub : Nat) : (s.withCan c).netRead via i sub = s.netRead via i sub := rfl
theorem State.idRead_withCan (via : Via) (i sub : Nat) : (s.withCan c).idRead via i sub = s.idRead via i sub := rfl
theorem State.frameRead_withCan (w : View) (i sub : Nat) : (s.withCan c).frameRead w i sub = s.frameRead w i sub := rfl
theorem State.plateRead_withCan (w : View) (i sub : Nat) : (s.withCan c).plateRead w i sub = s.plateRead w i sub := rfl
theorem State.gaugeRead_withCan (i sub : Nat) : (s.withCan c).gaugeRead i sub = s.gaugeRead i sub := rfl
theorem State.fabricRead_withCan (w : View) (via : Via) (i sub : Nat) :
    (s.withCan c).fabricRead w via i sub = s.fabricRead w via i sub := rfl
theorem State.rwRead_withCan (w : View) (port i sub : Nat) : (s.withCan c).rwRead w port i sub = s.rwRead w port i sub := rfl

theorem State.commRead_withCan (h : ∀ p, (tget {} c p).errReg = (s.can p).errReg) (port i sub : Nat) :
    (s.withCan c).commRead port i sub = s.commRead port i sub := by
  unfold State.commRead
  rw [State.can, State.withCan, h]
  rfl

/-- What an entry reads of the CAN FD ports is their error registers. -/
theorem State.entryBytes_withCan (h : ∀ p, (tget {} c p).errReg = (s.can p).errReg) (w : View) (port i sub : Nat) :
    (s.withCan c).entryBytes w port i sub = s.entryBytes w port i sub := by
  have hread (via : Via) (r : ObjRow) : (s.withCan c).value w via port i sub r = s.value w via port i sub r := by
    simp only [State.value, State.roRead, State.commRead_withCan s c h, State.netRead_withCan, State.idRead_withCan,
      State.frameRead_withCan, State.plateRead_withCan, State.gaugeRead_withCan, State.fabricRead_withCan,
      State.rwRead_withCan]
  have hchan : (s.withCan c).channelTenant = s.channelTenant := rfl
  simp only [State.entryBytes, hread, hchan]

theorem State.tpdoBytes_withCan (h : ∀ p, (tget {} c p).errReg = (s.can p).errReg) (port n : Nat) :
    (s.withCan c).tpdoBytes port n = s.tpdoBytes port n :=
  List.flatMap_congr fun _ _ => s.entryBytes_withCan c h _ _ _ _

end

/-- A count of SYNCs and the objects captured, of TPDO `n`. -/
def CanPort.pdo (x : CanPort) (n : Nat) : Nat × List Byte := (tget 0 x.syncCount n, tget [] x.captured n)

/-- Is a TPDO synchronous, and on: of type 1 to 240? -/
def State.synchronous (s : State) (port n : Nat) : Bool :=
  s.pdoOn port (0x1800 + n) && decide (1 ≤ s.atReset (0x1800 + n) 2 port ∧ s.atReset (0x1800 + n) 2 port ≤ 240)

/-- What a SYNC makes of a synchronous TPDO: counted, or captured at its number. -/
def State.syncPdo (s : State) (port n : Nat) (v : Nat × List Byte) : Nat × List Byte :=
  if s.synchronous port n then
    if s.atReset (0x1800 + n) 2 port ≤ v.1 + 1 then (0, s.tpdoBytes port n) else (v.1 + 1, v.2)
  else v

/-- `t` is `s` but for one port, of which only counts and captured objects may differ. -/
structure TurnsPdos (s t : State) (port : Nat) : Prop where
  rest : ∃ c, t = s.withCan c
  others : ∀ p, p ≠ port → t.can p = s.can p
  errReg : (t.can port).errReg = (s.can port).errReg
  nmt : (t.can port).nmt = (s.can port).nmt

section
variable {s t u : State} {port : Nat}

theorem TurnsPdos.refl (s : State) (port : Nat) : TurnsPdos s s port := ⟨⟨s.net.can, rfl⟩, fun _ _ => rfl, rfl, rfl⟩

theorem TurnsPdos.trans (hst : TurnsPdos s t port) (htu : TurnsPdos t u port) : TurnsPdos s u port where
  rest := by
    obtain ⟨c, rfl⟩ := hst.rest
    obtain ⟨d, rfl⟩ := htu.rest
    exact ⟨d, rfl⟩
  others p hp := (htu.others p hp).trans (hst.others p hp)
  errReg := htu.errReg.trans hst.errReg
  nmt := htu.nmt.trans hst.nmt

theorem State.modCan_turnsPdos {f : CanPort → CanPort} (herr : (f (s.can port)).errReg = (s.can port).errReg)
    (hnmt : (f (s.can port)).nmt = (s.can port).nmt) : TurnsPdos s (s.modCan port f) port where
  rest := ⟨_, rfl⟩
  others _ hp := s.modCan_ne f hp
  errReg := by rw [State.modCan_same, herr]
  nmt := by rw [State.modCan_same, hnmt]

/-- What a TPDO captures does not hang on what the ones before it did. -/
theorem TurnsPdos.tpdoBytes (h : TurnsPdos s t port) (n : Nat) : t.tpdoBytes port n = s.tpdoBytes port n := by
  have hothers := h.others
  have herr := h.errReg
  obtain ⟨c, rfl⟩ := h.rest
  refine s.tpdoBytes_withCan c (fun p => ?_) port n
  by_cases hp : p = port
  · rw [hp]
    exact herr
  · exact congrArg CanPort.errReg (hothers p hp)

theorem TurnsPdos.syncPdo (h : TurnsPdos s t port) (n : Nat) (v : Nat × List Byte) :
    t.syncPdo port n v = s.syncPdo port n v := by
  rw [State.syncPdo, h.tpdoBytes]
  obtain ⟨c, rfl⟩ := h.rest
  rfl

/-- A SYNC taken by one TPDO. -/
theorem State.syncTpdo_turns (s : State) (port n : Nat) : TurnsPdos s (s.syncTpdo port n) port ∧
    ∀ j, ((s.syncTpdo port n).can port).pdo j =
      if j = n then s.syncPdo port n ((s.can port).pdo n) else (s.can port).pdo j := by
  obtain ⟨k, hk⟩ : ∃ k, k = s.atReset (0x1800 + n) 2 port := ⟨_, rfl⟩
  obtain ⟨c, hc⟩ : ∃ c, c = tget 0 (s.can port).syncCount n + 1 := ⟨_, rfl⟩
  by_cases hon : s.synchronous port n = true
  · obtain ⟨u, hu⟩ : ∃ u, u = s.modCan port fun x =>
        { x with syncCount := tset 0 x.syncCount n (if k ≤ c then 0 else c) } := ⟨_, rfl⟩
    have hform : s.syncTpdo port n = if k ≤ c then u.captureTpdo port n else u := by
      have hnot : (!s.synchronous port n) = false := by rw [hon]; rfl
      rw [hu, hk, hc]
      exact if_neg (ne_true_of_eq_false hnot)
    have hcounted : TurnsPdos s u port := hu ▸ State.modCan_turnsPdos rfl rfl
    have hself : u.can port = { s.can port with syncCount := tset 0 (s.can port).syncCount n (if k ≤ c then 0 else c) } :=
      hu ▸ s.modCan_same port _
    rw [hform, State.syncPdo, if_pos hon, ← hk]
    by_cases hle : k ≤ c
    · have hcaptured : (u.captureTpdo port n).can port = { u.can port with
          captured := tset [] (u.can port).captured n (s.tpdoBytes port n) } := by
        rw [← hcounted.tpdoBytes]
        exact u.modCan_same port _
      rw [if_pos hle] at hself ⊢
      refine ⟨hcounted.trans (State.modCan_turnsPdos rfl rfl), fun j => ?_⟩
      rw [hcaptured, hself, if_pos (show k ≤ ((s.can port).pdo n).1 + 1 from hc ▸ hle)]
      split
      next hj => simp [CanPort.pdo, hj]
      next hj => simp [CanPort.pdo, tget_tset, hj]
    · rw [if_neg hle] at hself ⊢
      refine ⟨hcounted, fun j => ?_⟩
      rw [hself, if_neg (show ¬ k ≤ ((s.can port).pdo n).1 + 1 from hc ▸ hle)]
      split
      next hj => simp [CanPort.pdo, hj, hc]
      next hj => simp [CanPort.pdo, tget_tset, hj]
  · have hnot : (!s.synchronous port n) = true := by rw [eq_false_of_ne_true hon]; rfl
    have hform : s.syncTpdo port n = s := if_pos hnot
    rw [hform]
    refine ⟨.refl s port, fun j => ?_⟩
    rw [State.syncPdo, if_neg hon]
    split
    next hj => rw [hj]
    next => rfl

/-- A SYNC taken by a port's first `N` TPDOs. -/
theorem State.syncTpdos_turn (s : State) (port N : Nat) :
    let t := s.each (List.range N) fun u n => u.syncTpdo port n
    TurnsPdos s t port ∧ ∀ j, (t.can port).pdo j =
      if j < N then s.syncPdo port j ((s.can port).pdo j) else (s.can port).pdo j := by
  induction N with
  | zero => exact ⟨.refl s port, fun j => rfl⟩
  | succ N ih =>
    obtain ⟨u, hu⟩ : ∃ u, u = s.each (List.range N) fun u n => u.syncTpdo port n := ⟨_, rfl⟩
    have hnext : s.each (List.range (N + 1)) (fun u n => u.syncTpdo port n) = u.syncTpdo port N := by
      rw [List.range_succ, State.each, List.foldl_concat, hu]
      rfl
    rw [← hu] at ih
    obtain ⟨hturns, hpdos⟩ := ih
    obtain ⟨hturns', hpdos'⟩ := u.syncTpdo_turns port N
    rw [hnext]
    refine ⟨hturns.trans hturns', fun j => ?_⟩
    rw [hpdos', hturns.syncPdo, hpdos, hpdos]
    by_cases hj : j = N
    · subst hj
      simp
    · rw [if_neg hj]
      by_cases hlt : j < N
      · rw [if_pos hlt, if_pos (by omega)]
      · rw [if_neg hlt, if_neg (by omega)]

end

theorem syncReceive_answers {s : State} {port : Nat} (hport : port < 4) (hrun : s.pdosRun port = true) :
    Answers (.syncReceive port) s fun t =>
    (∀ n : Nat, n < 16 → s.pdoOn port (0x1800 + n) = true →
      let k := s.atReset (0x1800 + n) 2 port
      let c := tget 0 (s.can port).syncCount n + 1
      (1 ≤ k → k ≤ 240 → c < k → tget 0 (t.can port).syncCount n = c ∧
        tget [] (t.can port).captured n = tget [] (s.can port).captured n) ∧
      (1 ≤ k → k ≤ 240 → k ≤ c → tget 0 (t.can port).syncCount n = 0 ∧
        tget [] (t.can port).captured n = s.tpdoBytes port n)) ∧
    (t.can port).nmt = (s.can port).nmt ∧ (∀ p, p ≠ port → t.can p = s.can p) ∧ t.out = s.out ∧ t.obj = s.obj ∧
    t.frame = s.frame ∧ t.mem = s.mem := by
  obtain ⟨t, ht⟩ : ∃ t, t = s.each (List.range 16) fun u n => u.syncTpdo port n := ⟨_, rfl⟩
  have hexec : exec (.syncReceive port) s = .next t := by simp [exec, execSyncReceive, due, hport, hrun, ht]
  have hturned := s.syncTpdos_turn port 16
  rw [← ht] at hturned
  obtain ⟨hturns, hpdos⟩ := hturned
  have hsynced {n : Nat} (hn : n < 16) (hon : s.pdoOn port (0x1800 + n) = true) (hlow : 1 ≤ s.atReset (0x1800 + n) 2 port)
      (hhigh : s.atReset (0x1800 + n) 2 port ≤ 240) : (t.can port).pdo n =
        if s.atReset (0x1800 + n) 2 port ≤ ((s.can port).pdo n).1 + 1 then (0, s.tpdoBytes port n)
        else (((s.can port).pdo n).1 + 1, ((s.can port).pdo n).2) := by
    rw [hpdos, if_pos hn, State.syncPdo, if_pos (by simp [State.synchronous, hon, hlow, hhigh])]
  refine ⟨t, hexec, fun n hn hon => ⟨fun hlow hhigh hlt => ?_, fun hlow hhigh hle => ?_⟩, hturns.nmt, hturns.others, ?_⟩
  · have hcounted := (hsynced hn hon hlow hhigh).trans (if_neg (Nat.not_le.2 hlt))
    exact ⟨congrArg Prod.fst hcounted, congrArg Prod.snd hcounted⟩
  · have hreached := (hsynced hn hon hlow hhigh).trans (if_pos hle)
    exact ⟨congrArg Prod.fst hreached, congrArg Prod.snd hreached⟩
  · obtain ⟨c, rfl⟩ := hturns.rest
    exact ⟨rfl, rfl, rfl, rfl⟩

/-! ### TPDOs go out (R265) -/

/-- A port whose TPDO `n` has gone out at an instant. -/
def CanPort.sendPdo (x : CanPort) (n at_ : Nat) : CanPort :=
  { x with captured := tset [] x.captured n [], sentAt := tset 0 x.sentAt n (at_ + 1) }

theorem State.inhibited_of_ready {s : State} {port n : Nat} (hready : s.tpdoReady port n = true)
    (hevent : s.atReset (0x1800 + n) 2 port = 255) : s.inhibited port n = false := by
  simp only [State.tpdoReady, hevent, if_true, Bool.and_eq_true, Bool.not_eq_true'] at hready
  exact hready.2

theorem tpdoTransmit_answers {s : State} {port n : Nat} (hready : s.tpdoReady port n = true) :
    Answers (.tpdoTransmit port n) s fun t =>
    (s.atReset (0x1800 + n) 2 port = 255 → t.out = s.out ++ [.tpdo port n (s.tpdoBytes port n)]) ∧
    (s.atReset (0x1800 + n) 2 port ≠ 255 → t.out = s.out ++ [.tpdo port n (tget [] (s.can port).captured n)]) ∧
    tget [] (t.can port).captured n = [] ∧ tget 0 (t.can port).sentAt n = s.frame.now + 1 ∧
    (∀ k, k ≠ n → tget [] (t.can port).captured k = tget [] (s.can port).captured k) ∧
    (∀ p, p ≠ port → t.can p = s.can p) ∧ t.frame = s.frame ∧ t.mem = s.mem := by
  obtain ⟨bs, hbs⟩ : ∃ bs, bs = if s.atReset (0x1800 + n) 2 port = 255 then s.tpdoBytes port n
    else tget [] (s.can port).captured n := ⟨_, rfl⟩
  have hform : s.sendTpdo port n = (s.send (.tpdo port n bs)).modCan port fun x => x.sendPdo n s.frame.now := by
    rw [State.sendTpdo, hbs]
    rfl
  have hself : ((s.send (.tpdo port n bs)).modCan port fun x => x.sendPdo n s.frame.now).can port =
      (s.can port).sendPdo n s.frame.now := (s.send (.tpdo port n bs)).modCan_same port _
  refine answers_due rfl hready ?_
  rw [hform, hself]
  refine ⟨fun hevent => ?_, fun hno => ?_, tget_tset_same [] (s.can port).captured n [],
    tget_tset_same 0 (s.can port).sentAt n (s.frame.now + 1), fun k hk => tget_tset_ne [] (s.can port).captured [] hk,
    fun p hp => State.modCan_ne _ _ hp, rfl, rfl⟩
  · rw [hbs, if_pos hevent]
    rfl
  · rw [hbs, if_neg hno]
    rfl

/-! ### USDO (R262, R263) -/

section
variable {s : State} {port node i sub out : Nat} {bs : List Byte}

theorem usdoTransfer_off (hoff : s.usdoOn port = false) (w : Bool) :
    exec (.usdoTransfer port node w i sub bs out) s = .next s := by
  simp [exec, execUsdoTransfer, due, hoff]

theorem usdoTransfer_on (hnode : 1 ≤ node) (hnode' : node ≤ 127) (hon : s.usdoOn port = true) :
    exec (.usdoTransfer port node false i sub bs out) s =
      .next (s.request (.can port node) out (s.earlyRead i sub) fun s => s.readObj (.can port node) port i sub) ∧
    exec (.usdoTransfer port node true i sub bs out) s =
      exec (.objectWrite (.can port node) port i sub bs.length (leNat bs) out) s := by
  have hport : port < 4 := by
    simp only [State.usdoOn, Bool.and_eq_true, decide_eq_true_eq] at hon
    exact hon.1
  refine ⟨?_, ?_⟩
  · simp [exec, execUsdoTransfer, due, hon, hport, hnode, hnode', State.usdo]
  · simp [exec, execUsdoTransfer, execObjectWrite, due, hon, hport, hnode, hnode', State.usdo]

theorem usdoProtocolTimeout_row (hon : s.usdoOn port = true) :
    exec (.usdoProtocolTimeout port node) s = .next (s.countAbort.answer (.can port node) abTimeout 0 0) := by
  simp [exec, execUsdoProtocolTimeout, due, hon]

end

theorem pdosAndUsdo : Claims.PdosAndUsdo := by
  intro s port hport
  refine ⟨fun n bs hn hlen => rpdoReceive_answers hport hn hlen, fun hoff => ?_, fun hrun => syncReceive_answers hport hrun,
    fun n hready => ⟨State.inhibited_of_ready hready, tpdoTransmit_answers hready⟩, fun node i sub bs out hnode hnode' =>
      ⟨fun hoff w => usdoTransfer_off hoff w, fun hon _ => usdoTransfer_on hnode hnode' hon⟩,
    fun node hon => usdoProtocolTimeout_row hon⟩
  simp [exec, execSyncReceive, due, hoff]

/-- Settles O47: maps and PDOs that are written keep every port but their counts; SYNC turns one TPDO after another. -/
theorem cyclicMapsAndPdos : Obligations.CyclicMapsAndPdos := ⟨cyclicMapsSendAndReceive, pdosAndUsdo⟩

end Sys2Proof.Machine
end

section
/-!
MemoryStaysCanonical: what keeps both memories in their canonical form. They are written by `State.wr`, `State.zero`, a
write to a host page, the wells of a configuration and the losses of a reset; every other operation of the model leaves them or
is made of such writes. One lemma for each operation, in the order of the model's files: here the state's own operations,
operands and the run of a queue.
-/

namespace Sys2Proof.Machine

open Sys2Proof

/-- Both memories have the canonical form. -/
structure State.Canonical (s : State) : Prop where
  mem : Memory.wf s.mem = true
  host : Memory.wf s.host = true

section

variable {s t : State}

theorem State.Canonical.same (hs : s.Canonical) (hm : t.mem = s.mem) (hh : t.host = s.host) : t.Canonical :=
  ⟨hm ▸ hs.mem, hh ▸ hs.host⟩
theorem State.Canonical.ite {c : Prop} {_ : Decidable c} (hs : s.Canonical) (ht : t.Canonical) :
    (if c then s else t).Canonical := by
  split
  · exact hs
  · exact ht
theorem State.Canonical.foldl {α : Type} {f : State → α → State} {l : List α} (hs : s.Canonical)
    (hf : ∀ u x, u.Canonical → (f u x).Canonical) : (l.foldl f s).Canonical :=
  fold_holds State.Canonical f l s hs fun u x _ => hf u x
theorem State.Canonical.each {f : State → Nat → State} {l : List Nat} (hs : s.Canonical)
    (hf : ∀ u x, u.Canonical → (f u x).Canonical) : (s.each l f).Canonical := hs.foldl hf
theorem State.Canonical.foldl_snd {α β : Type} {f : β × State → α → β × State} {l : List α} {b : β}
    (hs : s.Canonical) (hf : ∀ u x, u.2.Canonical → (f u x).2.Canonical) : (l.foldl f (b, s)).2.Canonical :=
  fold_holds (fun t : β × State => t.2.Canonical) f l (b, s) hs fun u x _ => hf u x
/-- The state that an operation answers beside its result. -/
theorem State.Canonical.of_eq {β : Type} {r : β × State} {b : β} (hr : r.2.Canonical) (h : r = (b, t)) : t.Canonical := by
  rwa [h] at hr
theorem State.Canonical.data (hs : s.Canonical) (h : DataOnly s t) : t.Canonical := ⟨h.2.1 hs.mem, h.2.2 hs.host⟩
theorem State.Canonical.records (hs : s.Canonical) (h : RecordsOnly s t) : t.Canonical := ⟨h.2.1 hs.mem, h.2.2 hs.host⟩

end

section

variable {s u : State}
variable {a bitNo c c0 ca cause cn code d da detail entry func g idx k l level m n ns p port pre q r0 : Nat}
variable {rn sp t u v w : Nat}
variable {cross hasDst on sumlist write : Bool}
variable {place shapes : List Mat → Option Flt}
variable {o op : Op}
variable {epoch : BitVec 16}
variable {h : BitVec 256}
variable {word : BitVec 64}
variable {e : Engine}
variable {ecc : Found}
variable {rows : List (List Byte)}
variable {ds : List (Nat × Word256)}
variable {bs : List Byte}
variable {vs : List Int}
variable {f : Option Flt}
variable {pl : Place}
variable {r : Rec}
variable {st : Status}
variable {way : Target → List Nat}
variable {x : WalkItem}

/-! ### Objects -/
theorem State.Canonical.setVal (hs : s.Canonical) : (s.setVal k v).Canonical := hs.same rfl rfl
theorem State.Canonical.modGauge {f : Gauge → Gauge} (hs : s.Canonical) : (s.modGauge d f).Canonical := hs.same rfl rfl
theorem State.Canonical.modFrame {f : Frame → Frame} (hs : s.Canonical) : (s.modFrame f).Canonical := hs.same rfl rfl
theorem State.Canonical.modBoot {f : Boot → Boot} (hs : s.Canonical) : (s.modBoot f).Canonical := hs.same rfl rfl
theorem State.Canonical.modOutput {o : Nat} {f : Output → Output} (hs : s.Canonical) : (s.modOutput d o f).Canonical :=
  hs.modGauge
/-! ### Ops -/
theorem State.Canonical.setCtx {x : Ctx} (hs : s.Canonical) : (s.setCtx c x).Canonical := hs.same rfl rfl
theorem State.Canonical.modCtx {f : Ctx → Ctx} (hs : s.Canonical) : (s.modCtx c f).Canonical := hs.setCtx
theorem State.Canonical.modTen {f : Tenant → Tenant} (hs : s.Canonical) : (s.modTen t f).Canonical := hs.same rfl rfl
theorem State.Canonical.modLink {f : Link → Link} (hs : s.Canonical) : (s.modLink l f).Canonical := hs.same rfl rfl
theorem State.Canonical.modPlate {f : Plate → Plate} (hs : s.Canonical) : (s.modPlate g f).Canonical := hs.same rfl rfl
theorem State.Canonical.modFab {f : Fab → Fab} (hs : s.Canonical) : (s.modFab m f).Canonical := hs.same rfl rfl
theorem State.Canonical.modNet {f : Net → Net} (hs : s.Canonical) : (s.modNet f).Canonical := hs.same rfl rfl
theorem State.Canonical.modSec {f : Sec → Sec} (hs : s.Canonical) : (s.modSec f).Canonical := hs.same rfl rfl
theorem State.Canonical.modPower {f : Power → Power} (hs : s.Canonical) : (s.modPower f).Canonical := hs.same rfl rfl
theorem State.Canonical.modOtp {f : Otp → Otp} (hs : s.Canonical) : (s.modOtp f).Canonical := hs.modSec
theorem State.Canonical.send {m : OutMsg} (hs : s.Canonical) : (s.send m).Canonical := hs.same rfl rfl
theorem State.Canonical.modCan {f : CanPort → CanPort} (hs : s.Canonical) : (s.modCan p f).Canonical := hs.modNet
theorem State.Canonical.modEth {f : EthPort → EthPort} (hs : s.Canonical) : (s.modEth p f).Canonical := hs.modNet
theorem State.Canonical.modFunc {f : Nat} {g : Func → Func} (hs : s.Canonical) :
    (s.modFunc p f g).Canonical := hs.modNet
theorem State.Canonical.modPart {f : Machine.Part → Machine.Part} (hs : s.Canonical) :
    (s.modPart p f).Canonical := hs.modNet
theorem State.Canonical.modMap {f : CycMap → CycMap} (hs : s.Canonical) : (s.modMap n f).Canonical := hs.modNet
theorem State.Canonical.modQueue {f : Queue → Queue} (hs : s.Canonical) : (s.modQueue c q f).Canonical := hs.modCtx
theorem State.Canonical.takeFree (hs : s.Canonical) : (s.takeFree).2.Canonical := hs.same rfl rfl
theorem State.Canonical.modView {w : View} {f : ViewSel → ViewSel} (hs : s.Canonical) :
    (s.modView w f).Canonical := hs.modNet
theorem State.Canonical.wrPar (hs : s.Canonical) : (s.wrPar a n).Canonical := by
  unfold State.wrPar
  grind [modFab]
theorem State.Canonical.wr (hs : s.Canonical) : (s.wr a bs).Canonical := hs.data (s.wr_dataOnly a bs)
theorem State.Canonical.zero (hs : s.Canonical) : (s.zero a n).Canonical := hs.data (s.zero_dataOnly a n)
theorem State.Canonical.countCorrected (hs : s.Canonical) : (s.countCorrected a).Canonical := hs.same rfl rfl
theorem State.Canonical.noteBad (hs : s.Canonical) : (s.noteBad a).Canonical := hs.same rfl rfl
theorem State.Canonical.countBad (hs : s.Canonical) : (s.countBad a).Canonical := hs.same rfl rfl
theorem State.Canonical.markPoison (hs : s.Canonical) : (s.markPoison a).Canonical :=
  hs.noteBad.ite (hs.same rfl rfl)
theorem State.Canonical.findOne {e : Nat × Ecc} (hs : s.Canonical) : (s.findOne e).Canonical := by
  unfold State.findOne
  grind [countCorrected, markPoison]
theorem State.Canonical.findErrors (hs : s.Canonical) :
    (s.findErrors ecc a n).Canonical := hs.foldl fun _ _ hu => hu.findOne
theorem State.Canonical.tableEntry (hs : s.Canonical) : (s.tableEntry c level pre a).2.Canonical := by
  unfold State.tableEntry
  grind [modCtx]
theorem State.Canonical.translate (hs : s.Canonical) : (s.translate c a write).2.Canonical := by
  unfold State.translate
  grind [tableEntry]
theorem State.Canonical.readPiece {t : Target} (hs : s.Canonical) : (s.readPiece c ecc t n).2.Canonical := by
  unfold State.readPiece
  grind [findErrors, noteBad]
theorem State.Canonical.readCtx (hs : s.Canonical) : (s.readCtx c ecc a n).2.Canonical := by
  unfold State.readCtx
  exact hs.foldl_snd fun r x hr => by grind [translate, readPiece]
theorem State.Canonical.wrTarget {t : Target} (hs : s.Canonical) : (s.wrTarget t bs).Canonical :=
  hs.data (s.wrTarget_dataOnly t bs)
theorem State.Canonical.writeTargets (hs : s.Canonical) : (s.writeTargets c a bs).2.Canonical := by
  unfold State.writeTargets
  exact hs.foldl_snd fun r x hr => by grind [translate]
theorem State.Canonical.lateRecord (hs : s.Canonical) :
    (s.lateRecord c q cause epoch ca da).Canonical := hs.modCtx.modTen
theorem State.Canonical.lateFault (hs : s.Canonical) : (s.lateFault c q cause epoch ca da).Canonical := by
  unfold State.lateFault
  grind [lateRecord, modCtx, modQueue]
theorem State.Canonical.wrOwn {t : Target} (hs : s.Canonical) : (s.wrOwn c q ca t bs).Canonical := by
  unfold State.wrOwn
  grind [lateFault, wr, wrTarget]
theorem State.Canonical.wrCtx (hs : s.Canonical) : (s.wrCtx c q a bs).Canonical :=
  hs.records (s.wrCtx_recordsOnly c q a bs)
theorem State.Canonical.postAll {l : List Posted} (hs : s.Canonical) : (s.postAll c q l).Canonical := by
  unfold State.postAll
  split
  · exact hs.same rfl rfl
  · exact hs.same rfl rfl
theorem State.Canonical.postWrites {l : List (Nat × Target × List Byte)} (hs : s.Canonical) :
    (s.postWrites c q way l).Canonical :=
  hs.postAll
theorem State.Canonical.putRec (hs : s.Canonical) : (s.putRec r).Canonical := hs.modCtx.wrCtx
theorem State.Canonical.post (hs : s.Canonical) : (s.post r).Canonical :=
  hs.ite ((hs.modCtx.modTen.ite (hs.putRec.ite hs.modCtx)).ite (hs.putRec.ite hs.modCtx))
theorem State.Canonical.postTenant (hs : s.Canonical) : (s.postTenant t r).Canonical := hs.foldl fun _ _ hu => hu.post
theorem State.Canonical.postSup (hs : s.Canonical) : (s.postSup r).Canonical := hs.send
theorem State.Canonical.tickEvent (hs : s.Canonical) :
    (s.tickEvent).Canonical := hs.postSup.foldl fun _ _ hu => hu.postTenant
theorem State.Canonical.msix (hs : s.Canonical) : (s.msix port func entry).Canonical := hs.ite (hs.modFunc.ite hs.send)
theorem State.Canonical.notifyQueue (hs : s.Canonical) : (s.notifyQueue c q).Canonical := by
  unfold State.notifyQueue
  grind [msix, send, modPart, modTen]
theorem State.Canonical.notifyCtx (hs : s.Canonical) : (s.notifyCtx c).Canonical := by
  unfold State.notifyCtx
  exact State.Canonical.modCtx (hs.foldl fun _ q hu => hu.notifyQueue)
theorem State.Canonical.errBit (hs : s.Canonical) : (s.errBit p code bitNo on).Canonical :=
  hs.modCan.ite ((hs.modCan.send.ite hs.modCan).ite (hs.modCan.send.ite hs.modCan))
theorem State.Canonical.errAll (hs : s.Canonical) :
    (s.errAll code bitNo on).Canonical := hs.foldl fun _ _ hu => hu.errBit
/-! ### Operands -/
theorem State.Canonical.setPrm {r : Nat} {v : BitVec 64} (hs : s.Canonical) :
    (s.setPrm c q r v).Canonical := hs.modQueue
theorem State.Canonical.readList {k : Nat} (hs : s.Canonical) : (readList s c ecc k a).2.Canonical := by
  fun_induction Machine.readList with grind [readCtx]
theorem State.Canonical.fetchLists {l : List (Word256 × Mat)} (hs : s.Canonical) :
    (fetchLists s c ecc l).2.Canonical := by
  fun_induction Machine.fetchLists with grind [readList]
theorem State.Canonical.prepare (hs : s.Canonical) :
    (prepare s c q ecc ds hasDst sumlist shapes place).2.Canonical := by
  unfold Machine.prepare
  grind [fetchLists]
theorem State.Canonical.spaceTargets (hs : s.Canonical) : (s.spaceTargets c pl sp a bs write).2.Canonical := by
  unfold State.spaceTargets
  split
  · exact hs
  split
  · exact hs
  · exact hs.foldl_snd fun r x hr => by grind [translate]
theorem State.Canonical.readSpace (hs : s.Canonical) : (s.readSpace c e pl ecc sp a n).2.Canonical := by
  unfold State.readSpace
  split
  next heq => exact hs.spaceTargets.of_eq heq
  next heq => exact (hs.spaceTargets.of_eq heq).foldl_snd fun r x hr => by grind [readPiece]
theorem State.Canonical.readBlock {m : Mat} (hs : s.Canonical) :
    (s.readBlock c e pl ecc m w r0 rn c0 cn).2.Canonical := by
  unfold State.readBlock
  exact hs.foldl_snd fun r x hr => by grind [readSpace]
theorem State.Canonical.readMat {m : Mat} (hs : s.Canonical) : (s.readMat c e pl ecc m w).2.Canonical := hs.readBlock
theorem State.Canonical.blockTargets {m : Mat} {o : Nat} (hs : s.Canonical) :
    (s.blockTargets c e pl m w r0 o rows).2.Canonical := by
  unfold State.blockTargets
  exact hs.foldl_snd fun r x hr => by grind [spaceTargets]
theorem State.Canonical.matTargets {m : Mat} (hs : s.Canonical) :
    (s.matTargets c e pl m w rows).2.Canonical := hs.blockTargets
theorem State.Canonical.writeSpace {l : List (Nat × Target × List Byte)} (hs : s.Canonical) :
    (s.writeSpace c q e sp l).Canonical :=
  hs.postWrites.ite (hs.foldl fun _ _ hu => hu.wrTarget)
theorem State.Canonical.writeMat {m : Mat} (hs : s.Canonical) : (s.writeMat c q e pl m w vs).2.Canonical := by
  unfold State.writeMat
  grind [matTargets, writeSpace]
/-! ### Exec -/
theorem State.Canonical.chargeUnit (hs : s.Canonical) : (s.chargeUnit c q u ns).Canonical :=
  State.Canonical.ite (hs.same rfl rfl) hs
theorem State.Canonical.modRun {f : Run → Run} (hs : s.Canonical) : (s.modRun c q f).Canonical := hs.modQueue
theorem State.Canonical.writeStatus {w : Word256} (hs : s.Canonical) : (s.writeStatus c q w st word).Canonical :=
  hs.setPrm.ite hs
theorem State.Canonical.writeResult (hs : s.Canonical) : (s.writeResult c q a).Canonical := hs.wrCtx
theorem State.Canonical.endRun (hs : s.Canonical) : (s.endRun c q st idx detail).Canonical := by
  unfold State.endRun
  grind [writeResult, post, modQueue]
theorem State.Canonical.ran (hs : s.Canonical) : (s.ran c).Canonical := hs.modCtx
theorem State.Canonical.finishNow (hs : s.Canonical) : (s.finishNow c q).Canonical := hs.ran.writeStatus.modRun
theorem State.Canonical.faultNow {f : Flt} (hs : s.Canonical) : (s.faultNow c q f).Canonical := hs.writeStatus.endRun
theorem State.Canonical.issue (hs : s.Canonical) : (s.issue op).Canonical := hs.same rfl rfl
theorem State.Canonical.issueDone (hs : s.Canonical) : (s.issueDone op f word).Canonical := hs.issue
theorem State.Canonical.modOp {f : Op → Op} (hs : s.Canonical) : (s.modOp c q idx f).Canonical := hs.same rfl rfl
theorem State.Canonical.dropOp (hs : s.Canonical) : (s.dropOp c q idx).Canonical := hs.same rfl rfl
theorem State.Canonical.holdWrites {l : List (Nat × Target × List Byte)} (hs : s.Canonical) :
    (s.holdWrites c q idx e l).Canonical :=
  hs.modOp
theorem State.Canonical.release (hs : s.Canonical) : (s.release o).Canonical :=
  hs.ite (hs.postAll.ite (hs.foldl fun _ _ hu => hu.wrTarget))
theorem State.Canonical.settleOp (hs : s.Canonical) : (s.settleOp c q idx).Canonical := by
  unfold State.settleOp
  grind [release]
theorem State.Canonical.endOp (hs : s.Canonical) : (s.endOp c q idx f word).Canonical := hs.modOp
theorem State.Canonical.finishOp (hs : s.Canonical) :
    (s.finishOp c q idx f word).Canonical := (hs.settleOp.ite hs).endOp
theorem State.Canonical.retireOp (hs : s.Canonical) : (s.retireOp o st).Canonical :=
  hs.ran.dropOp.writeStatus.modRun.ite hs.ran.dropOp.writeStatus.endRun
theorem State.Canonical.charge {v : State} (hs : s.Canonical) (h : s.charge c q ns = some v) : v.Canonical := by
  simp only [State.charge, Option.ite_none_right_eq_some, Option.some.injEq] at h
  exact h.2 ▸ hs.modCtx
theorem State.Canonical.demandScrub (hs : s.Canonical) : (s.demandScrub m).Canonical := hs.modFab
theorem State.Canonical.countMismatch (hs : s.Canonical) : (s.countMismatch m cross).Canonical := hs.modFab.demandScrub
theorem State.Canonical.rerun (hs : s.Canonical) : (s.rerun c q m k ns cross).2.2.Canonical := by
  unfold State.rerun
  grind [State.Canonical.charge, countMismatch, chargeUnit]

end

end Sys2Proof.Machine

end

section
/-!
MemoryStaysCanonical: Tone, MOVE, SAMPLE, ACTUATE, WAIT, SIGNAL, PATCH and END.
-/

namespace Sys2Proof.Machine

open Sys2Proof

section

variable {s t u : State}
variable {a c cn d free i idx k m n q r0 residue rn time u v w : Nat}
variable {flush red set write : Bool}
variable {o op : Op}
variable {h : BitVec 256}
variable {e : Engine}
variable {ecc : Found}
variable {outs : List (Int × Nat)}
variable {walks : List (List Int)}
variable {b : List Int}
variable {f : Option Flt}
variable {mB : Option Mat}
variable {pl : Place}
variable {r : Rec}
variable {x : WalkItem}

/-! ### Tone -/
theorem State.Canonical.readWalks {m : Mat} (hs : s.Canonical) : (readWalks s c e pl ecc m n).2.Canonical := by
  unfold Machine.readWalks
  exact hs.foldl_snd fun r x hr => by grind [readMat]
theorem State.Canonical.writeWalks {m : Mat} (hs : s.Canonical) : (writeWalks s c q e pl m walks).2.Canonical := by
  unfold Machine.writeWalks
  split
  next heq => exact State.Canonical.of_eq (hs.foldl_snd fun r x hr => by grind [matTargets]) heq
  next heq => exact State.Canonical.writeSpace (.of_eq (hs.foldl_snd fun r x hr => by grind [matTargets]) heq)
theorem State.Canonical.toneWrite {e : Nat} (hs : s.Canonical) : (toneWrite s o m e r0 rn cn outs).2.Canonical := by
  unfold Machine.toneWrite
  grind [blockTargets, holdWrites]
theorem State.Canonical.toneB {e : Nat} (hs : s.Canonical) : (toneB s o m ecc mB e).2.Canonical := by
  unfold Machine.toneB
  grind [readMat]
theorem State.Canonical.toneBRow {e : Nat} (hs : s.Canonical) : (toneBRow s o m ecc mB b e i).2.Canonical := by
  unfold Machine.toneBRow
  grind [readBlock]
theorem State.Canonical.toneRow {e : Nat} (hs : s.Canonical) : (toneRow s o m red ecc mB b e i free).2.Canonical := by
  unfold Machine.toneRow
  grind [readBlock, toneWrite, toneBRow]
theorem State.Canonical.addCount {r : Except Flt Nat × State} {f : State → Except Flt Nat × State} (hr : r.2.Canonical)
    (hf : ∀ u, u.Canonical → (f u).2.Canonical) : (addCount r f).2.Canonical := by
  unfold Machine.addCount
  grind
theorem State.Canonical.toneEntry {e : Nat} (hs : s.Canonical) : (toneEntry s o m red ecc mB e free).2.Canonical := by
  unfold Machine.toneEntry
  dsimp only
  split
  · grind [readMat, toneWrite]
  · split
    next heq => exact hs.toneB.of_eq heq
    next heq => exact (hs.toneB.of_eq heq).foldl_snd fun _ _ hr => .addCount hr fun _ hv => hv.toneRow
theorem State.Canonical.toneSumlist (hs : s.Canonical) : (toneSumlist s o m ecc n free).2.Canonical := by
  unfold Machine.toneSumlist
  grind [readWalks, toneWrite]
theorem State.Canonical.toneCheck (hs : s.Canonical) : (toneCheck s c q red ecc).2.Canonical := by
  unfold Machine.toneCheck
  grind [prepare]
theorem State.Canonical.toneRun (hs : s.Canonical) : (toneRun s o red mB ecc residue n).2.2.Canonical := by
  have hpass (u : State) (free cnt : Nat) (c : Bool) (hu : u.Canonical) : (if c then Machine.toneSumlist u o
      (toneDie o.word) ecc n free else (List.range n).foldl (fun r e => Machine.addCount r fun v =>
        Machine.toneEntry v o (toneDie o.word) red ecc mB e (free + e * cnt)) (.ok 0, u)).2.Canonical := by
    split
    · exact hu.toneSumlist
    · exact hu.foldl_snd fun _ _ hr => .addCount hr fun _ hv => hv.toneEntry
  unfold Machine.toneRun
  dsimp only
  split
  next heq => exact (hpass _ _ _ _ (by exact hs.same rfl rfl)).of_eq heq
  next heq =>
    have h := (hpass _ _ _ _ (by exact hs.same rfl rfl)).of_eq heq
    grind [chargeUnit, rerun]
theorem State.Canonical.toneEffect (hs : s.Canonical) : (toneEffect s c q red ecc residue).Canonical := by
  unfold Machine.toneEffect
  grind [toneCheck, issueDone, toneRun, issue, finishOp]
/-! ### Macros -/
theorem State.Canonical.allPieces {m : Mat} (hs : s.Canonical) : (s.allPieces c pl m n write).2.Canonical := by
  unfold State.allPieces
  exact hs.foldl_snd fun r x hr => by grind [spaceTargets]
theorem State.Canonical.allTargets {m : Mat} (hs : s.Canonical) : (s.allTargets c pl m n write).2.Canonical := by
  unfold State.allTargets
  grind [allPieces]
theorem State.Canonical.moveCheck (hs : s.Canonical) : (moveCheck s c q ecc).2.Canonical := by
  unfold Machine.moveCheck
  dsimp only
  repeat' split
  all_goals grind [prepare, allTargets, chargeUnit]
theorem State.Canonical.moveBlock {k : Nat × Nat} (hs : s.Canonical) : (moveBlock s o e pl ecc w i k).2.Canonical := by
  unfold Machine.moveBlock
  grind [readSpace, blockTargets, holdWrites]
theorem State.Canonical.moveRun (hs : s.Canonical) : (moveRun s o e ecc n).2.Canonical := by
  unfold Machine.moveRun
  exact hs.foldl_snd fun r x hr => by grind [moveBlock]
theorem State.Canonical.moveEffect (hs : s.Canonical) : (moveEffect s c q ecc).Canonical := by
  unfold Machine.moveEffect
  grind [moveCheck, issueDone, moveRun, issue, finishOp]
theorem State.Canonical.sampleRun (hs : s.Canonical) : (sampleRun s c q ecc).2.Canonical := by
  unfold Machine.sampleRun
  grind [prepare, allTargets, readPiece, chargeUnit, writeWalks]
theorem State.Canonical.sampleEffect (hs : s.Canonical) : (sampleEffect s c q ecc).Canonical := by
  unfold Machine.sampleEffect
  grind [sampleRun, issueDone]
theorem State.Canonical.stageOne {o : Nat} (hs : s.Canonical) : (stageOne s c q k d o time a ecc).2.Canonical := by
  unfold Machine.stageOne
  grind [readCtx, wr, takeFree, post]
theorem State.Canonical.actuateRun (hs : s.Canonical) : (actuateRun s c q time ecc).2.Canonical := by
  unfold Machine.actuateRun
  dsimp only
  repeat' split
  all_goals grind [prepare, allTargets, foldl_snd, stageOne]
theorem State.Canonical.actuateEffect (hs : s.Canonical) : (actuateEffect s c q time ecc).Canonical := by
  unfold Machine.actuateEffect
  grind [actuateRun, issueDone]
theorem State.Canonical.waitEffect (hs : s.Canonical) : (waitEffect s c q).Canonical := hs.finishNow.ite hs.modRun
theorem State.Canonical.bump {v : BitVec 32} (hs : s.Canonical) : (s.bump c k set v).Canonical := hs.modCtx
theorem State.Canonical.signalBump (hs : s.Canonical) : (signalBump s c q).Canonical := hs.bump
theorem State.Canonical.signalRecord (hs : s.Canonical) : (signalRecord s c q).Canonical := hs.post
theorem State.Canonical.signalFence (hs : s.Canonical) : (signalFence s c q flush).Canonical := hs.modCtx.modQueue
theorem State.Canonical.patchReg {op : Nat} (hs : s.Canonical) : (patchReg s c q op).Canonical := hs.setPrm.finishNow
theorem State.Canonical.patchLoad (hs : s.Canonical) : (patchLoad s c q ecc).Canonical := by
  unfold Machine.patchLoad
  grind [faultNow, readCtx, finishNow, setPrm]
theorem State.Canonical.patchStore (hs : s.Canonical) : (patchStore s c q).Canonical := by
  unfold Machine.patchStore
  grind [faultNow, writeTargets, finishNow, postWrites]
theorem State.Canonical.endEffect (hs : s.Canonical) : (endEffect s c q).Canonical := hs.writeStatus.endRun
theorem State.Canonical.completeEffect (hs : s.Canonical) : (completeEffect s c q idx).Canonical := by
  unfold Machine.completeEffect
  grind [retireOp]

end

end Sys2Proof.Machine

end

section
/-!
MemoryStaysCanonical: plates, Etch, Hatch, Stipple and EXT.
-/

namespace Sys2Proof.Machine

open Sys2Proof

section

variable {s u : State}
variable {a bank c c0 cn d detail g i idx item k kind l m ns p q r0 rn round row sats t u v : Nat}
variable {w : Nat}
variable {bad hi mismatch stip sup : Bool}
variable {p1 p2 : Int}
variable {b sums : List Int}
variable {acc cols : List Nat}
variable {o op : Op}
variable {h : BitVec 256}
variable {status : BitVec 8}
variable {e : Engine}
variable {ecc : Found}
variable {rows : List (List Byte)}
variable {passes : List (Tab Int)}
variable {beats : List Byte}
variable {sheet : Option (List Int × Nat × Nat × Nat)}
variable {f : Option Flt}
variable {pl : Place}
variable {r : Rec}
variable {st : Status}
variable {raw : Tab Int}
variable {chk : TileCheck}
variable {x : WalkItem}

/-! ### Plates -/
theorem State.Canonical.plateEvent (hs : s.Canonical) : (s.plateEvent kind g detail sup).Canonical := by
  unfold State.plateEvent
  grind [postSup, post]
theorem State.Canonical.loadCheck (hs : s.Canonical) : (loadCheck s c q ecc).2.Canonical := by
  unfold Machine.loadCheck
  dsimp only
  repeat' split
  all_goals grind [prepare, allTargets]
theorem State.Canonical.loadEffect (hs : s.Canonical) : (loadEffect s c q ecc).Canonical := by
  unfold Machine.loadEffect
  grind [loadCheck, issueDone, modPlate, chargeUnit, issue]
theorem State.Canonical.loadCompleteEffect (hs : s.Canonical) : (loadCompleteEffect s c q idx ecc).Canonical := by
  unfold Machine.loadCompleteEffect
  grind [readMat, endOp, modPlate]
theorem State.Canonical.swapEffect (hs : s.Canonical) : (swapEffect s c q).Canonical := by
  unfold Machine.swapEffect
  grind [issueDone, issue]
theorem State.Canonical.swapTake (hs : s.Canonical) : (swapTake s c q idx).Canonical := by
  unfold Machine.swapTake
  split
  · exact hs
  · exact hs.endOp.ite (State.Canonical.each hs fun _ _ hu => hu.modPlate).endOp
theorem State.Canonical.etchCheck (hs : s.Canonical) : (etchCheck s c q ecc).2.Canonical := by
  unfold Machine.etchCheck
  grind [prepare]
theorem State.Canonical.etchEffect (hs : s.Canonical) : (etchEffect s c q ecc).Canonical := by
  unfold Machine.etchEffect
  grind [etchCheck, issueDone, chargeUnit, issue]
theorem State.Canonical.setEtch {h : EtchRun} (hs : s.Canonical) : (s.setEtch c q idx h).Canonical := hs.modOp
theorem State.Canonical.recordPass {v : Verdict} (hs : s.Canonical) : (s.recordPass k c g v).Canonical := by
  unfold State.recordPass
  grind [modPlate, modCtx, postSup, post]
theorem State.Canonical.modLedgers {f : Ledger → Ledger} (hs : s.Canonical) : (s.modLedgers c g f).Canonical :=
  hs.modPlate.modCtx
theorem State.Canonical.refusePass (hs : s.Canonical) : (refusePass s c q idx g round hi).Canonical := by
  unfold Machine.refusePass
  grind [modLedgers, modCtx, setEtch, endOp]
theorem State.Canonical.delayStipple (hs : s.Canonical) : (s.delayStipple m ns).Canonical := by
  unfold State.delayStipple
  exact hs.foldl fun u o hu => by grind [chargeUnit]
theorem State.Canonical.tryRebite {r : Rebite} (hs : s.Canonical) : (tryRebite s m r).2.Canonical := by
  unfold Machine.tryRebite
  grind [refusePass, State.Canonical.charge, delayStipple, chargeUnit]
theorem State.Canonical.startRebites {l : List Rebite} (hs : s.Canonical) : (startRebites m l s).Canonical := by
  fun_induction Machine.startRebites with
  | case1 => exact hs.same rfl rfl
  | case2 s r rest t h => exact (hs.tryRebite.of_eq h).same rfl rfl
  | case3 s r rest t h ih => exact ih (hs.tryRebite.of_eq h)
theorem State.Canonical.queueRebite {r : Rebite} (hs : s.Canonical) : (queueRebite s m r).Canonical := by
  unfold Machine.queueRebite
  split
  · exact hs.startRebites
  · exact hs.same rfl rfl
theorem State.Canonical.rebitePass (hs : s.Canonical) : (rebitePass s c q idx g round hi).Canonical := by
  unfold Machine.rebitePass
  grind [queueRebite, refusePass]
theorem State.Canonical.saveEtch {h : EtchRun} (hs : s.Canonical) : (s.saveEtch o h).Canonical := hs.wr.modOp
theorem State.Canonical.flightEffect {x : Flight} (hs : s.Canonical) : (flightEffect s x g raw p1 p2).Canonical := by
  unfold Machine.flightEffect
  grind [modPlate, saveEtch, recordPass]
theorem State.Canonical.passEffect (hs : s.Canonical) : (passEffect s c q idx g raw p1 p2).Canonical := by
  unfold Machine.passEffect
  grind [flightEffect, recordPass, setEtch, rebitePass]
theorem State.Canonical.rebiteWeights {b : Bank} (hs : s.Canonical) : (rebiteWeights s c m ecc b).2.Canonical := by
  unfold Machine.rebiteWeights
  grind [readBlock]
theorem State.Canonical.acceptRebite {r : Rebite} {h : EtchRun} {f : FailedPass} {b : Bank} (hs : s.Canonical) :
    (acceptRebite s r h f b sums).Canonical := by
  unfold Machine.acceptRebite
  exact hs.setEtch.modLedgers
theorem State.Canonical.endRebite {r : Rebite} (hs : s.Canonical) : (endRebite s m r bad ecc).Canonical := by
  unfold Machine.endRebite
  grind [rebiteWeights, refusePass, acceptRebite, post, postSup]
theorem State.Canonical.rebiteEffect (hs : s.Canonical) : (rebiteEffect s m bad ecc).Canonical := by
  unfold Machine.rebiteEffect
  grind [startRebites, endRebite]
theorem State.Canonical.writeOutEffect (hs : s.Canonical) : (writeOutEffect s c q idx).Canonical := by
  unfold Machine.writeOutEffect
  split
  · exact hs
  · exact .endOp (.ite (hs.foldl fun _ _ hu => hu.wr)
      (.modCtx (.each (hs.foldl fun _ _ hu => hu.wr) fun _ _ hu => hu.modPlate)))
theorem State.Canonical.bankScrubEffect (hs : s.Canonical) : (bankScrubEffect s g bank row mismatch).Canonical :=
  hs.ite (hs.modPlate.plateEvent.ite hs.modPlate)
theorem State.Canonical.burnishDone {m : BurnishSums} (hs : s.Canonical) : (burnishDone s g m).Canonical := by
  unfold Machine.burnishDone
  exact hs.modPlate.plateEvent.ite hs.modPlate
theorem State.Canonical.burnishStepEffect (hs : s.Canonical) : (burnishStepEffect s g passes).Canonical := by
  unfold Machine.burnishStepEffect
  exact hs.modPlate.ite hs.modPlate.burnishDone
theorem State.Canonical.overdueEffect (hs : s.Canonical) : (overdueEffect s g).Canonical := hs.modPlate.plateEvent
/-! ### Vyton -/
theorem State.Canonical.hatchPrepare (hs : s.Canonical) : (hatchPrepare s c q stip ecc).2.Canonical := by
  unfold Machine.hatchPrepare
  grind [prepare]
theorem State.Canonical.issueStipple {a b d : Mat} (hs : s.Canonical) :
    (issueStipple s op m a b d).Canonical := by
  unfold Machine.issueStipple
  grind [issueDone, issue, chargeUnit]
theorem State.Canonical.issueHatch {a b d : Mat} (hs : s.Canonical) :
    (issueHatch s op m a b d).Canonical := by
  unfold Machine.issueHatch
  grind [issueDone, issue, chargeUnit]
theorem State.Canonical.hatchEffect (hs : s.Canonical) : (hatchEffect s c q stip ecc).Canonical := by
  unfold Machine.hatchEffect
  grind [hatchPrepare, issueDone, issueStipple, issueHatch]
theorem State.Canonical.fetchBlock {x : Mat} {e : Nat} (hs : s.Canonical) :
    (fetchBlock s o m ecc x sheet e r0 rn c0 cn).2.Canonical := by
  unfold Machine.fetchBlock
  grind [readBlock]
theorem State.Canonical.fetchItem {h : HatchRun} (hs : s.Canonical) : (fetchItem s o h m i x ecc).2.Canonical := by
  unfold Machine.fetchItem
  grind [fetchBlock]
theorem State.Canonical.fetchEffect (hs : s.Canonical) : (fetchEffect s c q idx item ecc).Canonical := by
  unfold Machine.fetchEffect
  dsimp only
  repeat' split
  all_goals grind [finishOp, fetchItem, modOp, readBlock]
theorem State.Canonical.claimEffect (hs : s.Canonical) : (claimEffect s c q idx).Canonical := by
  unfold Machine.claimEffect
  grind [modOp]
theorem State.Canonical.readWells {x : Mat} {e : Nat} (hs : s.Canonical) :
    (readWells s o m x e r0 rn c0 cn).2.Canonical := by
  unfold Machine.readWells
  grind [readBlock]
theorem State.Canonical.tileOperands {h : HatchRun} (hs : s.Canonical) : (tileOperands s o h m x).2.Canonical := by
  unfold Machine.tileOperands
  grind [readWells]
theorem State.Canonical.tileLedger {rows : List Nat} (hs : s.Canonical) :
    (tileLedger s c rows cols).Canonical := hs.modCtx
theorem State.Canonical.tileMismatch {h : HatchRun} {rows : List Nat} (hs : s.Canonical) :
    (tileMismatch s o h m x rows cols).Canonical := by
  unfold Machine.tileMismatch
  grind [countMismatch, tileLedger, finishOp, State.Canonical.charge, modOp, chargeUnit]
theorem State.Canonical.drainBlock {e : Nat} (hs : s.Canonical) : (drainBlock s o m e r0 rn c0 cn acc).2.Canonical := by
  unfold Machine.drainBlock
  dsimp only
  split
  next heq => exact (State.Canonical.blockTargets (by exact hs.same rfl rfl)).of_eq heq
  next heq => exact ((State.Canonical.blockTargets (by exact hs.same rfl rfl)).of_eq heq).holdWrites
theorem State.Canonical.tileGood {h : HatchRun} (hs : s.Canonical) : (tileGood s o h m x acc).Canonical := by
  unfold Machine.tileGood
  grind [drainBlock, finishOp, modOp]
theorem State.Canonical.tileEffect (hs : s.Canonical) : (tileEffect s c q idx chk).Canonical := by
  unfold Machine.tileEffect
  dsimp only
  repeat' split
  all_goals grind [tileOperands, finishOp, tileMismatch, tileGood]
theorem State.Canonical.stipGroups {e : Nat} {x : List Int} (hs : s.Canonical) :
    (stipGroups s o m e r0 rn x chk ecc).2.Canonical := by
  unfold Machine.stipGroups
  exact hs.foldl_snd fun r g hr => by grind [readBlock, drainBlock]
theorem State.Canonical.stipMismatch {h : StipRun} (hs : s.Canonical) : (stipMismatch s o h m rn).Canonical := by
  unfold Machine.stipMismatch
  grind [countMismatch, finishOp, State.Canonical.charge, modOp, chargeUnit]
theorem State.Canonical.stipGood {h : StipRun} (hs : s.Canonical) :
    (stipGood s o h sats).Canonical := hs.modOp.ite hs.finishOp
theorem State.Canonical.stipEffect (hs : s.Canonical) : (stipEffect s c q idx chk ecc).Canonical := by
  unfold Machine.stipEffect
  dsimp only
  repeat' split
  all_goals grind [readWells, finishOp, stipMismatch, stipGroups, stipGood]
theorem State.Canonical.modExt {f : ExtPort → ExtPort} (hs : s.Canonical) : (s.modExt m p f).Canonical := hs.modFab
theorem State.Canonical.abortExt (hs : s.Canonical) : (s.abortExt m p o).Canonical := hs.modExt
theorem State.Canonical.extCheck (hs : s.Canonical) : (extCheck s c q ecc).2.Canonical := by
  unfold Machine.extCheck
  grind [prepare]
theorem State.Canonical.matBytes {m : Mat} (hs : s.Canonical) : (s.matBytes c e pl ecc m w).2.Canonical := by
  unfold State.matBytes
  exact hs.foldl_snd fun r x hr => by grind [readSpace]
theorem State.Canonical.extStream (hs : s.Canonical) : (extStream s o m ecc).2.Canonical := by
  unfold Machine.extStream
  exact hs.foldl_snd fun r x hr => by grind [matBytes]
theorem State.Canonical.extStart (hs : s.Canonical) : (extStart s o m p ecc).Canonical := by
  unfold Machine.extStart
  grind [extStream, endOp, send, modExt]
theorem State.Canonical.extEffect (hs : s.Canonical) : (extEffect s c q ecc).Canonical := by
  unfold Machine.extEffect
  grind [extCheck, issueDone, extStart, issue]
theorem State.Canonical.extTargets (hs : s.Canonical) : (extTargets s o m beats).2.Canonical := by
  unfold Machine.extTargets
  exact hs.foldl_snd fun r x hr => by grind [blockTargets]
theorem State.Canonical.extWrite (hs : s.Canonical) : (extWrite s o m beats).2.Canonical := by
  unfold Machine.extWrite
  grind [extTargets, writeSpace]
theorem State.Canonical.extDoneEffect (hs : s.Canonical) : (extDoneEffect s m p status beats).Canonical := by
  unfold Machine.extDoneEffect
  grind [modExt, endOp, extWrite]
theorem State.Canonical.extFault (hs : s.Canonical) : (extFault s m p st).Canonical := by
  unfold Machine.extFault
  grind [endOp]
theorem State.Canonical.extAckEffect (hs : s.Canonical) : (extAckEffect s m p beats).Canonical := by
  unfold Machine.extAckEffect
  grind [extFault, extWrite, modExt]
theorem State.Canonical.extHungEffect (hs : s.Canonical) : (extHungEffect s m p).Canonical := hs.extFault.modExt.modFab

end

end Sys2Proof.Machine

end

section
/-!
MemoryStaysCanonical: queues, bundles, contexts and links.
-/

namespace Sys2Proof.Machine

open Sys2Proof

section

variable {s u : State}
variable {a abort c cause cmd d detail die dir fail0 fail1 func i idx k kind l len m n off p p0 part port q : Nat}
variable {reason t time u v w : Nat}
variable {device margin ok orphaned recovers : Bool}
variable {cmp new : BitVec 64}
variable {body : BitVec 1024}
variable {h : BitVec 256}
variable {e : Engine}
variable {bytes : List Byte}
variable {b : List Int}
variable {sc : Machine.Scope}
variable {o : Op}
variable {f : Option Flt}
variable {r : Rec}
variable {st : Status}
variable {via : Via}
variable {x : WalkItem}

/-! ### Queues -/
theorem State.Canonical.answer (hs : s.Canonical) : (s.answer via abort len v).Canonical := hs.send
theorem State.Canonical.accepted (hs : s.Canonical) : (s.accepted).Canonical := hs.modNet
theorem State.Canonical.countAbort (hs : s.Canonical) : (s.countAbort).Canonical := hs.modNet
theorem State.Canonical.respond (hs : s.Canonical) :
    (s.respond via abort len v).Canonical := hs.answer.ite hs.countAbort.answer
theorem State.Canonical.ignored (hs : s.Canonical) : (s.ignored t).Canonical := hs.modTen
theorem State.Canonical.checkHead (hs : s.Canonical) : (s.checkHead c q).2.Canonical := by
  unfold State.checkHead
  grind [readCtx]
theorem State.Canonical.rejectEntry (hs : s.Canonical) : (s.rejectEntry c q reason).Canonical := hs.modQueue.post
theorem State.Canonical.applyPatch {p : BitVec 128} (hs : s.Canonical) : (s.applyPatch c q p).Canonical := hs.setPrm
theorem State.Canonical.startEntry (hs : s.Canonical) : (s.startEntry c q).Canonical := by
  unfold State.startEntry
  split
  next heq => exact (hs.checkHead.of_eq heq).rejectEntry
  next heq => exact ((hs.checkHead.of_eq heq).foldl fun _ _ hu => hu.applyPatch).modQueue.ran
theorem State.Canonical.headInfo (hs : s.Canonical) : (s.headInfo c q).2.Canonical := by
  unfold State.headInfo
  grind [readCtx]
theorem State.Canonical.resultArea (hs : s.Canonical) : (s.resultArea c q a).Canonical := hs.writeResult.ite hs
theorem State.Canonical.retireHead {i : Bool × Nat × BitVec 64} (hs : s.Canonical) : (s.retireHead c q i).Canonical :=
  (hs.resultArea.post.ite hs).modQueue
theorem State.Canonical.retireReplays (hs : s.Canonical) : (s.retireReplays c q orphaned n).Canonical := by
  fun_induction State.retireReplays with grind [headInfo, retireHead]
theorem State.Canonical.retireOnce (hs : s.Canonical) : (s.retireOnce c q).Canonical := hs.retireHead.ite hs
theorem State.Canonical.advanceQueue (hs : s.Canonical) : (s.advanceQueue c q).Canonical :=
  hs.ite (hs.retireOnce.retireReplays.ite hs).modQueue
theorem State.Canonical.advanceCtx (hs : s.Canonical) :
    (s.advanceCtx c).Canonical := hs.each fun _ _ hu => hu.advanceQueue
theorem State.Canonical.askRestore (hs : s.Canonical) : (s.askRestore margin c).Canonical := hs.ite (hs.same rfl rfl)
theorem State.Canonical.recheck (hs : s.Canonical) : (s.recheck c q).Canonical := by
  unfold State.recheck
  grind [checkHead, post, modQueue]
theorem State.Canonical.ring {idx : BitVec 16} (hs : s.Canonical) : (s.ring c q idx).Canonical :=
  hs.modQueue.recheck.askRestore.ite hs.modQueue.recheck
theorem State.Canonical.doorbellQueue {w : BitVec 64} (hs : s.Canonical) : (doorbellQueue s via w).Canonical := by
  unfold Machine.doorbellQueue
  grind [ring, ignored]
theorem State.Canonical.doorbellConsumer {w : BitVec 64} (hs : s.Canonical) : (doorbellConsumer s via w).Canonical := by
  unfold Machine.doorbellConsumer
  grind [modCtx, ignored]
theorem State.Canonical.heldEffect (hs : s.Canonical) : (heldEffect s c).Canonical := by
  unfold Machine.heldEffect
  grind [putRec, modCtx]
theorem State.Canonical.fenceRecord {f : Fence} (hs : s.Canonical) : (s.fenceRecord c f st detail).Canonical := hs.post
theorem State.Canonical.fenceEffect (hs : s.Canonical) : (fenceEffect s c q).Canonical := by
  unfold Machine.fenceEffect
  grind [bump, modCtx, fenceRecord]
theorem State.Canonical.flushEffect (hs : s.Canonical) : (flushEffect s c q ok).Canonical := by
  unfold Machine.flushEffect
  grind [modCtx, lateRecord]
theorem State.Canonical.failPosted {p : Posted} (hs : s.Canonical) : (s.failPosted p cause).Canonical := by
  unfold State.failPosted
  grind [modTen, lateFault]
theorem State.Canonical.performDev {p : Posted} {e : Ecc} (hs : s.Canonical) : (s.performDev p a e).Canonical := by
  unfold State.performDev
  grind [wr, failPosted, countCorrected, markPoison]
theorem State.Canonical.performPosted {p : Posted} {e : Ecc} (hs : s.Canonical) : (s.performPosted p e).Canonical := by
  unfold State.performPosted
  grind [failPosted, performDev, wrTarget]
theorem State.Canonical.drainPosted (hs : s.Canonical) : (s.drainPosted c).Canonical :=
  State.Canonical.foldl (hs.same rfl rfl) fun _ _ hu => hu.performPosted
theorem State.Canonical.setCount {n : BitVec 32} (hs : s.Canonical) : (s.setCount c n device).Canonical := hs.modCtx
theorem State.Canonical.keepCas (hs : s.Canonical) : (keepCas s via c cmp new).Canonical := by
  unfold Machine.keepCas
  grind [answer, ignored, setCount]
theorem State.Canonical.keepUpdate {v : BitVec 192} (hs : s.Canonical) : (keepUpdate s t v).2.Canonical := by
  unfold Machine.keepUpdate
  grind [ignored, setCount]
/-! ### Bundles -/
theorem State.Canonical.bundleSubmit (hs : s.Canonical) : (bundleSubmit s via bytes).Canonical := by
  unfold Machine.bundleSubmit
  split
  · exact hs
  split
  · exact hs.modTen.send
  · exact hs.same rfl rfl
theorem State.Canonical.fabricEdge (hs : s.Canonical) : s.fabricEdge.Canonical := by
  obtain ⟨f, n, heq⟩ := s.fabricEdge_form
  exact hs.same (by rw [heq]) (by rw [heq])
/-! ### Contexts -/
theorem State.Canonical.countSlotOp (hs : s.Canonical) : s.countSlotOp.Canonical := hs.same rfl rfl
theorem State.Canonical.preloadBytes {d : Word256} (hs : s.Canonical) : (s.preloadBytes c d).2.Canonical := by
  unfold State.preloadBytes
  exact hs.foldl_snd fun r x hr => by grind [readCtx]
theorem State.Canonical.digestFault {b : Bundle} (hs : s.Canonical) : (s.digestFault c b).2.Canonical := by
  unfold State.digestFault
  exact hs.foldl_snd fun r x hr => by grind [preloadBytes]
theorem State.Canonical.admitCheck (hs : s.Canonical) : (s.admitCheck c).2.Canonical := by
  unfold State.admitCheck
  grind [digestFault]
theorem State.Canonical.grant {b : Bundle} (hs : s.Canonical) : (s.grant c b).Canonical := by
  unfold State.grant
  exact (((hs.each fun _ _ hu => hu.zero).each fun _ _ hu => hu.zero).each fun _ _ hu => hu.modPlate).modCtx
theorem State.Canonical.refuseAdmission {r : Rej} (hs : s.Canonical) :
    (s.refuseAdmission c r).Canonical := hs.modTen.post
theorem State.Canonical.admitCtx (hs : s.Canonical) : (s.admitCtx c).Canonical := by
  unfold State.admitCtx
  grind [modCtx, admitCheck, refuseAdmission, grant, post, askRestore]
theorem State.Canonical.restoreCtx (hs : s.Canonical) : (s.restoreCtx c n).Canonical := by
  have hr : State.Canonical { s with restores := s.restores.filter (fun e => decide (e.2 ≠ c)) } := hs.same rfl rfl
  unfold State.restoreCtx
  grind [admitCheck, refuseAdmission, countSlotOp, modCtx]
theorem State.Canonical.doSlotOp {o : SlotOp} (hs : s.Canonical) : (s.doSlotOp o).Canonical := by
  unfold State.doSlotOp
  grind [restoreCtx, countSlotOp, modCtx, askRestore]
theorem State.Canonical.revoke (hs : s.Canonical) : (s.revoke c p0 n).Canonical := by
  unfold State.revoke
  refine hs.foldl fun u p hu => ?_
  dsimp only
  split
  · exact hu
  split
  · exact hu.translate
  · exact State.Canonical.lateFault (hu.translate.same rfl rfl)
theorem State.Canonical.invalidateOne (hs : s.Canonical) : (s.invalidateOne c a n).Canonical := hs.modCtx.revoke.post
theorem State.Canonical.invalidates (hs : s.Canonical) : (s.invalidates c).Canonical :=
  hs.modCtx.foldl fun _ _ hu => hu.invalidateOne
theorem State.Canonical.releasePlates (hs : s.Canonical) : (s.releasePlates c).Canonical :=
  hs.foldl fun _ _ hu => (hu.ite (hu.modCtx.modPlate.ite hu.modCtx))
theorem State.Canonical.clearPlates (hs : s.Canonical) : (s.clearPlates c).Canonical :=
  hs.each fun _ _ hu => (hu.modPlate.ite hu)
theorem State.Canonical.dropWork (hs : s.Canonical) : (s.dropWork c).Canonical := by
  refine State.Canonical.same (State.Canonical.foldl (hs.each fun u m hu => hu.each fun v p hv => ?_)
    fun u o hu => ?_) rfl rfl
  · grind [modExt]
  · grind [release, modExt, modPlate]
theorem State.Canonical.resetFences (hs : s.Canonical) : (s.resetFences c).Canonical :=
  hs.modCtx.foldl fun _ _ hu => hu.fenceRecord
theorem State.Canonical.resetQueue (hs : s.Canonical) : (s.resetQueue c q).Canonical := by
  unfold State.resetQueue
  grind [endRun, modQueue]
theorem State.Canonical.clearRegs (hs : s.Canonical) :
    (s.clearRegs c).Canonical := (hs.each fun _ _ hu => hu.modQueue).modCtx
theorem State.Canonical.resetCommon (hs : s.Canonical) : (s.resetCommon c).Canonical := by
  unfold State.resetCommon
  have h := ((State.Canonical.each (l := List.range 8) hs fun _ q hu => hu.resetQueue (c := c)
    (q := q)).dropWork (c := c)).resetFences (c := c) |>.clearRegs (c := c) |>.clearPlates (c := c)
  dsimp only
  generalize State.clearPlates _ _ = v at h ⊢
  exact h.same rfl rfl
theorem State.Canonical.resetRecord (hs : s.Canonical) : (s.resetRecord c sc).Canonical := hs.post.notifyCtx
theorem State.Canonical.resetToCreated (hs : s.Canonical) : (s.resetToCreated c).Canonical := by
  unfold State.resetToCreated
  exact hs.resetCommon.resetRecord.modCtx.setCount.ite hs.resetCommon.resetRecord.modCtx.setCount
theorem State.Canonical.resetToEnd (hs : s.Canonical) : (s.resetToEnd c sc).Canonical := by
  unfold State.resetToEnd
  exact hs.resetCommon.modCtx.setCount
theorem State.Canonical.resetToTeardown (hs : s.Canonical) : (s.resetToTeardown c).Canonical := by
  unfold State.resetToTeardown
  exact hs.resetCommon.resetRecord.setCount.modCtx
theorem State.Canonical.resetToNone (hs : s.Canonical) : (s.resetToNone c sc).Canonical := by
  unfold State.resetToNone
  exact hs.resetCommon.resetRecord.modCtx
theorem State.Canonical.resetCtx (hs : s.Canonical) : (s.resetCtx c sc).Canonical := by
  unfold State.resetCtx
  grind [resetToTeardown, modCtx, clearRegs, resetToCreated, resetToEnd, resetToNone]
theorem State.Canonical.orphanCheck (hs : s.Canonical) : (s.orphanCheck c).Canonical :=
  (hs.modCtx.ite hs).modCtx.setCount.ite (hs.modCtx.ite hs)
theorem State.Canonical.teardownCtx (hs : s.Canonical) : (s.teardownCtx c).Canonical := by
  unfold State.teardownCtx
  dsimp only
  split
  · exact hs
  split
  · exact hs
  · grind [drainPosted, resetCommon, countSlotOp, resetRecord, notifyCtx, post, modCtx]
theorem State.Canonical.ackLate (hs : s.Canonical) : (s.ackLate c).Canonical := hs.modCtx
theorem State.Canonical.createCtx {r : BitVec 1024} (hs : s.Canonical) : (createCtx s via t r).2.Canonical := by
  unfold Machine.createCtx
  grind [modView, setCtx]
theorem State.Canonical.ctxChange (hs : s.Canonical) : (ctxChange s c cmd body).2.Canonical := by
  unfold Machine.ctxChange
  grind [modCtx]
theorem State.Canonical.contextCommand {h : BitVec 128} (hs : s.Canonical) :
    (contextCommand s via h body).2.Canonical := by
  unfold Machine.contextCommand
  grind [createCtx, ignored, ctxChange]
theorem State.Canonical.requestTenantReset (hs : s.Canonical) : (s.requestTenantReset t).Canonical := hs.modTen
theorem State.Canonical.requestWarm (hs : s.Canonical) : (s.requestWarm cause).Canonical := hs.modBoot
theorem State.Canonical.requestCold (hs : s.Canonical) : (s.requestCold).Canonical := hs.modBoot
theorem State.Canonical.resetAtOnce (hs : s.Canonical) : (s.resetAtOnce).Canonical := hs.ite hs.modBoot
theorem State.Canonical.endGrants {p : Grant → Bool} (hs : s.Canonical) : (s.endGrants p).Canonical := hs.same rfl rfl
theorem State.Canonical.dropEndpoints {p : Via → Bool} (hs : s.Canonical) : (s.dropEndpoints p).Canonical := by
  unfold State.dropEndpoints
  grind [modNet, endGrants, modSec]
theorem State.Canonical.flrOne {f : Nat} (hs : s.Canonical) : (s.flrOne port f).Canonical := by
  unfold State.flrOne
  grind [dropEndpoints, modFunc, modTen]
theorem State.Canonical.partitionRestart (hs : s.Canonical) : (partitionRestart s part).Canonical := by
  unfold Machine.partitionRestart
  grind [requestTenantReset]
theorem State.Canonical.msixPending (hs : s.Canonical) : (s.msixPending port func).Canonical :=
  hs.ite (hs.each fun _ _ hu => hu.modFunc.send)
theorem State.Canonical.msixUnmask {w : CfgWrite} (hs : s.Canonical) : (msixUnmask s port func w).Canonical :=
  hs.modFunc.msixPending
/-! ### Links -/
theorem State.Canonical.checkPart {kind : MachineCheck} (hs : s.Canonical) :
    (s.checkPart p kind).Canonical := hs.modPart.send
theorem State.Canonical.route {f : Flit} (hs : s.Canonical) : (s.route l d f).Canonical := by
  unfold State.route
  grind [checkPart, modLink]
theorem State.Canonical.flitEffect {f : Crossing} (hs : s.Canonical) : (flitEffect s l dir f time).Canonical := by
  unfold Machine.flitEffect
  grind [modLink, route]
theorem State.Canonical.failWay (hs : s.Canonical) : (s.failWay l).Canonical :=
  State.Canonical.foldl (hs.same rfl rfl) fun _ _ hu => hu.failPosted
theorem State.Canonical.failStores (hs : s.Canonical) : (s.failStores l).Canonical := by
  unfold State.failStores
  exact hs.foldl fun u f hu => by grind [checkPart]
theorem State.Canonical.declareDown (hs : s.Canonical) :
    (s.declareDown l).Canonical := hs.modLink.failWay.failStores.errAll
theorem State.Canonical.retrainComplete (hs : s.Canonical) : (retrainComplete s l fail0 fail1 ok time).Canonical :=
  hs.declareDown.ite hs.modLink
theorem State.Canonical.scrubBad (hs : s.Canonical) : (s.scrubBad a die).Canonical := hs.ite hs.markPoison.postSup
theorem State.Canonical.stockScrub {e : Ecc} (hs : s.Canonical) : (stockScrub s k off e recovers).Canonical := by
  unfold Machine.stockScrub
  grind [countCorrected, scrubBad, send, requestWarm]
theorem State.Canonical.takeScrub (hs : s.Canonical) : (s.takeScrub k).Canonical := hs.same rfl rfl
theorem State.Canonical.patrol {e : Ecc} (hs : s.Canonical) : (patrol s a e).Canonical := by
  unfold Machine.patrol
  grind [countCorrected, scrubBad]
theorem State.Canonical.postedEffect {e : Ecc} (hs : s.Canonical) : (postedEffect s i e).Canonical := by
  unfold Machine.postedEffect
  split
  · exact hs
  · exact State.Canonical.performPosted (hs.same rfl rfl)

end

end Sys2Proof.Machine

end

section
/-!
MemoryStaysCanonical: Gauge dies, Field dies, power, the dictionary, debug and the endpoints.
-/

namespace Sys2Proof.Machine

open Sys2Proof

section

variable {s u : State}
variable {a bits c cause d die energy fail figure func i idx k l lag len m n node outstanding p port res slot speed sub : Nat}
variable {t u v w : Nat}
variable {bad life lost on parityErr stripesOk write : Bool}
variable {fresh nonce : BitVec 384}
variable {bs payload : List Byte}
variable {udp : BitVec 16}
variable {h : BitVec 256}
variable {ip : BitVec 32}
variable {sig : BitVec 768}
variable {vendor : BitVec 776}
variable {vec : BitVec 9}
variable {e : Engine}
variable {msg : GptpMsg}
variable {b0Temp : Int}
variable {b : List Int}
variable {o : Op}
variable {portA : Option (Nat × BitVec 72)}
variable {f : Option Flt}
variable {r : Rec}
variable {st : Status}
variable {via : Via}
variable {tag : VlanTag}
variable {x : WalkItem}

/-! ### Gauge -/
theorem State.Canonical.modPos {f : PosIf → PosIf} (hs : s.Canonical) : (s.modPos d i f).Canonical := hs.modGauge
theorem State.Canonical.modPwm {f : Pwm → Pwm} (hs : s.Canonical) : (s.modPwm d c f).Canonical := hs.modGauge
theorem State.Canonical.modLoad {f : LoadCh → LoadCh} (hs : s.Canonical) : (s.modLoad d k f).Canonical := hs.modGauge
theorem State.Canonical.latchGauge {x : GaugeIn} (hs : s.Canonical) : (s.latchGauge d x bits).Canonical :=
  hs.ite (hs.modGauge.each fun _ _ hu => (hu.ite hu.wr))
theorem State.Canonical.prepareOutput {o : Nat} (hs : s.Canonical) : (s.prepareOutput d o bad).Canonical := hs.modOutput
theorem State.Canonical.clearStaging (hs : s.Canonical) :
    (s.clearStaging d k).Canonical := hs.each fun _ _ hu => (hu.wr.ite hu)
theorem State.Canonical.reportBlock (hs : s.Canonical) : (s.reportBlock d k).Canonical :=
  hs.modGauge.postSup.ite hs.modGauge.postSup
theorem State.Canonical.prepareGauge (hs : s.Canonical) : (s.prepareGauge d).Canonical := by
  unfold State.prepareGauge
  exact .ite hs (.ite (hs.each fun _ _ hu => hu.prepareOutput) (.each (hs.each fun _ _ hu => hu.prepareOutput)
    fun _ _ hu => hu.reportBlock.ite hu.clearStaging))
theorem State.Canonical.carrierStart (hs : s.Canonical) : (carrierStart s d c).Canonical := by
  unfold Machine.carrierStart
  grind [modPwm]
theorem State.Canonical.pulseEdge (hs : s.Canonical) : (pulseEdge s d c).Canonical := hs.modPwm
theorem State.Canonical.diagnoseAll (hs : s.Canonical) : (s.diagnoseAll).Canonical :=
  hs.each fun _ _ hu => (hu.each fun _ _ hu2 => hu2.modLoad)
theorem State.Canonical.loadPeriodStart (hs : s.Canonical) : (loadPeriodStart s d k).Canonical := hs.modLoad
theorem State.Canonical.activate (hs : s.Canonical) : (s.activate d).Canonical :=
  hs.ite (((hs.each fun _ _ hu => hu.modOutput).each fun _ _ hu => hu.modPwm).each fun _ _ hu => (hu.modLoad.ite hu))
theorem State.Canonical.provisionGauge (hs : s.Canonical) : (s.provisionGauge d).Canonical :=
  (hs.modGauge.each fun _ _ hu => hu.modOutput).each fun _ _ hu => hu.modLoad
/-! ### Fabric -/
theorem State.Canonical.fillWells {w : Tab Byte} (hs : s.Canonical) : (s.fillWells m w).Canonical :=
  ⟨s.fillWells_wf m w hs.mem, hs.host⟩
theorem State.Canonical.loadBits {b : Bitstream} (hs : s.Canonical) : (loadBits s m b stripesOk).Canonical :=
  hs.fillWells.modFab.ite hs.fillWells.modFab
theorem State.Canonical.configEffect (hs : s.Canonical) : (configEffect s m stripesOk).Canonical := by
  unfold Machine.configEffect
  grind [loadBits]
theorem State.Canonical.copyEffect {b : Bitstream} (hs : s.Canonical) : (copyEffect s m slot b).Canonical :=
  hs.modFab.ite hs.modFab
theorem State.Canonical.abortPorts (hs : s.Canonical) :
    (s.abortPorts m).Canonical := hs.each fun _ _ hu => (hu.modExt.ite hu)
theorem State.Canonical.reconfigure (hs : s.Canonical) : (s.reconfigure m).Canonical := by
  unfold State.reconfigure
  grind [modFab, abortPorts]
theorem State.Canonical.configScrub {e : Ecc} (hs : s.Canonical) : (configScrub s m e).Canonical := by
  unfold Machine.configScrub
  grind [modFab, send]
theorem State.Canonical.portAWrite {v : BitVec 72} (hs : s.Canonical) : (s.portAWrite m w idx v).Canonical := by
  unfold State.portAWrite
  split
  · exact hs
  · exact hs.foldl fun _ _ hu => hu.wr.modFab
theorem State.Canonical.wellBus {v : Byte} (hs : s.Canonical) :
    (wellBus s m w a write v portA parityErr).Canonical := by
  unfold Machine.wellBus
  grind [portAWrite, send, wr, modFab]
theorem State.Canonical.modCollar {f : Collar → Collar} (hs : s.Canonical) : (s.modCollar m w f).Canonical := hs.modFab
theorem State.Canonical.fifoRead (hs : s.Canonical) : (fifoRead s m w lag).Canonical :=
  hs.modCollar.modCollar.send.ite hs.modCollar
/-! ### Power -/
theorem State.Canonical.urgentWarm (hs : s.Canonical) : (s.urgentWarm cause).Canonical :=
  hs.modBoot.ite (hs.modPower.ite hs.requestWarm)
theorem State.Canonical.modRail {r : Nat} {f : Rail → Rail} (hs : s.Canonical) :
    (s.modRail r f).Canonical := hs.modPower
theorem State.Canonical.railUpdate {r : Nat} (hs : s.Canonical) : (railUpdate s r figure lost).Canonical :=
  hs.modRail.modPower.urgentWarm.ite hs.modRail
theorem State.Canonical.droopDetect (hs : s.Canonical) : (droopDetect s die).Canonical := hs.modPower
theorem State.Canonical.planStep (hs : s.Canonical) : (s.planStep b0Temp).Canonical := hs.modPower
theorem State.Canonical.moveLadder (hs : s.Canonical) : (s.moveLadder energy).Canonical := hs.modPower
/-! ### Views -/
theorem State.Canonical.windowRead (hs : s.Canonical) : (s.windowRead via).2.Canonical := by
  unfold State.windowRead
  grind [takeFree, noteBad]
theorem State.Canonical.readObj (hs : s.Canonical) : (s.readObj via port i sub).2.Canonical := by
  unfold State.readObj
  grind [windowRead]
/-! ### Debug -/
theorem State.Canonical.wrote {r : Nat × State} (hr : r.2.Canonical) : (wrote r).2.Canonical := hr
theorem State.Canonical.perform {early : Bool} {f : State → Ans × State} (hs : s.Canonical)
    (hf : ∀ u, u.Canonical → (f u).2.Canonical) : (s.perform outstanding early f).2.Canonical := by
  unfold State.perform
  grind [accepted, countAbort, modNet]
theorem State.Canonical.request {early : Bool} {f : State → Ans × State} (hs : s.Canonical)
    (hf : ∀ u, u.Canonical → (f u).2.Canonical) : (s.request via outstanding early f).Canonical := by
  unfold State.request
  grind [perform, answer]
theorem State.Canonical.debugRequest (hs : s.Canonical) : (s.debugRequest via v fresh).2.Canonical := by
  unfold State.debugRequest
  grind [modSec]
theorem State.Canonical.granted1 {c : Challenge} (hs : s.Canonical) : (s.granted1 c).Canonical := hs.endGrants.modSec
theorem State.Canonical.debugResponse (hs : s.Canonical) : (s.debugResponse via sig vendor).2.Canonical := by
  unfold State.debugResponse
  grind [modSec, granted1]
theorem State.Canonical.relock (hs : s.Canonical) : (s.relock via v).2.Canonical := hs.endGrants.ite hs
theorem State.Canonical.haltQueue (hs : s.Canonical) : (s.haltQueue via v).2.Canonical := by
  unfold State.haltQueue
  grind [modQueue]
theorem State.Canonical.resumeQueue (hs : s.Canonical) : (s.resumeQueue via v).2.Canonical := by
  unfold State.resumeQueue
  grind [modQueue]
theorem State.Canonical.debugOnly {f : State → Nat × State} (hs : s.Canonical) (hf : (f s).2.Canonical) :
    (s.debugOnly via n f).2.Canonical := by
  unfold State.debugOnly
  split
  · exact hs
  · exact hf
theorem State.Canonical.setWindow (hs : s.Canonical) : (s.setWindow via v).2.Canonical := by
  unfold State.setWindow
  grind [modSec]
theorem State.Canonical.writeMem {v : BitVec 64} (hs : s.Canonical) : (s.writeMem a v).2.Canonical := by
  unfold State.writeMem
  grind [modCtx, noteBad, wr]
theorem State.Canonical.windowWrite {v : BitVec 64} (hs : s.Canonical) : (s.windowWrite via v).2.Canonical := by
  unfold State.windowWrite
  grind [writeMem]
/-! ### Commit -/
theorem State.Canonical.stage {x : Session} {r : ObjRow} (hs : s.Canonical) :
    (s.stage x r port i sub len v).2.Canonical := by
  unfold State.stage
  grind [modNet]
theorem State.Canonical.openSession (hs : s.Canonical) : (s.openSession via slot nonce).2.Canonical := by
  unfold State.openSession
  grind [modNet]
theorem State.Canonical.closeSession (hs : s.Canonical) : (s.closeSession via v).2.Canonical := by
  unfold State.closeSession
  grind [modNet]
theorem State.Canonical.fuseKey (hs : s.Canonical) : (s.fuseKey k v).Canonical := by
  unfold State.fuseKey
  exact hs.modSec
theorem State.Canonical.revokeSlot (hs : s.Canonical) : (s.revokeSlot k).Canonical :=
  hs.modOtp.each fun _ _ hu => (hu.setVal.modSec.ite hu)
theorem State.Canonical.installWaiver (hs : s.Canonical) : (s.installWaiver n v).Canonical := hs.ite hs.modSec
theorem State.Canonical.deviceReset (hs : s.Canonical) : (s.deviceReset v).Canonical :=
  (hs.requestWarm.ite hs.requestCold).modBoot.ite (hs.requestWarm.ite hs.requestCold)
theorem State.Canonical.powerRequest (hs : s.Canonical) :
    (s.powerRequest v).Canonical := (hs.modSec.ite hs).ite hs.modSec
theorem State.Canonical.applyOne (hs : s.Canonical) : (s.applyOne life k v).Canonical :=
  hs.fuseKey.ite (hs.revokeSlot.ite (hs.modOtp.ite (hs.installWaiver.ite (hs.modSec.ite
    ((hs.ite hs.powerRequest).ite (hs.deviceReset.ite (hs.modFab.ite hs)))))))
theorem State.Canonical.applyAll {st : List (Nat × Nat)} (hs : s.Canonical) : (s.applyAll st).Canonical :=
  (hs.foldl fun _ _ hu => hu.applyOne.setVal).modBoot.ite (hs.foldl fun _ _ hu => hu.applyOne.setVal)
theorem State.Canonical.endSession (hs : s.Canonical) : (s.endSession res fail).2.Canonical := hs.same rfl rfl
theorem State.Canonical.writeStore (hs : s.Canonical) : (s.writeStore).Canonical := hs.modBoot
theorem State.Canonical.commit (hs : s.Canonical) : (s.commit via sig).2.Canonical := by
  unfold State.commit
  grind [endSession, writeStore, applyAll]
theorem State.Canonical.blankKey (hs : s.Canonical) : (s.blankKey v).2.Canonical := by
  unfold State.blankKey
  grind [modOtp, fuseKey]
theorem State.Canonical.recoveryKey (hs : s.Canonical) : (s.recoveryKey slot v).2.Canonical := by
  unfold State.recoveryKey
  grind [modBoot, modSec]
/-! ### Dictionary -/
theorem State.Canonical.resumeWrite (hs : s.Canonical) : (s.resumeWrite v).Canonical := by
  unfold State.resumeWrite
  split
  · exact hs.same rfl rfl
  · exact hs.modFrame
  · exact hs
theorem State.Canonical.rwtWrite (hs : s.Canonical) : (s.rwtWrite i sub v).2.Canonical := by
  unfold State.rwtWrite
  dsimp only
  split
  · split
    · exact hs.setVal.resumeWrite
    · exact hs
  · exact State.Canonical.ite (hs.same rfl rfl) (hs.same rfl rfl)
theorem State.Canonical.bell {w : BitVec 64} (hs : s.Canonical) : (s.bell via w).Canonical :=
  hs.doorbellConsumer.ite hs.doorbellQueue
theorem State.Canonical.keepWrite (hs : s.Canonical) : (s.keepWrite via v).2.Canonical := by
  unfold State.keepWrite
  grind [keepUpdate]
theorem State.Canonical.tenantReset (hs : s.Canonical) : (s.tenantReset via sub).2.Canonical := by
  unfold State.tenantReset
  grind [requestTenantReset]
theorem State.Canonical.clearNotify (hs : s.Canonical) : (s.clearNotify t v).Canonical := hs.modTen
theorem State.Canonical.sessionWrite (hs : s.Canonical) : (s.sessionWrite via sub v nonce).2.Canonical := by
  unfold State.sessionWrite
  grind [openSession, commit, closeSession]
theorem State.Canonical.debugWrite (hs : s.Canonical) : (s.debugWrite via sub v fresh).2.Canonical := by
  unfold State.debugWrite
  grind [debugRequest, debugResponse, relock]
theorem State.Canonical.viewWrite {w : View} (hs : s.Canonical) : (s.viewWrite w i sub v).2.Canonical := by
  unfold State.viewWrite
  grind [modSec, modView, clearNotify]
theorem State.Canonical.windowHaltWrite (hs : s.Canonical) : (s.windowHaltWrite via i sub v).2.Canonical := by
  unfold State.windowHaltWrite
  grind [debugOnly, setWindow, windowWrite, haltQueue, resumeQueue]
theorem State.Canonical.applyWrite (hs : s.Canonical) : (s.applyWrite via i sub v fresh).2.Canonical := by
  unfold State.applyWrite
  grind [sessionWrite, debugWrite, contextCommand, bell, keepWrite, tenantReset, windowHaltWrite, viewWrite]
theorem State.Canonical.writeShown {r : ObjRow} (hs : s.Canonical) :
    (s.writeShown via r i sub len v fresh).2.Canonical := by
  unfold State.writeShown
  grind [rwtWrite, applyWrite]
theorem State.Canonical.keyWrite (hs : s.Canonical) : (s.keyWrite sub len v).2.Canonical := by
  unfold State.keyWrite
  grind [blankKey, recoveryKey]
theorem State.Canonical.mapWrite {w : View} (hs : s.Canonical) : (s.mapWrite w i sub v).2.Canonical := by
  unfold State.mapWrite
  grind [rwtWrite, viewWrite]
theorem State.Canonical.writeObj (hs : s.Canonical) : (s.writeObj via port i sub len v fresh).2.Canonical := by
  unfold State.writeObj
  grind [keyWrite, stage, writeShown]
theorem State.Canonical.writeFresh (hs : s.Canonical) : (s.writeFresh via port i sub len v).2.Canonical := by
  unfold State.writeFresh
  split
  · exact wrote hs.takeFree.writeObj
  · exact wrote hs.writeObj
theorem State.Canonical.rowWrite (hs : s.Canonical) : (s.rowWrite via port i sub len v fresh).Canonical :=
  hs.request fun _ hu => wrote hu.writeObj
/-! ### Network -/
theorem State.Canonical.sendGram (hs : s.Canonical) : (s.sendGram port tag ip udp h payload).Canonical := hs.send
theorem State.Canonical.sendAnswer {a : Answer} (hs : s.Canonical) : (s.sendAnswer port tag a).Canonical := hs.sendGram
theorem State.Canonical.pranil {f : State → (Nat × Nat × List Byte) × State} (hs : s.Canonical)
    (hf : ∀ u, u.Canonical → (f u).2.Canonical) : (s.pranil port tag ip udp h payload f).Canonical := by
  unfold State.pranil
  grind [sendAnswer, modEth]
theorem State.Canonical.pranilServed {f : State → (Nat × Nat × List Byte) × State} (hs : s.Canonical)
    (hf : ∀ u, u.Canonical → (f u).2.Canonical) : (s.pranilServed port tag ip udp h payload f).Canonical :=
  (hs.pranil hf).ite hs
theorem State.Canonical.response {r : Ans × State} (hr : r.2.Canonical) : (response r).2.Canonical := by
  unfold Machine.response
  split <;> exact hr
theorem State.Canonical.describeAns (hs : s.Canonical) : (s.describeAns via h).2.Canonical := by
  unfold State.describeAns
  split <;> exact hs
theorem State.Canonical.readXfer (hs : s.Canonical) : (s.readXfer via h outstanding).2.Canonical :=
  hs.perform fun _ hu => hu.readObj
theorem State.Canonical.writeXfer (hs : s.Canonical) : (s.writeXfer via h payload outstanding).2.Canonical :=
  hs.perform fun _ hu => hu.writeFresh
theorem State.Canonical.describeXfer (hs : s.Canonical) : (s.describeXfer via h outstanding).2.Canonical :=
  hs.perform fun _ hu => hu.describeAns
theorem State.Canonical.setStarted (hs : s.Canonical) : (s.setStarted t on udp).Canonical := hs.modTen
theorem State.Canonical.control (hs : s.Canonical) : (s.control port ip udp payload).2.Canonical := by
  unfold State.control
  grind [setStarted, modEth]
theorem State.Canonical.controlXfer (hs : s.Canonical) : (s.controlXfer port ip udp payload outstanding).2.Canonical :=
  hs.perform fun _ hu => hu.control
theorem State.Canonical.captureMaps (hs : s.Canonical) :
    (s.captureMaps).Canonical := hs.each fun _ _ hu => (hu.modMap.ite hu)
theorem State.Canonical.countMissed (hs : s.Canonical) : (s.countMissed).Canonical := hs.each fun _ _ hu => hu.modMap
theorem State.Canonical.mapsDue (hs : s.Canonical) : (s.mapsDue).Canonical := hs.each fun _ _ hu => hu.modMap
theorem State.Canonical.sendMap (hs : s.Canonical) : (s.sendMap n).Canonical := by
  unfold State.sendMap
  grind [modMap, sendGram]
theorem State.Canonical.writeEntries {w : View} {l : List (Nat × Nat × Nat)} {v : State} (hs : s.Canonical)
    (h : s.writeEntries w l bs = some v) : v.Canonical := by
  fun_induction State.writeEntries s w l bs with grind [mapWrite]
theorem State.Canonical.receiveMap (hs : s.Canonical) : (s.receiveMap port ip n payload).Canonical := by
  unfold State.receiveMap
  grind [modMap, State.Canonical.writeEntries]
theorem State.Canonical.mailRequest (hs : s.Canonical) : (s.mailRequest via h payload outstanding).2.Canonical := by
  unfold State.mailRequest
  grind [countAbort, readXfer, writeXfer, describeXfer]
theorem State.Canonical.mailbox (hs : s.Canonical) : (s.mailbox port func outstanding).Canonical := by
  unfold State.mailbox
  grind [mailRequest, modFunc, msix]
theorem State.Canonical.mailFill (hs : s.Canonical) : (s.mailFill port func vec h payload).Canonical := hs.modFunc
theorem State.Canonical.call (hs : s.Canonical) : (s.call via h payload outstanding).Canonical := by
  unfold State.call
  exact (response hs.mailRequest).send
theorem State.Canonical.bootUp (hs : s.Canonical) : (s.bootUp port).Canonical := hs.ite hs.modCan.errBit.send
theorem State.Canonical.nmtSet {x : Nmt} (hs : s.Canonical) :
    (s.nmtSet port x).Canonical := hs.ite (hs.modCan.ite hs.modCan)
theorem State.Canonical.resetNode (hs : s.Canonical) : (s.resetNode port node).Canonical := by
  unfold State.resetNode
  grind [bootUp, requestTenantReset]
theorem State.Canonical.usdo (hs : s.Canonical) : (s.usdo port node write idx sub payload outstanding).Canonical :=
  (hs.request fun _ hu => hu.writeFresh).ite (hs.request fun _ hu => hu.readObj)
theorem State.Canonical.captureTpdo (hs : s.Canonical) : (s.captureTpdo port n).Canonical := hs.modCan
theorem State.Canonical.capturePdos (hs : s.Canonical) : (s.capturePdos).Canonical :=
  hs.each fun _ _ hu => (hu.ite (hu.each fun _ _ hu2 => (hu2.captureTpdo.ite hu2)))
theorem State.Canonical.syncTpdo (hs : s.Canonical) : (s.syncTpdo port n).Canonical :=
  hs.ite (hs.modCan.captureTpdo.ite hs.modCan)
theorem State.Canonical.sendTpdo (hs : s.Canonical) : (s.sendTpdo port n).Canonical := hs.send.modCan
theorem State.Canonical.notifyTenant (hs : s.Canonical) : (s.notifyTenant t).Canonical := by
  unfold State.notifyTenant
  grind [modTen, sendTpdo, sendGram]
theorem State.Canonical.flushNotify (hs : s.Canonical) : (s.flushNotify).Canonical :=
  (hs.foldl fun _ _ hu => hu.notifyCtx).foldl fun _ _ hu => hu.notifyTenant
theorem State.Canonical.receivePdo (hs : s.Canonical) : (s.receivePdo port n payload).Canonical := by
  unfold State.receivePdo
  grind [modCan, State.Canonical.writeEntries]
theorem State.Canonical.loseBeat (hs : s.Canonical) : (s.loseBeat port n).Canonical := by
  unfold State.loseBeat
  grind [errBit, modCan, requestTenantReset]
theorem State.Canonical.beat (hs : s.Canonical) : (s.beat port n).Canonical := hs.modCan.ite hs.modCan.errBit
theorem State.Canonical.modPcie {f : PciePort → PciePort} (hs : s.Canonical) : (s.modPcie p f).Canonical := hs.modNet
theorem State.Canonical.linkLost (hs : s.Canonical) : (s.linkLost via).Canonical := by
  unfold State.linkLost
  grind [modEth, modPcie]
theorem State.Canonical.askPdelay (hs : s.Canonical) : (s.askPdelay port).Canonical := hs.modEth.send
theorem State.Canonical.linkUp (hs : s.Canonical) : (s.linkUp via speed).Canonical := by
  unfold State.linkUp
  grind [askPdelay, modEth, modPcie]
theorem State.Canonical.gptp (hs : s.Canonical) : (s.gptp port msg).Canonical := by
  unfold State.gptp
  grind [modEth, send, askPdelay]

end

end Sys2Proof.Machine

end

section
/-!
MemoryStaysCanonical: start-up, security and the frame.
-/

namespace Sys2Proof.Machine

open Sys2Proof

section

variable {s u : State}
variable {a bank bits c cause d energy g i k l m n p pdie q rate res t time u : Nat}
variable {life lost moved noSync on restart warm : Bool}
variable {bA bB img nA nB : Option Image}
variable {x0 x1 : GaugeIn}
variable {b0Temp temp : Int}
variable {capacity old : Tab Nat}
variable {h : BitVec 256}
variable {e : Engine}
variable {target : Life}
variable {payload : List Byte}
variable {b : List Int}
variable {o : Op}
variable {f : Option Flt}
variable {r : Rec}
variable {st : Status}
variable {temps : Tab Int}
variable {x : WalkItem}

/-! ### Startup -/
theorem State.Canonical.latchStore (hs : s.Canonical) : (s.latchStore).Canonical := hs.same rfl rfl
theorem State.Canonical.keepLp {old : Tab Nat} (hs : s.Canonical) : (s.keepLp old).Canonical :=
  ⟨twf_filter _ hs.mem, hs.host⟩
theorem State.Canonical.coldHold (hs : s.Canonical) : s.coldHold.Canonical := ⟨rfl, hs.host⟩
theorem State.Canonical.warmLoss (hs : s.Canonical) : (s.warmLoss old).Canonical := hs.keepLp.same rfl rfl
theorem State.Canonical.begin (hs : s.Canonical) : (s.begin warm cause).Canonical := by
  unfold State.begin
  exact hs.modBoot.modSec.send
theorem State.Canonical.healStore (hs : s.Canonical) : (s.healStore).Canonical := hs.modBoot.modNet.ite hs.modBoot
theorem State.Canonical.coldStart (hs : s.Canonical) : (s.coldStart cause).Canonical := by
  unfold State.coldStart
  exact .modSec (.modBoot hs.coldHold.latchStore.healStore.begin)
theorem State.Canonical.tryCold (hs : s.Canonical) : (s.tryCold cause).Canonical := by
  unfold State.tryCold
  exact .ite hs.coldStart hs.modBoot
theorem State.Canonical.warmStart (hs : s.Canonical) : (s.warmStart cause).Canonical := by
  have h : (s.latchStore.warmLoss s.eff).Canonical := hs.latchStore.warmLoss
  unfold State.warmStart
  dsimp only
  refine .each (.begin ?_) fun _ _ hu => hu.bootUp
  exact ⟨h.mem, h.host⟩
theorem State.Canonical.warmStartCommand (hs : s.Canonical) : (Machine.warmStart s).Canonical := by
  unfold Machine.warmStart
  exact hs.coldStart.ite (hs.warmStart.ite hs.modSec.warmStart)
theorem State.Canonical.held (hs : s.Canonical) : (s.held cause).Canonical := hs.coldHold.modBoot
theorem State.Canonical.brownout (hs : s.Canonical) : (brownout s).Canonical := hs.modBoot.ite hs.modBoot.held
theorem State.Canonical.suppliesGood (hs : s.Canonical) :
    (suppliesGood s).Canonical := hs.modBoot.ite hs.modBoot.tryCold
theorem State.Canonical.sysclkStart (hs : s.Canonical) : (sysclkStart s).Canonical := hs.ite hs.modBoot.tryCold
theorem State.Canonical.commitCut {x : Session} (hs : s.Canonical) : (s.commitCut x moved).Canonical :=
  (hs.applyAll.ite hs).modBoot.brownout
theorem State.Canonical.recover {k : Recovery} (hs : s.Canonical) : (s.recover k).Canonical := by
  unfold State.recover
  have hdies := hs.modBoot (f := fun b => { b with dev := .recovery, recovery := k }) |>.each (l := [0, 1])
    fun _ d hu => hu.modGauge (d := d) (f := fun g => { g with written := false, hiZ := true, pwm := [], load := [] })
  exact .ite (hdies.each fun _ _ hu => hu.modCan) hdies
theorem State.Canonical.gStarted {g : Image} (hs : s.Canonical) : (s.gStarted g bank).Canonical := by
  unfold State.gStarted
  have hboot (u : State) (hu : u.Canonical) :
      (if u.boot.warm then u else u.each (List.range 4) State.bootUp).Canonical := hu.ite (hu.each fun _ _ hv => hv.bootUp)
  exact .ite (.recover (.send (hboot _ hs.modBoot))) (.send (hboot _ hs.modBoot))
theorem State.Canonical.gVerify {a : Option Image} {b : Option Image} (hs : s.Canonical) :
    (gVerify s a b).Canonical := by
  unfold Machine.gVerify
  grind [recover, gStarted]
theorem State.Canonical.gaugesWritten (hs : s.Canonical) : (gaugesWritten s).Canonical :=
  (hs.each fun _ _ hu => hu.provisionGauge).modBoot
theorem State.Canonical.trained {t : BitVec 16} (hs : s.Canonical) : (trained s t capacity rate).Canonical := by
  unfold Machine.trained
  exact .ite (.send (.modBoot (hs.same rfl rfl))) (.recover (hs.same rfl rfl))
theorem State.Canonical.recordPairs (hs : s.Canonical) : s.recordPairs.Canonical := by
  unfold State.recordPairs
  exact hs.modBoot
theorem State.Canonical.loseStore (hs : s.Canonical) : s.loseStore.Canonical := hs.same rfl rfl
theorem State.Canonical.imagesChecked {b n : Option (Image × Nat)} (hs : s.Canonical) :
    (imagesChecked s b n lost).Canonical := by
  unfold Machine.imagesChecked
  dsimp only
  split
  · exact .ite (.recover (.modBoot (.modSec (.ite (.loseStore hs.modBoot) hs.modBoot))))
      (.send (.each (.modBoot (.recordPairs (.modBoot (.modSec (.ite (.loseStore hs.modBoot) hs.modBoot)))))
        fun _ _ hu => hu.modFab))
  · exact .recover (.modBoot (.modSec (.ite (.loseStore hs.modBoot) hs.modBoot)))
theorem State.Canonical.imageCheck (hs : s.Canonical) : (imageCheck s bA bB nA nB lost).Canonical := hs.imagesChecked
theorem State.Canonical.startBurnish {res : BurnishSums} (hs : s.Canonical) : (startBurnish s g res temp).Canonical :=
  hs.modPlate.burnishDone.modPlate
theorem State.Canonical.burnished {res : Tab BurnishSums} (hs : s.Canonical) : (burnished s res temps).Canonical :=
  (hs.each fun _ _ hu => hu.startBurnish).modBoot.send
theorem State.Canonical.applyLatched (hs : s.Canonical) : s.applyLatched.Canonical := by
  unfold State.applyLatched
  exact .each (hs.each fun u p hu => by grind [modCan]) fun _ _ hu => .modEth (hu.foldl fun _ _ hv => hv.setStarted)
theorem State.Canonical.settle (hs : s.Canonical) : s.settle.Canonical := by
  unfold State.settle
  exact .ite hs.recordPairs.modBoot (.ite (.errAll (.modSec hs.recordPairs.modBoot)) (.errAll hs.recordPairs.modBoot))
theorem State.Canonical.firstTick (hs : s.Canonical) : (firstTick s x0 x1).Canonical := by
  unfold Machine.firstTick
  exact .latchGauge (.latchGauge (.each (.modBoot (.modFrame (hs.same rfl rfl))) fun _ _ hu => hu.activate))
theorem State.Canonical.recDone (hs : s.Canonical) : (s.recDone res).Canonical := hs.modBoot.send
theorem State.Canonical.recCommand {h : RecoveryHeader} {busy image : Bool} {f : State → State} (hs : s.Canonical)
    (hf : (f s).Canonical) : (s.recCommand h busy image f).Canonical :=
  hs.ite (hs.send.ite (hs.recDone.ite hf))
theorem State.Canonical.touch (hs : s.Canonical) : (s.touch i on).Canonical := hs.modBoot
theorem State.Canonical.recErase {h : RecoveryHeader} (hs : s.Canonical) :
    (recErase h s).Canonical := hs.touch.modBoot.recDone
theorem State.Canonical.recWrite {h : RecoveryHeader} (hs : s.Canonical) : (recWrite h payload s).Canonical :=
  hs.recDone.ite (hs.recDone.ite hs.touch.modBoot.recDone)
theorem State.Canonical.recCommit {h : RecoveryHeader} (hs : s.Canonical) : (recCommit h img s).Canonical := by
  unfold Machine.recCommit
  grind [recDone, touch]
/-! ### Security -/
theorem State.Canonical.eraseWaivers (hs : s.Canonical) : s.eraseWaivers.Canonical := hs.same rfl rfl
theorem State.Canonical.eraseRecalled (hs : s.Canonical) : s.eraseRecalled.Canonical := ⟨rfl, hs.host⟩
theorem State.Canonical.eraseScrapped (hs : s.Canonical) : s.eraseScrapped.Canonical := by
  unfold State.eraseScrapped
  exact .modSec (hs.eraseRecalled.same rfl rfl)
theorem State.Canonical.erase (hs : s.Canonical) : (s.erase target).Canonical := by
  unfold State.erase
  grind [eraseWaivers, eraseRecalled, eraseScrapped]
theorem State.Canonical.erasureComplete (hs : s.Canonical) : (erasureComplete s target).Canonical := by
  have h : ((s.erase target).writeStore.modSec fun x =>
    { x with erasing := false, otp := { x.otp with life := target, target := none } }).Canonical :=
      .modSec hs.erase.writeStore
  unfold Machine.erasureComplete
  exact .ite ⟨h.mem, h.host⟩ h.modBoot
theorem State.Canonical.erasureEffect (hs : s.Canonical) : (erasureEffect s).Canonical := by
  unfold Machine.erasureEffect
  grind [erasureComplete]
theorem State.Canonical.enterDoze (hs : s.Canonical) : (s.enterDoze).Canonical :=
  hs.warmLoss.endGrants.modNet.modSec.modSec.ite hs.warmLoss.endGrants.modNet.modSec
theorem State.Canonical.wakeEmber (hs : s.Canonical) : (s.wakeEmber cause).Canonical :=
  hs.modSec.modBoot.tryCold.ite hs.modSec.modBoot
theorem State.Canonical.enterEmber (hs : s.Canonical) : (s.enterEmber).Canonical := by
  unfold State.enterEmber
  grind [modSec, coldHold, wakeEmber]
theorem State.Canonical.powerDown (hs : s.Canonical) : (powerDown s).Canonical := hs.enterDoze.ite hs.enterEmber
theorem State.Canonical.wake (hs : s.Canonical) : (s.wake cause).Canonical :=
  hs.modSec.ite (hs.modSec.ite (hs.wakeEmber.ite hs))
theorem State.Canonical.rtcAlarm (hs : s.Canonical) : (rtcAlarm s).Canonical := hs.modSec.wake.ite hs.modSec
theorem State.Canonical.emberLoss (hs : s.Canonical) : (emberLoss s).Canonical := hs.modSec.modSec.modBoot.ite hs.modSec
/-! ### Frame -/
theorem State.Canonical.refEvent (hs : s.Canonical) : (s.refEvent time noSync).Canonical := by
  unfold State.refEvent
  grind [modFrame]
theorem State.Canonical.walkGrid (hs : s.Canonical) : (s.walkGrid).Canonical := hs.ite hs.modFrame
theorem State.Canonical.settleHeld (hs : s.Canonical) : (s.settleHeld).Canonical :=
  hs.ite (hs.modFrame.tickEvent.ite hs.modFrame)
theorem State.Canonical.lockTick (hs : s.Canonical) :
    (s.lockTick restart).Canonical := hs.modFrame.tickEvent.ite hs.modFrame
theorem State.Canonical.tickEmcy (hs : s.Canonical) : (s.tickEmcy).Canonical := hs.errAll.ite (hs.ite hs.errAll)
theorem State.Canonical.frameLen (hs : s.Canonical) : s.frameLen.Canonical := by
  unfold State.frameLen
  exact hs.modFrame
theorem State.Canonical.actRwt {e : Rwt} (hs : s.Canonical) : (s.actRwt e).Canonical :=
  hs.ite (hs.modFrame.ite (hs.modTen.ite (hs.modPos.ite (hs.modLoad.ite hs))))
theorem State.Canonical.actRwts (hs : s.Canonical) : s.actRwts.Canonical := by
  unfold State.actRwts
  exact .foldl (hs.same rfl rfl) fun _ _ hu => hu.actRwt
theorem State.Canonical.tenantsTick (hs : s.Canonical) : (s.tenantsTick).Canonical := hs.each fun _ _ hu => hu.modTen
theorem State.Canonical.releaseFuncs (hs : s.Canonical) : (s.releaseFuncs).Canonical :=
  hs.each fun _ _ hu => (hu.each fun _ _ hu2 => (hu2.modFunc.ite hu2))
theorem State.Canonical.beginFrame (hs : s.Canonical) : (s.beginFrame x0 x1 bits restart).Canonical := by
  unfold State.beginFrame
  exact .latchGauge (.latchGauge (.mapsDue (.each (.releaseFuncs (.tenantsTick (.modPower (.tickEmcy (.frameLen
    (.lockTick (.actRwts (.modFrame (hs.same rfl rfl)))))))))  fun _ _ hu => hu.modFab)))
theorem State.Canonical.stopTick {st : TickState} (hs : s.Canonical) : (s.stopTick st).Canonical := hs.modFrame
theorem State.Canonical.unready (hs : s.Canonical) : (s.unready).Canonical := hs.modBoot
theorem State.Canonical.endFrame {e : FrameEnd} (hs : s.Canonical) : (s.endFrame e).Canonical := by
  unfold State.endFrame
  grind [modBoot, unready, stopTick, modSec]
theorem State.Canonical.urgentEnd (hs : s.Canonical) : (s.urgentEnd).Canonical :=
  hs.ite ((hs.each fun _ _ hu => (hu.each fun _ _ hu2 => hu2.modOutput)).each fun _ _ hu => hu.resetCtx)
theorem State.Canonical.land (hs : s.Canonical) : (s.land).Canonical := hs.same rfl rfl
theorem State.Canonical.tickEffect (hs : s.Canonical) : (tickEffect s x0 x1).Canonical := by
  have h := State.Canonical.each (l := [0, 1]) (.modFrame (.land (.flushNotify hs.urgentEnd))
    (f := fun f => { f with now := f.now - f.elapsed + f.len, elapsed := 0, counter := f.counter + 1 }))
    fun _ d hu => hu.activate (d := d)
  unfold Machine.tickEffect
  exact .ite h.beginFrame h.endFrame
theorem State.Canonical.holdRestart (hs : s.Canonical) : (holdRestart s x0 x1).Canonical := by
  unfold Machine.holdRestart
  exact .beginFrame (.each (.modFrame hs.modSec) fun _ _ hu => hu.activate)
theorem State.Canonical.combCtx (hs : s.Canonical) : (s.combCtx c).Canonical := by
  unfold State.combCtx
  exact .modCtx (.advanceCtx (hs.each fun _ _ hu => hu.modQueue))
theorem State.Canonical.setUnitHeld {h : Tab Nat} (hs : s.Canonical) : State.Canonical { s with unitHeld := h } :=
  hs.same rfl rfl
theorem State.Canonical.openingComb (hs : s.Canonical) : (openingComb s).Canonical := by
  unfold Machine.openingComb
  exact .setUnitHeld (.each (.each (.modFrame hs.flushNotify) fun _ _ hu => hu.modFab) fun _ _ hu => hu.combCtx)
theorem State.Canonical.combStep (hs : s.Canonical) : s.combStep.Canonical := by
  unfold State.combStep
  exact hs.modFrame
theorem State.Canonical.impressStart (hs : s.Canonical) : (impressStart s).Canonical := hs.flushNotify.modFrame
theorem State.Canonical.reservationEnd (hs : s.Canonical) : (reservationEnd s t).Canonical := by
  unfold Machine.reservationEnd
  exact hs.modFrame
theorem State.Canonical.restoreEtch {h : EtchRun} (hs : s.Canonical) : (s.restoreEtch o h).Canonical := hs.modOp
theorem State.Canonical.reissueExt (hs : s.Canonical) : (s.reissueExt o m p).Canonical :=
  hs.endOp.ite (hs.ite hs.modOp.extStart)
theorem State.Canonical.resumeOp (hs : s.Canonical) : (s.resumeOp o).Canonical := by
  unfold State.resumeOp
  grind [reissueExt, restoreEtch, modOp]
theorem State.Canonical.marginSlot (hs : s.Canonical) : s.marginSlot.Canonical := by
  unfold State.marginSlot
  exact hs.foldl fun u o hu => by grind [resumeOp, modOp]
theorem State.Canonical.marginCtx (hs : s.Canonical) : (s.marginCtx c).Canonical := by
  unfold State.marginCtx
  exact .modCtx (hs.each fun _ _ hu => hu.modQueue)
theorem State.Canonical.marginStart (hs : s.Canonical) : (marginStart s).Canonical := by
  unfold Machine.marginStart
  exact .marginSlot (.each (.modFrame hs.flushNotify) fun _ _ hu => hu.marginCtx)
theorem State.Canonical.marginComb (hs : s.Canonical) : (marginComb s).Canonical := hs.modFrame.marginSlot
theorem State.Canonical.loseBanks (hs : s.Canonical) : (s.loseBanks pdie).Canonical :=
  (hs.each fun _ _ hu => hu.modPlate).foldl fun _ _ hu => hu.endOp
theorem State.Canonical.linkEffect (hs : s.Canonical) : (s.linkEffect l).Canonical := by
  unfold State.linkEffect
  have hlose (u : State) (hu : u.Canonical) : (if l < 8 then u.loseBanks l else u).Canonical := hu.loseBanks.ite hu
  have htold (ts : List Nat) (r : Rec) (u : State) (hu : u.Canonical) :
      (ts.foldl (fun s t => s.postTenant t r) (u.postSup r)).Canonical := hu.postSup.foldl fun _ _ hv => hv.postTenant
  exact .ite hs (.ite (.requestWarm (hlose _ (htold _ _ _ hs.modLink))) (hlose _ (htold _ _ _ hs.modLink)))
theorem State.Canonical.linkEffects (hs : s.Canonical) :
    (s.linkEffects).Canonical := hs.each fun _ _ hu => hu.linkEffect
theorem State.Canonical.fixScope (hs : s.Canonical) : s.fixScope.Canonical := by
  unfold State.fixScope
  exact .modFrame (.modSec hs.modFrame)
theorem State.Canonical.dropQueue (hs : s.Canonical) : (s.dropQueue c q).Canonical := by
  refine State.Canonical.same (State.Canonical.foldl hs fun u o hu => ?_) rfl rfl
  grind [release, abortExt, modPlate]
theorem State.Canonical.overrunIdle (hs : s.Canonical) : (s.overrunIdle n c q).Canonical := by
  unfold State.overrunIdle
  grind [headInfo, modQueue, post, resultArea]
theorem State.Canonical.overrunQueue (hs : s.Canonical) : (s.overrunQueue n c q).Canonical := by
  unfold State.overrunQueue
  grind [modQueue, endRun, dropQueue, overrunIdle]
theorem State.Canonical.judgeTenant (hs : s.Canonical) : (s.judgeTenant t).Canonical := by
  unfold State.judgeTenant
  split
  · exact hs.modTen
  · exact .foldl hs.modTen fun _ _ hu => hu.overrunQueue
theorem State.Canonical.stopOp (hs : s.Canonical) : (s.stopOp o).Canonical := by
  unfold State.stopOp
  grind [saveEtch, abortExt, modOp]
theorem State.Canonical.stopMargin (hs : s.Canonical) : (s.stopMargin).Canonical := hs.foldl fun _ _ hu => hu.stopOp
theorem State.Canonical.launch (hs : s.Canonical) : s.launch.Canonical := by
  unfold State.launch
  refine hs.foldl fun u o hu => ?_
  split
  · exact .ite hu (hu.each fun _ _ hv => hv.modPlate)
  · exact hu
theorem State.Canonical.abandonRebites (hs : s.Canonical) : (s.abandonRebites).Canonical := hs.same rfl rfl
theorem State.Canonical.ledgerCtx (hs : s.Canonical) : (s.ledgerCtx c).Canonical := by
  unfold State.ledgerCtx
  exact .modCtx (.ite (.wrCtx (.ite hs.post hs)) (.ite hs.post hs))
theorem State.Canonical.resetTenant (hs : s.Canonical) : (s.resetTenant t).Canonical :=
  hs.ite (hs.modTen.ite hs.modTen.endGrants.modTen)
theorem State.Canonical.doResets (hs : s.Canonical) : s.doResets.Canonical := by
  unfold State.doResets
  exact .each (.each (hs.each fun _ _ hu => hu.resetTenant) fun u c hu => by grind [resetCtx]) fun _ _ hu => hu.ackLate
theorem State.Canonical.clearRequests (hs : s.Canonical) : (s.clearRequests).Canonical :=
  (hs.each fun _ _ hu => hu.modTen).each fun _ _ hu => (hu.each fun _ _ hu2 => hu2.modFunc)
theorem State.Canonical.contextsGuard (hs : s.Canonical) : s.contextsGuard.Canonical := by
  unfold State.contextsGuard
  exact .each (.clearRequests (.each (.each (hs.each fun _ _ hu => hu.orphanCheck) fun _ _ hu => hu.releasePlates)
    fun _ _ hu => hu.teardownCtx)) fun _ _ hu => hu.admitCtx.ite hu
theorem State.Canonical.platesGuard (hs : s.Canonical) :
    (s.platesGuard temps).Canonical := hs.each fun _ _ hu => hu.modPlate
theorem State.Canonical.fabricGuard (hs : s.Canonical) : (s.fabricGuard).Canonical :=
  hs.each fun _ _ hu => hu.reconfigure.modFab
theorem State.Canonical.guardStart (hs : s.Canonical) : (guardStart s temps energy b0Temp).Canonical := by
  unfold Machine.guardStart
  exact .diagnoseAll (.fabricGuard (.countMissed (.capturePdos (.captureMaps (.planStep (.moveLadder (.platesGuard
    (.contextsGuard (.doResets (.each (.each (.stopMargin (.abandonRebites (.each (.launch (.fixScope (.linkEffects
      (.modFrame hs.flushNotify)))) fun _ _ hu => hu.judgeTenant))) fun _ _ hu => hu.ledgerCtx)
        fun _ _ hu => hu.invalidates))))))))))
theorem State.Canonical.outputPreparation (hs : s.Canonical) : (outputPreparation s).Canonical := by
  unfold Machine.outputPreparation
  exact .modFrame (.each hs.prepareGauge.prepareGauge fun _ _ hu => hu.modFab)
theorem State.Canonical.slotOpEffect (hs : s.Canonical) : (slotOpEffect s).Canonical := by
  unfold Machine.slotOpEffect
  grind [doSlotOp]

end

end Sys2Proof.Machine

end

section
/-!
MemoryStaysCanonical: every command keeps the canonical form, and so does every step.
-/

namespace Sys2Proof.Machine

open Sys2Proof

section

variable {s t : State} {cmd : Nat} {via : Via}

/-! ### Commands -/

/-- What a command answers has the canonical form, where it answers a state. -/
def Out.Canonical : Out → Prop
  | .next t => t.Canonical
  | _ => True

theorem State.Canonical.due {b : Bool} (hs : s.Canonical) (ht : t.Canonical) : Out.Canonical (due s b t) := by
  cases b
  · exact hs
  · exact ht
theorem Out.Canonical.refusedOr {b : Prop} {_ : Decidable b} {r : Refusal} {o : Out} (ho : o.Canonical) :
    Out.Canonical (if b then .refused r else o) := by
  split
  · exact trivial
  · exact ho
theorem State.Canonical.snd_ite {α : Type} {b : Prop} {_ : Decidable b} {x y : α × State} (hx : x.2.Canonical)
    (hy : y.2.Canonical) : (if b then x else y).2.Canonical := by
  split
  · exact hx
  · exact hy
theorem State.Canonical.commandRow {h : BitVec 128} {body : BitVec 1024} (hs : s.Canonical) :
    Out.Canonical (commandRow s cmd via h body) := by
  unfold Machine.commandRow
  refine hs.due ?_
  have hc : (Machine.contextCommand s.accepted via h body).2.Canonical := hs.accepted.contextCommand
  exact .ite hc.respond hc.respond
theorem State.Canonical.sessionCommit {x : CommitOf} (hs : s.Canonical) : Out.Canonical (execSessionCommit via x s) := by
  unfold execSessionCommit
  split
  · exact hs.commitCut
  · exact hs.rowWrite

theorem exec_canonical (hs : s.Canonical) (c : Instr) : Out.Canonical (exec c s) :=
  match c with
  | .tick _ _ => hs.due hs.tickEffect
  | .openingComb => hs.due hs.openingComb
  | .combTooth => hs.due hs.combStep
  | .impressStart => hs.due hs.impressStart
  | .reservationEnd _ => hs.due hs.reservationEnd
  | .marginStart => hs.due hs.marginStart
  | .marginComb => hs.due hs.marginComb
  | .guardStart _ _ _ => hs.due hs.guardStart
  | .outputPreparation => hs.due hs.outputPreparation
  | .slotOperation => hs.due hs.slotOpEffect
  | .frequencySwitch _ => hs.due hs.modPower.modFrame
  | .outputSeal => hs.due hs.modFrame
  | .referenceEvent _ _ => hs.due hs.walkGrid.refEvent.settleHeld
  | .missingEvent => hs.due hs.walkGrid.modFrame.settleHeld
  | .holdoverExpiry => hs.due hs.modFrame
  | .resumeFromFallback _ _ => hs.rowWrite
  | .holdTickRestart _ _ => hs.due hs.holdRestart
  | .flitReceive _ _ _ _ => hs.due hs.flitEffect
  | .retrainComplete _ _ _ _ _ => hs.due hs.retrainComplete
  | .arbitrationWindow _ _ => hs.due (hs.same rfl rfl)
  | .stockScrub _ _ _ _ => hs.due hs.takeScrub.stockScrub
  | .lpddr5xPatrol _ _ => hs.due hs.takeScrub.patrol
  | .postedWriteComplete _ _ => hs.due hs.postedEffect
  | .bankScrub _ _ _ _ => hs.due hs.bankScrubEffect
  | .passComplete _ _ _ _ _ _ _ => hs.due hs.passEffect
  | .rebiteComplete _ _ _ => hs.due hs.rebiteEffect
  | .etchWriteOut _ _ _ => hs.due hs.writeOutEffect
  | .loadComplete _ _ _ _ => hs.due hs.loadCompleteEffect
  | .swapTakeEffect _ _ _ => hs.due hs.swapTake
  | .burnishDue _ _ => hs.due hs.modPlate
  | .burnishStep _ _ => hs.due hs.burnishStepEffect
  | .plateOverdue _ => hs.due hs.overdueEffect
  | .hatch _ _ _ => hs.due hs.hatchEffect
  | .operandFetchComplete _ _ _ _ => hs.due hs.fetchEffect
  | .claimGranted _ _ _ => hs.due hs.claimEffect
  | .tileDrain _ _ _ _ => hs.due hs.tileEffect
  | .stipple _ _ _ => hs.due hs.hatchEffect
  | .stippleComplete _ _ _ _ _ => hs.due hs.stipEffect
  | .etch _ _ _ => hs.due hs.etchEffect
  | .load _ _ _ => hs.due hs.loadEffect
  | .swap _ _ => hs.due hs.swapEffect
  | .moveInk _ _ _ => hs.due hs.moveEffect
  | .moveDataMover _ _ _ => hs.due hs.moveEffect
  | .toneDrain _ _ _ _ => hs.due hs.toneEffect
  | .toneScale _ _ _ _ => hs.due hs.toneEffect
  | .toneAdd _ _ _ _ => hs.due hs.toneEffect
  | .toneSub _ _ _ _ => hs.due hs.toneEffect
  | .toneClamp _ _ _ _ => hs.due hs.toneEffect
  | .toneCmp _ _ _ _ => hs.due hs.toneEffect
  | .toneTable _ _ _ _ => hs.due hs.toneEffect
  | .toneConvert _ _ _ _ => hs.due hs.toneEffect
  | .reduceColumnSum _ _ _ _ => hs.due hs.toneEffect
  | .reduceRowSum _ _ _ _ => hs.due hs.toneEffect
  | .reduceColumnMax _ _ _ _ => hs.due hs.toneEffect
  | .reduceRowMax _ _ _ _ => hs.due hs.toneEffect
  | .reduceSumlist _ _ _ _ => hs.due hs.toneEffect
  | .sample _ _ _ => hs.due hs.sampleEffect
  | .actuate _ _ _ _ => hs.due hs.actuateEffect
  | .waitCount _ _ => hs.due hs.waitEffect
  | .waitDrain _ _ => hs.due hs.waitEffect
  | .waitBoth _ _ => hs.due hs.waitEffect
  | .waitSatisfied _ _ => hs.due hs.finishNow
  | .signalCounter _ _ => hs.due hs.signalBump.finishNow
  | .signalEvent _ _ => hs.due hs.signalBump.signalRecord.finishNow
  | .signalFence _ _ => hs.due hs.signalFence.finishNow
  | .signalFlush _ _ => hs.due hs.signalFence.finishNow
  | .patchSet _ _ => hs.due hs.patchReg
  | .patchAdd _ _ => hs.due hs.patchReg
  | .patchCopy _ _ => hs.due hs.patchReg
  | .patchAddreg _ _ => hs.due hs.patchReg
  | .patchLoad _ _ _ => hs.due hs.patchLoad
  | .patchStore _ _ => hs.due hs.patchStore
  | .endEntry _ _ => hs.due hs.endEffect
  | .ext _ _ _ => hs.due hs.extEffect
  | .extDone _ _ _ _ => hs.due hs.extDoneEffect
  | .extTimeout _ _ => hs.due hs.modExt
  | .extAbortAck _ _ => hs.due hs.extAckEffect
  | .extHung _ _ => hs.due hs.extHungEffect
  | .macroComplete _ _ _ => hs.due hs.completeEffect
  | .doorbellQueue _ _ => hs.due hs.doorbellQueue
  | .doorbellConsumer _ _ => hs.due hs.doorbellConsumer
  | .entryStart _ _ => hs.due hs.startEntry
  | .marginEntryStart _ _ => hs.due hs.startEntry
  | .heldRecordWrite _ => hs.due hs.heldEffect
  | .fenceComplete _ _ => hs.due hs.fenceEffect
  | .flushReadCompletion _ _ _ => hs.due hs.flushEffect
  | .keepCas _ _ _ _ => hs.due hs.keepCas
  | .keepUpdate _ _ => hs.rowWrite
  | .create _ _ _ => hs.commandRow
  | .admitCtx _ _ => hs.commandRow
  | .invalidate _ _ _ => hs.commandRow
  | .releasePlate _ _ _ => hs.commandRow
  | .teardown _ _ => hs.commandRow
  | .contextReset _ _ => hs.commandRow
  | .ackLate _ _ => hs.commandRow
  | .bundleSubmit _ _ => hs.bundleSubmit
  | .tenantResetRequest _ _ _ => hs.rowWrite
  | .warmResetRequest _ => hs.due hs.requestWarm.resetAtOnce
  | .coldResetRequest => hs.due hs.requestCold.resetAtOnce
  | .functionLevelReset _ _ _ => hs.due (hs.each fun _ _ hu => hu.flrOne)
  | .partitionRestart _ => hs.due hs.partitionRestart
  | .msixUnmask _ _ _ => hs.due hs.msixUnmask
  | .burinPendingClear _ => hs.due hs.modPart.answer
  | .notificationClear _ _ _ => hs.rowWrite
  | .overrunLatchClear _ _ _ => hs.rowWrite
  | .objectWrite _ _ _ _ _ _ _ => .refusedOr (hs.request fun _ hu => hu.writeFresh)
  | .pranilRead _ _ _ _ _ _ => hs.due (hs.pranilServed fun _ hu => .response hu.readXfer)
  | .pranilWrite _ _ _ _ _ _ => .refusedOr (hs.due (hs.pranilServed fun _ hu => .response hu.writeXfer))
  | .describe _ _ _ _ _ _ => hs.due (hs.pranilServed fun _ hu => .response hu.describeXfer)
  | .controlStart _ _ _ _ _ _ => hs.due (hs.pranilServed fun _ hu => .response hu.controlXfer)
  | .controlStop _ _ _ _ _ _ => hs.due (hs.pranilServed fun _ hu => .response hu.controlXfer)
  | .discover _ _ _ _ _ => hs.due (hs.pranil fun _ hu => hu)
  | .rxCyclicReceive _ _ _ _ _ => hs.due (.ite hs.receiveMap hs)
  | .cyclicSend _ => hs.due hs.sendMap
  | .icmpEcho _ _ _ => hs.due (.ite hs.send hs)
  | .gptpSync _ _ _ => hs.due (.ite hs.gptp hs)
  | .mailboxGo _ _ _ _ _ _ => .refusedOr (hs.due (.ite hs.mailFill.mailbox hs.mailFill))
  | .mailboxStatusClear _ _ _ => hs.due (.ite hs.modFunc hs)
  | .supervisorCall _ _ _ _ => .refusedOr (hs.due hs.call)
  | .usdoTransfer _ _ _ _ _ _ _ => .refusedOr (hs.due (.ite hs.usdo hs))
  | .nmtStart _ _ => hs.due hs.nmtSet
  | .nmtStop _ _ => hs.due hs.nmtSet
  | .nmtEnterPreoperational _ _ => hs.due hs.nmtSet
  | .nmtResetCommunication _ _ => hs.due (.ite hs.bootUp hs)
  | .nmtResetNode _ _ => hs.due hs.resetNode
  | .rpdoReceive _ _ _ => hs.due hs.receivePdo
  | .syncReceive _ => hs.due (.ite (hs.each fun _ _ hu => hu.syncTpdo) hs)
  | .tpdoTransmit _ _ => hs.due hs.sendTpdo
  | .heartbeatProduce _ => hs.due hs.send
  | .heartbeatLoss _ _ => hs.due hs.loseBeat
  | .sessionOpen _ _ _ => hs.rowWrite
  | .sessionStage _ _ _ _ _ _ => .refusedOr hs.rowWrite
  | .sessionCommit _ _ => hs.sessionCommit
  | .sessionClose _ _ => hs.rowWrite
  | .sessionTimeout => hs.due hs.modNet
  | .waiverInstall _ _ _ => hs.rowWrite
  | .encoderEdge _ _ _ => hs.due hs.modPos
  | .encoderIndex _ _ => hs.due hs.modPos
  | .positionError _ _ => hs.due hs.modPos
  | .positionRearm _ _ _ _ _ => hs.due hs.rowWrite.modPos
  | .carrierPeriodStart _ _ => hs.due hs.carrierStart
  | .loadPeriodStart _ _ => hs.due hs.loadPeriodStart
  | .loadTurnOff _ _ => hs.due hs.modLoad
  | .overcurrentDetect _ _ _ => hs.due hs.modLoad
  | .onStateDiagnosis _ _ _ => hs.due hs.modLoad
  | .probeDiagnosis _ _ _ => hs.due hs.modLoad
  | .faultClear _ _ _ _ => hs.due hs.rowWrite
  | .configurationLoadComplete _ _ => hs.due hs.configEffect
  | .releaseStage1 _ => hs.due hs.modFab
  | .releaseStage2 _ => hs.due hs.modFab
  | .releaseStage3 _ => hs.due hs.modFab
  | .configurationScrub _ _ => hs.due hs.configScrub
  | .wellBusAccess _ _ _ _ _ _ _ => hs.due hs.wellBus
  | .fifoWrite _ _ _ _ => hs.due hs.modCollar
  | .fifoRead _ _ _ => hs.due hs.fifoRead
  | .collarClear _ _ => hs.due hs.modCollar
  | .tapLoad _ _ _ _ => hs.due hs.modFab
  | .railMeasurementUpdate _ _ _ => hs.due hs.railUpdate
  | .droopDetect _ => hs.due hs.droopDetect
  | .droopRecover _ => hs.due hs.modPower
  | .averagingWindowBoundary => hs.due hs.modPower
  | .overTemperature _ => hs.due hs.modBoot.modPower.urgentWarm
  | .ownerKeyWrite _ _ => hs.rowWrite
  | .lifecycleErasureComplete => hs.due hs.erasureEffect
  | .debugRequest _ _ _ => hs.request fun _ hu => .wrote hu.debugRequest
  | .debugResponse _ _ _ => hs.request fun _ hu => .wrote hu.debugResponse
  | .challengeExpiry _ => hs.due hs.modSec
  | .lockoutExpiry => hs.due hs.modSec
  | .relock _ _ => hs.request fun _ hu => .wrote (.snd_ite hu.relock hu)
  | .halt _ _ => hs.request fun _ hu => .wrote (hu.debugOnly hu.haltQueue)
  | .resume _ _ => hs.request fun _ hu => .wrote (hu.debugOnly hu.resumeQueue)
  | .windowAddress _ _ => hs.request fun _ hu => .wrote (hu.debugOnly hu.setWindow)
  | .windowDataRead _ => hs.request fun _ hu => hu.readObj
  | .windowDataWrite _ _ => .refusedOr (hs.request fun _ hu => .wrote (hu.debugOnly hu.windowWrite))
  | .powerDownComplete => hs.due hs.powerDown
  | .wakeBall _ => .ite hs.wake hs
  | .canWakeFrame _ => .ite hs.wake hs
  | .rtcAlarm => hs.due hs.rtcAlarm
  | .rtcWrite _ _ => hs.rowWrite
  | .emberSupplyLoss => hs.due hs.emberLoss
  | .powerGood => hs.due hs.modBoot.tryCold
  | .resetNAssert => hs.due hs.modBoot.held
  | .supplyBrownout _ => hs.due hs.brownout
  | .gImageVerify _ _ => hs.due hs.gVerify
  | .lpddr5xTrainingComplete _ _ _ => hs.due hs.trained
  | .imageCheck _ _ _ _ _ => hs.due hs.imageCheck
  | .startUpBurnishComplete _ _ => hs.due hs.burnished
  | .dictionaryReady => hs.due hs.settle.applyLatched.send
  | .firstTick _ _ => hs.due hs.firstTick.mapsDue
  | .warmStart => hs.due hs.warmStartCommand
  | .recoveryKeyWrite _ _ _ => hs.rowWrite
  | .recoveryErase _ _ => hs.due (hs.recCommand hs.recErase)
  | .recoveryWrite _ _ _ => hs.due (hs.recCommand hs.recWrite)
  | .recoveryCommit _ _ _ => hs.due (hs.recCommand hs.recCommit)
  | .recoveryStatus _ _ => hs.due (hs.recCommand hs.recDone)
  | .recoveryRestart _ _ => hs.due (hs.recCommand hs.recDone.coldStart)
  | .pcieConfigurationRequest _ _ => hs.due hs.send
  | .completionTimeout _ _ => hs.due hs.flushEffect
  | .usdoProtocolTimeout _ _ => hs.due hs.countAbort.answer
  | .busOffRecovered _ => hs.due hs.modCan.errBit
  | .endpointLinkLoss _ => hs.due hs.linkLost.dropEndpoints
  | .phyLinkUp _ _ => hs.due hs.linkUp
  | .arpRequest _ _ _ => hs.due (.ite hs.send hs)
  | .dhcpv4Reply _ _ _ _ _ => hs.due (.ite hs.modEth hs)
  | .gptpAnnounce _ _ => hs.due (.ite hs.modEth hs)
  | .heartbeatConsume _ _ _ => hs.due (.ite hs hs.beat)
  | .pwmPulseEdge _ _ => hs.due hs.pulseEdge
  | .serialLaneLocked _ _ _ => hs.due hs.modFab
  | .serialLaneUnlocked _ _ => hs.due hs.modFab
  | .bitstreamCopyComplete _ _ _ => hs.due hs.copyEffect
  | .gaugeDiesWritten => hs.due hs.gaugesWritten
  | .pcieConfigurationReady => hs.due (hs.each fun _ _ hu => hu.modPcie)
  | .overTemperatureClear => hs.due hs.modBoot
  | .suppliesWithinLimits => hs.due hs.suppliesGood
  | .emberSupplyRestore => hs.due hs.modSec
  | .sysclkStart => hs.sysclkStart

end

/-- Settles O3: every operation of the model keeps both memories canonical, and so does every command. -/
theorem memoryStaysCanonical : Obligations.MemoryStaysCanonical := by
  intro s t hmem hhost h
  have hs : s.Canonical := ⟨hmem, hhost⟩
  suffices ht : t.Canonical from ⟨ht.mem, ht.host⟩
  unfold step at h
  split at h
  next => exact Host.Outcome.next.inj h ▸ hs.fabricEdge
  next c rest hp =>
    have hr : State.Canonical { s with pending := rest } := hs.same rfl rfl
    have hc := exec_canonical hr c
    rwa [h] at hc

end Sys2Proof.Machine

end

section
/-!
EffectsLeaveTheQueue and StepTakesFront: no command touches the queue, and a step takes its front.
-/

namespace Sys2Proof.Machine

open Sys2Proof

theorem OnlyGauges.pending {s t : State} (h : OnlyGauges s t) : t.pending = s.pending := by
  obtain ⟨g, rfl⟩ := h
  rfl

theorem State.pending_of_steady {s t : State} (h : t.steady = s.steady) : t.pending = s.pending :=
  (State.steady_eq_iff.1 h).1

theorem State.frameOver_pending (s : State) : s.frameOver.pending = s.pending := by
  have hbefore : s.urgentEnd.flushNotify.land.steady = s.steady := by simp
  rw [State.frameOver, (State.activateAll_onlyGauges _).pending, State.modFrame_pending, State.pending_of_steady hbefore]

theorem tickEffect_pending (s : State) (x0 x1 : GaugeIn) : (tickEffect s x0 x1).pending = s.pending := by
  rw [tickEffect_eq, ← s.frameOver_pending]
  split
  · exact State.pending_of_steady (s.frameOver.beginFrame_steady _ _ _ _)
  · exact State.pending_of_steady (s.frameOver.endFrame_steady _)

theorem holdRestart_pending (s : State) (x0 x1 : GaugeIn) : (holdRestart s x0 x1).pending = s.pending := by
  rw [holdRestart_eq, State.pending_of_steady (s.holdOver.beginFrame_steady _ _ _ _)]
  exact (State.activateAll_onlyGauges _).pending

theorem firstTick_pending (s : State) (x0 x1 : GaugeIn) : (firstTick s x0 x1).mapsDue.pending = s.pending := by
  have hlatched : (firstTick s x0 x1).mapsDue.steady = _ :=
    (State.mapsDue_steady _).trans ((State.latchGauge_steady _ _ _ _).trans (State.latchGauge_steady _ _ _ _))
  exact (State.pending_of_steady hlatched).trans (State.activateAll_onlyGauges _).pending

theorem gaugesWritten_pending (s : State) : (gaugesWritten s).pending = s.pending := by
  rw [gaugesWritten, State.modBoot_pending, (State.each_onlyGauges s _ _ State.provisionGauge_onlyGauges).pending]

/-- Settles O5: a tick and the writing of the Gauge dies leave the queue, and every other command is quiet. -/
theorem effectsLeaveTheQueue : Obligations.EffectsLeaveTheQueue := by
  intro c s t h
  by_cases hc : (∀ x0 x1, c ≠ .tick x0 x1) ∧ (∀ x0 x1, c ≠ .holdTickRestart x0 x1) ∧ (∀ x0 x1, c ≠ .firstTick x0 x1) ∧
      c ≠ .gaugeDiesWritten
  · obtain ⟨htick, hrestart, hfirst, hgauge⟩ := hc
    exact (exec_quiet htick hrestart hfirst hgauge h).pending
  have keeps {b : Bool} {u : State} (hu : u.pending = s.pending) (h : due s b u = .next t) : t.pending = s.pending :=
    due_keeps (·.pending = s.pending) hu rfl h
  cases c
  case tick => exact keeps (tickEffect_pending s _ _) h
  case holdTickRestart => exact keeps (holdRestart_pending s _ _) h
  case firstTick => exact keeps (firstTick_pending s _ _) h
  case gaugeDiesWritten => exact keeps (gaugesWritten_pending s) h
  all_goals simp at hc

theorem State.fabricEdge_of_still (s : State) (h : ∀ m, (s.fab m).clocked = none) : s.fabricEdge = s := by
  refine fold_holds (fun t : State => t = s) _ _ _ rfl fun t m _ ht => ?_
  simp only [ht, h]

/-- Settles O1: `step` by its two cases; the edge of the Field dies changes only them and the counter of free values, and
nothing where no die has user logic that runs. -/
theorem stepTakesFront : Obligations.StepTakesFront := by
  refine ⟨fun _ _ _ => rfl, fun s => ?_, fun s hstill => ?_⟩
  · obtain ⟨f, n, hedge⟩ := State.fabricEdge_form { s with pending := [] }
    exact ⟨f, n, congrArg Host.Outcome.next hedge⟩
  · refine congrArg Host.Outcome.next (State.fabricEdge_of_still _ fun m => ?_)
    show (s.fab m).clocked = none
    obtain h | h | h := hstill m <;> simp [Fab.clocked, h]

end Sys2Proof.Machine

end

section
/-!
PwmAndLoadControl: one carrier period, and one event of a load-control channel, with the active value it applies (R296 to R302).
-/

namespace Sys2Proof.Machine

open Sys2Proof

/-! ### One PWM channel -/

/-- An event of one PWM channel leaves every other part of its Gauge die. -/
theorem State.modPwm_leaves (s : State) (d c : Nat) (f : Pwm → Pwm) :
    OnlyGauge d s (s.modPwm d c f) ∧ (∀ j, j ≠ c → (s.modPwm d c f).pwm d j = s.pwm d j) ∧
    (∀ o, (s.modPwm d c f).output d o = s.output d o) ∧ ∀ k, (s.modPwm d c f).load d k = s.load d k :=
  ⟨s.modPwm_only d c f, fun j h => by simp [State.pwm, State.modPwm, tget_tmod_ne _ _ _ h],
    fun o => s.modPwm_output d c d o f, fun k => by simp [State.load, State.modPwm]⟩

theorem State.modPwm_pwm_same (s : State) (d c : Nat) (f : Pwm → Pwm) : (s.modPwm d c f).pwm d c = f (s.pwm d c) := by
  simp [State.pwm, State.modPwm]

theorem answers_modPwm {i : Instr} {s : State} {d c : Nat} {b : Bool} {f : Pwm → Pwm} {P : Pwm → Prop}
    (hexec : exec i s = due s b (s.modPwm d c f)) (hb : b = true) (hP : P (f (s.pwm d c))) :
    Answers i s fun t => (OnlyGauge d s t ∧ (∀ j, j ≠ c → t.pwm d j = s.pwm d j) ∧
      (∀ o, t.output d o = s.output d o) ∧ ∀ k, t.load d k = s.load d k) ∧ P (t.pwm d c) :=
  answers_due hexec hb ⟨s.modPwm_leaves d c f, by rwa [State.modPwm_pwm_same]⟩

/-! ### The on-time of a carrier period (R297) -/

section
variable {v : Int} {period least : Nat}

theorem pwmOnTime_le : pwmOnTime v period least ≤ period := by
  unfold pwmOnTime
  dsimp only
  split
  · exact Nat.zero_le _
  split
  · exact le_rfl
  · exact min_le_right _ _

theorem pwmOnTime_of_nonpos (h : v ≤ 0) : pwmOnTime v period least = 0 := by
  simp [pwmOnTime, Int.toNat_of_nonpos h]

theorem pwmOnTime_full (h : (period : Int) ≤ v) (hleast : least ≤ period) : pwmOnTime v period least = period := by
  have hn : min v.toNat period = period := by omega
  simp [pwmOnTime, hn, Nat.not_lt.2 hleast]

theorem pwmOnTime_short (h0 : 0 < v) (h : v < least) (hv : v < period) : pwmOnTime v period least = 0 := by
  have hn : min v.toNat period = v.toNat := by omega
  simp only [pwmOnTime, hn]
  exact if_pos (by omega)

theorem pwmOnTime_gap (h : (least : Int) ≤ v) (hv : v < period) (hgap : period - v < least) :
    pwmOnTime v period least = period := by
  have hn : min v.toNat period = v.toNat := by omega
  simp only [pwmOnTime, hn]
  rw [if_neg (by omega), if_pos (by omega)]

theorem pwmOnTime_inside (h : (least : Int) ≤ v) (hv : v ≤ period) (hgap : least ≤ period - v) :
    pwmOnTime v period least = v.toNat := by
  have hn : min v.toNat period = v.toNat := by omega
  simp only [pwmOnTime, hn]
  rw [if_neg (by omega), if_neg (by omega)]

end

/-- R297: what the on-time of a carrier period is for an active value. -/
def OnTimeOf (v : Int) (period least n : Nat) : Prop :=
  n ≤ period ∧ (v ≤ 0 → n = 0) ∧ ((period : Int) ≤ v → least ≤ period → n = period) ∧
  (0 < v → v < least → v < period → n = 0) ∧ ((least : Int) ≤ v → v ≤ period → least ≤ period - v → n = v.toNat) ∧
  ((least : Int) ≤ v → v < period → period - v < least → n = period)

theorem pwmOnTime_onTimeOf (v : Int) (period least : Nat) : OnTimeOf v period least (pwmOnTime v period least) :=
  ⟨pwmOnTime_le, pwmOnTime_of_nonpos, pwmOnTime_full, pwmOnTime_short, pwmOnTime_inside, pwmOnTime_gap⟩

theorem pwmCarriers : Claims.PwmCarriers := by
  intro s d c
  refine ⟨fun hready => ?_, fun e rest hd hc hplan => ?_⟩
  · exact answers_modPwm (P := fun x => x.carrier = (s.pwm d c).carrier + 1 ∧ OnTimeOf (s.output d c).act
      (s.carrierPeriod d c) (s.atReset (gPwm d c) 7) x.onTime) rfl hready ⟨rfl, pwmOnTime_onTimeOf _ _ _⟩
  · refine answers_modPwm (P := (· = _)) rfl ?_ ?_
    · simp [hd, hc, hplan]
    · simp only [hplan]

/-! ### One load-control channel -/

/-- An event of one load-control channel leaves every other part of its Gauge die. -/
theorem State.modLoad_leaves (s : State) (d k : Nat) (f : LoadCh → LoadCh) :
    OnlyGauge d s (s.modLoad d k f) ∧ (∀ j, j ≠ k → (s.modLoad d k f).load d j = s.load d j) ∧
    (∀ o, (s.modLoad d k f).output d o = s.output d o) ∧ ∀ c, (s.modLoad d k f).pwm d c = s.pwm d c :=
  ⟨s.modLoad_only d k f, fun j h => by simp [State.load, State.modLoad, tget_tmod_ne _ _ _ h],
    fun o => s.modLoad_output d k d o f, fun c => by simp [State.pwm, State.modLoad]⟩

theorem State.modLoad_load_same (s : State) (d k : Nat) (f : LoadCh → LoadCh) :
    (s.modLoad d k f).load d k = f (s.load d k) := by
  simp [State.load, State.modLoad]

theorem answers_modLoad {i : Instr} {s : State} {d k : Nat} {b : Bool} {f : LoadCh → LoadCh} {P : LoadCh → Prop}
    (hexec : exec i s = due s b (s.modLoad d k f)) (hb : b = true) (hP : P (f (s.load d k))) :
    Answers i s fun t => (OnlyGauge d s t ∧ (∀ j, j ≠ k → t.load d j = s.load d j) ∧
      (∀ o, t.output d o = s.output d o) ∧ ∀ c, t.pwm d c = s.pwm d c) ∧ P (t.load d k) :=
  answers_due hexec hb ⟨s.modLoad_leaves d k f, by rwa [State.modLoad_load_same]⟩

/-- Without STRETCH a period's on-time is the value it takes. -/
theorem LoadCh.begin_plain (x : LoadCh) (v interval now : Nat) (probes : Bool) :
    (x.begin v interval now false probes).onTime = v ∧ (x.begin v interval now false probes).start = now ∧
    (x.begin v interval now false probes).running = true ∧
    (x.begin v interval now false probes).result = .notDiagnosed ∧
    (x.begin v interval now false probes).on = (decide (0 < v) && !x.latched) :=
  ⟨rfl, rfl, rfl, rfl, rfl⟩

/-- The first fault of a period is its result; LATCH OFF turns the channel off for good. -/
theorem LoadCh.fault_first (x : LoadCh) (r : Diag) (latch : Prop) [Decidable latch] (hresult : x.result = .notDiagnosed) :
    (x.fault r (decide latch)).result = r ∧
    (latch → (x.fault r (decide latch)).latched = true ∧ (x.fault r (decide latch)).on = false) ∧
    (¬ latch → (x.fault r (decide latch)).latched = x.latched ∧ (x.fault r (decide latch)).on = x.on) := by
  by_cases h : latch <;> simp [LoadCh.fault, hresult, Diag.isFault, h]

theorem loadControl : Claims.LoadControl := by
  intro s d k mv
  refine ⟨fun hready hduty => ?_, fun hready => ?_, fun hready hon hresult => ⟨fun hth => ?_, fun hth hover => ?_⟩,
    fun hready hrun hon htime hwin => ?_, fun hready hprobe => ?_⟩
  · refine answers_modLoad (P := fun x => x.onTime = (s.output d (12 + k)).act.toNat ∧ x.start = s.tickTime ∧ x.running = true ∧
      x.result = .notDiagnosed ∧ x.on = (decide (0 < (s.output d (12 + k)).act) && !(s.load d k).latched)) rfl hready ?_
    simpa [hduty] using (s.load d k).begin_plain (s.output d (12 + k)).act.toNat (s.atReset (gLoad d k) 6) s.tickTime _
  · exact answers_modLoad (P := fun x => x.on = false ∧ x.onTime = (s.load d k).onTime ∧ x.result = (s.load d k).result) rfl
      hready ⟨rfl, rfl, rfl⟩
  · refine answers_modLoad (P := fun x => x.result = .switchFault ∧
      (s.atReset (gLoad d k) 0x0B = 1 → x.latched = true ∧ x.on = false) ∧
      (s.atReset (gLoad d k) 0x0B ≠ 1 → x.latched = (s.load d k).latched ∧ x.on = true)) rfl (by simp [hready, hon, hth]) ?_
    rw [if_pos hth]
    obtain ⟨hfault, hlatch, hon'⟩ := (s.load d k).fault_first .switchFault (s.atReset (gLoad d k) 0x0B = 1) hresult
    exact ⟨hfault, hlatch, fun h => ⟨(hon' h).1, (hon' h).2.trans hon⟩⟩
  · refine answers_modLoad (P := fun x => x.result = .overcurrent) rfl (by simp [hready, hon, hover]) ?_
    rw [if_neg (Nat.not_le.2 hth)]
    exact ((s.load d k).fault_first _ (s.atReset (gLoad d k) 0x0B = 1) hresult).1
  · refine answers_modLoad (P := fun x => x.windowDone = true ∧
      ((s.load d k).result.isFault = true → x.result = (s.load d k).result) ∧
      ((s.load d k).result.isFault = false → x.result = if mv < s.atTick (gLoad d k) 8 then .open else .goodOn)) rfl
      (by simp [hready, hrun, hon, htime, hwin]) ⟨rfl, fun h => if_pos h, fun h => if_neg (by simp [h])⟩
  · exact answers_modLoad (P := fun x => x.probing = false ∧
      x.result = if s.atTick (gLoad d k) 0x0C ≤ mv then .open else .goodOff) rfl (by simp [hready, hprobe]) ⟨rfl, rfl⟩

/-- Settles O33, each event by what its update of one channel does. -/
theorem pwmAndLoadControl : Obligations.PwmAndLoadControl := ⟨pwmCarriers, loadControl⟩

end Sys2Proof.Machine

end

section
/-!
ConfigurationLoads: a configuration fills the wells of its die and no byte beyond them, whether or not its checks accept it (R326
to R328).
-/

namespace Sys2Proof.Machine

open Sys2Proof

/-! ### The wells a configuration fills (R328) -/

/-- One initial byte of a well, put in its place over the base of its die. -/
def putWell (base : Nat) (t : Tab Byte) (e : Nat × Byte) : Tab Byte :=
  if e.1 < 0x800000 then tset 0 t (base + e.1) e.2 else t

theorem tget_putWell_outside {base a : Nat} (t : Tab Byte) (e : Nat × Byte) (h : a < base ∨ base + 0x800000 ≤ a) :
    tget 0 (putWell base t e) a = tget 0 t a := by
  unfold putWell
  split
  · exact tget_tset_ne _ _ _ (by omega)
  · rfl

theorem tget_putWell_inside (base : Nat) (t : Tab Byte) (e : Nat × Byte) {a : Nat} (h : a < 0x800000) :
    tget 0 (putWell base t e) (base + a) = if a = e.1 then e.2 else tget 0 t (base + a) := by
  unfold putWell
  split
  · rw [tget_tset]
    exact if_congr (by omega) rfl rfl
  · rw [if_neg (by omega)]

/-- Over sorted contents a byte reads what they list for it, and as before where they list none. -/
theorem tget_putWells (base : Nat) {w : Tab Byte} (hw : tsorted w = true) (t : Tab Byte) {a : Nat} (h : a < 0x800000) :
    tget 0 (w.foldl (putWell base) t) (base + a) = tget (tget 0 t (base + a)) w a := by
  induction w generalizing t with
  | nil => rfl
  | cons e w ih =>
    rw [List.foldl_cons, ih (tsorted_tail hw), tget_putWell_inside base t e h, tget]
    split
    next hk => rw [tget_above _ (hk ▸ tsorted_head hw)]
    next => rfl

theorem inKeep_wells {m a : Nat} (hm : m < 4) (ha : a < 0x800000) : inKeep (wellBaseOf m + a) = false := by
  have hkeep : keepBase = 0x800000C0000 := rfl
  have hbase : wellBaseOf m = 0x82000000000 + m * 0x800000 := rfl
  exact decide_eq_false (by omega)

theorem State.fillWells_mem (s : State) (m : Nat) (w : Tab Byte) : (s.fillWells m w).mem =
    w.foldl (putWell (wellBaseOf m)) (s.zero (wellBaseOf m) 0x800000).mem := rfl

theorem State.rd_fillWells (s : State) (m a : Nat) (w : Tab Byte) : (s.fillWells m w).rd a =
    if inKeep a then s.rd a else tget 0 (w.foldl (putWell (wellBaseOf m)) (s.zero (wellBaseOf m) 0x800000).mem) a := by
  rw [← State.fillWells_mem]
  unfold State.rd
  split
  · rfl
  · rfl

theorem State.rd_fillWells_inside (s : State) {m a : Nat} {w : Tab Byte} (hm : m < 4) (ha : a < 0x800000)
    (hw : tsorted w = true) : (s.fillWells m w).rd (wellBaseOf m + a) = tget 0 w a := by
  have hkeep := inKeep_wells hm ha
  have hzero : tget 0 (s.zero (wellBaseOf m) 0x800000).mem (wellBaseOf m + a) = 0 := by
    have h := s.rd_zero (wellBaseOf m) 0x800000 (wellBaseOf m + a)
    rw [if_pos ⟨hkeep, by omega, by omega⟩] at h
    rwa [State.rd, if_neg (by simp [hkeep])] at h
  rw [State.rd_fillWells, if_neg (by simp [hkeep]), tget_putWells _ hw _ ha, hzero]

theorem State.rd_fillWells_outside (s : State) {m a : Nat} (w : Tab Byte)
    (h : a < wellBaseOf m ∨ wellBaseOf m + 0x800000 ≤ a) : (s.fillWells m w).rd a = s.rd a := by
  rw [State.rd_fillWells]
  split
  · rfl
  next hkeep =>
    have hzero := s.rd_zero (wellBaseOf m) 0x800000 a
    rw [if_neg (by omega)] at hzero
    rw [← hzero, State.rd, if_neg hkeep]
    refine fold_holds (fun t => tget 0 t a = tget 0 (s.zero (wellBaseOf m) 0x800000).mem a) _ w _ rfl fun t e _ ht => ?_
    exact (tget_putWell_outside t e h).trans ht

/-! ### The configuration -/

/-- What a configuration does outside the die's own state: it fills the die's wells. -/
theorem State.fillWells_modFab_leaves (s : State) (m : Nat) (w : Tab Byte) (f : Fab → Fab) :
    (∀ a, a < wellBaseOf m ∨ wellBaseOf m + 0x800000 ≤ a → ((s.fillWells m w).modFab m f).rd a = s.rd a) ∧
    (∀ j, j ≠ m → ((s.fillWells m w).modFab m f).fab j = s.fab j) ∧ SameSystem s ((s.fillWells m w).modFab m f) :=
  ⟨fun _ h => s.rd_fillWells_outside w h, fun _ h => State.modFab_ne _ f h, ⟨rfl, rfl, rfl, rfl, rfl, rfl, rfl, rfl, rfl, rfl⟩⟩

/-- Settles O34, by whether every check accepts the bitstream. -/
theorem configurationLoads : Obligations.ConfigurationLoads := by
  intro s m ok b hm hdie hcopy
  refine answers_due (t := loadBits s m b ok) ?_ (b := configReady s m) (by simp [configReady, hm, hdie, hcopy]) ?_
  · simp only [exec, execConfigurationLoadComplete, configEffect, hcopy]
  by_cases hr : s.loadResult b ok = 0
  · rw [loadBits, if_pos hr]
    refine ⟨fun _ => ?_, fun h => absurd hr h, ?_⟩
    · rw [State.modFab_same]
      exact ⟨rfl, rfl, rfl, rfl, rfl, rfl, rfl, fun hw a ha => s.rd_fillWells_inside hm ha hw⟩
    · rw [State.modFab_same]
      exact ⟨rfl, rfl, rfl, s.fillWells_modFab_leaves m _ _⟩
  · rw [loadBits, if_neg hr]
    refine ⟨fun h => absurd h hr, fun _ => ?_, ?_⟩
    · rw [State.modFab_same]
      exact ⟨rfl, rfl, rfl, rfl, fun a ha => s.rd_fillWells_inside hm ha rfl⟩
    · rw [State.modFab_same]
      exact ⟨rfl, rfl, rfl, s.fillWells_modFab_leaves m _ _⟩

end Sys2Proof.Machine

end

section
/-!
ReleaseStages and ConfigurationScrubs: the three stages of a release, and the scan of a die's configuration (R329 to R334).
-/

namespace Sys2Proof.Machine

open Sys2Proof

/-! ### One Field die -/

theorem answers_modFab {i : Instr} {s : State} {m : Nat} {b : Bool} {f : Fab → Fab} {P : Fab → Prop}
    (hexec : exec i s = due s b (s.modFab m f)) (hb : b = true) (hP : P (f (s.fab m))) :
    Answers i s fun t => OnlyFab m s t ∧ P (t.fab m) :=
  answers_due hexec hb ⟨s.modFab_only m f, by rwa [State.modFab_same]⟩

/-- A copy that a boot slot waits for starts its load. -/
theorem copyEffect_boot {s : State} {m slot : Nat} (b : Bitstream) (h : s.bootCopyDue m slot = true) : copyEffect s m slot b =
    s.modFab m fun f => { f.hold with die := .configuring, copy := some b, copySlot := slot } := if_pos h

/-- Any other copy waits beside the configuration the die has. -/
theorem copyEffect_later {s : State} {m slot : Nat} (b : Bitstream) (h : s.bootCopyDue m slot = false) : copyEffect s m slot b =
    s.modFab m fun f => { f with newCopy := some b } := if_neg (by simp [h])

/-- Settles O35: each stage and each copy is one update of the die. -/
theorem releaseStages : Obligations.ReleaseStages := by
  intro s m
  refine ⟨fun h => ?_, fun h => ?_, fun hm hrel => ?_, fun slot b h => ?_⟩
  · exact answers_modFab (P := fun f => f.die = .releasing ∧ f.rel = 1 ∧ f.padsOn = true ∧
      f.enables = (s.fab m).enables ∧ f.resetsOn = (s.fab m).resetsOn) rfl h ⟨rfl, rfl, rfl, rfl, rfl⟩
  · exact answers_modFab (P := fun f => f.rel = 2 ∧ f.enables = true ∧ f.resetsOn = (s.fab m).resetsOn) rfl h ⟨rfl, rfl, rfl⟩
  · exact answers_modFab (P := fun f => f.rel = 3 ∧ f.die = .running ∧ f.resetsOn = false ∧ f.restarting = false) rfl
      (by simp [hm, hrel]) ⟨rfl, rfl, rfl, rfl⟩
  · refine answers_due (t := copyEffect s m slot b) rfl h ?_
    cases hboot : s.bootCopyDue m slot
    · rw [copyEffect_later b hboot, State.modFab_same]
      exact ⟨s.modFab_only m _, nofun, fun _ => ⟨rfl, rfl, rfl⟩⟩
    · rw [copyEffect_boot b hboot, State.modFab_same]
      exact ⟨s.modFab_only m _, fun _ => ⟨rfl, rfl⟩, nofun⟩

/-! ### The configuration scan (R332 to R334) -/

/-- Where the scan goes from one stripe, and what it leaves of the die. -/
def ScansOn (f g : Fab) : Prop :=
  (f.stripe + 1 < stripeCount → g.stripe = f.stripe + 1 ∧ g.demanded = f.demanded) ∧
  (stripeCount ≤ f.stripe + 1 → g.demanded = false ∧ g.stripe = (if f.demanded = true then f.resumeStripe else 0)) ∧
  g.bs = f.bs ∧ g.die = f.die

theorem Fab.nextStripe_scansOn (f : Fab) (frame : BitVec 32) : ScansOn f (f.nextStripe frame) := by
  unfold Fab.nextStripe
  split
  next h => exact ⟨fun _ => ⟨rfl, rfl⟩, fun h' => absurd h (Nat.not_lt.2 h'), rfl, rfl⟩
  next h => exact ⟨fun h' => absurd h' h, fun _ => ⟨rfl, rfl⟩, rfl, rfl⟩

theorem Fab.nextStripe_counts (f : Fab) (frame : BitVec 32) :
    (f.nextStripe frame).corrected = f.corrected ∧ (f.nextStripe frame).rewritten = f.rewritten := by
  unfold Fab.nextStripe
  split <;> exact ⟨rfl, rfl⟩

/-- A stripe that is scanned is one update of the die; `t` may have sent a message besides. -/
theorem answers_scrub {s t : State} {m : Nat} {e : Ecc} {f : Fab → Fab} {P : Fab → List OutMsg → Prop}
    (hready : scrubReady s m = true) (ht : configScrub s m e = t) (hfab : t.fabs = (s.modFab m f).fabs) (hmem : t.mem = s.mem)
    (hscan : ScansOn (s.fab m) (f (s.fab m))) (hP : P (f (s.fab m)) t.out) :
    Answers (.configurationScrub m e) s fun t =>
      (((s.fab m).stripe + 1 < stripeCount → (t.fab m).stripe = (s.fab m).stripe + 1 ∧
        (t.fab m).demanded = (s.fab m).demanded) ∧
      (stripeCount ≤ (s.fab m).stripe + 1 → (t.fab m).demanded = false ∧
        (t.fab m).stripe = (if (s.fab m).demanded = true then (s.fab m).resumeStripe else 0)) ∧
      (t.fab m).bs = (s.fab m).bs ∧ (t.fab m).die = (s.fab m).die ∧ t.mem = s.mem ∧ ∀ j, j ≠ m → t.fab j = s.fab j) ∧
      P (t.fab m) t.out := by
  have hsame (j : Nat) : t.fab j = (s.modFab m f).fab j := by
    rw [State.fab, hfab]
    rfl
  obtain ⟨hon, hlast, hbs, hdie⟩ := hscan
  refine answers_due (t := t) (ht ▸ rfl) hready ?_
  rw [hsame m, State.modFab_same]
  exact ⟨⟨hon, hlast, hbs, hdie, hmem, fun j hj => (hsame j).trans (State.modFab_ne s f hj)⟩, hP⟩

/-- Settles O36, by what the stripe's check finds. -/
theorem configurationScrubs : Obligations.ConfigurationScrubs := by
  intro s m hready
  have hnext := (s.fab m).nextStripe_scansOn (s.frame.counter.setWidth 32)
  obtain ⟨hcorrected, hrewritten⟩ := (s.fab m).nextStripe_counts (s.frame.counter.setWidth 32)
  refine ⟨?_, ?_, ?_⟩
  · exact answers_scrub (P := fun f out => f.corrected = (s.fab m).corrected ∧ f.rewritten = (s.fab m).rewritten ∧ out = s.out)
      hready rfl rfl rfl hnext ⟨hcorrected, hrewritten, rfl⟩
  · exact answers_scrub (P := fun f out => f.corrected = satInc 32 (s.fab m).corrected ∧
      f.rewritten = (s.fab m).rewritten ∧ out = s.out) hready rfl rfl rfl hnext ⟨rfl, hrewritten, rfl⟩
  · exact answers_scrub (e := .uncorrectable) (f := fun f => { f.nextStripe (s.frame.counter.setWidth 32) with
        rewritten := satInc 32 f.rewritten, restartDue := f.restartDue || decide (s.val (0x6001 + m) 6 = 1) })
      (P := fun f out => f.rewritten = satInc 32 (s.fab m).rewritten ∧ f.corrected = (s.fab m).corrected ∧
        f.restartDue = ((s.fab m).restartDue || decide (s.val (0x6001 + m) 6 = 1)) ∧ out = s.out ++ [.fabricUpset m])
      hready rfl rfl rfl hnext ⟨rfl, hcorrected, rfl, rfl⟩

end Sys2Proof.Machine

end

section
/-!
WellsCollarsAndLanes: the well bus, a FIFO's words and flags, taps, lanes, and one edge of the cells (R309 to R325).
-/

namespace Sys2Proof.Machine

open Sys2Proof

/-! ### The well bus (R312, R314) -/

theorem DataOnly.system {s t : State} (h : DataOnly s t) : SameSystem s t := by
  obtain ⟨⟨m, p, f, x, rfl⟩, -, -⟩ := h
  constructor <;> rfl

theorem DataOnly.out {s t : State} (h : DataOnly s t) : t.out = s.out := by
  obtain ⟨⟨m, p, f, x, rfl⟩, -, -⟩ := h
  rfl

theorem SameSystem.send {s t : State} (h : SameSystem s t) (x : OutMsg) : SameSystem s (t.send x) :=
  ⟨h.frame, h.links, h.gauges, h.power, h.sec, h.boot, h.net, h.obj, h.eff, h.effT⟩

theorem SameSystem.modCollar {s t : State} (h : SameSystem s t) (m w : Nat) (f : Collar → Collar) :
    SameSystem s (t.modCollar m w f) :=
  ⟨h.frame, h.links, h.gauges, h.power, h.sec, h.boot, h.net, h.obj, h.eff, h.effT⟩

theorem State.send_rd (s : State) (x : OutMsg) (a : Nat) : (s.send x).rd a = s.rd a := rfl

theorem State.modCollar_mem (s : State) (m w : Nat) (f : Collar → Collar) : (s.modCollar m w f).mem = s.mem := rfl

theorem State.modFab_dataOnly (s : State) (m : Nat) (f : Fab → Fab) : DataOnly s (s.modFab m f) :=
  ⟨⟨s.mem, s.poison, _, s.host, rfl⟩, id, id⟩

theorem State.portAWrite_dataOnly (s : State) (m w idx : Nat) (v : BitVec 72) : DataOnly s (s.portAWrite m w idx v) := by
  unfold State.portAWrite
  split
  · exact DataOnly.refl s
  · exact fold_holds (DataOnly s) _ _ s (DataOnly.refl s) fun u i _ h =>
      (h.trans (u.wr_dataOnly _ _)).trans (State.modFab_dataOnly _ m _)

/-- What the state shows after the port A write of a cycle, if the cycle has one. -/
def State.afterPortA (s : State) (m w : Nat) : Option (Nat × BitVec 72) → State
  | some (i, x) => s.portAWrite m w i x
  | none => s

theorem State.afterPortA_dataOnly (s : State) (m w : Nat) (portA : Option (Nat × BitVec 72)) :
    DataOnly s (s.afterPortA m w portA) := by
  obtain _ | ⟨i, x⟩ := portA
  · exact DataOnly.refl s
  · exact s.portAWrite_dataOnly m w i x

/-- A bus write of a well it reaches, where port A writes the same word: the bus wins. -/
theorem wellBus_write {s : State} {m w a : Nat} (v : Byte) {portA : Option (Nat × BitVec 72)} (h : s.busWell m w = true)
    (hhit : ∀ e, portA = some e → s.portAHits m w a e.1 = true) : wellBus s m w a true v portA false =
    (s.wr (wellBaseOf m + w * 8192 + a) [v]).send (.wellBus m w a false false v) := by
  obtain _ | ⟨i, x⟩ := portA
  · simp [wellBus, h]
  · simp [wellBus, h, hhit (i, x) rfl]

/-- A bus read of a well without parity: the old contents. -/
theorem wellBus_read {s : State} {m w a : Nat} (v : Byte) (portA : Option (Nat × BitVec 72)) (h : s.busWell m w = true)
    (hpar : ∀ b, (s.fab m).bs = some b → w ∉ b.parity) : wellBus s m w a false v portA false =
    (s.afterPortA m w portA).send (.wellBus m w a false false (s.rd (wellBaseOf m + w * 8192 + a))) := by
  unfold wellBus
  cases hbs : (s.fab m).bs with
  | none =>
    simp only [h, Bool.and_false, Bool.false_and, Bool.not_true, Bool.false_eq_true, if_false]
    obtain _ | ⟨i, x⟩ := portA <;> rfl
  | some b =>
    simp only [h, hpar b hbs, decide_false, Bool.and_false, Bool.false_and, Bool.not_true, Bool.false_eq_true, if_false]
    obtain _ | ⟨i, x⟩ := portA <;> rfl

/-- An access of a well that the bus does not reach. -/
theorem wellBus_unmapped {s : State} {m w : Nat} (a : Nat) (write : Bool) (v : Byte) (portA : Option (Nat × BitVec 72))
    (h : s.busWell m w = false) : wellBus s m w a write v portA false =
    (s.afterPortA m w portA).send (.wellBus m w a true false 0) := by
  unfold wellBus
  simp only [h, Bool.false_and, Bool.not_false, if_true, Bool.false_eq_true, if_false]
  obtain _ | ⟨i, x⟩ := portA <;> rfl

theorem wellBusAndPortA : Claims.WellBusAndPortA := by
  intro s m w a v portA hm hw ha
  have hready : (decide (m < 4) && decide (w < 1024) && decide (a < 8192)) = true := by simp [hm, hw, ha]
  have hkeep : inKeep (wellBaseOf m + w * 8192 + a) = false := by
    rw [Nat.add_assoc]
    exact inKeep_wells hm (by omega)
  have hnone (h : portA = none) : (s.afterPortA m w portA).mem = s.mem := by
    subst h
    rfl
  have hport := s.afterPortA_dataOnly m w portA
  refine ⟨fun hbus hhit => ?_, fun hbus hpar => ?_, fun hbus write => ?_⟩
  · refine answers_due (t := wellBus s m w a true v portA false) rfl hready ?_
    rw [wellBus_write v hbus hhit]
    generalize haddr : wellBaseOf m + w * 8192 + a = addr at hkeep
    have hwr := s.wr_dataOnly addr [v]
    refine ⟨?_, fun b hb => ?_, by rw [State.send_out, hwr.out], hwr.system.send _⟩
    · rw [State.send_rd, State.rd_wr]
      simp [hkeep]
    · rw [State.send_rd]
      exact s.rd_wr_outside (by simp only [List.length_singleton]; omega)
  · refine answers_due (t := wellBus s m w a false v portA false) rfl hready ?_
    rw [wellBus_read v portA hbus hpar]
    exact ⟨by rw [State.send_out, hport.out], hnone, hport.system.send _⟩
  · refine answers_due (t := wellBus s m w a write v portA false) rfl hready ?_
    rw [wellBus_unmapped a write v portA hbus]
    exact ⟨by rw [State.send_out, hport.out], hnone, hport.system.send _⟩

/-! ### Collars in FIFO mode (R315, R316) -/

theorem Collar.push_room (x : Collar) (v : BitVec 72) {depth : Nat} (almost : Nat) (h : x.words.length < depth) :
    (x.push v depth 0 almost).words = x.words ++ [v] ∧ (x.push v depth 0 almost).overflow = x.overflow ∧
    (x.push v depth 0 almost).full = decide (depth ≤ x.words.length + 1) := by
  have hcredit : x.credit depth 0 ≠ 0 := by simp only [Collar.credit]; omega
  simp [Collar.push, hcredit]

theorem Collar.push_full (x : Collar) (v : BitVec 72) {depth : Nat} (almost : Nat) (h : depth ≤ x.words.length) :
    (x.push v depth 0 almost).words = x.words ∧ (x.push v depth 0 almost).overflow = true ∧
    (x.push v depth 0 almost).full = true := by
  have hcredit : x.credit depth 0 = 0 := by simp only [Collar.credit]; omega
  simp [Collar.push, hcredit]

theorem Collar.pop_word {x : Collar} {u : BitVec 72} {rest : List (BitVec 72)} (almost : Nat) (h : x.words = u :: rest) :
    (x.pop 0 almost).words = rest ∧ (x.pop 0 almost).lastWord = u ∧ (x.pop 0 almost).underflow = x.underflow := by
  simp [Collar.pop, h]

theorem Collar.pop_empty {x : Collar} (almost : Nat) (h : x.words = []) :
    x.pop 0 almost = { x with underflow := true, empty := true } := by
  simp [Collar.pop, h]

theorem State.modCollar_same (s : State) (m w : Nat) (f : Collar → Collar) :
    (s.modCollar m w f).collar m w = f (s.collar m w) := by
  simp [State.collar, State.modCollar]

theorem State.modCollar_ne (s : State) (m : Nat) {w j : Nat} (f : Collar → Collar) (h : j ≠ w) :
    (s.modCollar m w f).collar m j = s.collar m j := by
  simp [State.collar, State.modCollar, tget_tmod_ne _ _ _ h]

theorem State.send_collar (s : State) (x : OutMsg) (m w : Nat) : (s.send x).collar m w = s.collar m w := rfl

theorem State.modCollar_collarSet (s : State) (m w : Nat) (f : Collar → Collar) (g : Bitstream → Tab Nat) :
    (s.modCollar m w f).collarSet m w g = s.collarSet m w g := by
  simp [State.collarSet, State.modCollar]

theorem answers_modCollar {i : Instr} {s : State} {m w : Nat} {b : Bool} {f : Collar → Collar} {P : Collar → Prop}
    (hexec : exec i s = due s b (s.modCollar m w f)) (hb : b = true) (hP : P (f (s.collar m w))) :
    Answers i s fun t => OnlyFab m s t ∧ P (t.collar m w) :=
  answers_due hexec hb ⟨s.modCollar_only m w f, by rwa [State.modCollar_same]⟩

/-- A read updates the collar; in credit mode the reads that are returned are counted anew and told. -/
theorem fifoRead_eq (s : State) (m w lag : Nat) : fifoRead s m w lag =
    if s.collarSet m w (·.credit) ≠ 0 ∧ s.collarSet m w (·.credit) ≤
        ((s.collar m w).pop lag (s.collarSet m w (·.almostEmpty))).returned then
      ((s.modCollar m w fun x => x.pop lag (s.collarSet m w (·.almostEmpty))).modCollar m w fun x =>
        { x with returned := 0 }).send (.creditReturn m w)
    else s.modCollar m w fun x => x.pop lag (s.collarSet m w (·.almostEmpty)) := by
  unfold fifoRead
  simp only [State.modCollar_collarSet, State.modCollar_same]

theorem collarsKeepOrder : Claims.CollarsKeepOrder := by
  intro s m w v hm hfifo
  have hready : (decide (m < 4) && s.isFifo m w) = true := by simp [hm, hfifo]
  refine ⟨fun hroom => ?_, fun hfull => ?_, fun u rest hwords => ?_, fun hwords hcredit => ?_, ?_⟩
  · exact answers_modCollar (P := fun x => x.words = (s.collar m w).words ++ [v] ∧ x.overflow = (s.collar m w).overflow ∧
      x.full = decide (s.fifoDepth m w ≤ (s.collar m w).words.length + 1)) rfl hready (Collar.push_room _ v _ hroom)
  · exact answers_modCollar (P := fun x => x.words = (s.collar m w).words ∧ x.overflow = true ∧ x.full = true) rfl hready
      (Collar.push_full _ v _ hfull)
  · refine answers_due (t := fifoRead s m w 0) rfl hready ?_
    obtain ⟨hrest, hlast, hunder⟩ := Collar.pop_word (s.collarSet m w (·.almostEmpty)) hwords
    rw [fifoRead_eq]
    split
    · simp only [State.send_collar, State.modCollar_same, State.send_mem, State.modCollar_mem]
      refine ⟨hrest, hlast, hunder, fun j hj => ?_, trivial, (((SameSystem.refl s).modCollar m w _).modCollar m w _).send _⟩
      rw [State.modCollar_ne _ m _ hj, State.modCollar_ne _ m _ hj]
    · rw [State.modCollar_same, State.modCollar_mem]
      exact ⟨hrest, hlast, hunder, fun j hj => s.modCollar_ne m _ hj, rfl, (SameSystem.refl s).modCollar m w _⟩
  · refine answers_due (t := fifoRead s m w 0) rfl hready ?_
    rw [fifoRead_eq, if_neg (fun h => h.1 hcredit), State.modCollar_same, Collar.pop_empty _ hwords]
    exact ⟨s.modCollar_only m w _, hwords, rfl, rfl⟩
  · exact answers_modCollar (P := (· = _)) rfl hready rfl

/-! ### Taps and lanes (R324, R325) -/

theorem tapsAndLanes : Claims.TapsAndLanes := by
  intro s m hm
  refine ⟨fun pad taps hpad hbs => ⟨?_, ?_⟩, fun l rate hl hserial hstate => ?_, fun l hl hstate => ?_⟩
  · exact answers_modFab (P := fun f => tget 0 f.tapIn pad = taps ∧ f.tapOut = (s.fab m).tapOut ∧
      ∀ j, j ≠ pad → tget 0 f.tapIn j = tget 0 (s.fab m).tapIn j) rfl (by simp [hm, hpad, hbs])
      ⟨tget_tset_same _ _ _ _, rfl, fun _ h => tget_tset_ne _ _ _ h⟩
  · exact answers_modFab (P := fun f => tget 0 f.tapOut pad = taps ∧ f.tapIn = (s.fab m).tapIn ∧
      ∀ j, j ≠ pad → tget 0 f.tapOut j = tget 0 (s.fab m).tapOut j) rfl (by simp [hm, hpad, hbs])
      ⟨tget_tset_same _ _ _ _, rfl, fun _ h => tget_tset_ne _ _ _ h⟩
  · refine answers_modFab (P := fun f => (tget {} f.lanes l).state = 2 ∧ (tget {} f.lanes l).rate = rate ∧
      ∀ j, j ≠ l → tget {} f.lanes j = tget {} (s.fab m).lanes j) rfl (by simp [hm, hl, hserial, hstate]) ?_
    exact ⟨by rw [tget_tmod_same], by rw [tget_tmod_same], fun _ h => by rw [tget_tmod_ne _ _ _ h]⟩
  · refine answers_modFab (P := fun f => (tget {} f.lanes l).state = 1 ∧ (tget {} f.lanes l).rate = (s.lane m l).rate ∧
      ∀ j, j ≠ l → tget {} f.lanes j = tget {} (s.fab m).lanes j) rfl (by simp [hm, hl, hstate]) ?_
    exact ⟨by rw [tget_tmod_same], by rw [tget_tmod_same]; rfl, fun _ h => by rw [tget_tmod_ne _ _ _ h]⟩

/-! ### User logic (R309) -/

theorem FlipFlop.next_cases (x : FlipFlop) (v : Wire → Bool) (rise q : Bool) :
    (x.async = true → v x.reset = true → x.next v rise q = x.init) ∧
    ((x.async = false ∨ v x.reset = false) → rise = false → x.next v rise q = q) ∧
    (v x.reset = true → rise = true → x.next v rise q = x.init) ∧
    (v x.reset = false → rise = true → x.next v rise q = if v x.enable = true then v x.d else q) := by
  refine ⟨fun ha hr => ?_, fun h hrise => ?_, fun hr hrise => ?_, fun hr hrise => ?_⟩
  · simp [FlipFlop.next, ha, hr]
  · obtain h | h := h <;> simp [FlipFlop.next, h, hrise]
  · simp [FlipFlop.next, hr, hrise]
  · simp [FlipFlop.next, hr, hrise]

theorem inIndex_lt (l : List Bool) : inIndex l < 2 ^ l.length := by
  induction l with
  | nil => exact Nat.one_pos
  | cons b l ih =>
    have hcons : inIndex (b :: l) = (if b then 1 else 0) + 2 * inIndex l := rfl
    rw [hcons, List.length_cons, pow_succ]
    split <;> omega

theorem inIndex_lt_64 {l : List Bool} (h : l.length ≤ 6) : inIndex l < 64 :=
  (inIndex_lt l).trans_le (Nat.pow_le_pow_right (by omega) h)

theorem Cell.output_lut6 {x : Cell} {t : BitVec 64} (mem : BitVec 64) {ins : List Bool} (carry second : Bool)
    (hkind : x.kind = .lut6 t) (hins : ins.length = 6) : x.output mem ins carry second = t.getLsbD (inIndex ins) := by
  simp [Cell.output, hkind, List.take_of_length_le hins.le]

theorem Cell.nextMem_held (x : Cell) (v : Wire → Bool) (mem : BitVec 64) :
    (v x.write = false → x.nextMem v true mem = mem) ∧ x.nextMem v false mem = mem := by
  constructor
  · intro h
    simp [Cell.nextMem, h]
  · simp [Cell.nextMem]

theorem Cell.nextMem_ram {x : Cell} (v : Wire → Bool) (mem : BitVec 64) {i0 : BitVec 64} {k : Nat} (hins : x.ins.length ≤ 6)
    (hkind : x.kind = .ram i0) (hwrite : v x.write = true) (hk : k < 64) :
    (x.nextMem v true mem).getLsbD k = if k = inIndex (x.ins.map v) then v x.data else mem.getLsbD k := by
  simp only [Cell.nextMem, hkind, hwrite, List.take_of_length_le hins, Bool.and_true, Bool.not_true, Bool.false_eq_true,
    if_false]
  cases hdata : v x.data
  · simp only [Bool.false_eq_true, if_false, BitVec.getLsbD_and, BitVec.getLsbD_not, getLsbD_two_pow hk]
    split <;> simp_all
  · simp only [if_true, BitVec.getLsbD_or, getLsbD_two_pow hk]
    split <;> simp_all

/-- A shift register is 32 bits wide. -/
theorem getLsbD_low32 : ∀ j < 32, (0xFFFFFFFF : BitVec 64).getLsbD j = true := by decide

theorem Cell.nextMem_shift {x : Cell} (v : Wire → Bool) (mem : BitVec 64) {i0 : BitVec 32} {k : Nat}
    (hkind : x.kind = .shift i0) (hwrite : v x.write = true) (hk : k < 32) :
    (x.nextMem v true mem).getLsbD k = if k = 0 then v x.data else mem.getLsbD (k - 1) := by
  simp only [Cell.nextMem, hkind, hwrite, Bool.and_true, Bool.not_true, Bool.false_eq_true, if_false]
  obtain _ | k := k
  · cases hdata : v x.data <;> simp
  · have hdata : (if v x.data then 1 else 0 : BitVec 64).getLsbD (k + 1) = false := by split <;> simp
    have hwide : k + 1 < 64 := by omega
    rw [BitVec.getLsbD_and, BitVec.getLsbD_or, BitVec.getLsbD_shiftLeft, hdata, getLsbD_low32 _ hk]
    simp [hwide]

theorem userLogicClocks : Claims.UserLogicClocks :=
  ⟨FlipFlop.next_cases,
    fun _ _ mem _ carry second hkind hins => ⟨inIndex_lt_64 hins.le, Cell.output_lut6 mem carry second hkind hins⟩,
    fun x v mem hins => ⟨Cell.nextMem_held x v mem, fun _ _ hkind hwrite hk => Cell.nextMem_ram v mem hins hkind hwrite hk,
      fun _ _ hkind hwrite hk => Cell.nextMem_shift v mem hkind hwrite hk⟩⟩

/-- Settles O37, part by part. -/
theorem wellsCollarsAndLanes : Obligations.WellsCollarsAndLanes :=
  ⟨wellBusAndPortA, collarsKeepOrder, tapsAndLanes, userLogicClocks⟩

end Sys2Proof.Machine

end

section
/-!
RailsHeatAndDroop and FrequencyAndCutLadder: measurements, what asks for a warm reset, the frequency switch and the ladder
(R339 to R355).
-/

namespace Sys2Proof.Machine

open Sys2Proof

/-! ### Rails (R339 to R341) -/

/-- What a measurement leaves of a rail: its figure, and the hold of its margin work. -/
def Measured (x y : Rail) (figure : Nat) (limit : Option Nat) : Prop :=
  y.figure = figure ∧
  (∀ l, limit = some l → (l < figure → y.held = true) ∧ (100 * figure < 95 * l → y.held = false) ∧
    (figure ≤ l → 95 * l ≤ 100 * figure → y.held = x.held)) ∧
  (limit = none → y.held = false)

theorem Rail.measure_measured (x : Rail) (figure : Nat) (limit : Option Nat) (absolute : Nat) :
    Measured x (x.measure figure limit absolute) figure limit := by
  refine ⟨rfl, fun l hl => ?_, fun hl => ?_⟩
  · subst hl
    refine ⟨fun h => if_pos h, fun h => ?_, fun h h' => ?_⟩
    · exact (if_neg (by omega)).trans (if_pos h)
    · exact (if_neg (by omega)).trans (if_neg (by omega))
  · subst hl
    rfl

theorem State.modRail_same (s : State) (r : Nat) (f : Rail → Rail) : (s.modRail r f).rail r = f (s.rail r) := by
  simp [State.rail, State.modRail]

theorem State.modRail_ne (s : State) {r j : Nat} (f : Rail → Rail) (h : j ≠ r) : (s.modRail r f).rail j = s.rail j := by
  simp [State.rail, State.modRail, tget_tmod_ne _ _ _ h]

/-- R341, R355: a warm reset that is asked for from the next tick leaves rails, conditions, time and memory, and is asked for
with the cause of the first request. -/
theorem State.urgentWarm_asks (s : State) (cause : Nat) :
    (s.urgentWarm cause).power.rails = s.power.rails ∧ (s.urgentWarm cause).power.outside = s.power.outside ∧
    (s.urgentWarm cause).boot.heldHot = s.boot.heldHot ∧ (s.urgentWarm cause).frame = s.frame ∧
    (s.urgentWarm cause).mem = s.mem ∧
    (s.frame.ticking = true → s.frame.phase ≠ .guardPhase →
      (s.urgentWarm cause).boot.warmReq = some (s.boot.warmReq.getD cause)) ∧
    (s.frame.ticking = true → s.frame.phase = .guardPhase →
      (s.urgentWarm cause).power.warmDue = some (s.power.warmDue.getD cause)) := by
  unfold State.urgentWarm
  cases ht : s.frame.ticking
  · exact ⟨rfl, rfl, rfl, rfl, rfl, nofun, nofun⟩
  · by_cases hphase : s.frame.phase = .guardPhase
    · simp [hphase]
    · simp [hphase, State.requestWarm]

theorem railsMeasured : Claims.RailsMeasured := by
  intro s r figure lost h1 h19 hstarted
  have hready : (decide (1 ≤ r ∧ r ≤ 19) && s.boot.started) = true := by simp [h1, h19, hstarted]
  have hmeasured : Measured (s.rail r) _ figure (s.railLimit r) :=
    (s.rail r).measure_measured figure (s.railLimit r) (Config.fusedAbsolute r)
  obtain ⟨hfigure, hlimit, hnone⟩ := hmeasured
  refine ⟨fun hlost hsingle => ?_, fun hagain => ?_⟩
  · refine answers_due (t := railUpdate s r figure lost) rfl hready ?_
    have hquiet : ¬ ((s.rail r).overOnce && decide (Config.fusedAbsolute r < figure) || lost) = true := by
      obtain h | h := hsingle
      · simp [h, hlost]
      · simp [Nat.not_lt.2 h, hlost]
    rw [railUpdate, if_neg hquiet]
    beta_reduce
    rw [State.modRail_same]
    exact ⟨⟨_, rfl⟩, ⟨hfigure, hlimit, hnone, fun _ h => s.modRail_ne _ h⟩, rfl, rfl⟩
  · refine answers_due (t := railUpdate s r figure lost) rfl hready ?_
    have hasks : ((s.rail r).overOnce && decide (Config.fusedAbsolute r < figure) || lost) = true := by
      obtain h | h := hagain
      · simp [h]
      · simp [h.1, h.2]
    rw [railUpdate, if_pos hasks]
    generalize hu : (s.modRail r fun x => x.measure figure (s.railLimit r) (Config.fusedAbsolute r)).modPower (fun p =>
      { p with outside := true }) = u
    obtain ⟨hrails, houtside, -, -, -, hnow, hguard⟩ := u.urgentWarm_asks 6
    have hrail (j : Nat) : (u.urgentWarm 6).rail j =
        (s.modRail r fun x => x.measure figure (s.railLimit r) (Config.fusedAbsolute r)).rail j := by
      rw [State.rail, hrails, ← hu]
      rfl
    beta_reduce
    rw [hrail r, State.modRail_same]
    subst hu
    exact ⟨⟨hfigure, hlimit, hnone, fun j hj => (hrail j).trans (s.modRail_ne _ hj)⟩, houtside, hnow, hguard⟩

/-! ### Heat, droop and the averaging window (R343, R349, R355) -/

theorem answers_modPower {i : Instr} {s : State} {b : Bool} {f : Power → Power} {P : Power → Prop}
    (hexec : exec i s = due s b (s.modPower f)) (hb : b = true) (hP : P (f s.power)) :
    Answers i s fun t => OnlyPower s t ∧ P t.power := answers_due hexec hb ⟨⟨_, rfl⟩, hP⟩

theorem heatAndDroop : Claims.HeatAndDroop := by
  intro s die
  refine ⟨fun hdie hstarted => ?_, fun hhot => ?_, fun hdie hstarted => ?_, fun hdie => ?_, fun ht hstop => ?_,
    fun hstop => ?_⟩
  · refine answers_due rfl (by simp [hdie, hstarted]) ?_
    obtain ⟨-, houtside, hhot, hframe, hmem, hnow, -⟩ := ((s.modBoot fun b => { b with heldHot := true }).modPower fun p =>
      { p with outside := true }).urgentWarm_asks 7
    exact ⟨hhot, houtside, hnow, hframe, hmem⟩
  · exact answers_due rfl hhot ⟨⟨_, rfl⟩, rfl⟩
  · refine answers_modPower (P := fun p => tget false p.stretched die = true ∧ p.step = s.power.step ∧
      (∀ j, j ≠ die → tget false p.stretched j = tget false s.power.stretched j) ∧
      (die = 14 → s.frame.phase = .guardPhase → s.frame.freqDone = false → p.droopInGuard = true)) rfl
      (by simp [hdie, hstarted]) ⟨tget_tset_same false s.power.stretched die true, rfl,
        fun _ h => tget_tset_ne false s.power.stretched true h, fun hB0 hphase hfreq => ?_⟩
    simp [hB0, hphase, hfreq]
  · exact answers_modPower (P := fun p => tget false p.stretched die = false ∧ p.droopInGuard = s.power.droopInGuard) rfl
      hdie ⟨tget_tset_same false s.power.stretched die false, rfl⟩
  · exact answers_modPower (P := fun p => p.raisingStopped = false ∧ p.cancels = 0 ∧ p.step = s.power.step) rfl
      (by simp [ht, hstop]) ⟨rfl, rfl, rfl⟩
  · simp [exec, execAveragingWindowBoundary, hstop]

/-- Settles O38, part by part. -/
theorem railsHeatAndDroop : Obligations.RailsHeatAndDroop := ⟨railsMeasured, heatAndDroop⟩

/-! ### The frequency switch (R346, R348 to R350) -/

theorem Power.keepRaise_leaves (p : Power) : p.keepRaise.plan = p.plan ∧ p.keepRaise.position = p.position ∧
    p.keepRaise.step = p.step ∧ p.keepRaise.cancels = p.cancels ∧ (p.planned ≠ .lower → p.keepRaise.planned = .raise) := by
  unfold Power.keepRaise
  split
  next h => exact ⟨rfl, rfl, rfl, rfl, fun h' => absurd h h'⟩
  next => exact ⟨rfl, rfl, rfl, rfl, fun _ => rfl⟩

theorem Power.switch_lower {p : Power} (ready : Bool) (h : p.plan = .lower) : p.switch ready =
    { p with plan := .none, step := max 4 (p.step - 1), railStep := max 4 (p.step - 1) } := by
  simp [Power.switch, h]

/-- A raise that the ladder has overtaken is not made. -/
theorem Power.switch_overtaken {p : Power} (ready : Bool) (h : p.plan = .raise) (hpos : p.position ≠ 0) : p.switch ready =
    { p with plan := .none, railStep := if p.planned = .raise then p.railStep else p.step } := by
  simp [Power.switch, h, hpos]

/-- A raise whose rail has not settled stays planned. -/
theorem Power.switch_unsettled {p : Power} (h : p.plan = .raise) (hpos : p.position = 0) : p.switch false =
    Power.keepRaise { p with plan := .none } := by
  simp [Power.switch, h, hpos]

theorem Power.switch_raise {p : Power} (h : p.plan = .raise) (hpos : p.position = 0) (hdroop : p.droopInGuard = false) :
    p.switch true = { p with plan := .none, step := p.step + 1, cancels := 0 } := by
  simp [Power.switch, h, hpos, hdroop]

/-- A raise that a droop met is cancelled and counted; the eighth stops raising. -/
theorem Power.switch_cancelled {p : Power} (h : p.plan = .raise) (hpos : p.position = 0) (hdroop : p.droopInGuard = true) :
    (p.switch true).plan = .none ∧ (p.switch true).position = p.position ∧ (p.switch true).step = p.step ∧
    (p.switch true).cancels = p.cancels + 1 ∧ (8 ≤ p.cancels + 1 → (p.switch true).raisingStopped = true) := by
  by_cases hlast : 8 ≤ p.cancels + 1
  · have hswitch : p.switch true = { p with
        plan := .none, cancels := p.cancels + 1, raisingStopped := true, railStep := p.step
        planned := if p.planned = .raise then .none else p.planned } := by
      simp only [Power.switch, h, hpos, hdroop, hlast, ne_eq, not_true, Bool.not_true, Bool.false_eq_true, if_false, if_true]
    rw [hswitch]
    exact ⟨rfl, rfl, rfl, rfl, fun _ => rfl⟩
  · obtain ⟨hplan, hposition, hstep, -, -⟩ := Power.keepRaise_leaves { p with plan := .none }
    have hswitch : p.switch true = { Power.keepRaise { p with plan := .none } with cancels := p.cancels + 1 } := by
      simp only [Power.switch, h, hpos, hdroop, hlast, ne_eq, not_true, Bool.not_true, Bool.false_eq_true, if_false, if_true]
    rw [hswitch]
    exact ⟨hplan, hposition, hstep, rfl, fun h => absurd h hlast⟩

/-- The switch makes or drops what was planned, and leaves the position. -/
theorem Power.switch_plan (p : Power) (ready : Bool) (h : p.plan ≠ .none) :
    (p.switch ready).plan = .none ∧ (p.switch ready).position = p.position := by
  cases hplan : p.plan
  case none => exact absurd hplan h
  case lower => simp [Power.switch_lower ready hplan]
  case raise =>
    by_cases hpos : p.position = 0
    · cases ready
      · obtain ⟨hnone, hposition, -⟩ := Power.keepRaise_leaves { p with plan := .none }
        rw [Power.switch_unsettled hplan hpos]
        exact ⟨hnone, hposition⟩
      · cases hdroop : p.droopInGuard
        · rw [Power.switch_raise hplan hpos hdroop]
          exact ⟨rfl, rfl⟩
        · obtain ⟨hnone, hposition, -⟩ := Power.switch_cancelled hplan hpos hdroop
          exact ⟨hnone, hposition⟩
    · rw [Power.switch_overtaken ready hplan hpos]
      exact ⟨rfl, rfl⟩

theorem frequencySwitches : Claims.FrequencySwitches := by
  intro s ready hready
  have hplan : s.power.plan ≠ .none := by
    simp only [switchReady, Bool.and_eq_true, decide_eq_true_eq] at hready
    exact hready.2
  obtain ⟨hnone, hposition⟩ := s.power.switch_plan ready hplan
  refine answers_due rfl hready ⟨rfl, hnone, rfl, hposition, rfl, fun h => ?_, fun h hpos hsettled hdroop => ?_,
    fun h hpos hsettled hdroop => ?_, fun h hpos => ?_, fun h hplanned hpos hsettled => ?_⟩
  · rw [State.modFrame_power, State.modPower_power, Power.switch_lower ready h]
    exact ⟨rfl, rfl⟩
  · rw [State.modFrame_power, State.modPower_power, hsettled, Power.switch_raise h hpos hdroop]
    exact ⟨rfl, rfl⟩
  · obtain ⟨-, -, hstep, hcancels, hstop⟩ := Power.switch_cancelled h hpos hdroop
    rw [State.modFrame_power, State.modPower_power, hsettled]
    exact ⟨hstep, hcancels, hstop⟩
  · rw [State.modFrame_power, State.modPower_power, Power.switch_overtaken ready h hpos]
    exact ⟨rfl, rfl⟩
  · obtain ⟨-, -, hstep, hcancels, hraise⟩ := Power.keepRaise_leaves { s.power with plan := .none }
    rw [State.modFrame_power, State.modPower_power, hsettled, Power.switch_unsettled h hpos]
    exact ⟨hstep, hraise hplanned, hcancels⟩

/-! ### The cut ladder (R351, R353) -/

theorem ladder_moves {pos : Nat} (energy budget : Nat) (hpos : pos ≤ 35) :
    (budget < energy → ladder pos energy budget = min (pos + 1) 35) ∧
    (energy ≤ budget → 98 * budget ≤ 100 * energy → ladder pos energy budget = pos) ∧
    (100 * energy < 98 * budget → ladder pos energy budget = pos - 1) ∧ ladder pos energy budget ≤ 35 := by
  unfold ladder
  refine ⟨fun h => if_pos h, fun h h' => ?_, fun h => ?_, ?_⟩
  · rw [if_neg (by omega), if_neg (by omega)]
  · rw [if_neg (by omega), if_pos h]
  · split
    · exact min_le_right _ _
    split <;> omega

/-- The pattern of open slots repeats every 16 slots. -/
theorem slotOpenAt_period (p n i : Nat) : slotOpenAt p (16 * n + i) = slotOpenAt p i := by
  unfold slotOpenAt
  rw [Nat.mul_add_mod_self_left]

theorem slotOpenAt_count : ∀ p ≤ 14, ((List.range 16).filter (slotOpenAt p)).length = 16 - p := by decide

theorem ladderMovesOneStep : Claims.LadderMovesOneStep := by
  refine ⟨fun pos energy budget h => ladder_moves energy budget h, fun p n hp => ?_⟩
  rw [← slotOpenAt_count p hp]
  exact congrArg List.length (List.filter_congr fun i _ => slotOpenAt_period p n i)

/-- Settles O39, part by part. -/
theorem frequencyAndCutLadder : Obligations.FrequencyAndCutLadder := ⟨frequencySwitches, ladderMovesOneStep⟩

end Sys2Proof.Machine

end

section
/-!
DebugLocksOut: the eighth failed response, what is refused then, and the count through every reset and power state (R369).
-/

namespace Sys2Proof.Machine

open Sys2Proof

/-! ### What keeps the count and the lockout -/

/-- The count of failed responses and the lockout, as in `s`. -/
def LockKept (s t : State) : Prop := t.sec.fails = s.sec.fails ∧ t.sec.lockout = s.sec.lockout

theorem State.coldStart_lockKept (s : State) (cause : Nat) : LockKept s (s.coldStart cause) := by
  obtain ⟨n, hheal⟩ := s.coldHold.latchStore.healStore_form
  rw [State.coldStart, hheal]
  exact ⟨rfl, rfl⟩

theorem State.tryCold_lockKept (s : State) (cause : Nat) : LockKept s (s.tryCold cause) := by
  unfold State.tryCold
  split
  · exact s.coldStart_lockKept cause
  · exact ⟨rfl, rfl⟩

theorem LockKept.canOnly {s t u : State} (h : LockKept s t) (hu : CanOnly t u) : LockKept s u := by
  obtain ⟨c, o, rfl⟩ := hu
  exact h

theorem State.warmStart_lockKept (s : State) (cause : Nat) : LockKept s (s.warmStart cause) := by
  unfold State.warmStart
  exact State.each_inv _ (LockKept s) _ _ (fun u p hu => hu.canOnly (u.bootUp_canOnly p)) ⟨rfl, rfl⟩

theorem warmStart_lockKept (s : State) : LockKept s (warmStart s) := by
  unfold warmStart
  split
  · exact s.coldStart_lockKept 2
  · split
    · exact s.warmStart_lockKept _
    · exact State.warmStart_lockKept (s.modSec fun x =>
        { x with wakeCause := x.wakeWaiting.getD 1, wakes := satInc 32 x.wakes }) 8

theorem State.enterDoze_lockKept (s : State) : LockKept s s.enterDoze := by
  unfold State.enterDoze
  dsimp only
  split <;> exact ⟨rfl, rfl⟩

theorem State.wakeEmber_lockKept (s : State) (cause : Nat) : LockKept s (s.wakeEmber cause) := by
  unfold State.wakeEmber
  dsimp only
  split
  · exact State.tryCold_lockKept ((s.modSec fun x => { x with
      wakeCause := cause, wakes := satInc 32 x.wakes, waking := true, wakeWaiting := none }).modBoot fun b =>
      { b with pwrEn := true }) 9
  · exact ⟨rfl, rfl⟩

theorem State.enterEmber_lockKept (s : State) : LockKept s s.enterEmber := by
  unfold State.enterEmber
  dsimp only
  split
  · exact State.wakeEmber_lockKept (s.coldHold.modSec fun x => { x with power := .ember }) _
  · exact ⟨rfl, rfl⟩

theorem powerDown_lockKept (s : State) : LockKept s (powerDown s) := by
  unfold powerDown
  split
  · exact s.enterDoze_lockKept
  · exact s.enterEmber_lockKept

theorem brownout_lockKept (s : State) : LockKept s (brownout s) := by
  unfold brownout
  dsimp only
  split <;> exact ⟨rfl, rfl⟩

theorem suppliesGood_lockKept (s : State) : LockKept s (suppliesGood s) := by
  unfold suppliesGood
  dsimp only
  split
  · exact ⟨rfl, rfl⟩
  · exact State.tryCold_lockKept (s.modBoot fun b => { b with suppliesGood := true }) _

theorem emberLoss_lockKept (s : State) : LockKept s (emberLoss s) := by
  unfold emberLoss
  dsimp only
  split <;> exact ⟨rfl, rfl⟩

/-! ### Requests and responses -/

section

variable {s : State} {via : Via} (hserved : s.served = true) (hup : s.up = true)
include hserved hup

/-- The eighth failed response in a row: one without a challenge, or one that no key of its challenge verifies. -/
theorem debugResponse_locks {sig : BitVec 768} {key : BitVec 776} (hlock : s.sec.lockout = false) (hfails : s.sec.fails = 7)
    (hbad : s.sec.challenges.find? (fun c => decide (c.endpoint = via)) = none ∨
      ∃ c, s.sec.challenges.find? (fun c => decide (c.endpoint = via)) = some c ∧
        ∀ k, s.debugKey c key = some k → sigVerify k (c.message s.sec.otp.uid) sig = false) :
    Answers (.debugResponse via sig key) s fun t => t.sec.lockout = true ∧ t.sec.fails = 8 := by
  have hfailed : s.accepted.debugResponse via sig key = (abSignature, s.accepted.modSec Sec.failed) := by
    obtain hnone | ⟨c, hc, hsig⟩ := hbad
    · exact debugResponse_none (s := s.accepted) sig key hlock hnone
    · cases hk : s.debugKey c key with
      | none =>
        have hk' : s.accepted.debugKey c key = none := hk
        have hc' : s.accepted.sec.challenges.find? (fun c => decide (c.endpoint = via)) = some c := hc
        have hlock' : s.accepted.sec.lockout = false := hlock
        simp [State.debugResponse, hlock', hc', hk']
      | some k => exact debugResponse_bad (s := s.accepted) hlock hc hk (hsig k hk)
  obtain ⟨t, hexec, hcount, hlocked, -⟩ := exec_debugResponse_failed hserved hup hlock hfailed
  rw [hfails] at hcount hlocked
  exact ⟨t, hexec, hlocked, hcount⟩

theorem debugResponse_clears {sig : BitVec 768} {key : BitVec 776} (c : Challenge) (k : BitVec 776)
    (hlock : s.sec.lockout = false) (hc : s.sec.challenges.find? (fun c => decide (c.endpoint = via)) = some c)
    (hk : s.debugKey c key = some k) (hsig : sigVerify k (c.message s.sec.otp.uid) sig = true)
    (hoffers : s.offers c.level = true) (hroom : s.grantsFull via = false) :
    Answers (.debugResponse via sig key) s fun t => t.sec.fails = 0 := by
  obtain ⟨t, hexec, hfails, -⟩ := debugUnlocks_response hserved hup sig key c k hlock hc hk hsig hoffers hroom
  exact ⟨t, hexec, hfails⟩

/-- Under the lockout every level is refused alike. -/
theorem debugRequest_locked (v : BitVec 8) (ch : BitVec 384) (hlock : s.sec.lockout = true) :
    exec (.debugRequest via v ch) s = .next (s.accepted.countAbort.answer via 0x08000022 0 0) :=
  exec_aborted hserved hup rfl (a := abState) (by decide) (if_pos hlock)

end

/-- Settles O56: the response that is the eighth to fail, and every reset and power state in turn. -/
theorem debugLocksOut : Obligations.DebugLocksOut := by
  intro s keeps
  refine ⟨fun hserved hup via sig key => ⟨debugResponse_locks hserved hup, debugResponse_clears hserved hup,
      fun hlock v ch => debugRequest_locked hserved hup v ch hlock⟩,
    fun hlock => answers_due rfl hlock ⟨⟨_, rfl⟩, rfl⟩,
    fun hdue => answers_due rfl hdue (warmStart_lockKept s),
    fun hentering => answers_due rfl hentering (powerDown_lockKept s),
    fun hhigh => answers_due rfl (by simp [hhigh]) ⟨rfl, rfl⟩,
    fun k hk => answers_due rfl (decide_eq_true hk) (brownout_lockKept s),
    fun hlow hgood => answers_due rfl (by simp [hlow, hgood]) ?_,
    fun hbad => answers_due rfl (by simp [hbad]) (suppliesGood_lockKept s),
    fun hsupply => answers_due rfl hsupply (emberLoss_lockKept s)⟩
  exact State.tryCold_lockKept (s.modBoot fun b => { b with resetLow := false }) _

end Sys2Proof.Machine

end

section
/-!
PowerStatesAndWakes: what DOZE and EMBER leave, the wakes, and the supply of the ember domain (R371 to R374).
-/

namespace Sys2Proof.Machine

open Sys2Proof

/-! ### DOZE and EMBER (R371 to R373) -/

/-- What is left in DOZE: the OTP, the keys, the store and the clock, and grants from OWNER up. -/
structure Dozed (s t : State) : Prop where
  power : t.sec.power = .doze
  entering : t.sec.entering = none
  ticking : t.frame.ticking = false
  ops : t.ops = []
  ctx : ∀ c, (t.ctx c).state = .free ∧ (t.ctx c).gen = (s.ctx c).gen
  grants : ∀ g ∈ t.sec.grants, g ∈ s.sec.grants ∧ (g.level = .owner ∨ g.level = .vendor)
  session : t.net.session = none
  otp : t.sec.otp = s.sec.otp
  keys : t.sec.keys = s.sec.keys
  rtc : t.sec.rtc = s.sec.rtc
  obj : t.obj = s.obj

/-- A context whose queues no endpoint of `gone` holds any more. -/
def Ctx.unhalted (gone : List Via) (x : Ctx) : Ctx := { x with queues := tmap {} (fun _ y => y.unhalt gone) x.queues }

/-- A context that is discarded keeps its generation, whoever held its queues. -/
theorem tget_unhalted_discarded (gone : List Via) (t : Tab Ctx) (c : Nat) :
    (tget {} (tmap {} (fun _ x => x.unhalted gone) (tmap {} (fun _ x => x.discarded) t)) c).state = .free ∧
    (tget {} (tmap {} (fun _ x => x.unhalted gone) (tmap {} (fun _ x => x.discarded) t)) c).gen = (tget {} t c).gen := by
  rw [tget_tmap _ _ _ _ rfl, tget_tmap _ _ _ _ rfl]
  exact ⟨rfl, rfl⟩

theorem State.enterDoze_dozed (s : State) : Dozed s s.enterDoze := by
  have hgrants : ∀ g ∈ s.sec.grants.filter (fun g => !!g.survivesDoze), g ∈ s.sec.grants ∧
      (g.level = .owner ∨ g.level = .vendor) := fun g hg => by
    obtain ⟨hmem, hsurvives⟩ := List.mem_filter.1 hg
    exact ⟨hmem, by simpa [Grant.survivesDoze] using hsurvives⟩
  unfold State.enterDoze
  dsimp only
  split <;> exact ⟨rfl, rfl, rfl, rfl, tget_unhalted_discarded _ s.ctxs, hgrants, rfl, rfl, rfl, rfl, rfl⟩

theorem State.enterEmber_plain {s : State} (h : s.sec.wakeWaiting = none) :
    s.enterEmber = s.coldHold.modSec fun x => { x with power := .ember } := by
  rw [State.enterEmber, h]

/-! ### Wakes (R374) -/

/-- A wake from EMBER: the supplies are switched on, and the wake is counted with its cause. -/
def WokeEmber (cause wakes : Nat) (t : State) : Prop :=
  t.boot.pwrEn = true ∧ t.sec.wakeCause = cause ∧ t.sec.wakes = satInc 32 wakes

theorem State.coldStart_wake (s : State) (cause : Nat) : (s.coldStart cause).boot.pwrEn = true ∧
    (s.coldStart cause).sec.wakeCause = s.sec.wakeCause ∧ (s.coldStart cause).sec.wakes = s.sec.wakes := by
  obtain ⟨n, hheal⟩ := s.coldHold.latchStore.healStore_form
  rw [State.coldStart, hheal]
  exact ⟨rfl, rfl, rfl⟩

theorem State.wakeEmber_woke (s : State) (cause : Nat) : WokeEmber cause s.sec.wakes (s.wakeEmber cause) := by
  unfold State.wakeEmber State.tryCold
  dsimp only
  split
  · split
    · exact State.coldStart_wake _ 9
    · exact ⟨rfl, rfl, rfl⟩
  · exact ⟨rfl, rfl, rfl⟩

section
variable {s : State} (cause : Nat)

theorem State.wake_entering (h : s.sec.entering.isSome = true) : s.wake cause =
    s.modSec fun x => { x with wakeWaiting := some (x.wakeWaiting.getD cause) } := if_pos h

theorem State.wake_doze (hentering : s.sec.entering = none) (h : s.sec.power = .doze) : s.wake cause =
    s.modSec fun x => { x with wakeWaiting := some (x.wakeWaiting.getD cause), waking := true } := by
  simp [State.wake, hentering, h]

theorem State.wake_run (hentering : s.sec.entering = none) (h : s.sec.power = .run ∨ s.sec.power = .hold) :
    s.wake cause = s := by
  obtain h | h := h <;> simp [State.wake, hentering, h]

theorem State.wake_ember (hentering : s.sec.entering = none) (h : s.sec.power = .ember) (hwaking : s.sec.waking = false) :
    s.wake cause = s.wakeEmber cause := by simp [State.wake, hentering, h, hwaking]

/-- A source whose command is a wake, in each state of the power. -/
theorem source_wakes {c : Instr} {s₀ : State} (hexec : exec c s₀ = .next (s.wake cause)) :
    (s.sec.entering.isSome = true → exec c s₀ = .next (s.modSec fun x =>
      { x with wakeWaiting := some (x.wakeWaiting.getD cause) })) ∧
    (s.sec.entering = none → s.sec.power = .doze → exec c s₀ = .next (s.modSec fun x =>
      { x with wakeWaiting := some (x.wakeWaiting.getD cause), waking := true })) ∧
    (s.sec.entering = none → s.sec.power = .run ∨ s.sec.power = .hold → exec c s₀ = .next s) ∧
    (s.sec.entering = none → s.sec.power = .ember → s.sec.waking = false →
      Answers c s₀ (WokeEmber cause s.sec.wakes)) := by
  refine ⟨fun h => ?_, fun hnone h => ?_, fun hnone h => ?_, fun hnone h hwaking => ⟨s.wakeEmber cause, ?_, s.wakeEmber_woke cause⟩⟩
  · rw [hexec, s.wake_entering cause h]
  · rw [hexec, s.wake_doze cause hnone h]
  · rw [hexec, s.wake_run cause hnone h]
  · rw [hexec, s.wake_ember cause hnone h hwaking]

end

section
variable {s : State}

theorem exec_wakeBall_wakes {level : Bool} (hsupply : s.sec.emberSupply = true) (hon : s.wakeOn 0 = true)
    (hlevel : level = decide (s.val 0x2240 5 = 1)) : exec (.wakeBall level) s = .next (s.wake 2) :=
  congrArg Host.Outcome.next (if_pos (by simp [hsupply, hon, hlevel]))

theorem exec_wakeBall_ignored {level : Bool}
    (h : s.sec.emberSupply = false ∨ s.wakeOn 0 = false ∨ level ≠ decide (s.val 0x2240 5 = 1)) :
    exec (.wakeBall level) s = .next s := by
  refine congrArg Host.Outcome.next (if_neg ?_)
  obtain h | h | h := h <;> simp [h]

theorem exec_canWakeFrame_wakes {f : CanFrame} (hsupply : s.sec.emberSupply = true) (hon : s.wakeOn 1 = true)
    (hmatch : s.canMatches f = true) : exec (.canWakeFrame f) s = .next (s.wake 3) :=
  congrArg Host.Outcome.next (if_pos (by simp [hsupply, hon, hmatch]))

theorem exec_canWakeFrame_ignored {f : CanFrame}
    (h : s.sec.emberSupply = false ∨ s.wakeOn 1 = false ∨ f.crcOk = false ∨ f.fd = true ∨ 500 < f.rate) :
    exec (.canWakeFrame f) s = .next s := by
  refine congrArg Host.Outcome.next (if_neg ?_)
  obtain h | h | h | h | h := h
  · simp [h]
  · simp [h]
  · simp [State.canMatches, h]
  · simp [State.canMatches, h]
  · simp [State.canMatches, Nat.not_le.2 h]

/-! ### The alarm, and the ember supply (R374) -/

/-- The clock stands at the time of the alarm. -/
def State.alarmed (s : State) : State :=
  s.modSec fun x => { x with rtc := BitVec.ofNat 64 (s.val 0x2240 0x0A), rtcAt := s.frame.now }

theorem exec_rtcAlarm (hsupply : s.sec.emberSupply = true) (hset : s.val 0x2240 0x0A ≠ 0) :
    (s.wakeOn 2 = true → exec .rtcAlarm s = .next (s.alarmed.wake 4)) ∧
    (s.wakeOn 2 = false → exec .rtcAlarm s = .next s.alarmed) := by
  have hdue : (s.sec.emberSupply && decide (s.val 0x2240 0x0A ≠ 0)) = true := by simp [hsupply, hset]
  have hexec : exec .rtcAlarm s = .next (rtcAlarm s) := by rw [exec, execRtcAlarm, hdue, due_true]
  rw [hexec]
  refine ⟨fun hon => congrArg _ (if_pos hon), fun hoff => congrArg _ (if_neg ?_)⟩
  have hoff' : s.alarmed.wakeOn 2 = false := hoff
  exact ne_true_of_eq_false hoff'

theorem emberLoss_powered (h : s.sec.power ≠ .ember) :
    emberLoss s = s.modSec fun x => x.clockLost s.frame.now false := if_neg h

/-- In EMBER nothing is left on. -/
theorem emberLoss_off (h : s.sec.power = .ember) : emberLoss s =
    (s.modSec fun x => { x.clockLost s.frame.now false with power := .off, wakeCause := 0, waking := false }).modBoot fun b =>
      { b with resetLow := true, cause := 0, pwrEn := false } := if_pos h

end

/-- Settles O57: what an entry leaves, each source as a wake, and the supply of the ember domain. -/
theorem powerStatesAndWakes : Obligations.PowerStatesAndWakes := by
  intro s source alarmed
  refine ⟨fun hdoze => ?_, fun hember hnone => ?_, fun level => ⟨fun hsupply hon hlevel => ?_, exec_wakeBall_ignored⟩,
    fun f => ⟨fun hsupply hon hmatch => ?_, exec_canWakeFrame_ignored⟩, fun hsupply hset => ⟨fun hon => ?_, ?_⟩,
    fun hsupply hpower => ?_, fun hsupply hpower => ?_, fun hsupply => ?_⟩
  · have hdown : powerDown s = s.enterDoze := if_pos hdoze
    refine answers_due rfl (by simp [hdoze]) ?_
    rw [hdown]
    obtain ⟨hpower, hentering, hticking, hops, hctx, hgrants, hsession, hotp, hkeys, hrtc, hobj⟩ := s.enterDoze_dozed
    exact ⟨hpower, hentering, hticking, hops, hctx, hgrants, hsession, hotp, hkeys, hrtc, hobj⟩
  · have hdown : powerDown s = s.enterEmber := if_neg (by simp [hember])
    refine answers_due rfl (by simp [hember]) ?_
    rw [hdown, State.enterEmber_plain hnone]
    exact ⟨rfl, rfl, rfl, rfl, rfl, rfl, rfl, rfl, rfl, rfl, rfl⟩
  · exact source_wakes 2 (exec_wakeBall_wakes hsupply hon hlevel)
  · exact source_wakes 3 (exec_canWakeFrame_wakes hsupply hon hmatch)
  · exact source_wakes (s := s.alarmed) 4 ((exec_rtcAlarm hsupply hset).1 hon)
  · exact (exec_rtcAlarm hsupply hset).2
  · rw [exec, execEmberSupplyLoss, hsupply, emberLoss_powered hpower]
    rfl
  · refine answers_due rfl hsupply ?_
    rw [emberLoss_off hpower]
    exact ⟨rfl, rfl, rfl, rfl, rfl, rfl, rfl⟩
  · rw [exec, execEmberSupplyRestore, hsupply]
    rfl

end Sys2Proof.Machine

end

section
/-!
RecoveryCommands: Table 16-7's commands, refused, busy, malformed and taken (R391).
-/

namespace Sys2Proof.Machine

open Sys2Proof

/-! ### A run of a table -/

/-- A run that was written reads back. -/
theorem tgetRun_tsetRun {α : Type} [DecidableEq α] (d : α) (t : Tab α) (k : Nat) (vs : List α) :
    tgetRun d (tsetRun d t k vs) k vs.length = vs := by
  refine List.ext_getElem (by simp [tgetRun]) fun i _ hi => ?_
  have hin : k ≤ k + i ∧ k + i < k + vs.length := ⟨by omega, by omega⟩
  simp only [tgetRun, List.getElem_map, List.getElem_range, tget_tsetRun, if_pos hin, Nat.add_sub_cancel_left]
  exact List.getD_eq_getElem vs d hi

/-! ### A recovery command (Table 16-7) -/

section
variable {s : State} {h : RecoveryHeader} {busy image : Bool} {f : State → State}

theorem State.recCommand_away (hdev : s.boot.dev ≠ .recovery) : s.recCommand h busy image f = s := if_pos hdev

theorem State.recCommand_busy (hdev : s.boot.dev = .recovery) : s.recCommand h true image f = s.send (.recovery 6) :=
  (if_neg (not_not.2 hdev)).trans (if_pos rfl)

theorem State.recCommand_refused (hdev : s.boot.dev = .recovery) (hrefused : s.recRefused h image = true) :
    s.recCommand h false image f = s.recDone 7 := by simp [State.recCommand, hdev, hrefused]

theorem State.recCommand_taken (hdev : s.boot.dev = .recovery) (htaken : s.recRefused h image = false) :
    s.recCommand h false image f = f s := by simp [State.recCommand, hdev, htaken]

theorem State.recRefused_reserved (hform : fld h 31 11 ≠ 0) : s.recRefused h image = true := by
  simp [State.recRefused, hform]

theorem State.recRefused_wellFormed (hlife : s.sec.otp.life ≠ .scrapped) (hform : fld h 31 11 = 0)
    (hop : rcOp h ≠ 0 ∧ rcOp h ≤ 5) (himage : image = true → 1 ≤ rcImage h ∧ rcImage h ≤ 3) :
    s.recRefused h image = false := by
  obtain ⟨hop0, hop5⟩ := hop
  cases image with
  | false => simp [State.recRefused, hlife, hform, hop0, Nat.not_lt.2 hop5]
  | true => simp [State.recRefused, hlife, hform, hop0, Nat.not_lt.2 hop5, himage rfl]

theorem rcRow_own {op : Nat} (hop : rcOp h = op) : rcRow op h = true := by simp [rcRow, hop]

theorem exec_recoveryErase (hop : rcOp h = 1) :
    exec (.recoveryErase h busy) s = .next (s.recCommand h busy true (recErase h)) := by
  rw [exec, execRecoveryErase, rcRow_own hop, due_true]

theorem exec_recoveryWrite (bs : List Byte) (hop : rcOp h = 2) :
    exec (.recoveryWrite h bs busy) s = .next (s.recCommand h busy true (recWrite h bs)) := by
  rw [exec, execRecoveryWrite, rcRow_own hop, due_true]

theorem exec_recoveryCommit (img : Option Image) (hop : rcOp h = 3) :
    exec (.recoveryCommit h img busy) s = .next (s.recCommand h busy true (recCommit h img)) := by
  rw [exec, execRecoveryCommit, rcRow_own hop, due_true]

theorem exec_recoveryStatus (hop : rcOp h = 4) :
    exec (.recoveryStatus h busy) s = .next (s.recCommand h busy false fun s => s.recDone 0) := by
  rw [exec, execRecoveryStatus, rcRow_own hop, due_true]

theorem exec_recoveryRestart (hop : rcOp h = 5) :
    exec (.recoveryRestart h busy) s = .next (s.recCommand h busy false fun s => (s.recDone 0).coldStart 1) := by
  rw [exec, execRecoveryRestart, rcRow_own hop, due_true]

/-- Each row of Table 16-7 is a command of its own OP. -/
theorem recovery_rows (bs : List Byte) (img : Option Image) : ∀ e ∈ [(1, Instr.recoveryErase h busy),
      (2, .recoveryWrite h bs busy), (3, .recoveryCommit h img busy), (4, .recoveryStatus h busy), (5, .recoveryRestart h busy)],
    rcOp h = e.1 → ∃ image f, exec e.2 s = .next (s.recCommand h busy image f) := by
  simp only [List.forall_mem_cons, List.not_mem_nil, false_imp_iff, implies_true, and_true]
  exact ⟨fun hop => ⟨_, _, exec_recoveryErase hop⟩, fun hop => ⟨_, _, exec_recoveryWrite bs hop⟩,
    fun hop => ⟨_, _, exec_recoveryCommit img hop⟩, fun hop => ⟨_, _, exec_recoveryStatus hop⟩,
    fun hop => ⟨_, _, exec_recoveryRestart hop⟩⟩

end

/-! ### What each command does -/

/-- A command performed with its result: it is shown and answered, and security state and values stay. -/
def Performed (res : Nat) (s t : State) : Prop :=
  t.boot.recStatus = 2 ∧ t.boot.recResult = res ∧ t.out = s.out ++ [.recovery res] ∧ t.sec = s.sec ∧ t.obj = s.obj

theorem OnlyBoot.performed {s t : State} (h : OnlyBoot s t) (res : Nat) : Performed res s (t.recDone res) := by
  obtain ⟨b, rfl⟩ := h
  exact ⟨rfl, rfl, rfl, rfl, rfl⟩

theorem State.touch_onlyBoot (s : State) (i : Nat) (on : Bool) : OnlyBoot s (s.touch i on) := ⟨_, rfl⟩

theorem State.recDone_performed (s : State) (res : Nat) : Performed res s (s.recDone res) ∧
    (s.recDone res).boot.unusedBank = s.boot.unusedBank ∧ (s.recDone res).boot.touched = s.boot.touched :=
  ⟨⟨rfl, rfl, rfl, rfl, rfl⟩, rfl, rfl⟩

theorem recErase_performed (h : RecoveryHeader) (s : State) : Performed 0 s (recErase h s) ∧
    tget [] (recErase h s).boot.unusedBank (rcImage h) = [] ∧
    (∀ k, k ≠ rcImage h → tget [] (recErase h s).boot.unusedBank k = tget [] s.boot.unusedBank k) ∧
    tget false (recErase h s).boot.touched (2 * rcImage h + s.boot.unused (rcImage h)) = true := by
  have hbank : (recErase h s).boot.unusedBank = tset [] s.boot.unusedBank (rcImage h) [] := rfl
  have htouched : (recErase h s).boot.touched =
    tset false s.boot.touched (2 * rcImage h + s.boot.unused (rcImage h)) true := rfl
  rw [hbank, htouched]
  exact ⟨OnlyBoot.performed ⟨_, rfl⟩ 0, tget_tset_same _ _ _ _, fun _ hk => tget_tset_ne _ _ _ hk, tget_tset_same _ _ _ _⟩

/-- Does a WRITE name 1 to 4096 bytes of its bank, from a page's start? -/
def WriteForm (h : RecoveryHeader) (bs : List Byte) : Prop :=
  1 ≤ rcLength h ∧ rcLength h ≤ 4096 ∧ rcOffset h % 4096 = 0 ∧ rcOffset h + rcLength h ≤ bankSize ∧ bs.length = rcLength h

section
variable {h : RecoveryHeader} {bs : List Byte}

theorem recWrite_range (s : State) (hform : ¬ WriteForm h bs) : recWrite h bs s = s.recDone 2 := by
  refine if_pos ?_
  unfold WriteForm at hform
  omega

theorem not_outOfRange (hform : WriteForm h bs) : ¬ (rcLength h = 0 ∨ 4096 < rcLength h ∨ rcOffset h % 4096 ≠ 0 ∨
    bankSize < rcOffset h + rcLength h ∨ bs.length ≠ rcLength h) := by
  unfold WriteForm at hform
  omega

theorem recWrite_crc (s : State) (hform : WriteForm h bs) (hcrc : (crc32c bs).toNat ≠ rcCrc h) :
    recWrite h bs s = s.recDone 1 := (if_neg (not_outOfRange hform)).trans (if_pos hcrc)

theorem recWrite_stores (s : State) (hform : WriteForm h bs) (hcrc : (crc32c bs).toNat = rcCrc h) :
    Performed 0 s (recWrite h bs s) ∧ tget [] (recWrite h bs s).boot.unusedBank (rcImage h) =
      tsetRun 0xFF (tget [] s.boot.unusedBank (rcImage h)) (rcOffset h) bs ∧
    ∀ k, k ≠ rcImage h → tget [] (recWrite h bs s).boot.unusedBank k = tget [] s.boot.unusedBank k := by
  have hwrite : recWrite h bs s = ((s.touch (rcImage h) true).modBoot fun b =>
      { b with unusedBank := tmod [] b.unusedBank (rcImage h) fun t => tsetRun 0xFF t (rcOffset h) bs }).recDone 0 :=
    (if_neg (not_outOfRange hform)).trans (if_neg (not_not.2 hcrc))
  have hbank : (recWrite h bs s).boot.unusedBank =
      tmod [] s.boot.unusedBank (rcImage h) fun t => tsetRun 0xFF t (rcOffset h) bs := by
    rw [hwrite]
    rfl
  rw [hbank, tget_tmod_same]
  refine ⟨?_, rfl, fun _ hk => tget_tmod_ne _ _ _ hk⟩
  rw [hwrite]
  exact OnlyBoot.performed ⟨_, rfl⟩ 0

end

section
variable {h : RecoveryHeader} {i : Image} (s : State)

theorem recCommit_unsigned (hsig : i.sigOk = false) : recCommit h (some i) s = s.recDone 3 := by
  simp [recCommit, hsig]

theorem recCommit_old (hsig : i.sigOk = true) (hold : fld i.version 31 24 < s.sec.otp.min (rcImage h)) :
    recCommit h (some i) s = s.recDone 4 := by simp [recCommit, hsig, hold]

theorem recCommit_stepping (hsig : i.sigOk = true) (hnew : s.sec.otp.min (rcImage h) ≤ fld i.version 31 24)
    (himage : rcImage h = 1) (hstepping : Config.stepping ∉ i.steppings) : recCommit h (some i) s = s.recDone 5 := by
  rw [himage] at hnew
  simp [recCommit, hsig, Nat.not_lt.2 hnew, himage, hstepping]

theorem recCommit_good (hsig : i.sigOk = true) (hnew : s.sec.otp.min (rcImage h) ≤ fld i.version 31 24)
    (hstepping : rcImage h ≠ 1 ∨ Config.stepping ∈ i.steppings) :
    recCommit h (some i) s = (s.touch (rcImage h) false).recDone 0 := by
  have hfits : ¬ (rcImage h = 1 ∧ ¬ Config.stepping ∈ i.steppings) := by
    rintro ⟨hone, hnot⟩
    exact hstepping.elim (fun hne => hne hone) hnot
  simp [recCommit, hsig, Nat.not_lt.2 hnew, hfits]

theorem recCommit_judges : (i.sigOk = false → Performed 3 s (recCommit h (some i) s)) ∧
    (i.sigOk = true → fld i.version 31 24 < s.sec.otp.min (rcImage h) → Performed 4 s (recCommit h (some i) s)) ∧
    (i.sigOk = true → s.sec.otp.min (rcImage h) ≤ fld i.version 31 24 → rcImage h = 1 → Config.stepping ∉ i.steppings →
      Performed 5 s (recCommit h (some i) s)) ∧
    (i.sigOk = true → s.sec.otp.min (rcImage h) ≤ fld i.version 31 24 → (rcImage h ≠ 1 ∨ Config.stepping ∈ i.steppings) →
      Performed 0 s (recCommit h (some i) s) ∧
      tget false (recCommit h (some i) s).boot.touched (2 * rcImage h + s.boot.unused (rcImage h)) = false) := by
  refine ⟨fun hsig => ?_, fun hsig hold => ?_, fun hsig hnew himage hstepping => ?_, fun hsig hnew hstepping => ?_⟩
  · rw [recCommit_unsigned s hsig]
    exact (s.recDone_performed 3).1
  · rw [recCommit_old s hsig hold]
    exact (s.recDone_performed 4).1
  · rw [recCommit_stepping s hsig hnew himage hstepping]
    exact (s.recDone_performed 5).1
  · have htouched : ((s.touch (rcImage h) false).recDone 0).boot.touched =
      tset false s.boot.touched (2 * rcImage h + s.boot.unused (rcImage h)) false := rfl
    rw [recCommit_good s hsig hnew hstepping, htouched]
    exact ⟨(s.touch_onlyBoot _ _).performed 0, tget_tset_same _ _ _ _⟩

end

theorem State.coldStart_unusedBank (s : State) (cause : Nat) : (s.coldStart cause).boot.unusedBank = s.boot.unusedBank := by
  obtain ⟨n, hheal⟩ := s.coldHold.latchStore.healStore_form
  rw [State.coldStart, hheal]
  rfl

/-! ### The obligation -/

section
variable {s : State} {h : RecoveryHeader} (hdev : s.boot.dev = .recovery)
include hdev

theorem recovery_malformed {i : Instr} {image : Bool} {f : State → State}
    (hexec : exec i s = .next (s.recCommand h false image f)) (hform : fld h 31 11 ≠ 0) :
    Answers i s fun t => Performed 7 s t ∧ t.boot.unusedBank = s.boot.unusedBank ∧ t.boot.touched = s.boot.touched := by
  rw [State.recCommand_refused hdev (State.recRefused_reserved hform)] at hexec
  exact ⟨_, hexec, s.recDone_performed 7⟩

variable (hlife : s.sec.otp.life ≠ .scrapped) (hform : fld h 31 11 = 0)
include hlife hform

/-- A command that is well formed takes effect. -/
theorem recovery_taken {i : Instr} {image : Bool} {f : State → State} {P : State → Prop}
    (hexec : exec i s = .next (s.recCommand h false image f)) (hop : rcOp h ≠ 0 ∧ rcOp h ≤ 5)
    (himage : image = true → 1 ≤ rcImage h ∧ rcImage h ≤ 3) (hP : P (f s)) : Answers i s P := by
  rw [State.recCommand_taken hdev (State.recRefused_wellFormed hlife hform hop himage)] at hexec
  exact ⟨_, hexec, hP⟩

theorem recoveryWrite_answers (bs : List Byte) (hop : rcOp h = 2) (h1 : 1 ≤ rcImage h) (h3 : rcImage h ≤ 3) :
    (¬ WriteForm h bs → Answers (.recoveryWrite h bs false) s fun t => Performed 2 s t ∧
      t.boot.unusedBank = s.boot.unusedBank) ∧
    (WriteForm h bs → (crc32c bs).toNat ≠ rcCrc h → Answers (.recoveryWrite h bs false) s fun t => Performed 1 s t ∧
      t.boot.unusedBank = s.boot.unusedBank) ∧
    (WriteForm h bs → (crc32c bs).toNat = rcCrc h → Answers (.recoveryWrite h bs false) s fun t => Performed 0 s t ∧
      tgetRun 0xFF (tget [] t.boot.unusedBank (rcImage h)) (rcOffset h) bs.length = bs ∧
      (∀ a, a < rcOffset h ∨ rcOffset h + bs.length ≤ a →
        tget 0xFF (tget [] t.boot.unusedBank (rcImage h)) a = tget 0xFF (tget [] s.boot.unusedBank (rcImage h)) a) ∧
      ∀ k, k ≠ rcImage h → tget [] t.boot.unusedBank k = tget [] s.boot.unusedBank k) := by
  have htaken {P : State → Prop} : P (recWrite h bs s) → Answers (.recoveryWrite h bs false) s P :=
    recovery_taken hdev hlife hform (exec_recoveryWrite bs hop) (by omega) fun _ => ⟨h1, h3⟩
  refine ⟨fun hbad => htaken ?_, fun hgood hcrc => htaken ?_, fun hgood hcrc => htaken ?_⟩
  · obtain ⟨hdone, hbank, -⟩ := s.recDone_performed 2
    rw [recWrite_range s hbad]
    exact ⟨hdone, hbank⟩
  · obtain ⟨hdone, hbank, -⟩ := s.recDone_performed 1
    rw [recWrite_crc s hgood hcrc]
    exact ⟨hdone, hbank⟩
  · obtain ⟨hdone, hbank, hother⟩ := recWrite_stores s hgood hcrc
    refine ⟨hdone, ?_, fun a ha => ?_, hother⟩
    · rw [hbank, tgetRun_tsetRun]
    · rw [hbank, tget_tsetRun, if_neg (by omega)]

theorem recoveryRestart_answers (hop : rcOp h = 5) : Answers (.recoveryRestart h false) s fun t => t.boot.started = true ∧
    t.boot.warm = false ∧ t.boot.cause = 1 ∧ t.boot.dev = .starting ∧ t.boot.unusedBank = s.boot.unusedBank ∧
    t.sec.otp = s.sec.otp ∧ t.sec.boots = satInc 32 s.sec.boots := by
  refine recovery_taken hdev hlife hform (exec_recoveryRestart hop) (by omega) nofun ?_
  obtain ⟨hstarted, hwarm, hcause, hdevice, -, hboots, -, -, -, -, -, hotp, -⟩ := (s.recDone 0).coldStart_started 1
  exact ⟨hstarted, hwarm, hcause, hdevice, (s.recDone 0).coldStart_unusedBank 1, hotp, hboots⟩

end

/-- Settles O60: each row is a command of Table 16-7, and each command as it is taken or refused. -/
theorem recoveryCommands : Obligations.RecoveryCommands := by
  intro s h rows n flash
  refine ⟨fun busy bs img e he hop => ?_, fun hdev hlife hform => ⟨fun hop h1 h3 => ?_,
    fun bs hop h1 h3 => recoveryWrite_answers hdev hlife hform bs hop h1 h3, fun hop h1 h3 => ⟨?_, fun i => ?_⟩,
    fun hop => ?_, fun hop => recoveryRestart_answers hdev hlife hform hop⟩⟩
  · obtain ⟨image, f, hexec⟩ := recovery_rows (s := s) bs img e he hop
    refine ⟨fun hdev => ?_, fun hdev hbusy => ?_, fun hdev hbusy hform => ?_⟩
    · rw [hexec, State.recCommand_away hdev]
    · rw [hexec, hbusy, State.recCommand_busy hdev]
    · rw [hbusy] at hexec
      exact recovery_malformed hdev hexec hform
  · exact recovery_taken hdev hlife hform (exec_recoveryErase hop) (by omega) (fun _ => ⟨h1, h3⟩) (recErase_performed h s)
  · obtain ⟨hdone, -, htouched⟩ := s.recDone_performed 3
    exact recovery_taken hdev hlife hform (exec_recoveryCommit none hop) (by omega) (fun _ => ⟨h1, h3⟩) ⟨hdone, htouched⟩
  · exact recovery_taken hdev hlife hform (exec_recoveryCommit (some i) hop) (by omega) (fun _ => ⟨h1, h3⟩)
      (recCommit_judges s)
  · obtain ⟨hdone, hbank, -⟩ := s.recDone_performed 0
    exact recovery_taken hdev hlife hform (exec_recoveryStatus hop) (by omega) nofun ⟨hdone, hbank⟩

end Sys2Proof.Machine

end

section
/-!
KeysAndLifecycle: the keys that are written outside a session, and what the end of an erasure leaves (R361 to R364, R390).
-/

namespace Sys2Proof.Machine

open Sys2Proof

/-! ### Keys outside a session (R361, R362, R390) -/

section
variable {s : State} {via : Via}

theorem State.keyOutside_blank (hlife : s.sec.otp.life = .blank) (hnone : s.mySession via = none) :
    s.keyOutside via 0x2210 1 = true := by simp [State.keyOutside, hlife, hnone]

theorem State.keyOutside_lost {slot : Nat} (hslot : slot < 3) (hdev : s.boot.dev = .recovery) (hlost : s.boot.storeLost = true)
    (hnone : s.mySession via = none) : s.keyOutside via 0x2210 (slot + 1) = true := by
  have hsub : slot + 1 ≤ 3 := hslot
  simp [State.keyOutside, hdev, hlost, hnone, hsub]

theorem State.writeObj_outsideKey {port i sub len v : Nat} {fresh : BitVec 384} (h : s.keyOutside via i sub = true) :
    s.writeObj via port i sub len v fresh = s.keyWrite sub len v := if_pos h

theorem State.keyWrite_blank (sub v : Nat) (h : s.sec.otp.life = .blank) : s.keyWrite sub 97 v = s.blankKey v :=
  (if_neg (by decide)).trans (if_pos h)

theorem State.keyWrite_lost (slot v : Nat) (h : s.sec.otp.life ≠ .blank) :
    s.keyWrite (slot + 1) 97 v = s.recoveryKey slot v := by
  rw [State.keyWrite, if_neg (by decide), if_neg h, Nat.add_sub_cancel]

theorem State.blankKey_bad {key : BitVec 776} (h : keyOk key = false) : s.blankKey key.toNat = (abRange, s) := by
  simp [State.blankKey, h]

/-- The first key: in slot 0, which is ACTIVE with its hash, and the device is PROVISIONED. -/
def Sec.firstKey (x : Sec) (key : BitVec 776) : Sec :=
  { x with
    keys := tset 0 x.keys 0 key
    otp := { x.otp with
      slots := tset {} x.otp.slots 0 ⟨digestVal (leBytes 97 key.toNat), .active⟩, life := .provisioned } }

theorem Sec.firstKey_spec (x : Sec) (key : BitVec 776) : tget 0 (x.firstKey key).keys 0 = key ∧
    tget {} (x.firstKey key).otp.slots 0 = ⟨digestVal (leBytes 97 key.toNat), .active⟩ ∧
    (x.firstKey key).otp.life = .provisioned ∧
    ∀ k, k ≠ 0 → tget 0 (x.firstKey key).keys k = tget 0 x.keys k ∧
      tget {} (x.firstKey key).otp.slots k = tget {} x.otp.slots k := by
  have hkeys : (x.firstKey key).keys = tset 0 x.keys 0 key := rfl
  have hslots : (x.firstKey key).otp.slots =
    tset {} x.otp.slots 0 ⟨digestVal (leBytes 97 key.toNat), .active⟩ := by rw [Sec.firstKey]
  have hlife : (x.firstKey key).otp.life = .provisioned := rfl
  rw [hkeys, hslots]
  exact ⟨tget_tset_same _ _ _ _, tget_tset_same _ _ _ _, hlife, fun _ hk => ⟨tget_tset_ne _ _ _ hk, tget_tset_ne _ _ _ hk⟩⟩

theorem State.blankKey_good {key : BitVec 776} (h : keyOk key = true) :
    ∃ x, s.blankKey key.toNat = (0, { s with sec := x }) ∧ tget 0 x.keys 0 = key ∧
      tget {} x.otp.slots 0 = ⟨digestVal (leBytes 97 key.toNat), .active⟩ ∧ x.otp.life = .provisioned ∧
      ∀ k, k ≠ 0 → tget 0 x.keys k = tget 0 s.sec.keys k ∧ tget {} x.otp.slots k = tget {} s.sec.otp.slots k := by
  refine ⟨s.sec.firstKey key, ?_, s.sec.firstKey_spec key⟩
  simp [State.blankKey, h, State.fuseKey, State.modSec, State.modOtp, Sec.firstKey]

/-- A lost key, in its slot again. -/
def Sec.foundKey (x : Sec) (slot : Nat) (key : BitVec 776) : Sec :=
  { x with keys := tset 0 x.keys slot key, badKeys := x.badKeys.erase slot }

theorem Sec.foundKey_spec (x : Sec) (slot : Nat) (key : BitVec 776) :
    tget 0 (x.foundKey slot key).keys slot = key ∧ (x.foundKey slot key).otp = x.otp := by
  have hkeys : (x.foundKey slot key).keys = tset 0 x.keys slot key := rfl
  rw [hkeys]
  exact ⟨tget_tset_same _ _ _ _, rfl⟩

/-- Does a key match the hash of its ACTIVE slot? -/
def State.KeyFits (s : State) (slot : Nat) (key : BitVec 776) : Prop :=
  (tget {} s.sec.otp.slots slot).state = .active ∧ (tget {} s.sec.otp.slots slot).hash = digestVal (leBytes 97 key.toNat)

theorem State.recoveryKey_fits {slot : Nat} {key : BitVec 776} (h : s.KeyFits slot key) :
    ∃ x, s.recoveryKey slot key.toNat =
        (0, { s with sec := x, boot := { s.boot with recoveryKey := some (s.boot.recoveryKey.getD slot) } }) ∧
      tget 0 x.keys slot = key ∧ x.otp = s.sec.otp := by
  have hfits : s.recoveryKey slot key.toNat = _ := if_pos h
  refine ⟨s.sec.foundKey slot key, ?_, s.sec.foundKey_spec slot key⟩
  rw [hfits, BitVec.ofNat_toNat, BitVec.setWidth_eq]
  rfl

theorem State.recoveryKey_other {slot : Nat} {key : BitVec 776} (h : ¬ s.KeyFits slot key) :
    s.recoveryKey slot key.toNat = (abState, s) := if_neg h

end

section
variable {s t : State} {via : Via} {port i sub len v : Nat} {fresh : BitVec 384} (hserved : s.served = true)
  (hearly : s.earlyWrite via i sub = true)
include hserved hearly

/-- A write that Ground recovery serves is answered, whether or not the device is past start-up. -/
theorem State.rowWrite_early_wrote (h : s.accepted.writeObj via port i sub len v fresh = (0, t)) :
    s.rowWrite via port i sub len v fresh = t.answer via 0 0 0 := by
  simp [State.rowWrite, State.request, State.perform, Config.transferLimit, hserved, hearly, h, wrote]

theorem State.rowWrite_early_refused {a : Nat} (ha : a ≠ 0)
    (h : s.accepted.writeObj via port i sub len v fresh = (a, t)) :
    s.rowWrite via port i sub len v fresh = t.countAbort.answer via a 0 0 := by
  simp [State.rowWrite, State.request, State.perform, Config.transferLimit, hserved, hearly, h, wrote, ha]

end

section
variable {s : State} {via : Via} {key : BitVec 776} (hserved : s.served = true)
include hserved

theorem ownerKeyWrite_answers (hup : s.up = true) (hlife : s.sec.otp.life = .blank) (hnone : s.mySession via = none) :
    (keyOk key = true → Answers (.ownerKeyWrite via key) s fun t => tget 0 t.sec.keys 0 = key ∧
      tget {} t.sec.otp.slots 0 = ⟨digestVal (leBytes 97 key.toNat), .active⟩ ∧ t.sec.otp.life = .provisioned ∧
      (∀ k, k ≠ 0 → tget 0 t.sec.keys k = tget 0 s.sec.keys k ∧ tget {} t.sec.otp.slots k = tget {} s.sec.otp.slots k) ∧
      t.out = s.out ++ [.reply via 0 0 0] ∧ t.obj = s.obj ∧ t.mem = s.mem ∧ t.frame = s.frame) ∧
    (keyOk key = false → exec (.ownerKeyWrite via key) s = .next (s.accepted.countAbort.answer via abRange 0 0)) := by
  have hexec : exec (.ownerKeyWrite via key) s =
      .next (s.request via 0 false fun u => wrote (u.writeObj via 0 0x2210 1 97 key.toNat 0)) :=
    congrArg Host.Outcome.next (State.rowWrite_admitted hup _ _ _ _ _ _)
  have hwrite : s.accepted.writeObj via 0 0x2210 1 97 key.toNat 0 = s.accepted.blankKey key.toNat :=
    (State.writeObj_outsideKey (s := s.accepted) (State.keyOutside_blank (s := s.accepted) hlife hnone)).trans
      (State.keyWrite_blank (s := s.accepted) _ _ hlife)
  refine ⟨fun hkey => ?_, fun hkey => ?_⟩
  · obtain ⟨x, hwritten, hfirst, hslot, hblank, hother⟩ := State.blankKey_good (s := s.accepted) hkey
    exact ⟨_, exec_wrote hserved hup hexec (hwrite.trans hwritten), hfirst, hslot, hblank, hother, rfl, rfl, rfl, rfl⟩
  · exact exec_aborted hserved hup hexec (by decide) (hwrite.trans (State.blankKey_bad hkey))

theorem recoveryKeyWrite_answers {slot : Nat} (hslot : slot < 3) (hdev : s.boot.dev = .recovery)
    (hlost : s.boot.storeLost = true) (hlife : s.sec.otp.life ≠ .blank) (hnone : s.mySession via = none) :
    (s.KeyFits slot key → Answers (.recoveryKeyWrite via slot key) s fun t => tget 0 t.sec.keys slot = key ∧
      t.boot.recoveryKey = some (s.boot.recoveryKey.getD slot) ∧ t.sec.otp = s.sec.otp ∧
      t.out = s.out ++ [.reply via 0 0 0] ∧ t.obj = s.obj) ∧
    (¬ s.KeyFits slot key →
      exec (.recoveryKeyWrite via slot key) s = .next (s.accepted.countAbort.answer via abState 0 0)) := by
  have houtside : s.keyOutside via 0x2210 (slot + 1) = true := State.keyOutside_lost hslot hdev hlost hnone
  have hearly : s.earlyWrite via 0x2210 (slot + 1) = true := by simp [State.earlyWrite, hdev, hlost, houtside]
  have hwrite : s.accepted.writeObj via 0 0x2210 (slot + 1) 97 key.toNat 0 = s.accepted.recoveryKey slot key.toNat :=
    (State.writeObj_outsideKey (s := s.accepted) houtside).trans (State.keyWrite_lost (s := s.accepted) _ _ hlife)
  refine ⟨fun hfits => ?_, fun hother => ?_⟩
  · obtain ⟨x, hfound, hkey, hotp⟩ := State.recoveryKey_fits (s := s.accepted) hfits
    exact ⟨_, congrArg Host.Outcome.next (State.rowWrite_early_wrote hserved hearly (hwrite.trans hfound)), hkey, rfl, hotp,
      rfl, rfl⟩
  · exact congrArg Host.Outcome.next (State.rowWrite_early_refused hserved hearly (by decide)
      (hwrite.trans (State.recoveryKey_other (s := s.accepted) hother)))

end

/-! ### The end of an erasure (R364, Table 15-3) -/

/-- What the erasure for a target leaves: the identity and the state of the start, and by target what Table 15-3 says. -/
structure Erased (target : Life) (s t : State) : Prop where
  uid : t.sec.otp.uid = s.sec.otp.uid
  started : t.boot.started = s.boot.started
  fielded : target = .fielded → t.mem = s.mem ∧ t.sec.keys = s.sec.keys ∧ t.sec.waiverBoots = [] ∧
    ∀ e ∈ t.obj, e ∈ s.obj ∧ e.1 / 2 ^ 8 % 2 ^ 16 ≠ 0x2103
  recalled : target = .recalled → t.mem = [] ∧ t.bundles = [] ∧ t.sec.keys = s.sec.keys
  scrapped : target = .scrapped → t.mem = [] ∧ t.bundles = [] ∧ t.obj = [] ∧ t.sec.keys = [] ∧
    ∀ k : Nat, k < 3 → (tget {} t.sec.otp.slots k).state = .revoked

theorem Otp.revokeAll_revoked (o : Otp) {k : Nat} (hk : k < 3) : (tget {} o.revokeAll k).state = .revoked := by
  obtain rfl | rfl | rfl : k = 0 ∨ k = 1 ∨ k = 2 := by omega
  all_goals simp [Otp.revokeAll, tget_tmod_ne]

theorem State.eraseRecalled_erased (s : State) : Erased .recalled s s.eraseRecalled :=
  ⟨rfl, rfl, nofun, fun _ => ⟨rfl, rfl, rfl⟩, nofun⟩

/-- The OTP and the keys of a SCRAPPED device. -/
def Sec.scrapped (x : Sec) : Sec :=
  { x with keys := [], otp := { x.otp with epoch := epochBits, slots := x.otp.revokeAll } }

theorem Sec.scrapped_spec (x : Sec) : x.scrapped.otp.uid = x.otp.uid ∧ x.scrapped.keys = [] ∧
    ∀ k : Nat, k < 3 → (tget {} x.scrapped.otp.slots k).state = .revoked := by
  have hslots : x.scrapped.otp.slots = x.otp.revokeAll := by rw [Sec.scrapped]
  rw [hslots]
  exact ⟨rfl, rfl, fun k hk => x.otp.revokeAll_revoked hk⟩

/-- SCRAPPED loses what RECALLED does, and every sealed store and key as well. -/
theorem State.eraseScrapped_erased (s : State) : Erased .scrapped s s.eraseScrapped := by
  obtain ⟨huid, hstarted, -, hrecalled, -⟩ := s.eraseRecalled_erased
  obtain ⟨hmem, hbundles, -⟩ := hrecalled rfl
  have hform : s.eraseScrapped = { s.eraseRecalled with obj := [], sec := s.eraseRecalled.sec.scrapped } := rfl
  obtain ⟨hid, hkeys, hrevoked⟩ := s.eraseRecalled.sec.scrapped_spec
  rw [hform]
  generalize s.eraseRecalled.sec.scrapped = x at hid hkeys hrevoked ⊢
  exact ⟨hid.trans huid, hstarted, nofun, nofun, fun _ => ⟨hmem, hbundles, rfl, hkeys, hrevoked⟩⟩

theorem State.erase_erased (s : State) (target : Life) : Erased target s (s.erase target) := by
  cases target with
  | blank => exact ⟨rfl, rfl, nofun, nofun, nofun⟩
  | provisioned => exact ⟨rfl, rfl, nofun, nofun, nofun⟩
  | fielded =>
    refine ⟨rfl, rfl, fun _ => ⟨rfl, rfl, rfl, fun e he => ?_⟩, nofun, nofun⟩
    obtain ⟨hmem, hkey⟩ := List.mem_filter.1 he
    exact ⟨hmem, of_decide_eq_true hkey⟩
  | recalled => exact s.eraseRecalled_erased
  | scrapped => exact s.eraseScrapped_erased

/-- The target is fused: what the erasure left, written to the store. -/
def State.fuseTarget (s : State) (target : Life) : State :=
  s.writeStore.modSec fun x => { x with erasing := false, otp := { x.otp with life := target, target := none } }

/-- The target fused: the erasure's marks stay, the target is the lifecycle state and no erasure is pending. -/
structure Fused (target : Life) (s t : State) : Prop extends Erased target s t where
  life : t.sec.otp.life = target
  pending : t.sec.otp.target = none
  erasing : t.sec.erasing = false
  stored : t.stored = t.provisioned

theorem Erased.fused {target : Life} {s t : State} (h : Erased target s t) : Fused target s (t.fuseTarget target) where
  uid := h.uid
  started := h.started
  fielded := h.fielded
  recalled := h.recalled
  scrapped := h.scrapped
  life := rfl
  pending := rfl
  erasing := rfl
  stored := Store.current_write _ _

section
variable {s : State} (target : Life)

theorem State.erase_fused : Fused target s ((s.erase target).fuseTarget target) := (s.erase_erased target).fused

theorem erasureComplete_started (h : s.boot.started = true) : erasureComplete s target =
    { (s.erase target).fuseTarget target with
      eff := ((s.erase target).fuseTarget target).stored, effT := ((s.erase target).fuseTarget target).stored } :=
  if_pos ((State.erase_fused target).started.trans h)

theorem erasureComplete_running (h : s.boot.started = false) : erasureComplete s target =
    ((s.erase target).fuseTarget target).modBoot fun b => { b with warmDue := true, warmReq := some 10 } :=
  if_neg (ne_true_of_eq_false ((State.erase_fused target).started.trans h))

end

/-- Settles O54: the two keys that are written outside a session, and the erasure by its target. -/
theorem keysAndLifecycle : Obligations.KeysAndLifecycle := by
  intro s
  refine ⟨fun via key hserved hup hlife hnone => ownerKeyWrite_answers hserved hup hlife hnone,
    fun via slot key hslot hserved hdev hlost hlife hnone => recoveryKeyWrite_answers hserved hslot hdev hlost hlife hnone,
    fun target herasing htarget => ?_⟩
  refine answers_due rfl (by simp [herasing, htarget]) ?_
  have heffect : erasureEffect s = erasureComplete s target := by rw [erasureEffect, htarget]
  have h : Fused target s ((s.erase target).fuseTarget target) := State.erase_fused target
  rw [heffect]
  cases hstarted : s.boot.started with
  | true =>
    rw [erasureComplete_started target hstarted]
    generalize (s.erase target).fuseTarget target = t at h
    exact ⟨h.life, h.pending, h.erasing, h.uid, h.stored, h.fielded, h.recalled, h.scrapped, nofun, fun _ => rfl⟩
  | false =>
    rw [erasureComplete_running target hstarted]
    generalize (s.erase target).fuseTarget target = t at h
    exact ⟨h.life, h.pending, h.erasing, h.uid, h.stored, h.fielded, h.recalled, h.scrapped, fun _ => ⟨rfl, rfl⟩, nofun⟩

end Sys2Proof.Machine

end
